-- ==== Sys2Proof/Word.lean ====
section
/-! DEFINITION. The word types of the drive: bytes, byte strings and the names built from them (R7, R14). -/

namespace Sys2Proof

/-- A byte (R7). -/
abbrev Byte := BitVec 8

/-- A byte string, byte 0 first (R7). -/
abbrev Bytes := List Byte

/-- A key: a byte string of 1 to 240 bytes, compared by length and bytes (R14). -/
abbrev Key := Bytes

/-- An NVMe qualified name, as its UTF-8 bytes (R49, R51). -/
abbrev Nqn := Bytes

/-- A CAM action word (R249). -/
abbrev ActWord := BitVec 64

end Sys2Proof
end

