-- ==== Sys2Proof/Syntax.lean ====
section
/-! DEFINITION. The commands of the drive: one constructor of `Instr` for each row of the table of operations and
events, with the operands the owning rule gives it (spec/opcode_table.json). -/

namespace Sys2Proof

/-- The completion statuses the manual names (R47 to R67, R78, R92 to R111, R436); those of the vendor table carry
the codes C0h to C7h (R78). -/
inductive Status where
  | success | invalidOpcode | invalidField | cidConflict | internalError | abortRequested
  | invalidNamespace | commandSequenceError | sglDescriptorTypeInvalid | invalidNumberOfSgl
  | sanitizeInProgress | nsWriteProtected | commandInterrupted | capacityExceeded
  | invalidKeySize | invalidValueSize | keyDoesNotExist | keyExists | unrecoveredReadError
  | deferredErrorReported | retentionActive | timeNotTraceable | policyDenied
  | policyUnavailable | twinUnavailable | originUnreachable | receiptNotYetSealed
  | aerLimitExceeded | abortLimitExceeded | invalidFirmwareSlot | invalidFirmwareImage
  | fwNeedsConventionalReset | fwActivationProhibited | nsIdentifierUnavailable
  | selfTestInProgress | connectInvalidParameters | connectControllerBusy | connectInvalidHost
  | anaInaccessible | anaTransition | nsAlreadyAttached | nsNotAttached | controllerListInvalid
  deriving DecidableEq, Repr

/-- The asynchronous events the drive raises (R66). -/
inductive EventKind where
  | smartHealth | nsAttribute | fwActivation | anaChange | logC1 | logC3 | logC4
  deriving DecidableEq, Repr

/-- The descriptor a command's data pointer holds (R61, R63). Of keyed ones: how many, and the remote key that the host asks to be
invalidated with the completion, if it does (Send with Invalidate). -/
inductive Sgl where
  | none | offset (at_ : Nat) | transport | keyed (count : Nat) (inv : Option (BitVec 32)) | other
  deriving DecidableEq, Repr

/-- A submission entry of a command with its in-capsule data, and the data that lies in the host's buffer for an admin command that has
some; `reservedSet` says that a reserved field which no dword below carries is non-zero (R9, R61, R64, R68 to R72). -/
structure Sqe where
  cid : Nat
  nsid : Nat
  cdw2 : BitVec 32 := 0
  cdw3 : BitVec 32 := 0
  cdw4 : BitVec 32 := 0
  cdw5 : BitVec 32 := 0
  cdw10 : BitVec 32 := 0
  cdw11 : BitVec 32 := 0
  cdw12 : BitVec 32 := 0
  cdw13 : BitVec 32 := 0
  cdw14 : BitVec 32 := 0
  cdw15 : BitVec 32 := 0
  sgl : Sgl := .none
  icd : Bytes := []
  bufLen : Nat := 0
  reservedSet : Bool := false
  buf : Bytes := []
  deriving DecidableEq, Repr

/-- An I/O command as it reaches queue `sq` of controller `ctrl`. -/
structure HostCmd where
  ctrl : Nat
  sq : Nat
  e : Sqe
  deriving DecidableEq, Repr

/-- What every admin command carries: its controller, identifier, namespace identifier, whether a reserved field of it is non-zero
(R9), its data pointer and how many bytes of in-capsule data stand behind it (R61, R63). -/
structure Adm where
  ctrl : Nat
  cid : Nat
  nsid : Nat := 0
  reservedSet : Bool := false
  sgl : Sgl := .none
  icdLen : Nat := 0
  deriving DecidableEq, Repr

/-- A Fabrics Connect arriving on connection `conn` (R50 to R55). -/
structure ConnectReq where
  conn : Nat
  cid : Nat
  host : Nqn
  subsys : Nqn
  cntlid : Nat
  qid : Nat
  size : Nat
  kato : Nat
  unimplemented : Bool := false
  reservedSet : Bool := false
  deriving DecidableEq, Repr

/-- An ICReq PDU, and of its connection the address and port it reached, those it comes from, and what TCP has agreed (R59, R343). -/
structure IcReq where
  pfv : Nat
  hpda : Nat
  maxr2t : Nat
  hdgst : Bool
  ddgst : Bool
  addr : Bytes := []
  tcpPort : Nat := 4420
  mss : Nat := 8960
  v6 : Bool := false
  options : Nat := 12
  peer : Bytes := []
  peerPort : Nat := 0
  wscale : Option Nat := none
  sack : Bool := false
  deriving DecidableEq, Repr

/-- A connection manager request: the port it names, the address it reaches and the one it comes from (R63). -/
structure CmRequest where
  port : Nat := 4420
  addr : Bytes := []
  peer : Bytes := []
  deriving DecidableEq, Repr

/-- The end of a band's read-back: the band and its pages that failed (R186). -/
structure BandCheck where
  band : Nat
  failed : List Nat := []
  deriving DecidableEq, Repr

/-- What a patrol read found (R188, R199): the stage, 1 to 5, of each codeword that was not decoded at hard decision, by page and by
codeword 0 to 3 of the page; 5 is one that no stage corrects. -/
structure PatrolFound where
  codewords : List ((Nat × Nat) × Nat) := []
  deriving DecidableEq, Repr

/-- What the Primary's completion of a forwarded command carries beside its status: Dwords 0 and 1, and the data of a read (R73, R267). -/
structure FwdData where
  dw0 : Nat := 0
  dw1 : Nat := 0
  data : Bytes := []
  deriving DecidableEq, Repr

/-- What a ClientHello offers, against the limits of R62, and the address of the drive it reached: its secp384r1 share, its PSK binder and
the SHA-384 hash of the message as far as the binders (RFC 8446, section 4.2.11). -/
structure ClientHello where
  tls13 : Bool
  aes256Sha384 : Bool
  pskDheSecp384 : Bool
  earlyData : Bool
  host : Nqn
  identity : Bytes
  addr : Bytes := []
  share : Bytes := []
  truncated : Bytes := []
  binder : Bytes := []
  deriving DecidableEq, Repr

/-- A mailbox message as its bytes spell it: the header of R403 and the payload. -/
structure RawMsg where
  cls : Nat
  op : Nat
  tag : Nat := 0
  len : Nat
  status : Nat := 0
  flags : Nat := 0
  seq : Nat := 0
  reservedSet : Bool := false
  detail : Nat := 0
  time : Nat := 0
  tq : BitVec 8 := 0
  payload : Bytes := []
  deriving DecidableEq, Repr

/-- A message of one class and operation at its start: the mailbox, its source (CNTLID, EID or chain position, R404),
whether the path that brought it is protected by TLS (R412), the message tag that MCTP gave it (R409), and the header fields and payload
(R403). The drive itself sets `who`, the name of its source, and `epoch`, the count of releases of its mailbox, as it accepts the message
(R404, R413). -/
structure MsgReq where
  mbox : Nat
  src : Nat
  tls : Bool := false
  tag : Nat := 0
  seq : Nat := 0
  len : Nat
  reservedSet : Bool := false
  payload : Bytes := []
  mctpTag : Nat := 0
  who : Bytes := []
  epoch : Nat := 0
  deriving DecidableEq, Repr

/-- The path by which a register is reached (R150, R402). -/
inductive RegPath where
  | lamplighter | debugTap
  deriving DecidableEq, Repr

/-- The registers that have no row of their own (R138, R150, R385, R402). -/
inductive Reg where
  | mchStatus | mchInvBase | mchInvLimit | mchInvCmd | mchRgn (n : Nat) | mchHitCnt | mchMissCnt
  | mbxStatus (n : Nat) | mbxOwner (n : Nat) | mbxReplyLen (n : Nat) | mbxMsgs (n : Nat)
  | mbxRejects (n : Nat) | mbxHdr (n : Nat) | mcvWick | mcvTaper
  deriving DecidableEq, Repr

/-- The write of a cache access: bytes at an offset within the line (R139). -/
structure CacheWrite where
  offset : Nat
  data : Bytes
  deriving DecidableEq, Repr

/-- The five streams (R180). -/
inductive StreamKind where
  | hostHot | hostCold | fineInternal | gcHot | gcCold
  deriving DecidableEq, Repr

/-- An admin command tunnelled through NVMe-MI; `other` is one R410 does not list. -/
inductive MiAdmin where
  | identify (cns csi cntid : Nat) | getLogPage (page offset len : Nat)
  | getFeatures (fid sensor : Nat) (under : Bool) | selfTest (stc : Nat)
  | fwDownload (offset : Nat) (data : Bytes) | fwCommit (action slot : Nat) | other
  deriving DecidableEq, Repr

/-- An NVMe-MI request (R410). -/
inductive MiReq where
  | readDataStructure (dtype : Nat) | subsystemPoll | controllerPoll
  | configGet (item : Nat) | configSet (item value : Nat) | vpdRead (offset len : Nat)
  | reset | tunnelled (c : MiAdmin) | other
  deriving DecidableEq, Repr

/-- The twin's view a drive learns when the link forms (R264, R278, R280). Namespaces are given as (identifier, type,
mode, fixed level or 3), `nqn` is the subsystem NQN it presents and `twinNqn` its twin service NQN, `ledgerHeld` says that one of its
twin-level Ledger namespaces holds a record, `resyncKeys` how many keys the resynchronisation it begins will send, `request` the attach request it has recorded, as pair identifier and role; `acked` is the highest sequence the twin has acknowledged, `records` the live records of the
twin-level namespaces it sends in a resynchronisation. -/
structure PeerView where
  term : Nat
  role : Nat
  wasPrimary : Bool
  fullResync : Bool
  pairId : Bytes
  driveId : Bytes
  protoVer : Nat
  lifecycleSealed : Bool
  nonOperational : Bool := false
  lastTerm : Nat := 0
  lagOverflow : Bool := false
  namespaces : List (Nat × Nat × Nat × Nat) := []
  acked : Nat := 0
  lostKeys : List (Nat × Key) := []
  nqn : Nqn := []
  ledgerHeld : Bool := false
  twinNqn : Nqn := []
  resyncKeys : Nat := 0
  request : Option (Bytes × Nat) := none
  deriving DecidableEq, Repr

/-- What the world and the units give a start: straps, trainings, losses, and the step at which it hangs or fails, if
any (R422 to R428, R530). `journalBad` names journal blocks with a Wax uncorrectable error, as (stripe, package), `ctlBad` the
control-block copies that do not check, and `torn` the block sets with a torn header or an erase cut short (R170, R173, R178). -/
structure BootEnv where
  pos : Nat := 0
  ledgerWritable : Bool := true
  waxFailed : Option Nat := none
  stack0 : Bool := true
  stack1 : Bool := true
  diesLost : List (Nat × Nat) := []
  hangAt : Option Nat := none
  failAt : Option Nat := none
  portsLate : List Nat := []
  twin : Option PeerView := none
  stackJoined : Bool := false
  waxTime : Nat := 0
  journalBad : List (Nat × Nat) := []
  ctlBad : List Nat := []
  torn : List (Nat × Nat × Nat) := []
  recordBad : List Nat := []
  factoryBad : List Nat := []
  userBad : List Nat := []
  flashTorn : Bool := false
  pagesBad : List Nat := []
  deriving DecidableEq, Repr

/-- What a drive tells its twin of its namespaces: one created with its type and mode, or deleted, because the hearer asked for it or
not, one that it asks the Primary to create or to delete, one that it has created or deleted as it was told, a request it refuses, a level
fixed (R263); and what it tells of resynchronisation, with the keys that it will send, and of a departure (R278, R285). -/
inductive TwinNews where
  | created (nsid nsType mode : Nat) (asked : Bool := false) | deleted (nsid : Nat) (asked : Bool := false)
  | createAsked (nsType mode : Nat) | deleteAsked (nsid : Nat) | nsDone (nsid : Nat) | nsRefused (status : Status)
  | levelFixed (nsid level : Nat)
  | resyncAsked | resyncBegins (full : Bool) (keys : Nat := 0) | detachAsked (receiverLeaves : Bool) | detached (receiverLeaves : Bool)
  deriving DecidableEq, Repr

/-- An endpoint identifier that a bus owner assigns, over SMBus or I2C or over I3C (R409). -/
structure NewEid where
  eid : Nat
  smbus : Bool := false
  deriving DecidableEq, Repr

/-- A heartbeat capsule (R271, R282), with what the twin tells of its namespaces, of resynchronisation and of a departure since
the last one (R263, R278, R285, log 24). -/
structure Heartbeat where
  path : Nat
  term : Nat
  staleNotice : Bool := false
  confirm : Bool := false
  news : List TwinNews := []
  deriving DecidableEq, Repr

/-- The kinds of twin-level write (R277). -/
inductive WriteKind where
  | store | delete | secdel | holdKeyPlace | holdKeyRelease | holdNsPlace | holdNsRelease
  deriving DecidableEq, Repr

/-- A replicated write from the twin (R262). -/
structure ReplWrite where
  seq : Nat
  kind : WriteKind
  nsid : Nat
  key : Key
  value : Bytes := []
  action : BitVec 16
  ledger : Bool
  leaf : Bool
  tag : Nat := 0
  host : Nqn
  forwarded : Option (Nat × Nat × Nat) := none
  deriving DecidableEq, Repr

/-- A command that the Secondary forwards (R267). -/
structure FwdCmd where
  ctrl : Nat
  sq : Nat
  cid : Nat
  kind : Nat
  nsid : Nat
  key : Key
  value : Bytes := []
  ifExists : Bool := false
  ifAbsent : Bool := false
  tag : Nat := 0
  bufLen : Nat := 0
  progId : Nat := 0
  arg0 : BitVec 32 := 0
  arg1 : BitVec 32 := 0
  action : ActWord
  host : Nqn
  deriving DecidableEq, Repr

/-- An origin's answer to a fetch (R296). -/
inductive FillReply where
  | value (len : Nat) (data : Bytes) | absent | error
  deriving DecidableEq, Repr

/-- The header of a received chain message (R313), with whether its SC_CRC is good. -/
structure ChainHdr where
  src : Nat
  dst : Nat
  broadcast : Bool := true
  gen : Nat
  seq : Nat := 0
  crcOk : Bool := true
  deriving DecidableEq, Repr

/-- What a token block carries besides its generation: the rotation counter and the Beacon's position (R313). -/
structure Token where
  rot : Nat
  beacon : Nat := 255
  deriving DecidableEq, Repr

/-- The PHY types (R327). -/
inductive PhyType where
  | kr4 | kr2 | kr
  deriving DecidableEq, Repr

/-- How a negotiation ends (R328, R344). -/
inductive NegResult where
  | up (partnerTypes : BitVec 8) (eee : Bool) (wakeUs : Nat) | noCommonType
  deriving DecidableEq, Repr

/-- A received frame (R332 to R337, R339, R344, R346): VLAN none is untagged, 0 is priority-tagged; `full` says that the buffer space which
frames without flow control share is full when it arrives, `eeeTlv` is the wake time that an LLDP frame's EEE TLV resolves to, and
`ptpEvent` says that it is a PTP event message. -/
structure Frame where
  len : Nat
  fcsOk : Bool
  dest : BitVec 48
  vlan : Option Nat
  sTag : Bool := false
  pcp : Nat := 0
  full : Bool := false
  eeeTlv : Option Nat := none
  ptpEvent : Bool := false
  deriving DecidableEq, Repr

/-- A PTP Announce, with its currentUtcOffset in seconds and the interface it arrived on (R353, R358 to R360). -/
structure Announce where
  master : Nat
  domain : Nat
  priority1 : Nat
  clockClass : Nat
  accuracy : Nat := 0
  variance : Nat := 0
  priority2 : Nat := 0
  gm : BitVec 64
  timeTraceable : Bool
  utcOffsetValid : Bool
  leap61 : Bool := false
  leap59 : Bool := false
  transport : Nat := 0
  stepsRemoved : Nat := 0
  logInterval : Int := 0
  utcOffset : Int := 0
  iface : Nat := 0
  deriving DecidableEq, Repr

/-- The faults the clock monitor finds (R469). -/
inductive ClockFault where
  | rootLock | tcxo | phyPll (port : Nat)
  deriving DecidableEq, Repr

/-- An MCTP message body on the sideband (R409). -/
inductive MctpBody where
  | mailbox (iana mbox tag : Nat) (reservedSet : Bool) (m : RawMsg) | nvmeMi (r : MiReq) | tooLong
  | otherType
  deriving DecidableEq, Repr

/-- A micro-engine: Wick engine 0 to 63 or Taper sequencer 0 to 31 (R370). -/
inductive EngineId where
  | wick (n : Nat) | taper (n : Nat)
  deriving DecidableEq, Repr

/-- The commands of the drive, in the order of the table of operations and events. -/
inductive Instr where
  /-- CONNECT (R50): A Fabrics Connect creates an admin or I/O queue, or is refused with a Connect status. -/
  | connect (c : ConnectReq)
  /-- PROPERTY_GET (R64): A Fabrics Property Get returns the value of a controller property. -/
  | propertyGet (a : Adm) (offset : Nat)
  /-- CC_EN_CLEAR (R107): A Property Set that clears CC.EN resets the controller, deletes its queues and abandons its uncommitted I/O. -/
  | ccEnClear (a : Adm)
  /-- CC_EN_SET (R111): A Property Set that sets CC.EN brings the controller to CSTS.RDY = 1 within 1 s. -/
  | ccEnSet (a : Adm)
  /-- NSSR_WRITE (R108): A write to the NSSR property resets every controller on both ports and closes every host connection. -/
  | nssrWrite (a : Adm)
  /-- REGISTER_WRITE (R8): A write to a register that has no row of its own updates its writable fields, clears W1C bits and ignores reserved bits. -/
  | registerWrite (path : RegPath) (reg : Reg) (value : BitVec 256)
  /-- DISCONNECT (R107): A Disconnect of the admin queue acts as a controller reset. -/
  | disconnect (a : Adm)
  /-- TRANSPORT_CONNECTION_LOSS (R107): Loss of the transport connection of any queue resets the controller. -/
  | transportConnectionLoss (conn : Nat)
  /-- KEEP_ALIVE (R53): A Keep Alive command restarts the controller's keep alive timer. -/
  | keepAlive (a : Adm)
  /-- KEEP_ALIVE_EXPIRY (R53): Expiry of the keep alive timeout tears down the controller as a controller reset. -/
  | keepAliveExpiry (ctrl : Nat)
  /-- ICREQ (R59): An ICReq PDU opens an NVMe/TCP queue connection and is answered with an ICResp, or closes the connection on a TLS-required port. -/
  | icReq (conn port : Nat) (r : IcReq)
  /-- H2CDATA (R59): An H2CData PDU delivers host data for a command; an oversized or misdirected PDU is a fatal transport error that closes the connection. -/
  | h2cData (conn cid : Nat) (defined : Bool) (offset : Nat) (data : Bytes)
  /-- CLIENT_HELLO (R223): A TLS ClientHello starts a TLS 1.3 PSK handshake, waiting in order when the handshake rate is exceeded. -/
  | clientHello (conn port : Nat) (h : ClientHello)
  /-- TLS_RECORD_RECEIVED (R223): A received TLS record is opened on a cipher lane; a tag failure sends bad_record_mac and closes the connection. -/
  | tlsRecordReceived (conn len : Nat) (tagOk : Bool)
  /-- KEY_UPDATE_RECEIVED (R62): A received TLS KeyUpdate is honoured. -/
  | keyUpdateReceived (conn : Nat) (requested : Bool)
  /-- KEY_UPDATE_SEND (R224): After 2^24 records sent under one traffic key the drive sends KeyUpdate with update_requested. -/
  | keyUpdateSend (conn : Nat)
  /-- RDMA_CONNECT (R63): An RDMA connection manager request establishes a reliable connected queue pair for an NVMe queue. -/
  | rdmaConnect (conn port : Nat) (r : CmRequest)
  /-- TCP_RETRANSMIT_TIMEOUT (R330): A retransmitted TCP segment unacknowledged for 8 s closes the connection. -/
  | tcpRetransmitTimeout (conn : Nat)
  /-- ROCE_QP_FAILURE (R330): A RoCEv2 queue pair fails after 7 retries with a 16.8 ms acknowledgement timeout. -/
  | roceQpFailure (conn : Nat)
  /-- CONTEXT_FREED (R57): A freed shared command context goes to the next waiting queue in round-robin order, whose oldest waiting command starts. -/
  | contextFreed
  /-- ORD_RELEASE (R88): Completion or abort of an ORD command lets the commands held behind it start. -/
  | ordRelease (ctrl sq : Nat)
  /-- RATE_CLASS_ROOM (R45): When a rate class has room again, its waiting commands start in fetch order and are charged. -/
  | rateClassRoom (cls : Nat)
  /-- STAGING_RESERVATION_GRANT (R163): When staging space frees, the oldest waiting reservation is granted and its store begins moving data. -/
  | stagingReservationGrant
  /-- GET_LOG_PAGE (R79): Get Log Page returns a standard or vendor log page, releasing masked vendor events when RAE is clear. -/
  | getLogPage (a : Adm) (page : Nat) (rae : Bool) (offset len : Nat)
  /-- IDENTIFY (R82): Identify returns the controller, namespace or list data structure named by CNS. -/
  | identify (a : Adm) (cns csi cntid : Nat)
  /-- ABORT (R92): Abort catches the named command if it has not passed its catch point and completes with bit 0 set accordingly. -/
  | abort (a : Adm) (sq cid : Nat)
  /-- GET_FEATURES (R65): Get Features returns the value in force of a supported feature. -/
  | getFeatures (a : Adm) (fid sensor : Nat) (under : Bool)
  /-- SET_ARBITRATION (R55): Set Features Arbitration sets the Arbitration Burst. -/
  | setArbitration (a : Adm) (burst : Nat)
  /-- SET_POWER_MANAGEMENT (R460): Set Features Power Management sets the host power state, entering a non-operational state by closing the epoch and gating units, or is refused. -/
  | setPowerManagement (a : Adm) (ps : Nat)
  /-- SET_TEMPERATURE_THRESHOLD (R65): Set Features Temperature Threshold sets a sensor's over or under threshold. -/
  | setTemperatureThreshold (a : Adm) (sensor : Nat) (under : Bool) (value : Int)
  /-- SET_NUMBER_OF_QUEUES (R54): Set Features Number of Queues grants the controller the smaller of its request and the unallocated pairs. -/
  | setNumberOfQueues (a : Adm) (request : Nat)
  /-- SET_ASYNC_EVENT_CONFIG (R66): Set Features Asynchronous Event Configuration enables or disables notices. -/
  | setAsyncEventConfig (a : Adm) (kinds : List EventKind)
  /-- SET_KEEP_ALIVE_TIMER (R53): Set Features Keep Alive Timer sets the keep alive timeout within its range. -/
  | setKeepAliveTimer (a : Adm) (kato : Nat)
  /-- SET_FEATURES_REFUSED (R65): Set Features of Volatile Write Cache, Autonomous Power State Transition or Timestamp completes with Invalid Field. -/
  | setFeaturesRefused (a : Adm) (fid : Nat)
  /-- ASYNCHRONOUS_EVENT_REQUEST (R64): An Asynchronous Event Request is held outstanding until an event is raised, up to 16 per controller. -/
  | asynchronousEventRequest (a : Adm)
  /-- ASYNCHRONOUS_EVENT (R66): An enabled event completes an outstanding Asynchronous Event Request and masks its vendor log until read. -/
  | asynchronousEvent (ctrl : Nat) (kind : EventKind)
  /-- NAMESPACE_CREATE (R67): Namespace Management create makes a namespace of the given type and sealing mode with a fresh key and no CAM entries. -/
  | namespaceCreate (a : Adm) (nsType mode nsze ncap : Nat)
  /-- NAMESPACE_DELETE (R543): Namespace Management delete erases the namespace's keys, invalidates its exact CAM entries and fails uncommitted commands naming it. -/
  | namespaceDelete (a : Adm)
  /-- NAMESPACE_ATTACH (R64): Namespace Attachment attaches a namespace to controllers. -/
  | namespaceAttach (a : Adm) (ctrls : List Nat)
  /-- NAMESPACE_DETACH (R64): Namespace Attachment detaches a namespace from controllers. -/
  | namespaceDetach (a : Adm) (ctrls : List Nat)
  /-- FIRMWARE_IMAGE_DOWNLOAD (R436): Firmware Image Download writes a piece of an image into the download buffer owned by one controller. -/
  | firmwareImageDownload (a : Adm) (offset : Nat) (data : Bytes)
  /-- FIRMWARE_COMMIT_REPLACE (R436): Firmware Commit action 000b checks the buffer and writes it to the slot. -/
  | firmwareCommitReplace (a : Adm) (slot : Nat)
  /-- FIRMWARE_COMMIT_REPLACE_TRIAL (R436): Firmware Commit action 001b writes the slot and sets BR_TRIAL to it. -/
  | firmwareCommitReplaceTrial (a : Adm) (slot : Nat)
  /-- FIRMWARE_COMMIT_SET_TRIAL (R436): Firmware Commit action 010b sets or clears BR_TRIAL at once. -/
  | firmwareCommitSetTrial (a : Adm) (slot : Nat)
  /-- FIRMWARE_COMMIT_ACTIVATE (R439): Firmware Commit action 011b writes the slot and activates the image without reset. -/
  | firmwareCommitActivate (a : Adm) (slot : Nat)
  /-- ACTIVATION_PAUSE (R439): At P, 100 ms after Firmware Activation Starting, no command starts, engines suspend and state is handed to the new image. -/
  | activationPause
  /-- ACTIVATION_READY (R439): The new image declares itself ready and service resumes, completing the Firmware Commit. -/
  | activationReady
  /-- ACTIVATION_FALLBACK (R440): If the new image is not ready by P + 25 ms, the ROM restarts the old image and the commit completes with Invalid Firmware Image. -/
  | activationFallback
  /-- ACTIVATION_CONFIRM (R441): After 10 min of service without a fatal fault an activated image becomes BR_ACTIVE. -/
  | activationConfirm
  /-- DEVICE_SELF_TEST_SHORT (R516): Device Self-test action 1h runs the short test segments under load. -/
  | deviceSelfTestShort (a : Adm)
  /-- DEVICE_SELF_TEST_EXTENDED (R517): Device Self-test action 2h runs all segments including every written codeword of CLOSED bands. -/
  | deviceSelfTestExtended (a : Adm)
  /-- DEVICE_SELF_TEST_ABORT (R518): Device Self-test action Fh ends the running test within 1 s with result 1h. -/
  | deviceSelfTestAbort (a : Adm)
  /-- SELF_TEST_DONE (R517): The last segment of a self-test ends and its result is entered in log 06h. -/
  | selfTestDone (failed : Option Nat)
  /-- NVME_MI_SEND (R410): NVMe-MI Send carries an NVMe-MI request in band. -/
  | nvmeMiSend (a : Adm) (request : MiReq)
  /-- NVME_MI_RECEIVE (R410): NVMe-MI Receive returns an NVMe-MI response in band. -/
  | nvmeMiReceive (a : Adm) (len : Nat)
  /-- SANITIZE_CRYPTO_ERASE (R205): Sanitize crypto erase stops I/O, closes and signs epochs, destroys every namespace key and clears the index. -/
  | sanitizeCryptoErase (a : Adm)
  /-- SANITIZE_BLOCK_ERASE (R205): Sanitize block erase destroys every key, erases every block set and zeroes the Wax data regions. -/
  | sanitizeBlockErase (a : Adm)
  /-- SANITIZE_DONE (R109): The sanitize operation ends and I/O commands are accepted again. -/
  | sanitizeDone
  /-- MAILBOX_POST (R406): Mailbox Post queues one message in mailboxes 0 to 7 or is refused. -/
  | mailboxPost (a : Adm) (mbox msgLen : Nat) (m : RawMsg)
  /-- MAILBOX_FETCH (R407): Mailbox Fetch returns the head reply of a mailbox to its owner. -/
  | mailboxFetch (a : Adm) (mbox bufSize : Nat)
  /-- INVALID_COMMAND_OPCODE (R47): A command with an unimplemented admin or I/O opcode completes with Invalid Command Opcode and is not performed. -/
  | invalidCommandOpcode (c : HostCmd) (opcode : Nat)
  /-- FLUSH (R106): Flush completes when every earlier-completed write of the named namespaces is durable at its level. -/
  | flush (c : HostCmd)
  /-- STORE (R156): Store checks, pre-checks, reserves staging and takes in a value of a key of 1 to 16 bytes. -/
  | store (c : HostCmd)
  /-- LONG_KEY_STORE (R72): Long-Key Store stores a value under a key of 1 to 240 bytes carried in a key block. -/
  | longKeyStore (c : HostCmd)
  /-- STORE_COMMIT (R156): Once all data is sealed in staging the final bucket check runs and the journal record commits the store with sequence, time and leaf. -/
  | storeCommit (ctrl sq cid : Nat)
  /-- RETRIEVE (R87): Retrieve returns the current value of a short key from staging, cache or media, or starts a Mirror fill. -/
  | retrieve (c : HostCmd)
  /-- LONG_KEY_RETRIEVE (R73): Long-Key Retrieve returns the value of a key of up to 240 bytes. -/
  | longKeyRetrieve (c : HostCmd)
  /-- LIST (R70): List returns keys of 1 to 16 bytes in listing order from a start key. -/
  | list (c : HostCmd)
  /-- DELETE (R32): Delete removes a short key after the type, policy, hold and retention checks. -/
  | delete (c : HostCmd)
  /-- LONG_KEY_DELETE (R32): Long-Key Delete removes a key of up to 240 bytes under the same checks. -/
  | longKeyDelete (c : HostCmd)
  /-- EXIST (R121): Exist reports whether a short key is present. -/
  | exist (c : HostCmd)
  /-- LONG_KEY_EXIST (R73): Long-Key Exist reports whether a long key is present. -/
  | longKeyExist (c : HostCmd)
  /-- FILTERED_LIST (R397): Filtered List walks the namespace running a customer program on each key and returns the included keys. -/
  | filteredList (c : HostCmd)
  /-- GET_RECEIPT (R76): Get Receipt returns the signed receipt for a leaf of a sealed epoch after its checks. -/
  | getReceipt (c : HostCmd)
  /-- SECURE_DELETE (R203): Secure Delete removes the key from the index, takes a tracking record and starts physical removal of every copy. -/
  | secureDelete (c : HostCmd)
  /-- RETENTION_HOLD_KEY_PLACE (R30): Retention Hold places a hold tag on one key of a Ledger namespace. -/
  | retentionHoldKeyPlace (c : HostCmd)
  /-- RETENTION_HOLD_KEY_RELEASE (R30): Retention Hold releases a hold tag from one key. -/
  | retentionHoldKeyRelease (c : HostCmd)
  /-- RETENTION_HOLD_NS_PLACE (R34): Retention Hold places a namespace-scope hold tag, completing after conflicting deletions have settled. -/
  | retentionHoldNsPlace (c : HostCmd)
  /-- RETENTION_HOLD_NS_RELEASE (R34): Retention Hold releases a namespace-scope hold tag. -/
  | retentionHoldNsRelease (c : HostCmd)
  /-- TWIN_ACK_RECEIVED (R157): The twin's acknowledgement of a replicated write updates the index of a pending synchronous write or clears SLOT_TWIN_PEND. -/
  | twinAckReceived (seq : Nat)
  /-- TWIN_ACK_RECORD (R159): A TWIN_ACK journal record is written when its value has advanced, at most once per 100 µs. -/
  | twinAckRecord
  /-- HASH_LANE_FREE (R225): A freed hash lane is taken by a waiting store with a leaf. -/
  | hashLaneFree
  /-- JOURNAL_ROOM (R161): When condensing frees ring space, waiting commits proceed. -/
  | journalRoom
  /-- JOURNAL_CONDENSE (R130): When the journal passes half full its index effects are condensed into delta segments and the replay start advances. -/
  | journalCondense
  /-- INDEX_CHECKPOINT (R129): At least every 15 minutes, or when delta entries reach 10^9, changed index pages are written to a checkpoint. -/
  | indexCheckpoint
  /-- UNIT_PAD_TIMEOUT (R165): A stream unit not full 1 s after its oldest record was staged is padded and programmed. -/
  | unitPadTimeout (kind : StreamKind)
  /-- PROGRAM_STATUS_PASSED (R165): When every page of a packed record passes program status, a PACK record is written and the slot moves to NAND. -/
  | programStatusPassed (granule naddr : Nat)
  /-- PROGRAM_FAILURE (R194): A block set that fails to program is replaced, its rows rebuilt from parity and the block set retired. -/
  | programFailure (band channel newDie newBlock : Nat)
  /-- WAX_UNCORRECTABLE (R166): A Wax uncorrectable error in a staged record is served from the HBM3 copy, repaired from the twin, or recorded as a loss with a deferred error. -/
  | waxUncorrectable (granule : Nat)
  /-- WAX_PACKAGE_FAILURE (R174): A Wax package failing while serving packs what it can, reports the rest and sets CSTS.CFS. -/
  | waxPackageFailure (package : Nat)
  /-- POWER_FAIL_TRIP (R167): 12 V falling below 10.8 V runs the power-fail sequence and write-protects Wax. -/
  | powerFailTrip
  /-- POWER_GOOD (R168): After 12 V has stayed above 11.4 V for 100 ms with auxiliary power present, a start begins at B0. -/
  | powerGood
  /-- START (R422): A start runs boot steps B0 to B14, each recorded in the boot ledger, using normal or alternative methods. -/
  | start (env : BootEnv)
  /-- BOOT_STEP_TIMEOUT (R425): A boot step running past its maximum time fails the start. -/
  | bootStepTimeout
  /-- HARDWARE_WATCHDOG (R421): The Lamplighter leaving the watchdog unserviced for 2 s causes a start with cause 05h. -/
  | hardwareWatchdog
  /-- FATAL_FAULT (R421): A fatal fault sets CSTS.CFS and restarts the drive 1 s later. -/
  | fatalFault (code : Nat)
  /-- FAILED_START_RESTART (R425): 1 s after a failed start the drive starts again with cause 03h, choosing methods and image from the ledger. -/
  | failedStartRestart (env : BootEnv)
  /-- START_GOOD (R425): 10 min of service after B14 without a fatal fault marks the start good and stores HBM3 training values. -/
  | startGood
  /-- DEFERRED_BOOT_STEP (R422): 60 s after B14 a skipped time servo, twin rejoin or stack join is started. -/
  | deferredBootStep (stepNo : Nat)
  /-- FLOOR_RAISE (R438): After 24 h of an image as BR_ACTIVE with both slots at its floor, floor fuse bits are blown. -/
  | floorRaise
  /-- DIAG_BOOT_RESTART (R433): DIAG.BOOT_RESTART clears the failure count, shuts down orderly and starts with forced alternatives and skips. -/
  | diagBootRestart (m : MsgReq)
  /-- CACHE_ACCESS (R136): An access to HBM3 through the Mantle cache hits, snoops the Chimney or misses into a miss register. -/
  | cacheAccess (line : Nat) (write : Option CacheWrite)
  /-- LINE_FILL_ARRIVAL (R140): All 64 bytes of a line fill arrive, releasing every waiter and installing the line unless marked DROP. -/
  | lineFillArrival (line : Nat)
  /-- WRITE_BACK_ACCEPTED (R141): HBM3 accepts a Chimney write-back and the entry unpins. -/
  | writeBackAccepted (line : Nat)
  /-- MCH_CTRL_WRITE (R149): A write to MCH_CTRL enables or disables the cache or its allocation. -/
  | mchCtrlWrite (path : RegPath) (value : BitVec 32)
  /-- MCH_INVALIDATE (R146): MCH_INV_CMD.OP 01b invalidates the lines of a range and discards dirty data. -/
  | mchInvalidate (path : RegPath)
  /-- MCH_WRITE_BACK_INVALIDATE (R146): MCH_INV_CMD.OP 10b writes back dirty lines of a range and invalidates them. -/
  | mchWriteBackInvalidate (path : RegPath)
  /-- MCH_WRITE_BACK (R146): MCH_INV_CMD.OP 11b writes back dirty lines of a range and leaves them valid. -/
  | mchWriteBack (path : RegPath)
  /-- MCH_INV_DONE (R146): The invalidation sweep, DROP fills and write-backs end and INV_BUSY clears. -/
  | mchInvDone
  /-- HBM3_LINE_UNCORRECTABLE (R132): An uncorrectable index line makes the drive rebuild its 4 KiB page while holding its buckets. -/
  | hbm3LineUncorrectable (line : Nat)
  /-- HBM3_STACK_LOST (R133): A stack with more than 16 uncorrectable errors in 60 s is lost and the index is rebuilt into half geometry. -/
  | hbm3StackLost (stack : Nat)
  /-- HBM3_REBUILD_DONE (R133): The half-size index rebuild ends and KV I/O resumes with reduced resident capacity. -/
  | hbm3RebuildDone
  /-- UNSPILL (R128): While resident slots are free, spilled keys are moved back as background work. -/
  | unspill
  /-- BAND_LAST_ROW_PROGRAMMED (R186): The last row of an OPEN band passes program status and the band enters VERIFY read-back. -/
  | bandLastRowProgrammed (band : Nat)
  /-- BAND_VERIFIED (R186): Every page of a VERIFY band has passed or been rewritten; the parity slot frees and the band is CLOSED. -/
  | bandVerified (v : BandCheck)
  /-- GC_VICTIM_SELECT (R191): GC chooses the CLOSED band with the lowest live fraction as victim. -/
  | gcVictimSelect
  /-- GC_COPY_VERIFIED (R193): A verified GC copy is committed with a MOVE record and a slot update. -/
  | gcCopyVerified (src dst : Nat)
  /-- BAND_ERASE_DONE (R179): Every member of an ERASING band is erased and the band is FREE, advancing secure delete progress. -/
  | bandEraseDone (band : Nat)
  /-- ERASE_FAILURE (R200): A failed erase is retried once and the block set then retired. -/
  | eraseFailure (band channel : Nat)
  /-- GC_MODE_CHANGE (R190): The free band count crossing its thresholds starts or ends background or foreground GC. -/
  | gcModeChange
  /-- WEAR_MOVE (R195): An erase-count spread above 200 on static channels starts moves of cold data until it falls to 150. -/
  | wearMove
  /-- ACCRUAL_RECOMPUTE (R196): Once a day of power-on time the wear governor recomputes the accrual A and the bank cap. -/
  | accrualRecompute
  /-- BANK_EMPTY (R197): A reservation finding the bank short empties it and limits admission to A per day. -/
  | bankEmpty (needed : Nat)
  /-- BANK_REFILLED (R197): The bank reaching 67,109,152 bytes ends the bank-empty state. -/
  | bankRefilled
  /-- PATROL_READ (R199): Patrol reads CLOSED bands once every 4 days and relocates pages that need stage 2 or higher. -/
  | patrolRead (band : Nat) (found : PatrolFound) (pageStart pageEnd : Nat)
  /-- READ_UNCORRECTABLE (R189): A codeword no read stage corrects fails the retrieval with Unrecovered Read Error and relocates the page's other records. -/
  | readUncorrectable (ctrl sq cid : Nat)
  /-- DIE_LOST (R201): A die silent after three resets is lost and its records become recoverable only from the twin. -/
  | dieLost (channel die : Nat)
  /-- SECURE_DELETE_HALF_DEADLINE (R204): At half the secure-delete deadline remaining removal work takes the foreground share. -/
  | secureDeleteHalfDeadline (slot : Nat)
  /-- SECURE_DELETE_OVERDUE (R204): Passing the secure-delete deadline records an event and sets the overdue flag. -/
  | secureDeleteOverdue (slot : Nat)
  /-- NS_ROTATE (R220): SECURITY.NS_ROTATE makes a new data key current and starts a background reseal pass. -/
  | nsRotate (m : MsgReq)
  /-- ROTATION_DONE (R220): When no record under the previous key remains, its slot is zeroed and the key evicted. -/
  | rotationDone (nsid : Nat)
  /-- NS_ERASE (R221): SECURITY.NS_ERASE zeroes every key generation of a namespace and makes a new key current. -/
  | nsErase (m : MsgReq)
  /-- ERASE_SWEEP_DONE (R221): The background sweep clears the slots of erased generations. -/
  | eraseSweepDone (nsid : Nat)
  /-- NS_KEY_STATUS (R240): SECURITY.NS_KEY_STATUS returns the key generation, mode and rotation or sweep progress. -/
  | nsKeyStatus (m : MsgReq)
  /-- KEK_ROTATE (R222): SECURITY.KEK_ROTATE derives a new KEK and rewraps every key record and PSK. -/
  | kekRotate (m : MsgReq)
  /-- PSK_ADD (R240): SECURITY.PSK_ADD enrols a TLS PSK for a host NQN. -/
  | pskAdd (m : MsgReq)
  /-- PSK_REMOVE (R240): SECURITY.PSK_REMOVE removes a PSK, leaving established connections running. -/
  | pskRemove (m : MsgReq)
  /-- EPOCH_SET (R228): SECURITY.EPOCH_SET sets the epoch length from the next opening. -/
  | epochSet (m : MsgReq)
  /-- EPOCH_CLOSE (R228): SECURITY.EPOCH_CLOSE closes the open epoch now. -/
  | epochClose (m : MsgReq)
  /-- EPOCH_LENGTH_ELAPSED (R228): An epoch whose length has elapsed on the monotonic clock closes and is queued for signing. -/
  | epochLengthElapsed
  /-- EPOCH_SIGNED (R232): Both signatures of a root record are written to Wax and receipts of the epoch become available. -/
  | epochSigned
  /-- RECEIPT_STORE_PRUNE (R234): A full receipt store prunes the oldest whole epochs and raises CM_PRUNED. -/
  | receiptStorePrune
  /-- CERT_GET (R238): SECURITY.CERT_GET returns the certificate chain area. -/
  | certGet (m : MsgReq)
  /-- CAM_WRITE (R250): CAM.WRITE checks and writes up to 63 entry records atomically per entry and programs the rule image. -/
  | camWrite (m : MsgReq)
  /-- CAM_READ (R259): CAM.READ returns entry records including the disabled flag. -/
  | camRead (m : MsgReq)
  /-- CAM_INVALIDATE (R259): CAM.INVALIDATE invalidates a range of entries and clears their counters. -/
  | camInvalidate (m : MsgReq)
  /-- CAM_COPY (R254): CAM.COPY copies entries with counters and disabled state in make-before-break order. -/
  | camCopy (m : MsgReq)
  /-- CAM_COUNTERS (R258): CAM.COUNTERS returns hit counters and optionally clears them. -/
  | camCounters (m : MsgReq)
  /-- CAM_STATUS (R259): CAM.STATUS returns entry, repair and cache statistics. -/
  | camStatus (m : MsgReq)
  /-- CAM_LOOKUP (R259): CAM.LOOKUP returns the winner for a given lookup key without counting a hit. -/
  | camLookup (m : MsgReq)
  /-- CAM_NS_INFO (R259): CAM.NS_INFO reports or sets a namespace's stack scope and reports its level. -/
  | camNsInfo (m : MsgReq)
  /-- CAM_SWEEP (R256): The 20 ms sweep compares entries with the HBM3 copy and directory, repairing or disabling them. -/
  | camSweep
  /-- CAM_SOFT_ERROR (R541): A bit flip in a CAM entry changes its matching until the sweep or a parity check reaches it. -/
  | camSoftError (addr bit : Nat) (inCopy : Bool)
  /-- TWIN_ATTACH (R283): TWIN.ATTACH records or checks a pairing request and forms the pair after resynchronisation. -/
  | twinAttach (m : MsgReq)
  /-- TWIN_DETACH (R285): TWIN.DETACH drains and makes the leaving drive Detached-stale and the other Solo. -/
  | twinDetach (m : MsgReq)
  /-- TWIN_SWITCHOVER (R284): TWIN.SWITCHOVER drains pending writes and swaps roles under a raised term. -/
  | twinSwitchover (m : MsgReq)
  /-- TWIN_CONFIG (R288): TWIN.CONFIG sets witness mode, loss policy and resync rate for the next transition. -/
  | twinConfig (m : MsgReq)
  /-- TWIN_STATUS (R288): TWIN.STATUS returns the content of log C3h. -/
  | twinStatus (m : MsgReq)
  /-- TWIN_WITNESS_POLL (R288): TWIN.WITNESS_POLL refreshes witness reachability and delivers a grant or denial verdict. -/
  | twinWitnessPoll (m : MsgReq)
  /-- TWIN_RELEASE (R285): TWIN.RELEASE turns a Detached-stale drive Solo and discards held records. -/
  | twinRelease (m : MsgReq)
  /-- TWIN_FORCE_PRIMARY (R288): TWIN.FORCE_PRIMARY raises the term, applies held records and makes the drive Primary. -/
  | twinForcePrimary (m : MsgReq)
  /-- TWIN_RESYNC (R278): TWIN.RESYNC requests a full resynchronisation in the background. -/
  | twinResync (m : MsgReq)
  /-- HEARTBEAT_SEND (R271): Every 1 ms a heartbeat capsule is sent on queue 0 of both twin paths. -/
  | heartbeatSend
  /-- HEARTBEAT_RECEIVED (R271): A received heartbeat resets the missed count and may carry a stale notice or confirmation. -/
  | heartbeatReceived (hb : Heartbeat)
  /-- TWIN_LOST (R271): 20 consecutive missed heartbeats declare the twin lost; a Secondary becomes candidate, a Primary applies its loss policy. -/
  | twinLost
  /-- PRIMARY_FENCE (R275): A Primary without heartbeat for 20 ms and witness poll for 50 ms fences itself. -/
  | primaryFence
  /-- CANDIDATE_TIMEOUT (R276): A candidate without a grant after 800 ms becomes Detached-stale. -/
  | candidateTimeout
  /-- LOCAL_COMPLETION_DELAY (R276): 30 ms after the last heartbeat a Primary may complete twin-synchronous writes at the Local level. -/
  | localCompletionDelay
  /-- TWIN_IMPAIRED (R282): A twin-level write unacknowledged for 200 ms marks the twin impaired and starts stale notices. -/
  | twinImpaired
  /-- STALE_CONFIRM_TIMEOUT (R282): No confirmation within 20 ms of the stale notice stops the Primary's heartbeats. -/
  | staleConfirmTimeout
  /-- REPLICATED_WRITE_RECEIVED (R262): A replicated write from the twin is journaled as Local with the sender's action fields. -/
  | replicatedWriteReceived (w : ReplWrite)
  /-- FORWARDED_COMMAND_RECEIVED (R267): The Primary decides a command forwarded by the Secondary at its bucket and replicates it at once. -/
  | forwardedCommandReceived (f : FwdCmd)
  /-- TWIN_LINK_FORMED (R280): When the twin link forms, the authority is chosen and divergent records and namespace sets are resolved. -/
  | twinLinkFormed (p : PeerView)
  /-- RESYNC_DONE (R279): The end of resynchronisation makes the returning drive Secondary. -/
  | resyncDone
  /-- TWIN_REPAIR_REQUEST (R287): The twin's answer to a repair request rewrites the record as a relocation. -/
  | twinRepairRequest (nsid : Nat) (key : Key) (held : Bool) (value : Bytes)
  /-- TWIN_REPAIR_TIMEOUT (R542): No twin answer within 200 ms makes a Wax-lost record a loss under R166. -/
  | twinRepairTimeout (nsid : Nat) (key : Key)
  /-- ORIGIN_SET (R291): CONFIG.ORIGIN_SET sets or removes an origin record. -/
  | originSet (m : MsgReq)
  /-- MIRROR_SET (R294): CONFIG.MIRROR_SET binds a Mirror namespace to origins and clears its negative entries. -/
  | mirrorSet (m : MsgReq)
  /-- ORIGIN_STATUS (R305): CONFIG.ORIGIN_STATUS returns per-origin fill counts. -/
  | originStatus (m : MsgReq)
  /-- ORIGIN_PATH_RETRY (R292): A failed origin path is reopened after a doubling delay of 1 to 30 s. -/
  | originPathRetry (origin port : Nat)
  /-- FILL_START (R296): A fill reserves staging and sends a Retrieve to the origin once a fill context and origin room are free. -/
  | fillStart (nsid : Nat) (key : Key)
  /-- FILL_RETRIEVE_COMPLETE (R296): An origin Retrieve completion either finishes the value, starts the full-length retrieve, or ends the fill absent or in error. -/
  | fillRetrieveComplete (nsid : Nat) (key : Key) (r : FillReply)
  /-- FILL_COMMIT (R298): The fetched value is committed at the Local level and every waiter is released. -/
  | fillCommit (nsid : Nat) (key : Key)
  /-- FILL_TIMEOUT (R302): A fetch exceeding OR_TIMEOUT_MS is an origin error, retried on the fallback or failing waiters. -/
  | fillTimeout (nsid : Nat) (key : Key)
  /-- TTL_CHECKPOINT (R299): Once per minute of power-on time a (seconds, sequence) checkpoint is written to the ring. -/
  | ttlCheckpoint
  /-- MIRROR_EXPIRY_SWEEP (R300): A background sweep deletes expired Mirror records where STALE_OK is 0. -/
  | mirrorExpirySweep (nsid : Nat)
  /-- STACK_CONFIG (R325): STACK.CONFIG enables participation and starts a join, or disables it as a leave. -/
  | stackConfig (m : MsgReq)
  /-- STACK_STATUS (R325): STACK.STATUS returns the content of log C4h. -/
  | stackStatus (m : MsgReq)
  /-- STACK_LEAVE (R325): STACK.LEAVE sends LEAVE and makes the drive a relay. -/
  | stackLeave (m : MsgReq)
  /-- SUPERFRAME_TIMEOUT (R312): 20 µs without a valid superframe start, or loss of lock, starts an election. -/
  | superframeTimeout
  /-- ELECT_RECEIVED (R312): A received ELECT block is forwarded with the lower position, and one naming this drive twice makes it Beacon. -/
  | electReceived (pos gen : Nat)
  /-- TOKEN_TIMEOUT (R313): A token not returned within 2 ms is replaced by the Beacon. -/
  | tokenTimeout
  /-- CENSUS (R312): A CENSUS message collects members and clears replicas of absent positions. -/
  | census (h : ChainHdr) (members : List (Nat × Bytes))
  /-- JOIN (R323): A JOIN message announces a joining drive, which receives the replica. -/
  | join (h : ChainHdr) (stackId driveId : Bytes)
  /-- LEAVE (R314): A LEAVE message clears a position's replica entries and flushes caches. -/
  | leave (h : ChainHdr) (pos : Nat)
  /-- PEND (R321): A PEND message marks replica addresses pending. -/
  | pend (h : ChainHdr) (addrs : List Nat)
  /-- SET (R321): A SET message stores replica words, clears pending and raises the cache epoch. -/
  | set (h : ChainHdr) (words : List (Nat × BitVec 64))
  /-- FLUSH_CHAIN (R322): A FLUSH message raises every member's cache epoch. -/
  | flushChain (h : ChainHdr)
  /-- DISABLE (R314): A DISABLE message announces a disabled global entry. -/
  | disable (h : ChainHdr) (addr : Nat) (nsid nsidMask : BitVec 32)
  /-- HITS (R318): A HITS message adds global win counts to entry hit counters. -/
  | hits (h : ChainHdr) (counts : List (Nat × Nat × Nat))
  /-- HITS_INTERVAL (R318): Every 10 ms a member sends its global win counts in HITS messages. -/
  | hitsInterval
  /-- PEER (R314): A PEER message delivers a mailbox message to mailbox 12 or 13. -/
  | peer (h : ChainHdr) (m : RawMsg)
  /-- REPLICA (R323): A REPLICA message delivers replica words to a joining drive. -/
  | replica (h : ChainHdr) (words : List (Nat × Nat × BitVec 64))
  /-- SLOT_CLAIM (R316): A member claims an empty lookup slot for a global lookup. -/
  | slotClaim (polled : Bool) (polledPos : Nat) (key : BitVec 192)
  /-- SLOT_ARRIVAL (R317): A lookup slot passing a member makes it look up its global entries and bid in the window. -/
  | slotArrival (requester : Nat) (key : BitVec 192) (crcOk : Bool) (cells : BitVec 40)
  /-- WINDOW_RETURN (R318): A MATCH window returning to the requester is accepted or retried. -/
  | windowReturn (gen : Nat) (key : BitVec 192) (cells : BitVec 40)
  /-- GLOBAL_LOOKUP_TIMEOUT (R319): A global lookup without result 50 ms after its command started completes it with Policy Unavailable. -/
  | globalLookupTimeout (ctrl sq cid : Nat)
  /-- LINK_NEGOTIATION (R328): Clause 73 auto-negotiation and training bring a port's link up or retry every 1 s. -/
  | linkNegotiation (port : Nat) (n : NegResult)
  /-- FEC_UNCORRECTED_LIMIT (R329): More than 10 uncorrected codewords in 1 s drop and retrain the link. -/
  | fecUncorrectedLimit (port : Nat)
  /-- LINK_DOWN (R330): A port's link going down discards its queued frames. -/
  | linkDown (port : Nat)
  /-- FRAME_RECEIVED (R332): A received frame is filtered by size, FCS, VLAN and address and delivered or dropped. -/
  | frameReceived (port : Nat) (f : Frame)
  /-- PAUSE_RECEIVED (R338): A received PAUSE frame holds all queues or is ignored by mode. -/
  | pauseReceived (port quanta : Nat)
  /-- PFC_RECEIVED (R338): A received PFC frame holds the named priority queues or is ignored by mode. -/
  | pfcReceived (port : Nat) (enable : BitVec 8) (quanta : List Nat)
  /-- XOFF_THRESHOLD (R339): Receive buffer occupancy crossing XOFF or XON sends pause or its release. -/
  | xoffThreshold (port prio : Nat)
  /-- XOFF_REPEAT (R340): XOFF is repeated every half pause time while occupancy stays above XON. -/
  | xoffRepeat (port prio : Nat)
  /-- PAUSE_WATCHDOG (R341): A queue held by received pause beyond PC_WATCHDOG_MS breaks the pause. -/
  | pauseWatchdog (port prio : Nat)
  /-- PAUSE_WATCHDOG_RESTORE (R341): No pause frame for PC_WATCHDOG_MS restores honouring pause for the priority. -/
  | pauseWatchdogRestore (port prio : Nat)
  /-- OWN_PAUSE_WATCHDOG (R342): XOFF held beyond PC_WATCHDOG_MS stops the drive's own pause for the priority. -/
  | ownPauseWatchdog (port prio : Nat)
  /-- CE_MARKED_PACKET (R337): A CE-marked RoCEv2 packet causes a congestion notification packet to the queue pair. -/
  | ceMarkedPacket (conn : Nat)
  /-- CNP_RECEIVED (R337): A received congestion notification halves the queue pair's send rate. -/
  | cnpReceived (conn : Nat)
  /-- LPI_ENTRY (R345): An idle transmitter enters Low Power Idle when allowed. -/
  | lpiEntry (port : Nat)
  /-- FRAME_TRANSMITTED (R347): A frame leaving the port writes a timestamp entry if it requested one and has room, or is marked TS_LOST. -/
  | frameTransmitted (port : Nat)
  /-- TIMESTAMP_READ (R347): Every 100 ns the time unit reads and frees one timestamp entry. -/
  | timestampRead (port : Nat)
  /-- LINK_PROBE (R349): DIAG.LINK_PROBE sends a burst of timestamped probe frames and returns their timestamps. -/
  | linkProbe (m : MsgReq)
  /-- PORT_SNAPSHOT (R350): HEALTH.PORT_SNAPSHOT copies every port counter into the snapshot bank and returns it. -/
  | portSnapshot (m : MsgReq)
  /-- PORT_STATS (R350): HEALTH.PORT_STATS returns the snapshot bank as last taken. -/
  | portStats (m : MsgReq)
  /-- PORT_SET (R351): CONFIG.PORT_SET checks and applies a port configuration record. -/
  | portSet (m : MsgReq)
  /-- PORT_GET (R351): CONFIG.PORT_GET returns the port configuration in force. -/
  | portGet (m : MsgReq)
  /-- IF_SET (R333): CONFIG.IF_SET defines an IP interface with its VLAN and addresses. -/
  | ifSet (m : MsgReq)
  /-- ANNOUNCE_RECEIVED (R360): A PTP Announce feeds the best master algorithm and the qualification checks. -/
  | announceReceived (port : Nat) (an : Announce)
  /-- SYNC_EXCHANGE (R360): A completed Sync and Delay exchange updates the servo and may qualify or disqualify PTP. -/
  | syncExchange (port : Nat) (offset phase logSync : Int) (tsLost : Bool)
  /-- PTP_MESSAGE_TIMEOUT (R360): Three Announce or four Sync intervals without a message disqualify PTP. -/
  | ptpMessageTimeout (port : Nat)
  /-- PPS_EDGE (R361): A rising PPS_IN edge is timestamped and updates the PPS servo. -/
  | ppsEdge (offset : Int) (gapMs : Nat)
  /-- PPS_TIMEOUT (R361): 2.5 s without a PPS edge disqualifies PPS and lapses its epoch. -/
  | ppsTimeout
  /-- HOLDOVER_EXPIRY (R357): 24 h in Holdover makes the time state Untraced. -/
  | holdoverExpiry
  /-- LEAP_SECOND (R353): An announced leap second holds or skips the clock's last second of the day. -/
  | leapSecond
  /-- TIME_STATUS (R369): TIME.STATUS returns the time status record. -/
  | timeStatus (m : MsgReq)
  /-- TIME_CONFIG (R540): TIME.CONFIG checks and applies the time configuration record. -/
  | timeConfig (m : MsgReq)
  /-- TIME_SET_EPOCH (R369): TIME.SET_EPOCH sets the UTC second of the next PPS edge and any leap. -/
  | timeSetEpoch (m : MsgReq)
  /-- TIME_SPANS (R369): TIME.SPANS returns the Untraced span table. -/
  | timeSpans (m : MsgReq)
  /-- INC (R373): A microword with INC runs its nanoword and goes to the next address. -/
  | inc (u : EngineId)
  /-- BR (R373): A microword with BR runs its nanoword and branches to MW_TGT. -/
  | br (u : EngineId)
  /-- BRC (R373): A microword with BRC branches to MW_TGT when its condition is true, sampling on a backward customer branch. -/
  | brc (u : EngineId)
  /-- CALL (R373): A microword with CALL pushes the return address and goes to MW_TGT, faulting beyond the permitted depth. -/
  | call (u : EngineId)
  /-- RET (R373): A microword with RET pops the return stack or ends the routine at depth 0. -/
  | ret (u : EngineId)
  /-- SAFE (R380): A SAFE microword is a sample point acting on ABORT, SUSPEND and DRAIN requests. -/
  | safe (u : EngineId)
  /-- WAIT (R375): A WAIT microword runs its nanoword once and holds until its condition is true. -/
  | wait (u : EngineId)
  /-- HALT (R373): A HALT microword ends the routine. -/
  | halt (u : EngineId)
  /-- LOAD_RETURN (R374): An engine's oldest outstanding load returns and MEM_RDY becomes true. -/
  | loadReturn (engine : Nat)
  /-- HASH_JOB_DONE (R374): An engine's hash job finishes and HASH_RDY becomes true. -/
  | hashJobDone (engine : Nat)
  /-- KEY_LIMIT_EXCEEDED (R400): A per-key cycle count above PH_KEY_LIMIT stops the program with fault 01h. -/
  | keyLimitExceeded (engine : Nat)
  /-- CMD_BUDGET_REACHED (R399): Cycles reaching PH_CMD_BUDGET with a key in the buffer end the listing with LIST_BUDGET. -/
  | cmdBudgetReached (ctrl sq cid : Nat)
  /-- MICROCODE_WORD_UNCORRECTABLE (R371): An uncorrectable microcode RAM word stops the engine, is reloaded and restarts the routine or faults the program. -/
  | microcodeWordUncorrectable (u : EngineId) (addr : Nat)
  /-- UCODE_STATUS (R390): UCODE.STATUS returns microcode versions and loaded programs. -/
  | ucodeStatus (m : MsgReq)
  /-- UCODE_STAGE (R390): UCODE.STAGE writes image bytes into the staging buffer. -/
  | ucodeStage (m : MsgReq)
  /-- UCODE_COMMIT (R391): UCODE.COMMIT checks and loads the staged program image. -/
  | ucodeCommit (m : MsgReq)
  /-- UCODE_UNLOAD (R396): UCODE.UNLOAD drains a program and frees its space when no routine runs it. -/
  | ucodeUnload (m : MsgReq)
  /-- UCODE_ABANDON (R390): UCODE.ABANDON clears the staging buffer. -/
  | ucodeAbandon (m : MsgReq)
  /-- CUST_KEY_ADD (R388): SECURITY.CUST_KEY_ADD enrols a customer key in a slot. -/
  | custKeyAdd (m : MsgReq)
  /-- CUST_KEY_REMOVE (R388): SECURITY.CUST_KEY_REMOVE unloads the slot's programs and clears it. -/
  | custKeyRemove (m : MsgReq)
  /-- CUST_KEY_LIST (R388): SECURITY.CUST_KEY_LIST returns the key identifiers in use. -/
  | custKeyList (m : MsgReq)
  /-- MBX_POST (R402): A write of MBX_CTRL.POST posts the request in the header and data window. -/
  | mbxPost (mbox src : Nat) (m : Option RawMsg)
  /-- MBX_ACK (R402): A write of MBX_CTRL.ACK removes the head reply. -/
  | mbxAck (mbox : Nat)
  /-- MESSAGE_START (R408): A message reaching the head of a mailbox is checked for rights and replay and carried out. -/
  | messageStart (mbox : Nat)
  /-- REPLY_RETENTION_EXPIRY (R404): A kept reply is discarded 60 s after it was posted. -/
  | replyRetentionExpiry (mbox : Nat)
  /-- MCTP_MESSAGE (R409): An MCTP message on the sideband is delivered to mailboxes 8 to 11 or NVMe-MI, or discarded. -/
  | mctpMessage (eid : Nat) (body : MctpBody)
  /-- SET_ENDPOINT_ID (R409): MCTP Set Endpoint ID assigns the drive's EID. -/
  | setEndpointId (e : NewEid)
  /-- READ_NVME_MI_DATA_STRUCTURE (R410): Returns an NVMe-MI data structure. -/
  | readNvmeMiDataStructure (eid dtype : Nat)
  /-- NVM_SUBSYSTEM_HEALTH_STATUS_POLL (R410): Returns subsystem health status. -/
  | nvmSubsystemHealthStatusPoll (eid : Nat)
  /-- CONTROLLER_HEALTH_STATUS_POLL (R410): Returns controller health status. -/
  | controllerHealthStatusPoll (eid : Nat)
  /-- CONFIGURATION_GET (R410): NVMe-MI Configuration Get returns a configuration item. -/
  | configurationGet (eid item : Nat)
  /-- CONFIGURATION_SET (R410): NVMe-MI Configuration Set sets a configuration item such as the MCTP transmission unit. -/
  | configurationSet (eid item value : Nat) (inBand : Bool)
  /-- VPD_READ (R410): NVMe-MI VPD Read returns vital product data. -/
  | vpdRead (eid offset len : Nat)
  /-- NVME_MI_RESET (R410): NVMe-MI Reset acts as an NVM Subsystem Reset. -/
  | nvmeMiReset (eid : Nat)
  /-- HOST_ADD (R414): CONFIG.HOST_ADD enrols a host NQN or changes its group and level. -/
  | hostAdd (m : MsgReq)
  /-- HOST_REMOVE (R414): CONFIG.HOST_REMOVE removes a host and resets its controllers. -/
  | hostRemove (m : MsgReq)
  /-- HOST_LIST (R414): CONFIG.HOST_LIST returns enrolled hosts. -/
  | hostList (m : MsgReq)
  /-- RETENTION_SET (R27): CONFIG.RETENTION_SET defines or lengthens a retention class. -/
  | retentionSet (m : MsgReq)
  /-- RATE_SET (R45): CONFIG.RATE_SET sets a rate class ceiling. -/
  | rateSet (m : MsgReq)
  /-- CHANNELS_SET (R195): CONFIG.CHANNELS_SET sets the designated wear channels. -/
  | channelsSet (m : MsgReq)
  /-- SECDEL_SET (R204): CONFIG.SECDEL_SET sets the secure-delete deadline. -/
  | secdelSet (m : MsgReq)
  /-- CONFIG_GET (R414): CONFIG.GET returns the contents in force for a set message. -/
  | configGet (m : MsgReq)
  /-- HEALTH_SUMMARY (R416): HEALTH.SUMMARY returns the health summary record. -/
  | healthSummary (m : MsgReq)
  /-- HEALTH_SENSORS (R416): HEALTH.SENSORS returns each sensor's reading and thresholds. -/
  | healthSensors (m : MsgReq)
  /-- HEALTH_LOG_READ (R416): HEALTH.LOG_READ returns bytes of a log page. -/
  | healthLogRead (m : MsgReq)
  /-- GOAL_SET (R417): POLICY.GOAL_SET sets the control loop goal record. -/
  | goalSet (m : MsgReq)
  /-- GOAL_GET (R417): POLICY.GOAL_GET returns the goal record in force. -/
  | goalGet (m : MsgReq)
  /-- DECISIONS (R419): POLICY.DECISIONS returns one entry per control loop. -/
  | decisions (m : MsgReq)
  /-- SENSOR_SAMPLE (R208): Once per second each sensor is sampled, updating the temperature history and the thermal transitions. -/
  | sensorSample (readings : List Int)
  /-- CRITICAL_CLEARED (R463): 60 s below every critical limit ends the PS2 limits or restarts after shutdown. -/
  | criticalCleared
  /-- JUNCTION_COMPARATOR_TRIP (R537): The analogue comparator at 115 °C junction switches the hot-swap stage off. -/
  | junctionComparatorTrip
  /-- SEAL (R445): SECURITY.SEAL erases media, clears configuration, blows SEALED and restarts. -/
  | seal (m : MsgReq)
  /-- RETIRE (R446): SECURITY.RETIRE deletes all namespaces, block-erases, blows RETIRED and restarts. -/
  | retire (m : MsgReq)
  /-- DEBUG_CHALLENGE (R452): SECURITY.DEBUG_CHALLENGE returns a 32-byte nonce valid for 60 s. -/
  | debugChallenge (m : MsgReq)
  /-- DEBUG_OPEN (R453): SECURITY.DEBUG_OPEN checks a token and opens a debug level, drawing the key curtain at D2. -/
  | debugOpen (m : MsgReq)
  /-- KEY_CURTAIN_DEADLINE (R456): 50 ms after the curtain begins, commands still running complete with Asymmetric Access Inaccessible and keys are zeroed. -/
  | keyCurtainDeadline
  /-- DEBUG_CLOSE (R454): SECURITY.DEBUG_CLOSE ends a D1 session. -/
  | debugClose (m : MsgReq)
  /-- DEBUG_SESSION_EXPIRY (R454): A D1 session ends at the end of DT_DURATION_S. -/
  | debugSessionExpiry
  /-- DEBUG_KEY_SET (R451): SECURITY.DEBUG_KEY_SET enrols an owner debug key. -/
  | debugKeySet (m : MsgReq)
  /-- DEBUG_KEY_REMOVE (R451): SECURITY.DEBUG_KEY_REMOVE removes an owner debug key. -/
  | debugKeyRemove (m : MsgReq)
  /-- DEBUG_STATUS (R465): SECURITY.DEBUG_STATUS returns the debug level and key slots. -/
  | debugStatus (m : MsgReq)
  /-- ATTEST (R448): SECURITY.ATTEST returns an attestation record signed by the Alias keys. -/
  | attest (m : MsgReq)
  /-- NON_OPERATIONAL_WAKE (R462): An I/O command in PS3 or PS4 returns the drive to its last operational state. -/
  | nonOperationalWake
  /-- CLOCK_MONITOR_FAULT (R469): Loss of root lock or a bad TCXO is a fatal fault; PHY PLL lock loss drops that link. -/
  | clockMonitorFault (f : ClockFault)
  /-- DOMAIN_IDLE_GATE (R471): A domain idle for 10 µs in PS0 to PS2 is gated and restarts on the next request. -/
  | domainIdleGate (domain : Nat) (gate : Bool)
  /-- SNUF_N_FALL (R472): A falling edge on SNUF_N freezes every clock domain if D2 or D3 is open. -/
  | snufNFall
  /-- FREEZE_NOW (R481): FREEZE.NOW freezes the drive if D2 or D3 is open. -/
  | freezeNow (m : MsgReq)
  /-- FREEZE_STATUS (R481): FREEZE.STATUS returns whether the Snuffer is honoured and the newest freeze record. -/
  | freezeStatus (m : MsgReq)
  /-- FRZ_STATUS (R478): TAP FRZ_STATUS shifts out the freeze latch. -/
  | frzStatus
  /-- DUMP_SEL (R478): TAP DUMP_SEL selects a dump section and offset. -/
  | dumpSel (value : BitVec 64)
  /-- DUMP_DATA (R478): TAP DUMP_DATA shifts out dump bytes from the selected offset. -/
  | dumpData (count : Nat)
  /-- FRZ_HBM (R478): TAP FRZ_HBM reads HBM3 lines from a frozen stack. -/
  | frzHbm (value : BitVec 72)
  /-- FRZ_RESET (R477): TAP FRZ_RESET ends a freeze by starting the drive with cause 04h. -/
  | frzReset
  /-- CALIB_GET (R488): CALIB.GET returns factory, user and effective values of items. -/
  | calibGet (m : MsgReq)
  /-- CALIB_SET (R486): CALIB.SET checks and applies user calibration deltas with clamping. -/
  | calibSet (m : MsgReq)
  /-- CALIB_CLEAR (R487): CALIB.CLEAR removes user entries of one or every category. -/
  | calibClear (m : MsgReq)
  /-- CALIB_FACTORY_READ (R488): CALIB.FACTORY_READ returns bytes of the factory record. -/
  | calibFactoryRead (m : MsgReq)
  /-- CHANNEL_RECALIBRATION (R520): Every 30 min each HBM3 and Wax channel is recalibrated, blocking it for at most 1 µs. -/
  | channelRecalibration (channel : Nat)
  /-- SCRUB (R511): HBM3 and Wax scrub read and correct every line once in 24 h. -/
  | scrub
  /-- EVLOG_STATUS (R501): EVLOG.STATUS returns the event log status record. -/
  | evlogStatus (m : MsgReq)
  /-- EVLOG_READ (R496): EVLOG.READ returns records of the kept or circulating area. -/
  | evlogRead (m : MsgReq)
  /-- EVLOG_HOLD (R498): EVLOG.HOLD freezes the log image and buffers new records. -/
  | evlogHold (m : MsgReq)
  /-- EVLOG_RELEASE (R498): EVLOG.RELEASE ends the hold and writes buffered records. -/
  | evlogRelease (m : MsgReq)
  /-- HOLD_LIMIT_EXPIRY (R498): A hold ends 60 s after it began or 10 s after the holder's last read. -/
  | holdLimitExpiry (idle : Bool)
  /-- EVLOG_CLEAR (R500): EVLOG.CLEAR empties the circulating area and records the clear. -/
  | evlogClear (m : MsgReq)
  /-- EVLOG_CATALOG (R501): EVLOG.CATALOG returns the catalogue of event codes. -/
  | evlogCatalog (m : MsgReq)
  /-- SUPPRESSION_SECOND (R494): At the end of each second with suppressed records a 1204h record is written. -/
  | suppressionSecond
  /-- BBOX_STATUS (R509): BBOX.STATUS returns the black box header and counters. -/
  | bboxStatus (m : MsgReq)
  /-- BBOX_READ (R509): BBOX.READ returns black box slots from Wax or boot flash. -/
  | bboxRead (m : MsgReq)
  /-- BOOT_FLASH_REFRESH (R508): Every power-on hour the oldest boot-flash black box copy is refreshed. -/
  | bootFlashRefresh
  /-- PWR_DIS_RISE (R534): PWR_DIS rising switches the load off or performs the orderly power-down. -/
  | pwrDisRise
  /-- PWR_DIS_FALL (R534): PWR_DIS falling starts the drive with cause 01h. -/
  | pwrDisFall
  /-- HOT_SWAP_OVERCURRENT (R533): Current at the limit for 10 ms switches the hot-swap stage off, retrying after 1 s. -/
  | hotSwapOvercurrent
  /-- AUX_SUPPLY_LOSS (R533): Loss of P3V3_AUX while running is recorded and service continues. -/
  | auxSupplyLoss
  /-- INDEX_PAGE_REBUILD_DONE (R132): The rebuild of a 4 KiB index page after an uncorrectable line ends and commands on its buckets may start. -/
  | indexPageRebuildDone (page : Nat)
  /-- FORWARD_COMPLETION (R268): The Primary's completion of a command forwarded by the Secondary arrives back at the Secondary, which completes the host command or waits for the replicated write. -/
  | forwardCompletion (ctrl sq cid : Nat) (status : Status) (read : FwdData)
  /-- WITNESS_UNREACHABLE (R273): The witness's last accepted poll becomes 50 ms old; TW_WITNESS_STATE becomes lost and the log C3h event is raised. -/
  | witnessUnreachable
  /-- CHAIN_RECEIVER_LOCK (R531): The chain receiver locks on CHAIN_IN and CHAIN_RDY is driven high within 1 ms. -/
  | chainReceiverLock
  /-- TOKEN_BLOCK (R313): The circulating token block reaches a member, which may send one message and pass it; at the Beacon SK_TOKEN_ROT rises. -/
  | tokenBlock (gen : Nat) (tok : Token)
  /-- PAUSE_TIME_EXPIRY (R338): The pause time carried by a received PAUSE or PFC frame runs out and the held queues may send again. -/
  | pauseTimeExpiry (port prio : Nat)
  /-- AUX_SUPPLY_GOOD (R420): P3V3_AUX comes into range, powering the always-on domain, and the drive answers as an MCTP endpoint within 50 ms. -/
  | auxSupplyGood
  /-- JUNCTION_COMPARATOR_CLEAR (R537): The junction falls below 85 °C and the analogue comparator lets the hot-swap stage switch on again. -/
  | junctionComparatorClear
  /-- MEDIA_READ_DONE (R188): A NAND read of a codeword returns, is decoded at the current stage and either serves its reader or moves to the next read stage. -/
  | mediaReadDone (ctrl sq cid : Nat) (corrected : Bool)
  /-- RDMA_READ_RESPONSE (R63): Data of an RDMA Read issued by the drive for a store arrives from the host and is sealed into staging. -/
  | rdmaReadResponse (conn cid : Nat) (data : Bytes)
  /-- ORIGIN_PATH_OPENED (R292): The Connect exchange of an origin path completes and the path is open for fills. -/
  | originPathOpened (origin port : Nat)
  /-- ORIGIN_PATH_FAILURE (R302): An origin path fails, making outstanding fetches on it origin errors and scheduling its reopening. -/
  | originPathFailure (origin port : Nat)
  /-- DELAY_REQ_INTERVAL (R358): At the master's logMinDelayReqInterval the drive sends a timestamped Delay_Req on the port of the chosen master. -/
  | delayReqInterval
  /-- ATTACH_REACH_TIMEOUT (R283): The Secondary has not reached the twin on any configured port within 5 s of TWIN.ATTACH and refuses with reason 06h. -/
  | attachReachTimeout
  deriving DecidableEq, Repr

end Sys2Proof
end

