-- ==== Sys2Proof/WellFormed.lean ====
section
/-! DEFINITION. The well-formed commands: every operand lies in the range the owning rule gives its field. -/

namespace Sys2Proof

/-- A number below a bound. -/
def below (n v : Nat) : Bool := decide (v < n)

/-- Port A is 0 and Port B is 1 (R327). -/
def portOk (p : Nat) : Bool := below 2 p

/-- A controller identifier: 0001h to 0040h, or 0041h to 0050h for discovery (R50). -/
def ctrlOk (c : Nat) : Bool := decide (1 ≤ c) && decide (c ≤ 80)

/-- A namespace identifier: 00000001h to 00000400h (R67). -/
def nsidOk (n : Nat) : Bool := decide (1 ≤ n) && decide (n ≤ 1024)

/-- A Wick engine 0 to 63 or a Taper sequencer 0 to 31 (R370). -/
def engineOk : EngineId → Bool
  | .wick n => below 64 n
  | .taper n => below 32 n

/-- An admin command comes on a controller, with a 16-bit identifier and a 32-bit namespace identifier. -/
def admOk (a : Adm) : Bool := ctrlOk a.ctrl && below 65536 a.cid && below 4294967296 a.nsid

/-- An I/O command comes on an I/O queue of a controller; its identifiers have 16 and 32 bits. -/
def cmdOk (c : HostCmd) : Bool :=
  ctrlOk c.ctrl && decide (1 ≤ c.sq) && below 65536 c.sq && below 65536 c.e.cid && below 4294967296 c.e.nsid

/-- A message in a mailbox of R401, its header fields within their widths (R403). -/
def msgOk (m : MsgReq) : Bool :=
  below 16 m.mbox && below 65536 m.tag && below 4294967296 m.seq && below 4294967296 m.len
    && decide (m.payload.length ≤ 4096) && below 8 m.mctpTag

/-- A raw message: its header fields within their widths (R403). -/
def rawOk (m : RawMsg) : Bool :=
  below 256 m.cls && below 256 m.op && below 65536 m.tag && below 4294967296 m.len && below 4294967296 m.seq
    && below 4294967296 m.detail && below 18446744073709551616 m.time

/-- A chain header: positions 0 to 15 (R306, R313). -/
def hdrOk (h : ChainHdr) : Bool := below 16 h.src && below 16 h.dst

/-- A well-formed command. -/
def Instr.wf : Instr → Bool
  | .connect _ => true
  | .propertyGet a _ => admOk a
  | .ccEnClear a => admOk a
  | .ccEnSet a => admOk a
  | .nssrWrite a => admOk a
  | .registerWrite _ _ _ => true
  | .disconnect a => admOk a
  | .transportConnectionLoss _ => true
  | .keepAlive a => admOk a
  | .keepAliveExpiry ctrl => ctrlOk ctrl
  | .icReq _ port r => portOk port && decide (0 < r.mss)
  | .h2cData _ cid _ _ _ => below 65536 cid
  | .clientHello _ port _ => portOk port
  | .tlsRecordReceived _ _ _ => true
  | .keyUpdateReceived _ _ => true
  | .keyUpdateSend _ => true
  | .rdmaConnect _ port r => portOk port && below 65536 r.port
  | .tcpRetransmitTimeout _ => true
  | .roceQpFailure _ => true
  | .contextFreed => true
  | .ordRelease ctrl sq => ctrlOk ctrl && below 65536 sq
  | .rateClassRoom cls => below 16 cls
  | .stagingReservationGrant => true
  | .getLogPage a _ _ _ _ => admOk a
  | .identify a _ _ _ => admOk a
  | .abort a sq cid => admOk a && below 65536 sq && below 65536 cid
  | .getFeatures a _ _ _ => admOk a
  | .setArbitration a _ => admOk a
  | .setPowerManagement a _ => admOk a
  | .setTemperatureThreshold a _ _ _ => admOk a
  | .setNumberOfQueues a _ => admOk a
  | .setAsyncEventConfig a _ => admOk a
  | .setKeepAliveTimer a _ => admOk a
  | .setFeaturesRefused a _ => admOk a
  | .asynchronousEventRequest a => admOk a
  | .asynchronousEvent ctrl _ => ctrlOk ctrl
  | .namespaceCreate a _ _ _ _ => admOk a
  | .namespaceDelete a => admOk a
  | .namespaceAttach a _ => admOk a
  | .namespaceDetach a _ => admOk a
  | .firmwareImageDownload a _ _ => admOk a
  | .firmwareCommitReplace a _ => admOk a
  | .firmwareCommitReplaceTrial a _ => admOk a
  | .firmwareCommitSetTrial a _ => admOk a
  | .firmwareCommitActivate a _ => admOk a
  | .activationPause => true
  | .activationReady => true
  | .activationFallback => true
  | .activationConfirm => true
  | .deviceSelfTestShort a => admOk a
  | .deviceSelfTestExtended a => admOk a
  | .deviceSelfTestAbort a => admOk a
  | .selfTestDone _ => true
  | .nvmeMiSend a _ => admOk a
  | .nvmeMiReceive a _ => admOk a
  | .sanitizeCryptoErase a => admOk a
  | .sanitizeBlockErase a => admOk a
  | .sanitizeDone => true
  | .mailboxPost a mbox _ m => admOk a && below 16 mbox && rawOk m
  | .mailboxFetch a mbox _ => admOk a && below 16 mbox
  | .flush c => cmdOk c
  | .store c => cmdOk c
  | .longKeyStore c => cmdOk c
  | .storeCommit ctrl sq cid => ctrlOk ctrl && below 65536 sq && below 65536 cid
  | .retrieve c => cmdOk c
  | .longKeyRetrieve c => cmdOk c
  | .list c => cmdOk c
  | .delete c => cmdOk c
  | .longKeyDelete c => cmdOk c
  | .exist c => cmdOk c
  | .longKeyExist c => cmdOk c
  | .filteredList c => cmdOk c
  | .getReceipt c => cmdOk c
  | .secureDelete c => cmdOk c
  | .retentionHoldKeyPlace c => cmdOk c
  | .retentionHoldKeyRelease c => cmdOk c
  | .retentionHoldNsPlace c => cmdOk c
  | .retentionHoldNsRelease c => cmdOk c
  | .twinAckReceived _ => true
  | .twinAckRecord => true
  | .hashLaneFree => true
  | .journalRoom => true
  | .journalCondense => true
  | .indexCheckpoint => true
  | .unitPadTimeout _ => true
  | .programStatusPassed _ _ => true
  | .programFailure _ channel _ _ => below 16 channel
  | .waxUncorrectable _ => true
  | .waxPackageFailure package => below 8 package
  | .powerFailTrip => true
  | .powerGood => true
  | .start _ => true
  | .bootStepTimeout => true
  | .hardwareWatchdog => true
  | .fatalFault _ => true
  | .failedStartRestart _ => true
  | .startGood => true
  | .deferredBootStep stepNo => below 15 stepNo
  | .floorRaise => true
  | .diagBootRestart m => msgOk m
  | .cacheAccess _ _ => true
  | .lineFillArrival _ => true
  | .writeBackAccepted _ => true
  | .mchCtrlWrite _ _ => true
  | .mchInvalidate _ => true
  | .mchWriteBackInvalidate _ => true
  | .mchWriteBack _ => true
  | .mchInvDone => true
  | .hbm3LineUncorrectable _ => true
  | .hbm3StackLost stack => below 2 stack
  | .hbm3RebuildDone => true
  | .unspill => true
  | .bandLastRowProgrammed _ => true
  | .bandVerified v => v.failed.all (below 131072)
  | .gcVictimSelect => true
  | .gcCopyVerified _ _ => true
  | .bandEraseDone _ => true
  | .eraseFailure _ channel => below 16 channel
  | .gcModeChange => true
  | .wearMove => true
  | .accrualRecompute => true
  | .bankEmpty _ => true
  | .bankRefilled => true
  | .patrolRead _ f a z => decide (a ≤ z) && below 131072 z
      && f.codewords.all fun c => decide (a ≤ c.1.1) && decide (c.1.1 ≤ z) && below 4 c.1.2 && decide (1 ≤ c.2) && below 6 c.2
  | .readUncorrectable ctrl sq cid => ctrlOk ctrl && below 65536 sq && below 65536 cid
  | .dieLost channel die => below 16 channel && below 32 die
  | .secureDeleteHalfDeadline _ => true
  | .secureDeleteOverdue _ => true
  | .nsRotate m => msgOk m
  | .rotationDone nsid => nsidOk nsid
  | .nsErase m => msgOk m
  | .eraseSweepDone nsid => nsidOk nsid
  | .nsKeyStatus m => msgOk m
  | .kekRotate m => msgOk m
  | .pskAdd m => msgOk m
  | .pskRemove m => msgOk m
  | .epochSet m => msgOk m
  | .epochClose m => msgOk m
  | .epochLengthElapsed => true
  | .epochSigned => true
  | .receiptStorePrune => true
  | .certGet m => msgOk m
  | .camWrite m => msgOk m
  | .camRead m => msgOk m
  | .camInvalidate m => msgOk m
  | .camCopy m => msgOk m
  | .camCounters m => msgOk m
  | .camStatus m => msgOk m
  | .camLookup m => msgOk m
  | .camNsInfo m => msgOk m
  | .camSweep => true
  | .camSoftError addr _ _ => below 65536 addr
  | .twinAttach m => msgOk m
  | .twinDetach m => msgOk m
  | .twinSwitchover m => msgOk m
  | .twinConfig m => msgOk m
  | .twinStatus m => msgOk m
  | .twinWitnessPoll m => msgOk m
  | .twinRelease m => msgOk m
  | .twinForcePrimary m => msgOk m
  | .twinResync m => msgOk m
  | .heartbeatSend => true
  | .heartbeatReceived _ => true
  | .twinLost => true
  | .primaryFence => true
  | .candidateTimeout => true
  | .localCompletionDelay => true
  | .twinImpaired => true
  | .staleConfirmTimeout => true
  | .replicatedWriteReceived _ => true
  | .forwardedCommandReceived _ => true
  | .twinLinkFormed _ => true
  | .resyncDone => true
  | .twinRepairRequest nsid _ _ _ => nsidOk nsid
  | .twinRepairTimeout nsid _ => nsidOk nsid
  | .originSet m => msgOk m
  | .mirrorSet m => msgOk m
  | .originStatus m => msgOk m
  | .originPathRetry origin port => below 8 origin && portOk port
  | .fillStart nsid _ => nsidOk nsid
  | .fillRetrieveComplete nsid _ _ => nsidOk nsid
  | .fillCommit nsid _ => nsidOk nsid
  | .fillTimeout nsid _ => nsidOk nsid
  | .ttlCheckpoint => true
  | .mirrorExpirySweep nsid => nsidOk nsid
  | .stackConfig m => msgOk m
  | .stackStatus m => msgOk m
  | .stackLeave m => msgOk m
  | .superframeTimeout => true
  | .electReceived pos _ => below 16 pos
  | .tokenTimeout => true
  | .census h _ => hdrOk h
  | .join h _ _ => hdrOk h
  | .leave h pos => hdrOk h && below 16 pos
  | .pend h _ => hdrOk h
  | .set h _ => hdrOk h
  | .flushChain h => hdrOk h
  | .disable h addr _ _ => hdrOk h && below 65536 addr
  | .hits h _ => hdrOk h
  | .hitsInterval => true
  | .peer h m => hdrOk h && rawOk m
  | .replica h _ => hdrOk h
  | .slotClaim _ polledPos _ => below 16 polledPos
  | .slotArrival requester _ _ _ => below 16 requester
  | .windowReturn _ _ _ => true
  | .globalLookupTimeout ctrl sq cid => ctrlOk ctrl && below 65536 sq && below 65536 cid
  | .linkNegotiation port _ => portOk port
  | .fecUncorrectedLimit port => portOk port
  | .linkDown port => portOk port
  | .frameReceived port _ => portOk port
  | .pauseReceived port _ => portOk port
  | .pfcReceived port _ _ => portOk port
  | .xoffThreshold port prio => portOk port && below 8 prio
  | .xoffRepeat port prio => portOk port && below 8 prio
  | .pauseWatchdog port prio => portOk port && below 8 prio
  | .pauseWatchdogRestore port prio => portOk port && below 8 prio
  | .ownPauseWatchdog port prio => portOk port && below 8 prio
  | .ceMarkedPacket _ => true
  | .cnpReceived _ => true
  | .lpiEntry port => portOk port
  | .frameTransmitted port => portOk port
  | .timestampRead port => portOk port
  | .linkProbe m => msgOk m
  | .portSnapshot m => msgOk m
  | .portStats m => msgOk m
  | .portSet m => msgOk m
  | .portGet m => msgOk m
  | .ifSet m => msgOk m
  | .announceReceived port _ => portOk port
  | .syncExchange port _ _ _ _ => portOk port
  | .ptpMessageTimeout port => portOk port
  | .ppsEdge _ _ => true
  | .ppsTimeout => true
  | .holdoverExpiry => true
  | .leapSecond => true
  | .timeStatus m => msgOk m
  | .timeConfig m => msgOk m
  | .timeSetEpoch m => msgOk m
  | .timeSpans m => msgOk m
  | .inc u => engineOk u
  | .br u => engineOk u
  | .brc u => engineOk u
  | .call u => engineOk u
  | .ret u => engineOk u
  | .safe u => engineOk u
  | .wait u => engineOk u
  | .halt u => engineOk u
  | .loadReturn engine => below 64 engine
  | .hashJobDone engine => below 64 engine
  | .keyLimitExceeded engine => below 64 engine
  | .cmdBudgetReached ctrl sq cid => ctrlOk ctrl && below 65536 sq && below 65536 cid
  | .microcodeWordUncorrectable u addr => engineOk u && below 65536 addr
  | .ucodeStatus m => msgOk m
  | .ucodeStage m => msgOk m
  | .ucodeCommit m => msgOk m
  | .ucodeUnload m => msgOk m
  | .ucodeAbandon m => msgOk m
  | .custKeyAdd m => msgOk m
  | .custKeyRemove m => msgOk m
  | .custKeyList m => msgOk m
  | .mbxPost mbox _ m => below 16 mbox && m.all rawOk
  | .mbxAck mbox => below 16 mbox
  | .messageStart mbox => below 16 mbox
  | .replyRetentionExpiry mbox => below 16 mbox
  | .mctpMessage eid _ => below 256 eid
  | .setEndpointId e => below 256 e.eid
  | .readNvmeMiDataStructure eid _ => below 256 eid
  | .nvmSubsystemHealthStatusPoll eid => below 256 eid
  | .controllerHealthStatusPoll eid => below 256 eid
  | .configurationGet eid _ => below 256 eid
  | .configurationSet eid _ _ _ => below 256 eid
  | .vpdRead eid _ _ => below 256 eid
  | .nvmeMiReset eid => below 256 eid
  | .hostAdd m => msgOk m
  | .hostRemove m => msgOk m
  | .hostList m => msgOk m
  | .retentionSet m => msgOk m
  | .rateSet m => msgOk m
  | .channelsSet m => msgOk m
  | .secdelSet m => msgOk m
  | .configGet m => msgOk m
  | .healthSummary m => msgOk m
  | .healthSensors m => msgOk m
  | .healthLogRead m => msgOk m
  | .goalSet m => msgOk m
  | .goalGet m => msgOk m
  | .decisions m => msgOk m
  | .sensorSample _ => true
  | .criticalCleared => true
  | .junctionComparatorTrip => true
  | .seal m => msgOk m
  | .retire m => msgOk m
  | .debugChallenge m => msgOk m
  | .debugOpen m => msgOk m
  | .keyCurtainDeadline => true
  | .debugClose m => msgOk m
  | .debugSessionExpiry => true
  | .debugKeySet m => msgOk m
  | .debugKeyRemove m => msgOk m
  | .debugStatus m => msgOk m
  | .attest m => msgOk m
  | .nonOperationalWake => true
  | .clockMonitorFault _ => true
  | .domainIdleGate domain _ => below 40 domain
  | .snufNFall => true
  | .freezeNow m => msgOk m
  | .freezeStatus m => msgOk m
  | .frzStatus => true
  | .dumpSel _ => true
  | .dumpData _ => true
  | .frzHbm _ => true
  | .frzReset => true
  | .calibGet m => msgOk m
  | .calibSet m => msgOk m
  | .calibClear m => msgOk m
  | .calibFactoryRead m => msgOk m
  | .channelRecalibration channel => below 64 channel
  | .scrub => true
  | .evlogStatus m => msgOk m
  | .evlogRead m => msgOk m
  | .evlogHold m => msgOk m
  | .evlogRelease m => msgOk m
  | .holdLimitExpiry _ => true
  | .evlogClear m => msgOk m
  | .evlogCatalog m => msgOk m
  | .suppressionSecond => true
  | .bboxStatus m => msgOk m
  | .bboxRead m => msgOk m
  | .bootFlashRefresh => true
  | .pwrDisRise => true
  | .pwrDisFall => true
  | .hotSwapOvercurrent => true
  | .auxSupplyLoss => true
  | .indexPageRebuildDone _ => true
  | .forwardCompletion ctrl sq cid _ r =>
    ctrlOk ctrl && below 65536 sq && below 65536 cid && below 4294967296 r.dw0 && below 4294967296 r.dw1
  | .witnessUnreachable => true
  | .chainReceiverLock => true
  | .tokenBlock _ _ => true
  | .pauseTimeExpiry port prio => portOk port && below 8 prio
  | .auxSupplyGood => true
  | .junctionComparatorClear => true
  | .mediaReadDone ctrl sq cid _ => ctrlOk ctrl && below 65536 sq && below 65536 cid
  | .rdmaReadResponse _ cid _ => below 65536 cid
  | .originPathOpened origin port => below 8 origin && portOk port
  | .originPathFailure origin port => below 8 origin && portOk port
  | .delayReqInterval => true
  | .invalidCommandOpcode c _ => cmdOk c
  | .attachReachTimeout => true

end Sys2Proof
end

