-- ==== Sys2Proof/Config.lean ====
section
/-! DEFINITION. What an implementation fixes and the manual leaves open, as constants without a body, and the
figures of the manual that several chapters share. -/

namespace Sys2Proof.Config

/-- A fresh free value: the manual gives an effect and no value (log 3). -/
opaque freeWord : Nat → BitVec 64

/-- Free bytes of a given length: nonces, secrets, UUIDs and random keys (log 3). -/
opaque freeBytes : Nat → Nat → Bytes

/-- The time, in nanoseconds, that passes at an idle step (log 1). -/
opaque idleNs : Nat → Nat

/-- The keyed hash H of a namespace identifier and a key under the hash seed; the manual gives its width and not its
algorithm (R114, log 4). -/
opaque keyedHash : Bytes → Nat → Key → BitVec 64

/-- A hedged ML-DSA-65 signature: by its fresh randomness, the secret its key pair is derived from, and the message (R226, log 4). -/
opaque mldsaSign : Nat → Bytes → Bytes → Bytes

/-- The purpose that HKDF-SHA-384 is given where it derives the KEK, and the additional data under which a PSK of a host and an
identity is wrapped, which the manual does not give (R218, R222, log 4). -/
opaque kekInfo : Bytes
opaque pskAad : Bytes → Bytes → Bytes

/-- What a record looks like under a key that has been erased, by namespace, key generation, nonce and offset (R221, log 5). -/
opaque lostSeal : Nat → Nat → Nat → Nat → Byte

/-- Bytes of Wax (0) and of NAND (1), by address, whose layout the manual does not give or that hold nothing current (R152, R180,
log 5). -/
opaque mediaByte : Nat → Nat → Byte

/-- Whether two signatures over a message verify under a hybrid public key (R226, log 4). -/
opaque hybridVerify : Bytes → Bytes → Bytes → Bytes → Bool

/-- Whether both public keys of an enrolment decode (R388). -/
opaque keyDecodes : Bytes → Bytes → Bool

/-- The drive's private ECDSA keys as numbers and its public ML-DSA keys, by the secret they are derived from, and its certificates, whose
derivation and content the manual does not spell out (R227, R238, R447, log 4): the receipt key, the DeviceID key, an Alias key. -/
opaque receiptScalar : Bytes → Nat
opaque deviceIdScalar : Bytes → Nat
opaque aliasScalar : Bytes → Nat
opaque receiptMldsaKey : Bytes → Bytes
opaque deviceIdMldsaKey : Bytes → Bytes
opaque certificate : Bytes → Nat → Bytes
opaque aliasCertificate : Bytes → Nat → Bytes
opaque firmwareKey : Bytes
opaque factoryDebugKeyId : Bytes
opaque factoryDebugKey : Bytes

/-- Factory microcode: the words of the ROM stores (R370), which the manual does not list. -/
opaque romMicro : Nat → BitVec 40
opaque romNano : Nat → BitVec 128
opaque romTaperMicro : Nat → BitVec 40
opaque romTaperNano : Nat → BitVec 128
opaque romVersionWick : BitVec 16
opaque romVersionTaper : BitVec 16

/-- The address at which a factory or patch routine suspended at an address goes on in a new image, by the image's hash and
resume map, whose form the manual does not give; none for an address that the map does not list (R384). -/
opaque resumeAddr : Bytes → Nat → Option Nat

/-- Factory-only ALU and port codes (R377, R378): their results are given nowhere. -/
opaque factoryAlu : BitVec 6 → BitVec 64 → BitVec 64 → BitVec 64
opaque factoryPort : BitVec 5 → BitVec 64 → BitVec 64

/-- The result of the ALU codes and shapes the manual calls reserved, which no checked program holds (R377). -/
opaque reservedAlu : BitVec 6 → BitVec 64 → BitVec 64 → BitVec 64

/-- Whether the n-th load beyond the end of a constant table, which reads 0, takes the time of a hit (R375, R378). -/
opaque tableLoadHits : Nat → Bool

/-- What log 05h says of the effects of an opcode beyond that the drive supports it, which the manual does not give (R79). -/
opaque commandEffects : Bool → Nat → BitVec 32

/-- The listing order of keys (R70): a rank fixed for each key. -/
opaque listingRank : Nat → Key → Nat

/-- The low byte of a named event's code, its severity and its parameters: the drive's catalogue gives them and the
manual names only those of the record unit (R491, log 10). -/
opaque eventLow : String → Nat
opaque eventSev : String → Nat
opaque eventParam : String → Nat → Nat → Nat

/-- The Do Not Retry bit of a status whose bit the manual does not state (R78, log 12). -/
opaque dnrOf : Status → Bool

/-- The catalogue text of an event code; the manual names no text (R491). -/
opaque catalogueText : Nat → Bytes

/-- The set of the result cache a lookup key falls in (R322). -/
opaque cacheSet : Bytes → BitVec 192 → Nat

/-- Vital product data, NVMe-MI data structures and factory calibration items, fixed at manufacture. -/
opaque vpd : Bytes
opaque miDataStructure : Nat → Bytes
opaque macAddress : Nat → BitVec 48

/-- The MAC address to which a port sends frames for an IP address (ARP and ND, which the manual leaves to their standards; log 27), and what
a TCP connection has put into headers: by connection, field and place in what it has sent (log 3). -/
opaque neighbour : Nat → Bytes → BitVec 48
opaque tcpOpen : Nat → Nat → Nat → BitVec 32

/-- The content of a frozen start's dump where the manual gives no layout or the cells hold nothing the model knows, by start,
section and offset (R480, log 35). -/
opaque dumpByte : Nat → Nat → Nat → Byte

/-- The patch RAM words and the patch traps that a firmware image carries, by the image's hash; the manual gives no layout of
them (R370, R386, R387, log 31). -/
opaque patchMicro : Bytes → List (Nat × BitVec 40)
opaque patchNano : Bytes → List (Nat × BitVec 128)
opaque patchTaperMicro : Bytes → List (Nat × BitVec 40)
opaque patchTaperNano : Bytes → List (Nat × BitVec 128)
opaque patchTraps : Bytes → List (Nat × Nat)
opaque patchTaperTraps : Bytes → List (Nat × Nat)

end Sys2Proof.Config

namespace Sys2Proof.Figure

/-- Most I/O controllers and discovery controllers (R50). -/
def maxIoControllers : Nat := 64
def maxDiscovery : Nat := 16
/-- I/O queue pairs of the pool and most per controller (R54). -/
def queuePairs : Nat := 8192
def maxPairsPerController : Nat := 1024
/-- Command contexts, per-queue reserves and the initiator share (R56, R293). -/
def contexts : Nat := 65536
def ioReserve : Nat := 4
/-- Queues of a path to the twin (R261). -/
def twinQueues : Nat := 16
def adminReserve : Nat := 8
def initiatorMax : Nat := 4096
def fillMax : Nat := 2048
/-- Largest value and record (R18, R154). -/
def maxValue : Nat := 67108864
def maxRecordBytes : Nat := 67109152
/-- Key limits (R125 to R127, R133). -/
def keysMax : Nat := 4000000000
def residentFull : Nat := 3200000000
def residentHalf : Nat := 1600000000
/-- Exported live bytes (R181). -/
def exportedBytes : Nat := 120000000000000
/-- Granules of the staging ring (R152, R162) and of one of its segments (R217). -/
def stagingGranules : Nat := 134217728
def segmentGranules : Nat := 32768
/-- Usable blocks of the journal ring (R158). -/
def journalBlocks : Nat := 29360128
/-- Leaves of an epoch (R75). -/
def epochLeaves : Nat := 8388608
/-- Log C1h record slots (R99). -/
def c1Slots : Nat := 1022
/-- CAM addresses (R242). -/
def camEntries : Nat := 65536
/-- The media write rate, bytes per second, at which packing and the read-back keep pace with burst stores (R163, R186). -/
def mediaRate : Nat := 18000000000
/-- Day in nanoseconds and one second. -/
def secondNs : Nat := 1000000000
def dayNs : Nat := 86400000000000

end Sys2Proof.Figure
end

