-- ==== Sys2Proof/Machine/State.lean ====
section
/-! DEFINITION. The state of the drive as plain data: every register, queue, table, counter, mode and pin the manual
gives it, each with its reset value as the field's default. A field's docstring names it, its width, the rule and file
that give it, and its reset value; `log n` names an entry of notes/assumptions. -/

namespace Sys2Proof.Machine

/-! ## Leaf types -/

/-- Durability levels, the codes of ACT_TWIN_MODE (R37, R249). -/
inductive Level where
  | loc | sync | async
  deriving DecidableEq, Repr

/-- Namespace types (R11). -/
inductive NsType where
  | plain | ledger | mirror
  deriving DecidableEq, Repr

/-- Sealing modes (R214). -/
inductive SealMode where
  | gcm | xts | ctr | cbc
  deriving DecidableEq, Repr

/-- Time states (R356). -/
inductive TimeState where
  | traceable | holdover | untraced
  deriving DecidableEq, Repr

/-- Twin roles (R260). -/
inductive TwinRole where
  | solo | primary | secondary | detachedStale
  deriving DecidableEq, Repr

/-- Lifecycle states (R442). -/
inductive Lifecycle where
  | blank | isSealed | debugOpen | retired
  deriving DecidableEq, Repr

/-- Where the drive stands between power-up and service (R168, R421, R422, R426, R430, R473, R533, R534). -/
inductive Phase where
  | off | tripped | ready | starting | serving | pilot | b0Failed | failedStart | fatal | frozen
  deriving DecidableEq, Repr

/-- The I/O commands (R68, R71). -/
inductive IoKind where
  | flush | store | longStore | retrieve | longRetrieve | list | delete | longDelete | exist | longExist
  | filteredList | getReceipt | secureDelete | holdKeyPlace | holdKeyRelease | holdNsPlace | holdNsRelease
  deriving DecidableEq, Repr

/-- Where an outstanding I/O command stands. The first four have not started; the others have (R57, R85, R88, R45,
R133, R163, R225, R161, R157, R295, R315, R267, R188, R106, R34). -/
inductive CmdPhase where
  | heldOrd | waitContext | waitRate | waitService
  | waitChain | waitStaging | intake | waitHash | waitJournal | waitBucket | pendingTwin
  | waitFill | waitMedia | waitTwinRepair | forwarded | forwardCommit | waitFlush | waitDeletions
  | running
  deriving DecidableEq, Repr

/-- A stored record (R154). The body is held as the key and value it seals (log 5). -/
structure StoredRec where
  nsid : Nat
  flags : BitVec 8
  seq : Nat
  key : Key
  value : Bytes
  keyGen : Nat
  mode : SealMode
  mediaSeal : Bool
  nonceCounter : Nat
  deriving DecidableEq, Repr

/-- SLOT_LOC: the space and granule of a record (R118). -/
inductive Loc where
  | wax (granule : Nat) | nand (granule : Nat)
  deriving DecidableEq, Repr

/-- An index slot with SLOT_VALID = 1 (R117). -/
structure Slot where
  fp : BitVec 24
  loc : Loc
  lenClass : BitVec 12
  stagedCopy : Bool
  twinPend : Bool
  fine : Bool
  hold : Bool
  long : Bool
  deriving DecidableEq, Repr

/-- BKT_OVF (R116). -/
inductive Ovf where
  | none | bucket (n : Nat) | spillMark (count : Nat)
  deriving DecidableEq, Repr

/-- An index bucket (R116): five slots and BKT_OVF. -/
structure Bucket where
  s0 : Option Slot := Option.none
  s1 : Option Slot := Option.none
  s2 : Option Slot := Option.none
  s3 : Option Slot := Option.none
  s4 : Option Slot := Option.none
  ovf : Ovf := .none
  deriving DecidableEq, Repr

/-- A spilled key: its hash, its slot and the bucket of the spill table that holds it (R126). -/
structure Spilled where
  h : BitVec 64
  slot : Slot
  bucket : Nat := 0
  deriving DecidableEq, Repr

/-- An event record without EV_VALID (R489): code, unit, severity, sequence, time, parameters, TQ. -/
structure EvRec where
  code : Nat
  unit : Nat
  sev : Nat
  seq : Nat
  time : Nat
  p0 : Nat
  p1 : Nat
  p2 : Nat
  tq : BitVec 8
  deriving DecidableEq, Repr

/-- A start header in the start ring (R428, R503): start number, image, outcome, fails, cause, time. -/
structure StartHead where
  start : Nat
  image : Nat
  outcome : Nat
  fails : Nat
  cause : Nat
  time : Nat
  deriving DecidableEq, Repr

/-- A black box record (R504). -/
structure BbRec where
  kind : Nat
  tq : BitVec 8
  source : Nat
  start : Nat
  seq : Nat
  time : Nat
  body : List Nat
  deriving DecidableEq, Repr

/-- A boot-flash copy of the black box, the kept area and the newest circulating records (R508). -/
structure FlashCopy where
  gen : Nat
  time : Nat
  fault : List BbRec
  starts : List StartHead
  perm : List BbRec
  tail : List BbRec
  counters : List Nat
  faultAdded : Nat
  startAdded : Nat
  permRecords : Nat
  kept : List EvRec
  circ : List EvRec
  deriving DecidableEq, Repr

/-- Journal record types (R158). -/
inductive JrType where
  | store | delete | secdel | hold | pack | move | twinAck | loss
  deriving DecidableEq, Repr

/-- A journal record (R158): `h` is JR_H and `aux` JR_AUX; the check fields follow from the others. -/
structure JRec where
  type : JrType
  twinLevel : Bool := false
  twinSync : Bool := false
  leaf : Option Bytes := none
  nsid : Nat := 0
  key : Key := []
  h : BitVec 64 := 0
  seq : Nat := 0
  time : Nat := 0
  tq : BitVec 8 := 0
  loc : Option Loc := none
  lenClass : BitVec 12 := 0
  aux : Nat := 0
  action : BitVec 16 := 0
  deriving DecidableEq, Repr

/-- A copy of the journal control block (R160): generation, replay start as ring offset and lap, highest commit sequence in delta
segments, NAND location of the newest delta segment list. -/
structure CtlBlock where
  gen : Nat
  offset : Nat
  lap : Nat
  condensed : Nat
  deltas : Option Nat
  deriving DecidableEq, Repr

/-- A log C1h record (R99). -/
structure DeRec where
  kind : Nat := 0
  state : Nat := 0
  cntlid : Nat := 0
  sqid : Nat := 0
  cid : Nat := 0
  nsid : Nat := 0
  key : Key := []
  tq : BitVec 8 := 0
  seq : Nat := 0
  time : Nat := 0
  eventTime : Nat := 0
  host : Nqn := []
  bands : Nat := 0
  erased : Nat := 0
  deriving DecidableEq, Repr

/-- A waiting carrier: its queue if one is chosen, the host it serves (none: any host, R173), and its record (none:
Dword 0 is FFFFFFFFh) (R97, R105). -/
structure Carrier where
  queue : Option (Nat × Nat)
  host : Option Nqn
  record : Option Nat
  deriving DecidableEq, Repr

/-- A namespace (R11, R37, R34, R259). -/
structure Ns where
  nsid : Nat
  type : NsType
  mode : SealMode
  level : Option Level := none
  attached : List Nat := []
  tags : List Nat := []
  stackScope : Bool := false
  deriving DecidableEq, Repr

/-- An entry of the key-scope hold table (R35). -/
structure KeyHold where
  nsid : Nat
  tag : Nat
  seq : Nat
  deriving DecidableEq, Repr

/-- A rate class: its ceilings, and what it has charged in the current second (R45). -/
structure RateClass where
  cps : Nat := 0
  bps : Nat := 0
  usedC : Nat := 0
  usedB : Nat := 0
  deriving DecidableEq, Repr

/-- An enrolled host (R42, R51, R411). -/
structure HostRow where
  nqn : Nqn
  group : Nat
  level : Nat
  deriving DecidableEq, Repr

/-- A queue of a controller (R54, R55): how many entries the drive has fetched from it (R57, R88). -/
structure Queue where
  qid : Nat
  size : Nat
  conn : Nat
  fetched : Nat := 0
  deriving DecidableEq, Repr

/-- A controller (R50 to R55, R64 to R66, R92). -/
structure Ctrl where
  cntlid : Nat
  host : Nqn
  discovery : Bool
  enabled : Bool := true
  ready : Bool := true
  kato : Nat
  kaStart : Nat := 0
  granted : Nat := 0
  queues : List Queue
  aers : List Nat := []
  events : List EventKind := [.smartHealth, .nsAttribute, .fwActivation, .anaChange, .logC1, .logC3, .logC4]
  masked : List EventKind := []
  raised : List EventKind := []
  burst : Nat := 0
  deriving DecidableEq, Repr

/-- A transport connection (R59, R62, R63, R223, R224, R333, R337): `rate` is its send rate in millionths and `slowed` the time and the rate
from which it recovers, `cnpSent` the monotonic time from which it may be sent a congestion notification again, `addr` the address and
`tcpPort` the port of the drive it uses, `peer` and `peerPort` those of the other end; `mss`, `v6`, `options`, `wscale` and `sack` are the
peer's MSS, the IP version, the bytes of TCP options, and window scaling and SACK where they are in use (R343), `mtu` PC_MTU as it was when
the connection opened (R351); `txRecords` are the TLS records sent under its traffic key, `txSecret` and `rxSecret` the traffic secrets (R224). -/
structure Conn where
  id : Nat
  port : Nat
  rdma : Bool
  tls : Bool := false
  tlsHost : Nqn := []
  ready : Bool := false
  hdgst : Bool := false
  ddgst : Bool := false
  maxr2t : Nat := 0
  ctrl : Option (Nat × Nat) := none
  txRecords : Nat := 0
  txGen : Nat := 0
  rxGen : Nat := 0
  txSecret : Bytes := []
  rxSecret : Bytes := []
  rate : Nat := 1000000
  cnpSent : Nat := 0
  addr : Bytes := []
  tcpPort : Nat := 4420
  mss : Nat := 8960
  v6 : Bool := false
  options : Nat := 12
  mtu : Nat := 9000
  peer : Bytes := []
  peerPort : Nat := 0
  wscale : Option Nat := none
  sack : Bool := false
  slowed : Option (Nat × Nat) := none
  deriving DecidableEq, Repr

/-- A CAM entry record (R243). -/
structure CamEntry where
  nsid : BitVec 32 := 0
  nsidMask : BitVec 32 := 0
  pfx : BitVec 128 := 0
  pfxMask : BitVec 128 := 0
  op : BitVec 8 := 0
  opMask : BitVec 8 := 0
  hgroup : BitVec 16 := 0
  hgroupMask : BitVec 16 := 0
  prio : BitVec 16 := 0
  flags : BitVec 16 := 0
  rsvd : BitVec 16 := 0
  action : ActWord := 0
  crc : BitVec 32 := 0
  deriving DecidableEq, Repr

/-- An outstanding I/O command (R56, R88, R94, R156, R267): `keyGen` is the key generation its staging seal takes (R216), `passed` says
that its checks have passed and it commits once the journal has room (R34, R161), `judged` that the policy has given it its action and `locWin` the local winner it keeps while the chain is asked (R247), `entry` numbers its entry of the queue (R57), `waitResync` that a Flush waits for the end of a resynchronisation (R106). -/
structure Cmd where
  ctrl : Nat
  sq : Nat
  fetch : Nat
  kind : IoKind
  e : Sqe
  phase : CmdPhase
  key : Key := []
  ord : Bool := false
  action : ActWord := 0
  rateCharged : Bool := false
  got : Bytes := []
  granule : Option Nat := none
  granules : Nat := 0
  seq : Option Nat := none
  loc : Option Loc := none
  stage : Nat := 0
  leaf : Option (Nat × Nat) := none
  waitSeqs : List Nat := []
  forwardedFrom : Option (Nat × Nat × Nat) := none
  fwdHost : Nqn := []
  pos : Key := []
  count : Nat := 0
  spent : Nat := 0
  keyGen : Nat := 0
  passed : Bool := false
  judged : Bool := false
  entry : Nat := 0
  waitResync : Bool := false
  locWin : Option (Nat × CamEntry) := none
  evals : List (Key × Option Bool) := []
  deriving DecidableEq, Repr

/-- An outstanding admin command that ends in a later step. -/
structure AdminJob where
  ctrl : Nat
  cid : Nat
  what : Nat
  target : Option (Nat × Nat × Nat) := none
  deriving DecidableEq, Repr

/-- A key record, in a slot of the key table: the counter of its wrap nonce, and its data key as it is wrapped under the KEK, with the tag
(R219). -/
structure KeyRec where
  nsid : Nat
  gen : Nat
  state : Nat
  mode : SealMode
  kekGen : Nat
  nonce : Nat
  wrapped : Bytes
  tag : Bytes
  slot : Nat := 0
  time : Nat
  tq : BitVec 8
  deriving DecidableEq, Repr

/-- A pre-shared key in the records region, wrapped under the KEK (R62, R222, R224, R240). -/
structure Psk where
  host : Nqn
  identity : Bytes
  kekGen : Nat
  nonce : Nat
  wrapped : Bytes
  tag : Bytes
  deriving DecidableEq, Repr

/-- A receipt leaf with what the receipt store keeps of it (R229, R234). -/
structure Leaf where
  hash : Bytes
  valueHash : Bytes
  nsid : Nat
  key : Key
  seq : Nat
  time : Nat
  tq : BitVec 8
  deriving DecidableEq, Repr

/-- The open epoch (R228). -/
structure OpenEpoch where
  number : Nat
  lengthMs : Nat
  openMono : Nat
  openTime : Nat
  debug : Bool
  leaves : List Leaf
  deriving DecidableEq, Repr

/-- A closed epoch: its 176-byte root record, its leaves and its signatures once made (R231, R232, R234). -/
structure ClosedEpoch where
  number : Nat
  root : Bytes
  leaves : List Leaf
  sigs : Option (Bytes × Bytes) := none
  deriving DecidableEq, Repr

/-- A signed root record with its two signatures, of which the newest 1,024 stay in Wax (R234). -/
structure SignedRoot where
  root : Bytes
  ecdsa : Bytes
  mldsa : Bytes
  deriving DecidableEq, Repr

/-- A running rotation (kind 0) or erase sweep (kind 1) (R220, R221). -/
structure KeyJob where
  nsid : Nat
  kind : Nat
  pct : Nat
  started : Nat
  deriving DecidableEq, Repr

/-- A directory entry in Lamplighter SRAM (R256), with the disabled state of R257. -/
structure CamDir where
  nsid : BitVec 32 := 0
  nsidMask : BitVec 32 := 0
  crc : BitVec 32 := 0
  valid : Bool := false
  disabled : Bool := false
  isGlobal : Bool := false
  deriving DecidableEq, Repr

/-- A twin lag log entry (R277); `loss` marks one that stands for a record lost after the twin had acknowledged it (R542). -/
structure LagEntry where
  seq : Nat
  nsid : Nat
  kind : WriteKind
  key : Key
  sync : Bool
  superseded : Bool
  bytes : Nat
  tag : Nat
  loss : Bool := false
  deriving DecidableEq, Repr

/-- A committed write that waits for the twin outside the index, with what its index update needs (R157, R171): `slot` is
the log C1h slot of a Secure Delete, and `applied` says that
it is a hold of a namespace scope whose effect began at its commit (R34). -/
structure Pend where
  seq : Nat
  kind : WriteKind
  nsid : Nat
  key : Key
  loc : Option Loc
  flags : BitVec 8
  value : Bytes
  tag : Nat
  action : BitVec 16
  time : Nat
  tq : BitVec 8
  cmd : Option (Nat × Nat × Nat)
  host : Nqn
  slot : Nat := 1022
  applied : Bool := false
  deriving DecidableEq, Repr

/-- Who issued a write that can still be lost: its controller, queue, identifier and host, its commit time and time
quality (R96, R99). -/
structure Owner where
  ctrl : Nat
  sq : Nat
  cid : Nat
  host : Nqn
  time : Nat
  tq : BitVec 8
  deriving DecidableEq, Repr

/-- An origin record (R291). -/
structure OriginRec where
  flags : BitVec 8
  timeoutMs : Nat
  maxFills : Nat
  tcpPort : Nat
  addrA : Bytes
  addrB : Bytes
  nqn : Nqn
  deriving DecidableEq, Repr

/-- A Mirror binding (R294). -/
structure Binding where
  nsid : Nat
  origin : Nat
  fallback : Option Nat
  staleOk : Bool
  ttlS : Nat
  negTtlS : Nat
  originNsid : Nat
  deriving DecidableEq, Repr

/-- What the drive asks for where it opens a path to an origin: the host NQN it gives, the origin's NQN, address and TCP port, whether TLS is
used, admin and I/O queues and their entries, KATO in milliseconds, and the header and data digests (R292). -/
structure OriginLink where
  host : Nqn := []
  nqn : Nqn := []
  addr : Bytes := []
  tcpPort : Nat := 4420
  tls : Bool := false
  adminQueues : Nat := 1
  ioQueues : Nat := 8
  entries : Nat := 128
  katoMs : Nat := 10000
  hdgst : Bool := true
  ddgst : Bool := true
  deriving DecidableEq, Repr

/-- A path to an origin, open or waiting for its next attempt, with what it is opened with (R292). -/
structure OriginPath where
  origin : Nat
  port : Nat
  isOpen : Bool
  retryDelayS : Nat
  link : OriginLink := {}
  retired : Bool := false
  deriving DecidableEq, Repr

/-- A fill (R296, R297, R302): `stage` 0 waits for room, 1 the first Retrieve, 2 the full-length Retrieve, 3 fetched
and ready to commit; `sent` says that its Retrieve is at the origin, on the path of `port`; an abandoned one stores
nothing (R304); `binding`, `record` and `fallbackRec` are the binding and the origin records in force when it began (R291, R294). -/
structure Fill where
  nsid : Nat
  key : Key
  origin : Nat
  stage : Nat
  repeats : Nat
  onFallback : Bool
  len : Nat
  value : Bytes
  granule : Option Nat
  granules : Nat
  hint : BitVec 2
  abandoned : Bool := false
  sent : Bool := false
  port : Nat := 0
  waitsJournal : Bool := false
  binding : Binding := { nsid := 0, origin := 0, fallback := none, staleOk := false, ttlS := 0, negTtlS := 0, originNsid := 0 }
  record : Option OriginRec := none
  fallbackRec : Option OriginRec := none
  deriving DecidableEq, Repr

/-- A Mirror negative entry (R301). -/
structure NegEntry where
  nsid : Nat
  h : BitVec 64
  expiry : Nat
  deriving DecidableEq, Repr

/-- The counts of CONFIG.ORIGIN_STATUS beyond paths and fills outstanding (R305). -/
structure OriginCounts where
  completed : Nat := 0
  absent : Nat := 0
  coalesced : Nat := 0
  negative : Nat := 0
  errors : Nat := 0
  stale : Nat := 0
  bytes : Nat := 0
  deriving DecidableEq, Repr

/-- A result cache entry (R322): `winner` none is "no global match". -/
structure CacheEntry where
  key : BitVec 192
  winner : Option (Nat × Nat)
  epoch : Nat
  deriving DecidableEq, Repr

/-- A global lookup waiting or in flight, with the commands and CAM.LOOKUP messages that wait for it (R315, R318). -/
structure GLookup where
  key : BitVec 192
  gen : Nat
  epoch : Nat
  inFlight : Bool
  cmds : List (Nat × Nat × Nat)
  msgs : List MsgReq := []
  deriving DecidableEq, Repr

/-- A member's row of log C4h (R326). -/
structure Member where
  pos : Nat
  beacon : Bool
  replica : Bool
  driveId : Bytes
  joinTime : Nat
  deriving DecidableEq, Repr

/-- What a witness knows of a drive it polls (R273, R274): its position, its pair, whether STACK is its witness mode, its role code, term and
REQUEST, the monotonic time of its last reply, and that at which REQUEST was first seen. -/
structure WitnessView where
  pos : Nat
  pairId : Bytes
  stackMode : Bool
  role : Nat
  term : Nat
  request : Bool
  at_ : Nat
  asked : Nat
  deriving DecidableEq, Repr

/-- A change of global rules between PEND and SET (R321): the addresses, whether step 3 is done and SET has been queued,
the mailbox message it carries out and answers, whether its first PEND has left, and whether the chain has failed since. -/
structure RuleChange where
  addrs : List Nat
  written : Bool
  setSent : Bool
  req : MsgReq
  op : Nat
  pendSent : Bool := false
  failed : Bool := false
  /-- The record and the reason for which the checks have refused it since, and step 3 is not done (R250). -/
  refused : Option (Nat × Nat) := none
  deriving DecidableEq, Repr

/-- What every segment of a send descriptor copies (R343): the addresses and TCP ports of the connection, the DSCP of its class (R335), and
what no rule gives: the hop limit, the flow label (of IPv4 its lowest bit forbids fragments), the acknowledgement, the window field and the
options. -/
structure SegHead where
  v6 : Bool
  src : Bytes
  dst : Bytes
  sport : Nat
  dport : Nat
  dscp : Nat
  hops : BitVec 8
  label : BitVec 20
  ack : BitVec 32
  window : BitVec 16
  options : Bytes
  deriving DecidableEq, Repr

/-- A TCP segment as the MAC sends it (R343). -/
structure Segment where
  head : SegHead
  ipId : BitVec 16
  seq : BitVec 32
  cwr : Bool
  psh : Bool
  fin : Bool
  payload : Bytes
  deriving DecidableEq, Repr

/-- A frame waiting in a transmit queue (R336, R346), with the destination and the VLAN ID of its tag, where it has one (R333, R349), its
traffic class and DSCP (R335), whether it has ECT set (R337), and the TCP segment it carries (R343). -/
structure TxFrame where
  len : Nat
  tag : Nat
  wantsTs : Bool := false
  probe : Bool := false
  dest : BitVec 48 := 0
  vlan : Option Nat := none
  cls : Nat := 0
  dscp : Nat := 0
  ect : Bool := false
  seg : Option Segment := none
  deriving DecidableEq, Repr

/-- How far a connection has come in what the port has sent for it (R223, R343): the bytes of its TCP stream, the IPv4 identifications used,
and the TLS records under the traffic key of a generation. -/
structure TxPos where
  conn : Nat
  bytes : Nat := 0
  ids : Nat := 0
  gen : Nat := 0
  records : Nat := 0
  deriving DecidableEq, Repr

/-- A timestamp queue entry (R347); `frac` counts 2^-16 ns. -/
structure TsEntry where
  time : Nat
  frac : Nat := 0
  tag : Nat
  queue : Nat
  probe : Bool
  deriving DecidableEq, Repr

/-- A port configuration record (R351). -/
structure PortCfg where
  types : BitVec 8 := 7
  flow : Nat := 2
  lossless : BitVec 8 := 8
  services : BitVec 8 := 5
  mtu : Nat := 9000
  watchdogMs : Nat := 100
  lpiMaxTw : Nat := 20
  classPcp : List Nat := [7, 6, 5, 4, 3, 2, 0, 0]
  classDscp : List Nat := [48, 46, 34, 26, 24, 10, 0, 0]
  ceiling : List Nat := [0, 0, 0, 0, 0, 0, 0, 10]
  deriving DecidableEq, Repr

/-- An IP interface (R333). -/
structure IpIf where
  index : Nat
  vlan : Nat
  ipv4 : Option (Bytes × Nat)
  ipv6 : List Bytes
  deriving DecidableEq, Repr

/-- The counters of one priority (R350). -/
structure PrioCounters where
  txFrames : Nat := 0
  txOctets : Nat := 0
  rxFrames : Nat := 0
  rxOctets : Nat := 0
  pfcRx : Nat := 0
  pfcTx : Nat := 0
  pausedUs : Nat := 0
  wdBreaks : Nat := 0
  deriving DecidableEq, Repr

/-- The counters of one port (R350). -/
structure PortCounters where
  rxOctets : Nat := 0
  rxFramesOk : Nat := 0
  rxFcsErr : Nat := 0
  rxOversize : Nat := 0
  rxUndersize : Nat := 0
  rxVlanUnknown : Nat := 0
  rxGroupUnwanted : Nat := 0
  rxBufferDrop : Nat := 0
  txOctets : Nat := 0
  txFrames : Nat := 0
  txLinkDownDrop : Nat := 0
  fecCorrected : Nat := 0
  fecUncorrected : Nat := 0
  linkDownEvents : Nat := 0
  lpiTxUs : Nat := 0
  lpiRxUs : Nat := 0
  lpiWakes : Nat := 0
  tsRequests : Nat := 0
  tsLost : Nat := 0
  tsLostPtp : Nat := 0
  pauseRx : Nat := 0
  pauseTx : Nat := 0
  pauseIgnored : Nat := 0
  tsoSegments : Nat := 0
  wdOwnBreaks : Nat := 0
  rxLosslessDrop : Nat := 0
  prio : List PrioCounters := List.replicate 8 {}
  deriving DecidableEq, Repr

/-- A probe burst of DIAG.LINK_PROBE (R349): of each probe that has left its index and its timestamp, ns and 2^-16 ns, unless that was lost. -/
structure Probe where
  count : Nat
  len : Nat
  sent : Nat := 0
  results : List (Nat × Option (Nat × Nat)) := []
  req : MsgReq
  deriving DecidableEq, Repr

/-- One Ethernet port (R327 to R351). -/
structure Port where
  /-- The port configuration record in force; R351 (12); reset as shipped. -/
  cfg : PortCfg := {}
  /-- Link: none down, or the PHY type; R327, R328 (12); reset down. -/
  link : Option PhyType := none
  /-- Port disabled for this start because its start did not end in 100 ms; R422 B9 (16); reset no. -/
  startDisabled : Bool := false
  /-- EEE resolved and the transmit wake time in force, µs; R344 (12); reset no and 0. -/
  eee : Bool := false
  wakeUs : Nat := 0
  /-- Monotonic time of the last event on a partner without a common type; R328 (12); reset none. -/
  noCommon : Option Nat := none
  /-- Transmitter in Low Power Idle; R345 (12); reset no. -/
  lpi : Bool := false
  /-- IP interfaces, at most 16; R333 (12); reset none. -/
  ifs : List IpIf := []
  /-- Group hash table, 512 bits; R334 (12); reset DESIGN CHOICE 0 (log 2). -/
  groupHash : BitVec 512 := 0
  /-- Eight transmit queues; R336 (12); reset empty. -/
  txq : List (List TxFrame) := List.replicate 8 []
  /-- Queues held by received pause; R338 (12); reset none. -/
  held : List Bool := List.replicate 8 false
  /-- Priorities whose received pause is ignored after a watchdog break; R341 (12); reset none. -/
  broken : List Bool := List.replicate 8 false
  /-- Priorities on which this drive holds XOFF; R339 (12); reset none. -/
  xoff : List Bool := List.replicate 8 false
  /-- Priorities whose own pause is stopped; R342 (12); reset none. -/
  ownBroken : List Bool := List.replicate 8 false
  /-- Receive buffer occupancy per priority, bytes; R339 (12); reset 0. -/
  occupancy : List Nat := List.replicate 8 0
  /-- Timestamp queue, at most 64 entries; R347 (12); reset empty. -/
  tsq : List TsEntry := []
  /-- Counters; R350 (12); reset 0. -/
  cnt : PortCounters := {}
  /-- Probe burst running; R349 (12); reset none. -/
  probe : Option Probe := none
  /-- Port disabled by PS4 because the other port's link is kept; R459 (17); reset no. -/
  gatedPs4 : Bool := false
  /-- PHY PLL lock; R469 (18); reset locked once B9 has run, DESIGN CHOICE false (log 2). -/
  pllLocked : Bool := false
  /-- What has been sent for each connection of the port; R223, R343 (07, 12); reset nothing. -/
  sent : List TxPos := []
  /-- Ingress timestamp in the receive descriptor of the newest PTP event frame, ns; R346 (12); reset none. -/
  ingress : Option Nat := none
  /-- A Delay_Req has left whose timestamp was lost: the servo discards the exchange it belongs to; R348 (12); reset no. -/
  tsMissed : Bool := false
  /-- Corrected-codeword rate by which transmit equalisation stands, and that equalisation; R329 (12); reset 0. -/
  fecRate : Nat := 0
  equal : Nat := 0
  deriving DecidableEq, Repr

/-- A time reference's servo (R356, R360 to R362): its last 16 offsets, the exchanges or edges in a row with a servo bound
within 1,000 ns, its last servo bound, and the reference's time less the drive's clock at the last one. -/
structure Servo where
  offsets : List Int := []
  run : Nat := 0
  qualified : Bool := false
  lastBound : Nat := 0
  phase : Int := 0
  deriving DecidableEq, Repr

/-- A foreign master the drive has heard (R358, R359). -/
structure ForeignMaster where
  port : Nat
  an : Announce
  deriving DecidableEq, Repr

/-- The PTP configuration of one port, and whether its interface has stayed usable (R540). -/
structure PtpPort where
  enabled : Bool := false
  transport : Nat := 0
  iface : Nat := 0
  usable : Bool := true
  deriving DecidableEq, Repr

/-- An Untraced span (R365): first and last commit sequence, and the trace point once closed. -/
structure Span where
  first : Nat
  last : Nat
  trace : Option Nat
  deriving DecidableEq, Repr

/-- An entry of the commit time table (R363). -/
structure CommitTime where
  seq : Nat
  time : Nat
  tq : BitVec 8
  cls : Nat
  deriving DecidableEq, Repr

/-- What the index base, with its delta segments, holds of a key that a journal record names: its slot, and its entry of the commit
time table (R131, R171). -/
structure BaseKey where
  nsid : Nat
  key : Key
  slot : Option Slot
  commit : Option CommitTime
  deriving DecidableEq, Repr

/-- A reservation of staging that waits: a store by its fetch number, a fill by namespace and key, or the first write of the twin
that waits (R163, R197, R293). -/
inductive Waiter where
  | store (fetch : Nat) | fill (nsid : Nat) (key : Key) | twin
  deriving DecidableEq, Repr

/-- A Wick engine or, in its sequencing part, a Taper sequencer (R370 to R383). A load holds its register, its value and
the cycle at which it returns. -/
structure Engine where
  pc : Nat := 0
  start : Nat := 0
  regs : List (BitVec 64) := List.replicate 64 0
  z : Bool := false
  c : Bool := false
  n : Bool := false
  v : Bool := false
  lc : BitVec 16 := 0
  stack : List Nat := []
  running : Bool := false
  prog : Option Nat := none
  cmd : Option (Nat × Nat × Nat) := none
  forerunner : Bool := false
  keyWindow : Key := []
  loads : List (Nat × BitVec 64 × Nat) := []
  memReady : Bool := false
  hashBusy : Bool := false
  hashDue : Nat := 0
  hashWait : Bool := false
  hashReady : Bool := false
  hash : Bytes := []
  hashBad : Bool := false
  pins : BitVec 128 := 0
  abortReq : Bool := false
  suspendReq : Bool := false
  drainReq : Bool := false
  waiting : Bool := false
  cycles : Nat := 0
  heldFault : Option Nat := none
  fault : Option (Nat × Nat) := none
  suspended : Bool := false
  stopped : Bool := false
  deriving DecidableEq, Repr

/-- The RAM of one Taper sequencer's stores, and its patch traps (R370, R386). -/
structure TaperStore where
  micro : List (Nat × BitVec 40) := []
  nano : List (Nat × BitVec 128) := []
  traps : List (Nat × Nat) := []
  deriving DecidableEq, Repr

/-- A loaded customer program (R389 to R394). -/
structure Program where
  id : Nat
  slot : Nat
  forerunner : Bool
  micro : List (BitVec 40)
  nano : List (BitVec 128)
  table : Bytes
  entry : Nat
  keyLimit : Nat
  budget : Nat
  ver : Nat
  microBase : Nat
  nanoBase : Nat
  tableBase : Nat
  loadTime : Nat
  draining : Bool
  image : Bytes
  deriving DecidableEq, Repr

/-- A kept reply (R404). -/
structure KeptReply where
  source : Bytes
  seq : Nat
  cls : Nat
  op : Nat
  posted : Nat
  time : Nat
  tq : BitVec 8
  status : Nat
  detail : Nat
  payloads : List Bytes
  deriving DecidableEq, Repr

/-- A reply waiting in a mailbox (R403). -/
structure Reply where
  dst : Nat
  cls : Nat
  op : Nat
  tag : Nat
  seq : Nat
  status : Nat
  flags : Nat
  detail : Nat
  time : Nat
  tq : BitVec 8
  payload : Bytes
  deriving DecidableEq, Repr

/-- A mailbox (R402 to R408). -/
structure Mailbox where
  queue : List (MsgReq × Nat × Nat × Bool) := []
  replies : List Reply := []
  inFlight : Nat := 0
  owner : Nat := 0
  owned : Bool := false
  held : Bool := false
  overrun : Bool := false
  msgs : Nat := 0
  rejects : Nat := 0
  hdr : BitVec 256 := 0
  window : Bytes := []
  kept : List KeptReply := []
  epoch : Nat := 0
  orphan : Bool := false
  deriving DecidableEq, Repr

/-- A control loop, with the monotonic times of its last events on a change and on entry to state 02h (R419). -/
structure Loop where
  state : Nat := 0
  limitBy : Nat := 0
  setting : Nat := 0
  changes : Nat := 0
  lastTime : Nat := 0
  changeEvent : Option Nat := none
  limitEvent : Option Nat := none
  deriving DecidableEq, Repr

/-- A step slot of the boot ledger (R428). -/
structure StepSlot where
  state : Nat := 0
  method : Nat := 0
  detail : Nat := 0
  began : Nat := 0
  ended : Nat := 0
  fault : Nat := 0
  deriving DecidableEq, Repr

/-- A start entry of the boot ledger (R428). -/
structure StartEntry where
  start : Nat
  image : Nat
  outcome : Nat
  fails : Nat
  cause : Nat
  time : Nat
  steps : List StepSlot
  deriving DecidableEq, Repr

/-- A firmware image in a slot (R435): the header fields the drive acts on. -/
structure FwImage where
  svn : Nat
  floor : Nat
  rev : Bytes
  len : Nat
  hoFormat : Nat
  hoMin : Nat
  twinProto : Nat
  patchVer : Nat
  hash : Bytes
  deriving DecidableEq, Repr

/-- The boot record: BR_ACTIVE and BR_TRIAL (R434). -/
structure BootRecord where
  active : Nat := 0
  trial : Option Nat := none
  deriving DecidableEq, Repr

/-- A band (R177 to R185): its members as (channel, die, block) in channel order, its record list of hashes, the designated
channels of its opening, how far its records and its internal data have been written, in granules in unit order, the padding
markers in it, how many of its written pages the patrol pass in progress has read, whether its read-back has ended, and the pages that
failed it (R186). -/
structure Band where
  number : Nat
  kind : StreamKind
  state : Nat
  openSeq : Nat
  openTime : Nat
  tq : BitVec 8
  members : List (Nat × Nat × Nat)
  hashes : List (BitVec 64)
  slot : Option Nat
  lastWrite : Nat
  channels : BitVec 16 := 0
  fill : Nat := 0
  fillInt : Nat := 0
  pads : List Nat := []
  read : Nat := 0
  checked : Bool := false
  failed : List Nat := []
  deriving DecidableEq, Repr

/-- A band header, in page 0, plane 0 of a member (R178). -/
structure BandHeader where
  kind : StreamKind
  replacement : Bool
  band : Nat
  ec : Nat
  openSeq : Nat
  members : List (Nat × Nat × Nat)
  openTime : Nat
  tq : BitVec 8
  deriving DecidableEq, Repr

/-- A 4 KiB page of internal data on NAND (R180): an index checkpoint page, delta segments of one condensing, a page of the spill
table, a record list page of a band from an entry on, and a copy of the erase-count table. -/
inductive IntPage where
  | index (page : Nat)
  | delta (gen part : Nat)
  | spill (page : Nat)
  | recordList (band first : Nat)
  | eraseCounts (part : Nat)
  deriving DecidableEq, Repr

/-- Wear and health of a block set (R196, R200): erases, patrol event times, counted read-back failures, retired. -/
structure BlockSet where
  erases : Nat := 0
  patrol : List Nat := []
  retired : Bool := false
  deriving DecidableEq, Repr

/-- A running Secure Delete removal; `stuck` says that a copy lies in a block set that cannot be erased (R203, R204). -/
structure SecDelJob where
  slot : Option Nat
  nsid : Nat
  key : Key
  h : BitVec 64
  bands : List Nat
  done : Nat
  total : Nat
  started : Nat
  urgent : Bool
  overdue : Bool
  host : Nqn
  stuck : Bool := false
  seq : Nat := 0
  deriving DecidableEq, Repr

/-- An item of the factory calibration record (R483). -/
structure CalItem where
  item : Nat
  cat : Nat
  fuse : Bool
  value : Int
  min : Int
  max : Int
  deriving DecidableEq, Repr

/-- The factory items as the model ships them (R482, log 2): their values and limits are fixed at manufacture. -/
def factoryItems : List CalItem :=
  let run (lo n cat : Nat) (fuse : Bool) (lim : Int) : List CalItem :=
    (List.range n).map fun i => { item := lo + i, cat := cat, fuse := fuse, value := 0, min := -lim, max := lim }
  run 0x100 3 1 true 100 ++ run 0x200 5 2 false 20000 ++ run 0x300 8 3 false 50 ++ run 0x400 8 4 false 100
    ++ run 0x500 2 5 false 100 ++ run 0x700 512 7 false 100

/-- One of the two copies in which a record is kept: its generation, what it holds, and whether its check holds (R434, R484). -/
structure Copy (α : Type) where
  gen : Nat := 0
  data : α
  ok : Bool := true
  deriving DecidableEq, Repr

/-- A record in two copies (R434, R484). -/
structure Copies (α : Type) where
  a : Copy α
  b : Copy α
  deriving DecidableEq, Repr

/-- Two copies alike. -/
def Copies.fresh {α : Type} (x : α) : Copies α := ⟨{ data := x }, { data := x }⟩

/-- A user calibration entry (R484). -/
structure CalUser where
  item : Nat
  clamped : Bool
  delta : Int
  deriving DecidableEq, Repr

/-- The user calibration record: its entries, CUH_TIME and CUH_TQ (R484). -/
structure UserCal where
  entries : List CalUser := []
  time : Nat := 0
  tq : BitVec 8 := 0
  deriving DecidableEq, Repr

/-- A cache line in a way: tag word and data (R135, R151). -/
structure Way where
  tag : Nat
  dirty : Bool
  data : Bytes
  deriving DecidableEq, Repr

/-- A miss register (R139, R151): waiters are counted, merged writes kept in order; `arrived` is a fill whose line waits
for room in the Chimney (R144). -/
structure Miss where
  line : Nat
  drop : Bool
  secondary : Nat
  readers : Nat
  merged : List CacheWrite
  arrived : Bool := false
  deriving DecidableEq, Repr

/-- A Chimney entry (R141, R151); `swept` is one that the running invalidation command wrote back, `leaves` one that
an invalidation of its range drops once HBM3 has accepted it (R146). -/
structure Chim where
  line : Nat
  dirty : Bool
  valid : Bool
  pending : Bool
  data : Bytes
  swept : Bool := false
  leaves : Bool := false
  deriving DecidableEq, Repr

/-- A write-back that waits for an earlier one of its line (R143), or an access that waits for room (R139, R144). -/
structure CacheWait where
  line : Nat
  write : Option CacheWrite
  deriving DecidableEq, Repr

/-- A device self-test (R516, R518). -/
structure SelfTest where
  extended : Bool
  ctrl : Nat
  nsid : Nat
  suspended : Bool
  deriving DecidableEq, Repr

/-- What an indicator shows: off, on, a blink of 1 or 4 Hz, 0.5 s in every 4 s, or on with gaps while a command runs (R535). -/
inductive Led where
  | off | on | blink1Hz | blink4Hz | slow | activity
  deriving DecidableEq, Repr

/-- What the drive sends to the world, newest last: the model's own record of its outputs (log 7). -/
inductive Out where
  | cqe (ctrl sq cid : Nat) (st : Status) (dnr : Bool) (dw0 dw1 : BitVec 32) (sqhd : Nat) (inv : Option (BitVec 32))
  | connectRsp (conn cid : Nat) (st : Status) (cntlid : Nat)
  | data (ctrl sq cid : Nat) (d : Bytes)
  | reading (ctrl cid : Nat) (name : String) (values : List Int)
  | aen (ctrl cid : Nat) (k : EventKind)
  | icResp (conn cpda maxh2c : Nat)
  | r2t (conn cid off len : Nat)
  | rdmaRead (conn cid len : Nat)
  | closed (conn : Nat)
  | tlsAlert (conn : Nat) (alert : String)
  | tls (conn : Nat) (msg : String)
  | twinHeartbeat (path term : Nat) (stale confirm : Bool)
  | twinWrite (w : ReplWrite)
  | twinData (fetch : Nat) (d : Bytes)
  | twinForward (f : FwdCmd)
  | twinAck (seq : Nat)
  | twinRefuse (seq : Nat)
  | twinAsk (nsid : Nat) (key : Key)
  | twinTerm (term : Nat)
  | twinResync (full : Bool) (keys : List (Nat × Key × Option Bytes)) (holds : List (Nat × Key × Nat × Bool))
  | twinResyncAsk
  | twinDetachAsk (receiverLeaves : Bool)
  | twinDetached (receiverLeaves : Bool)
  | twinNs (create : Bool) (nsid nsType mode : Nat) (asked : Bool)
  | twinNsAsk (create : Bool) (nsid nsType mode : Nat)
  | twinNsDone (nsid : Nat)
  | twinNsRefused (st : Status)
  | twinConnect (port queues : Nat) (tls : Bool) (host : Nqn)
  | twinLevel (nsid level : Nat)
  | forwardDone (ctrl sq cid : Nat) (st : Status) (dw0 dw1 : Nat) (d : Bytes)
  | originConnect (origin port : Nat) (l : OriginLink)
  | originRetrieve (origin port nsid : Nat) (key : Key) (len opcode : Nat)
  | chain (type gen : Nat) (body : List Nat)
  | chainPass (type : Nat) (h : ChainHdr) (body : List Nat)
  | chainMsg (bytes : Bytes)
  | slot (bytes : Bytes) (crcOk : Bool)
  | cells (c : BitVec 40)
  | frame (port queue : Nat) (f : TxFrame) (tsLost : Bool) (wire : Bytes)
  | advertise (port : Nat) (types : BitVec 8) (eee pause : Bool)
  | pause (port prio quanta : Nat)
  | eeeTlv (port wakeUs : Nat)
  | cnp (conn : Nat)
  | delayReq (port : Nat)
  | mctp (eid tag status : Nat) (body : Bytes)
  | endpointId (eid : Nat) (accepted : Bool)
  | mi (eid : Nat) (name : String) (body : Bytes)
  | cacheData (line : Nat) (d : Bytes)
  | tap (d : Bytes)
  | hbmWrite (line : Nat)
  deriving DecidableEq, Repr

/-! ## The state, part by part -/

/-- Supplies, pins, power states, sensors and indicators (chapters 05, 17, 21). -/
structure Power where
  /-- Phase of the drive, 10 values; R168, R421, R430, R473 (05, 16, 18); reset: supplies good, the start at B0 due (log 2). -/
  phase : Phase := .ready
  /-- Step a start is in, 0 to 14; R422 (16); reset 0. -/
  curStep : Nat := 0
  /-- P12V within range, 1 bit; R168, R532 (05, 21); reset present (log 2). -/
  p12v : Bool := true
  /-- P3V3_AUX within range, 1 bit; R420 (16); reset present (log 2). -/
  aux : Bool := true
  /-- PWR_DIS pin, 1 bit; R534 (21); reset low, the pull-down of R525. -/
  pwrDis : Bool := false
  /-- P12V load switched on, 1 bit; R534 (21); reset on. -/
  load : Bool := true
  /-- Hot-swap stage on, 1 bit; R533 (21); reset on. -/
  hotSwap : Bool := true
  /-- Comparator trip held until 85 °C, 1 bit; R537 (21); reset no. -/
  junctionHold : Bool := false
  /-- Load held off after a shutdown temperature, 1 bit; R537 (21); reset no. -/
  thermalHold : Bool := false
  /-- CHAIN_RDY pin, 1 bit; R531 (21); reset low. -/
  chainRdy : Bool := false
  /-- Level of SNUF_N is low, 1 bit; R472, R525 (18, 21); reset high by its pull-up. -/
  snufLow : Bool := false
  /-- POS[3:0] read at B0, 4 bits; R306, R530 (11, 21); reset DESIGN CHOICE 0 (log 2). -/
  pos : Nat := 0
  /-- Power state the host set, 0 to 4; R459, R463 (17); reset PS0 (R421). -/
  psHost : Nat := 0
  /-- Effective power state, 0 to 4; R463 (17); reset PS0. -/
  psNow : Nat := 0
  /-- Last operational state the host set; R462 (17); reset PS0. -/
  psLastOp : Nat := 0
  /-- PS2 limits by critical temperature; R463, R537 (17, 21); reset no. -/
  critical : Bool := false
  /-- PS2 limits for overdue work in PS3 or PS4; R463 (17); reset no. -/
  overdueWork : Bool := false
  /-- Monotonic time of the last event on each cause of an autonomous transition; R463 (17); reset none. -/
  psEvents : List (Nat × Nat) := []
  /-- Sensor readings, 8 × signed 0.1 °C; R536 (21); reset DESIGN CHOICE the typical figures (log 2). -/
  sensors : List Int := [720, 680, 680, 450, 550, 520, 700, 350]
  /-- Over thresholds, 8 × 0.1 °C; R536 (21); reset 5 °C below critical. -/
  overThr : List Int := [900, 850, 850, 700, 700, 800, 1000, 450]
  /-- Under thresholds, 8 × 0.1 °C; R536 (21); reset −5 °C. -/
  underThr : List Int := List.replicate 8 (-50)
  /-- Temperature history in seconds, 8 × 33; R208 (06); reset 0. -/
  tempHist : List (List Nat) := List.replicate 8 (List.replicate 33 0)
  /-- SMART temperature warning; R537 (21); reset clear. -/
  tempWarning : Bool := false
  /-- SMART reliability-degraded warning; R133, R201 (04, 06); reset clear. -/
  reliability : Bool := false
  /-- CSTS.CFS; R134, R174, R421 (04, 05, 16); reset 0. -/
  cfs : Bool := false
  /-- Input power over the last second, 0.1 W; R416 (15); reset DESIGN CHOICE 0 (log 2). -/
  inputPower : Nat := 0
  /-- Lifetime power-on seconds; R196, R299, R506 (06, 10, 19); reset 0. -/
  powerOnS : Nat := 0
  /-- Seconds since this start; HS_UPTIME_S, R416 (15); reset 0. -/
  uptimeS : Nat := 0
  deriving DecidableEq, Repr

/-- Start-up, boot ledger and firmware (chapter 16). -/
structure Boot where
  /-- Boot ledger ring, 63 start entries newest first; R428 (16); reset empty. -/
  ledger : List StartEntry := []
  /-- BLP_FAILS, failed starts in a row, 0 to 3; R429 (16); reset 0. -/
  fails : Nat := 0
  /-- BLP_STARTS, starts in the drive's life; R429 (16); reset 0. -/
  starts : Nat := 0
  /-- BLP_PILOT; R429 (16); reset 00h. -/
  pilot : Nat := 0
  /-- Running image, coded as BLS_IMAGE; R428 (16); reset 00h. -/
  running : Nat := 0
  /-- The two copies of the boot record; R434 (16); reset DESIGN CHOICE valid, generation 0, image A, no trial (log 2). -/
  br : Copies BootRecord := Copies.fresh {}
  /-- Image A; R434, R435 (16); reset DESIGN CHOICE a valid image of security version 0 (log 2). -/
  imageA : Option FwImage := some ⟨0, 0, [], 4096, 1, 1, 1, 0, []⟩
  /-- Image B; R434 (16); reset DESIGN CHOICE the same image (log 2). -/
  imageB : Option FwImage := some ⟨0, 0, [], 4096, 1, 1, 1, 0, []⟩
  /-- Security version floor, number of blown bits, 0 to 64; R438 (16); reset 0. -/
  floor : Nat := 0
  /-- Download buffer, pieces as (offset, bytes); R436 (16); reset empty. -/
  buffer : List (Nat × Bytes) := []
  /-- Owner of the download buffer; R436 (16); reset none. -/
  bufferOwner : Option Nat := none
  /-- Firmware Commit that activates, with its slot; R436, R439 (16); reset none. -/
  commit : Option (Nat × Nat × Nat) := none
  /-- Image an activation runs, before it is BR_ACTIVE; R441 (16); reset none. -/
  activated : Option Nat := none
  /-- Activation pause in force; R110, R439 (03, 16); reset no. -/
  paused : Bool := false
  /-- Image and slot that ran before the activation; R440 (16); reset 0. -/
  oldImage : Nat := 0
  /-- Power-on second at which BR_ACTIVE became active; R438 (16); reset 0. -/
  activeSince : Nat := 0
  /-- An alternative method was used on this start (HS_BOOT 01h); R423 (16); reset no. -/
  alternative : Bool := false
  /-- This start has been marked good; R425 (16); reset no. -/
  good : Bool := false
  /-- Forced alternatives for the next start, 15 bits; R433 (16); reset 0. -/
  force : BitVec 16 := 0
  /-- Forced skips for the next start, 15 bits; R433 (16); reset 0. -/
  skip : BitVec 16 := 0
  /-- HBM3 training values of this start, as one number; R422 B5 (16); reset 0 (log 2). -/
  train : Nat := 0
  /-- HBM3 training values stored at the last good start; R422 B5, R425 (16); reset none. -/
  trainStored : Option Nat := none
  /-- Steps B10 to B12 skipped and to be started 60 s after B14; R422 (16); reset none. -/
  deferred : List Nat := []
  /-- Cause of the start now due; R421 (16); reset 01h power-up. -/
  cause : Nat := 1
  /-- Wax trained at 3,200 MT/s on this start; R422 B4 (16); reset no. -/
  waxSlow : Bool := false
  /-- A Wax package has failed training on this start; R426, R431 (16); reset no. -/
  waxFailed : Bool := false
  /-- What Wax holds of the ledger while the drive keeps it in Lamplighter SRAM; R428 (16); reset none. -/
  ledgerWax : Option (List StartEntry) := none
  /-- Patch version loaded at B13; R387 (14); reset 0. -/
  patch : Nat := 0
  /-- The last start ended in an orderly shutdown, so it did not die; R168, R428 (16); reset no. -/
  orderlyEnd : Bool := false
  /-- Steps whose services stay off on this start (10 time, 11 twin, 12 stack); R422 (16); reset none. -/
  offServices : List Nat := []
  deriving DecidableEq, Repr

/-- The fabrics front end (chapter 02). -/
structure Front where
  /-- Subsystem NQN the drive generated in Blank; R49 (02); reset DESIGN CHOICE empty until drawn (log 2). -/
  subsysNqn : Nqn := []
  /-- Enrolled hosts, at most 1,024; R42, R51, R414 (01, 02, 15); reset none. -/
  hosts : List HostRow := []
  /-- Controllers; R50 (02); reset none. -/
  ctrls : List Ctrl := []
  /-- Hosts of the controllers that have gone, newest first, under whose names the replies to their messages are kept; R404 (15); reset none. -/
  gone : List (Nat × Nqn) := []
  /-- Transport connections; R59, R63 (02); reset none. -/
  conns : List Conn := []
  /-- I/O queue pairs not granted, IDV_QP_FREE; R54, R83 (02); reset 8,192. -/
  qpFree : Nat := 8192
  /-- Queue that received the last freed context, for round robin; R57 (02); reset none. -/
  rrLast : Option (Nat × Nat) := none
  /-- Freed contexts that queue has received in its present turn; R55, R57 (02); reset 0. -/
  rrUsed : Nat := 0
  /-- ClientHello messages waiting for the handshake rate; R223 (07); reset none. -/
  hellos : List (Nat × Nat × ClientHello) := []
  /-- Handshakes completed in this second; R223 (07); reset 0. -/
  handshakes : Nat := 0
  /-- TCP and RDMA listening; R422 B14, R427 (16); reset closed. -/
  listening : Bool := false
  /-- Admin commands that end in a later step: what 1 power entry, 2 sanitize, 4 a namespace command on both drives, whose target is the namespace (0: not assigned yet), 1 for a create, and its type and mode, 5 abort of a Filtered List at its next sample point; R64 (02); reset none. -/
  jobs : List AdminJob := []
  /-- Admin commands held behind one that behaves as ORD, as (controller, identifier, command); R91 (03); reset none. -/
  heldAdm : List (Nat × Nat × Instr) := []
  /-- Entries of the admin queues whose commands are held or about to be tried again, by controller and identifier; R57, R88 (02, 03); reset none. -/
  admEntries : List ((Nat × Nat) × Nat) := []
  /-- Admin commands that are held for want of a context, by controller and identifier, oldest first, and whether a freed context is theirs; R56, R57 (02); reset none. -/
  ctxWait : List ((Nat × Nat) × Bool) := []
  /-- NVMe-MI responses kept for Receive, per controller; R410 (15); reset none. -/
  miReplies : List (Nat × Bytes) := []
  /-- Log generations of C0h to C5h, VLH_GEN; R80 (02); reset 0. -/
  logGen : List Nat := List.replicate 6 0
  /-- Time and TQ of the last change of C0h to C5h; R80 (02); reset 0. -/
  logTime : List (Nat × BitVec 8) := List.replicate 6 (0, 0)
  /-- Error Information log 01h, at most 64 entries of (controller, queue, command); R79 (02); reset empty. -/
  errorLog : List (Nat × Nat × Nat) := []
  deriving DecidableEq, Repr

/-- Commands in flight, deferred errors and log C1h (chapter 03). -/
structure Flight where
  /-- Outstanding I/O commands in fetch order; R56, R88 (02, 03); reset none. -/
  cmds : List Cmd := []
  /-- Fetch number of the next command; the model's own; reset 0. -/
  nextFetch : Nat := 0
  /-- Log C1h record slots, 1,022; R99 (03); reset free. -/
  c1 : List DeRec := List.replicate 1022 {}
  /-- DEL_OVERFLOW, 64 bits; R105 (03); reset 0. -/
  overflow : Nat := 0
  /-- Commands that wait at a bucket, by fetch number in the order in which they reached it; R115, R157 (04, 05); reset none. -/
  bucketQ : List Nat := []
  /-- Waiting carriers in order; R97, R98 (03); reset none. -/
  carriers : List Carrier := []
  /-- A sanitize runs: 0 none, 1 crypto erase, 2 block erase; R109, R205 (03, 06); reset 0. -/
  sanitize : Nat := 0
  /-- Last sanitize completed, for log 81h; R79 (02); reset 0. -/
  sanitizeLast : Nat := 0
  /-- KV I/O commands not started, by HBM3 rebuild; R133 (04); reset no. -/
  kvStopped : Bool := false
  /-- Key curtain drawn; R456 (17); reset no. -/
  curtain : Bool := false
  deriving DecidableEq, Repr

/-- The record vault (chapter 01). -/
structure Vault where
  /-- Namespaces, at most 1,024; R11, R67 (01, 02); reset none. -/
  ns : List Ns := []
  /-- Retention class periods in days, 64; R26 (01); reset class 0 defined as 0 days. -/
  retention : List (Option Nat) := some 0 :: List.replicate 63 none
  /-- Key-scope hold table, at most 262,144; R35 (01); reset empty. -/
  keyHolds : List KeyHold := []
  /-- Rate classes 0 to 15; R45 (01); reset no ceiling. -/
  rate : List RateClass := List.replicate 16 {}
  /-- Next commit sequence, 64 bits; R25 (01); reset DESIGN CHOICE 1 (log 2). -/
  nextSeq : Nat := 1
  deriving DecidableEq, Repr

/-- The Ember index (chapter 04). -/
structure Index where
  /-- Hash seed, 128 bits, drawn in Blank; R114 (04); reset DESIGN CHOICE empty until drawn (log 2). -/
  seed : Bytes := []
  /-- Primary buckets that are not all empty, by number; R116 (04); reset all empty. -/
  buckets : List (Nat × Bucket) := []
  /-- Overflow pool buckets in use, by number; R116, R122 (04); reset none. -/
  pool : List (Nat × Bucket) := []
  /-- Spill table; R126 (04); reset empty. -/
  spill : List Spilled := []
  /-- Resident keys; R125 (04); reset 0. -/
  resident : Nat := 0
  /-- Half-size geometry in force; R133 (04); reset no. -/
  half : Bool := false
  /-- Lost stacks, 2 bits; R133 (04); reset none. -/
  lost : List Bool := [false, false]
  /-- Rebuild after a stack loss runs; R133 (04); reset no. -/
  rebuilding : Bool := false
  /-- 4 KiB pages being rebuilt, by page number; R132 (04); reset none. -/
  pages : List Nat := []
  /-- Uncorrectable errors of each stack within 60 s, as times; R133 (04); reset none. -/
  stackErrors : List (Nat × Nat) := []
  /-- Index pages changed since the last checkpoint; R129 (04); reset none. -/
  dirtyPages : List Nat := []
  /-- Entries of the delta segments since the last complete checkpoint; R130 (04); reset 0. -/
  deltas : Nat := 0
  /-- What the index base holds of the keys that journal records from the replay start on name; R131, R171 (04, 05); reset none. -/
  base : List BaseKey := []
  /-- Spill page cache: pages of the spill table in HBM3, newest first, each with whether it is dirty; R113, R126 (04); reset none. -/
  spillCache : List (Nat × Bool) := []
  /-- A checkpoint whose pages are not all written yet: the control-block generation and the delta entries it began with; R129, R130, R179 (04, 06); reset none. -/
  checkpointing : Option (Nat × Nat) := none
  /-- Monotonic time of the last checkpoint; R129 (04); reset 0. -/
  checkpoint : Nat := 0
  /-- HBM3 trained and index present; R422 B5, B7 (16); reset no. -/
  present : Bool := false
  deriving DecidableEq, Repr

/-- The Mantle cache, its registers and HBM3 (chapter 04). -/
structure Mantle where
  /-- MCH_CTRL.ENABLE; R150 (04); reset 0. -/
  enable : Bool := false
  /-- MCH_CTRL.NOALLOC; R150 (04); reset 0. -/
  noalloc : Bool := false
  /-- MCH_STATUS.INV_BUSY; R150 (04); reset 0. -/
  invBusy : Bool := false
  /-- MCH_STATUS.INV_REJECT, W1C; R150 (04); reset 0. -/
  invReject : Bool := false
  /-- MCH_INV_BASE[35:6]; R150 (04); reset 0. -/
  invBase : BitVec 30 := 0
  /-- MCH_INV_LIMIT[35:6]; R150 (04); reset 0. -/
  invLimit : BitVec 30 := 0
  /-- MCH_RGN0 to MCH_RGN7, 64 bits each with [63:35] zero; R150 (04); reset 0. -/
  rgn : List (BitVec 64) := List.replicate 8 0
  /-- MCH_HIT_CNT, 64 bits; R150 (04); reset 0. -/
  hits : Nat := 0
  /-- MCH_MISS_CNT, 64 bits; R150 (04); reset 0. -/
  misses : Nat := 0
  /-- Valid lines by (set, way); R135 (04); reset none. -/
  lines : List ((Nat × Nat) × Way) := []
  /-- Tree pseudo-LRU bits of sets, 15 each; R136 (04); reset 0. -/
  plru : List (Nat × BitVec 15) := []
  /-- Active miss registers, at most 64; R139, R151 (04); reset none. -/
  miss : List Miss := []
  /-- Chimney entries oldest first, at most 32; R141, R151 (04); reset none. -/
  chimney : List Chim := []
  /-- Accesses that wait for a miss register or for the Chimney; R139, R144 (04); reset none. -/
  waits : List CacheWait := []
  /-- Writes to HBM3 that follow a write-back of the same line not yet accepted; R143 (04); reset none. -/
  deferredWb : List (Nat × CacheWrite) := []
  /-- OP of the running invalidation command, and the dirty lines its sweep has still to move to a full Chimney; R144, R146 (04); reset 0, none. -/
  invOp : Nat := 0
  invTodo : List Nat := []
  /-- The lines the running invalidation command acts on, first and last, and the set its sweep comes to next, 65,536 once it has ended; R146, R147 (04); reset 0, 0, 65,536. -/
  invLo : Nat := 0
  invHi : Nat := 0
  invNext : Nat := 65536
  /-- Writes of MCH_RGN that wait until the lines whose attribute they change are written back and invalid; R138 (04); reset none. -/
  rgnWrites : List (Nat × BitVec 64) := []
  /-- Write-backs the running invalidation command started; R146 (04); reset none. -/
  invWb : List Nat := []
  /-- Lines of DROP fills the running command marked; R146 (04); reset none. -/
  invDrop : List Nat := []
  /-- HBM3 contents, 48 GiB as canonical cells; R112 (04); unlisted bytes read 00h, DESIGN CHOICE (log 8). -/
  hbm : List Host.Cell := []
  /-- Both stacks serve, so that mirrored regions have two copies; R112, R133 (04); reset yes. -/
  twoStacks : Bool := true
  /-- Uncorrectable lines; R132 (04); reset none. -/
  badLines : List Nat := []
  deriving DecidableEq, Repr

/-- Wax: staging, journal and power-fail state (chapter 05). -/
structure Wax where
  /-- Staged records by first granule; R154, R162 (05); reset none. -/
  staged : List (Nat × StoredRec) := []
  /-- Staged records that nothing points at any more and whose granules no reservation has taken since; R162, R169, R203 (05, 06); reset none. -/
  dead : List (Nat × StoredRec) := []
  /-- Ring head, granule 0 to 134,217,727; R162 (05); reset 0. -/
  head : Nat := 0
  /-- Live reservations and records of the ring, and granules skipped as padding, oldest first, as (granule, granules); R162 (05); reset none. -/
  ring : List (Nat × Nat) := []
  /-- Staging seal counter, 64 bits; R217 (07); reset DESIGN CHOICE 0 (log 2). -/
  sealCounter : Nat := 0
  /-- Counter bases of the segments entered; R217 (07); reset none. -/
  segBase : List (Nat × Nat) := []
  /-- Reservations that wait, in the order of their requests; R163, R197, R293 (05, 06, 10); reset none. -/
  waiters : List Waiter := []
  /-- Staged records that are lost and whose LOSS record waits for room in the ring; R159, R161 (05); reset none. -/
  losses : List Nat := []
  /-- Writes in the journal that replay passes over, by sequence: held or pending records that were discarded; R280, R282, R285 (09); reset none. -/
  discarded : List Nat := []
  /-- Staged records whose HBM3 copy is in the staging copy region, by first granule; R164 (05); reset none. -/
  copies : List Nat := []
  /-- Streams the drive chose for staged records at their index update, by first granule; R165, R183 (05, 06); reset none. -/
  streams : List (Nat × StreamKind) := []
  /-- Staged granules with an uncorrectable error; R166 (05); reset none. -/
  bad : List Nat := []
  /-- Journal records from the replay start, oldest first; R158, R160 (05); reset empty. -/
  journal : List JRec := []
  /-- Journal records that lie before the replay start and whose blocks may still hold them, newest first, with ring offset and lap; R158, R160, R170 (05); reset none. -/
  past : List (JRec × Nat × Nat) := []
  /-- Ring pass number modulo 256; R158 (05); reset 0. -/
  lap : Nat := 0
  /-- Ring offset at which writing goes on, in blocks; R158 (05); reset 0. -/
  offset : Nat := 0
  /-- Journal control block generation; R160 (05); reset 0. -/
  ctlGen : Nat := 0
  /-- The 1,024 control-block copies, by copy; R160 (05); reset none written. -/
  ctl : List (Nat × CtlBlock) := []
  /-- Highest commit sequence whose effects are in delta segments; R160 (05); reset 0. -/
  condensed : Nat := 0
  /-- Condensing runs; R161 (05); reset no. -/
  condensing : Bool := false
  /-- Highest sequence the twin has acknowledged, and the value of the last TWIN_ACK record; R158, R159 (05); reset 0. -/
  acked : Nat := 0
  ackWritten : Nat := 0
  /-- Twin-level sequences committed and not acknowledged; R159 (05); reset none. -/
  unacked : List Nat := []
  /-- The namespaces of those writes, by sequence; R106 (03); reset none. -/
  unackedNs : List (Nat × Nat) := []
  /-- Twin-asynchronous key-scope holds that the twin has still to acknowledge: sequence, namespace and key; R157 (05); reset none. -/
  pendKeys : List (Nat × Nat × Key) := []
  /-- Runs of staging granules overwritten with 00h and not reserved since; R203, R205 (06); reset none. -/
  zeroed : List (Nat × Nat) := []
  /-- Rows of each parity slot that may hold parity; those after them hold 00h; R185, R205 (06); reset DESIGN CHOICE all 2,048 (log 2). -/
  parityRows : List Nat := List.replicate 8 2048
  /-- 4 KiB blocks of Wax retired into the reserve region, with the block of the region that replaces each; R152 (05); reset none. -/
  remap : List (Nat × Nat) := []
  /-- Pending tables of the engines; R157 (05); reset none. -/
  pend : List Pend := []
  /-- Records held for "Twin Pairing" after a start; R169, R171 (05); reset none. -/
  heldRecs : List Pend := []
  /-- Issuers of the writes that are staged or not acknowledged by the twin, by commit sequence; R96, R99 (03); reset none. -/
  owners : List (Nat × Owner) := []
  /-- A package has failed while the drive serves, and the twin's repairs of the records it took are awaited; R174, R542 (05, 09); reset none. -/
  failing : Option Nat := none
  /-- Promotions this drive has granted as a witness, by pair identifier and term; R274 (09); reset none. -/
  granted : List (Bytes × Nat) := []
  /-- Failed packages; R174 (05); reset none. -/
  failedPkgs : List Nat := []
  /-- Wax write-protected by the power-fail sequence; R167 (05); reset no. -/
  protectedW : Bool := false
  deriving DecidableEq, Repr

/-- Flash media (chapter 06). -/
structure Media where
  /-- Records on NAND by granule address; R118, R176 (04, 06); reset none. -/
  nand : List (Nat × StoredRec) := []
  /-- Records whose codewords no stage corrects, by granule; R189 (06); reset none. -/
  badNand : List Nat := []
  /-- Records to relocate into GC_COLD, by granule; R186, R189, R199, R200, R201 (06); reset none. -/
  due : List Nat := []
  /-- Read cache: NAND records held in HBM3 region 1; R113 (04); reset none. -/
  readCache : List Nat := []
  /-- Bands that are not FREE, states 1 OPEN, 2 VERIFY, 3 CLOSED, 4 VICTIM, 5 ERASING; R179 (06); reset none. -/
  bands : List Band := []
  /-- Bands in service, HL_BANDS_IN_SERVICE; R190 (06); reset 65,536. -/
  inService : Nat := 65536
  /-- Block sets that have been erased or retired, by (channel, die, block); R175, R196 (06); reset all 0. -/
  blocks : List ((Nat × Nat × Nat) × BlockSet) := []
  /-- Block sets in service; R202 (06); reset 1,048,576. -/
  blockSets : Nat := 1048576
  /-- Dies retired and lost, and die-level faults by time; R201 (06); reset none. -/
  diesRetired : List (Nat × Nat) := []
  diesLost : List (Nat × Nat) := []
  dieFaults : List ((Nat × Nat) × Nat) := []
  /-- Next band open sequence; R178 (06); reset DESIGN CHOICE 1 (log 2). -/
  openSeq : Nat := 1
  /-- GC mode: 0 off, 1 background, 2 foreground; R190 (06); reset 0. -/
  gcMode : Nat := 0
  /-- GC victim; R191 (06); reset none. -/
  victim : Option Nat := none
  /-- Live granules and size of the GC victim when it was chosen, its u; R191, R192 (06); reset none. -/
  victimU : Option (Nat × Nat) := none
  /-- Current pages of internal data, by granule address; R180, R184, R191 (06); reset none. -/
  internal : List (Nat × IntPage) := []
  /-- Pages of internal data that wait until a band can open for them, in order; R179 (06); reset none. -/
  intWaits : List IntPage := []
  /-- Pages of the erase-count table that have changed since their copies on FINE_INTERNAL were written; R180 (06); reset none. -/
  ecDirty : List Nat := []
  /-- Band headers of the block sets written since their last erase; R178 (06); reset none. -/
  headers : List ((Nat × Nat × Nat) × BandHeader) := []
  /-- Bytes GC copied from the victim and host bytes admitted for them; R192 (06); reset 0. -/
  gcCopied : Nat := 0
  gcAdmitted : Nat := 0
  /-- Wear moves run; R195 (06); reset no. -/
  wearMoves : Bool := false
  /-- Designated channels, 16 bits; R195 (06); reset CH14 and CH15. -/
  channels : BitVec 16 := 0xC000
  /-- Accrual A, bytes per day; R196 (06); reset the new drive's 2,700 × C ÷ (1.5 × 4,383), rounded down (log 9). -/
  accrual : Nat := 57797736490894
  /-- Wear bank, bytes; R197 (06); reset 0, filled at the first Sealed start. -/
  bank : Nat := 0
  /-- Wear bank filled once; R197 (06); reset no. -/
  bankFilled : Bool := false
  /-- Bank empty, HL_FLAGS[1]; R197 (06); reset no. -/
  bankEmpty : Bool := false
  /-- Lifetime host bytes and NAND bytes; R206 (06); reset 0. -/
  hostBytes : Nat := 0
  nandBytes : Nat := 0
  /-- Host and NAND bytes since the last daily recomputation, and of the 29 days before it, newest first; R196 (06); reset 0. -/
  winHost : Nat := 0
  winNand : Nat := 0
  winDays : List (Nat × Nat) := []
  /-- WA × 1,000; R196, R206 (06); reset 05DCh. -/
  waMilli : Nat := 1500
  /-- P_plan; R196, R198 (06); reset 2,700. -/
  pPlan : Nat := 2700
  /-- Second of power-on time at which A was last accrued; R197 (06); reset 0. -/
  accruedS : Nat := 0
  /-- Live record bytes; R181 (06); reset 0. -/
  liveBytes : Nat := 0
  /-- Seconds in foreground GC; R206 (06); reset 0. -/
  fgSeconds : Nat := 0
  /-- Patrol passes and progress in 0.01 %; R199, R206 (06); reset 0. -/
  patrolPasses : Nat := 0
  patrolProgress : Nat := 0
  /-- Power-on seconds at which the pass in progress began; R199, R463 (06, 17); reset 0. -/
  patrolStart : Nat := 0
  /-- Patrol runs at twice its pace; R199 (06); reset no. -/
  patrolFast : Bool := false
  /-- HL_ERR, 24 × 32 bits; R207 (06); reset 0. -/
  err : List Nat := List.replicate 24 0
  /-- Share of the media write rate that the power and thermal loops withhold from stores, %; R418, R419 (15); reset 0. -/
  throttle : Nat := 0
  /-- Host bytes admitted in the current second; R418 (15); reset 0. -/
  secHost : Nat := 0
  /-- Secure-delete deadline, hours; R204 (06); reset 24. -/
  secdelHours : Nat := 24
  /-- Secure Delete removals; R203 (06); reset none. -/
  secdel : List SecDelJob := []
  /-- HL_FLAGS[5], secure delete overdue; R206 (06); reset 0. -/
  overdue : Bool := false
  /-- Spare bands at the first census, and whether it has been made; R202 (06); reset 7,433, no. -/
  spareFirst : Nat := 7433
  censused : Bool := false
  /-- Generation of the retry threshold tables the control loop sets; R419 (15); reset 0. -/
  retryGen : Nat := 0
  deriving DecidableEq, Repr

/-- Keys, epochs and receipts (chapter 07). -/
structure Keys where
  /-- Key table, at most 4,096 records; R219 (07); reset none. -/
  recs : List KeyRec := []
  /-- Unwrapped keys in the on-die key cache, by (namespace, generation); R219 (07); reset none. -/
  cache : List (Nat × Nat) := []
  /-- KEK generation; R222 (07); reset DESIGN CHOICE 1 (log 2). -/
  kekGen : Nat := 1
  /-- KEK salt, 32 bytes in Wax; R218 (07); reset DESIGN CHOICE empty until drawn (log 2). -/
  kekSalt : Bytes := []
  /-- KEK register, 256 bits, empty while it holds no key; R218, R456 (07, 17); reset none. -/
  kek : Bytes := []
  /-- KEK register holds a key; R218, R456 (07, 17); reset no. -/
  kekPresent : Bool := false
  /-- Wrap counter; R215 (07); reset DESIGN CHOICE 0 (log 2). -/
  wrapCounter : Nat := 0
  /-- Pre-shared keys, at most 256; R62, R240 (02, 07); reset none. -/
  psks : List Psk := []
  /-- Epoch length, 1 to 1,000 ms; R228 (07); reset 10. -/
  epochMs : Nat := 10
  /-- Open epoch; R228 (07); reset none. -/
  open_ : Option OpenEpoch := none
  /-- Epochs closed and not signed, oldest first; R232 (07); reset none. -/
  waiting : List ClosedEpoch := []
  /-- Signed epochs in the receipt store, oldest first; R234 (07); reset none. -/
  store : List ClosedEpoch := []
  /-- Newest signed roots with their signatures in the records region, at most 1,024, oldest first; R234, R236 (07); reset none. -/
  roots : List SignedRoot := []
  /-- Newest root record, 176 bytes; R231, R236 (07); reset none. -/
  lastRoot : Option Bytes := none
  /-- Next epoch number, 40 bits; R228 (07); reset 1. -/
  nextEpoch : Nat := 1
  /-- Newest signed epoch, CM_LAST_SIGNED; R239 (07); reset 0. -/
  lastSigned : Nat := 0
  /-- CM_PRUNED; R239 (07); reset 0. -/
  pruned : Nat := 0
  /-- Rotations and sweeps; R220, R221 (07); reset none. -/
  jobs : List KeyJob := []
  /-- Receipt key pair derived; R227 (07); reset no. -/
  receiptKey : Bool := false
  /-- Signature engine refuses requests (key curtain); R456 (17); reset no. -/
  signOff : Bool := false
  /-- Hash lanes in use, 0 to 16; R225 (07); reset 0. -/
  hashBusy : Nat := 0
  /-- Unique device secret fused; R444 (17); reset DESIGN CHOICE empty until drawn (log 2). -/
  uds : Bytes := []
  deriving DecidableEq, Repr

/-- The policy CAM (chapter 08). -/
structure Cam where
  /-- CAM array and action table, written addresses of 65,536; R243, R249 (08); reset all invalid. -/
  entries : List (Nat × CamEntry) := []
  /-- HBM3 copy; R251, R256 (08); reset as the array. -/
  copy : List (Nat × CamEntry) := []
  /-- Directory; R256 (08); reset all invalid. -/
  dir : List (Nat × CamDir) := []
  /-- Rule image on NAND, with the disabled state; R251, R257 (08); reset empty. -/
  image : List (Nat × CamEntry × CamDir) := []
  /-- Hit counters, 32 bits each; R258 (08); reset 0. -/
  counters : List (Nat × Nat) := []
  /-- Addresses whose parity does not fit their entry; R255 (08); reset none. -/
  parityBad : List Nat := []
  /-- Bits of action words in the array that soft errors have flipped, as (address, bit); R249, R541 (08); reset none. -/
  actErr : List (Nat × Nat) := []
  /-- Addresses whose HBM3 copy cannot be read; R256 (08); reset none. -/
  copyBad : List Nat := []
  /-- Repairs from copy, repairs to copy, parity hits, last sweep time, global cache hits; R259 (08); reset 0. -/
  fromCopy : Nat := 0
  toCopy : Nat := 0
  parityHits : Nat := 0
  lastSweep : Nat := 0
  cacheHits : Nat := 0
  /-- CAM and copies loaded (B8); R422 (16); reset no. -/
  loaded : Bool := false
  deriving DecidableEq, Repr

/-- Twin pairing (chapter 09). -/
structure Twin where
  /-- Role, IDV_TWIN_ROLE; R260 (09); reset 00h Solo. -/
  role : TwinRole := .solo
  /-- TW_STATE; R289 (09); reset 00h. -/
  st : Nat := 0
  /-- Witness mode in force and TW_WITNESS_STATE; R273, R289 (09); reset 00h, 00h. -/
  witnessMode : Nat := 0
  witnessState : Nat := 0
  /-- Witness identifier; R288 (09); reset DESIGN CHOICE 0 (log 2). -/
  witnessId : Nat := 0
  /-- Configuration of TWIN.CONFIG waiting for the next transition: mode, identifier, strict, rate; R288 (09); reset none. -/
  nextCfg : Option (Nat × Nat × Bool × Nat) := none
  /-- Loss policy STRICT; R269 (09); reset DEGRADE. -/
  strict : Bool := false
  /-- TW_FLAGS.FULL_RESYNC; R289 (09); reset 0. -/
  fullResync : Bool := false
  /-- TW_FLAGS.DEGRADED; R269 (09); reset 0. -/
  degraded : Bool := false
  /-- TW_FLAGS twin impaired; R282 (09); reset 0. -/
  impaired : Bool := false
  /-- Stale notice confirmed by the Secondary; R282 (09); reset no. -/
  staleConfirmed : Bool := false
  /-- This Secondary must confirm the stale notice in its next heartbeat; R282 (09); reset no. -/
  confirmDue : Bool := false
  /-- Heartbeats stopped; R282 (09); reset no. -/
  hbStopped : Bool := false
  /-- Term, 64 bits; R272 (09); reset 0. -/
  term : Nat := 0
  /-- Term in which this drive was Primary, last; R280 (09); reset 0. -/
  primaryTerm : Nat := 0
  /-- Pair identifier, 16 bytes; R289 (09); reset 0. -/
  pairId : Bytes := List.replicate 16 0
  /-- The twin's drive identifier; R289 (09); reset 0. -/
  twinId : Bytes := List.replicate 16 0
  /-- Subsystem NQN the pair presents; R261 (09); reset the drive's own (none). -/
  pairNqn : Option Nqn := none
  /-- Twin addresses as sent; R288 (09); reset none. -/
  addrs : Bytes := []
  /-- Attach request recorded: pair identifier, role code, and the message that waits; R283 (09); reset none. -/
  attachReq : Option (Bytes × Nat × Option MsgReq) := none
  /-- TW_ATTACH_REASON; R289 (09); reset 0. -/
  attachReason : Nat := 0
  /-- Twin link reached; R283 (09); reset no. -/
  reached : Bool := false
  /-- Twin declared lost; R271 (09); reset no. -/
  lost : Bool := false
  /-- Consecutive missed heartbeats; R271 (09); reset 0. -/
  missed : Nat := 0
  /-- Monotonic time of the last heartbeat, and its calendar time TW_LAST_HB_TIME; R289 (09); reset 0. -/
  lastHb : Nat := 0
  lastHbTime : Nat := 0
  /-- Monotonic time of the last accepted poll; R273 (09); reset none since the start. -/
  lastPoll : Option Nat := none
  /-- Fenced; R275 (09); reset no. -/
  fenced : Bool := false
  /-- Candidate with REQUEST set; R276 (09); reset no. -/
  candidate : Bool := false
  /-- Twin-synchronous writes may complete at the Local level; R276 (09); reset no. -/
  localOk : Bool := false
  /-- Twin lag log; R277 (09); reset empty. -/
  lag : List LagEntry := []
  /-- Lag log stopped by overflow; R277 (09); reset no. -/
  lagOver : Bool := false
  /-- A switchover has been made and the first heartbeat of the new term is awaited, so that groups 1 and 2 are in Change; R284 (09); reset no. -/
  changing : Bool := false
  /-- The drives of the pair have met and neither was the authority; R280 (09); reset no. -/
  noAuthority : Bool := false
  /-- Monotonic time at which the drain began; R286 (09); reset 0. -/
  drainFrom : Nat := 0
  /-- Draining: 0 none, 1 switchover, 2 detach with this drive leaving, 3 detach with it staying, 4 hand-over before an HBM3 rebuild; R284, R285, R286 (09); reset 0. -/
  drain : Nat := 0
  /-- Message that waits for the drain; R284 (09); reset none. -/
  drainReq : Option MsgReq := none
  /-- Resynchronisation running as the receiver; R278 (09); reset no. -/
  resyncing : Bool := false
  /-- Keys of twin-level namespaces received in a full resynchronisation; R278 (09); reset none. -/
  resyncSeen : List (Nat × Key) := []
  /-- Tags of namespace-scope holds received in a full resynchronisation; R278 (09); reset none. -/
  resyncTags : List (Nat × Nat) := []
  /-- Highest commit sequence that the resynchronisation this drive sends covers; R277, R278 (09); reset 0. -/
  resyncTo : Nat := 0
  /-- Form of the resynchronisation that this drive sends: 0 none, 2 delta, 3 full; R278, R289 (09); reset 0. -/
  sendForm : Nat := 0
  /-- Keys removed so far at the end of a full resynchronisation that waits for journal room to remove the others; R161, R278 (05, 09); reset 0. -/
  dropped : Nat := 0
  /-- The end of a full resynchronisation waits for that room; R161, R278 (05, 09); reset no. -/
  dropWaits : Bool := false
  /-- Keys that the twin has reported absent and whose removal waits for room in the journal; R161, R542 (05, 09); reset none. -/
  absents : List (Nat × Key) := []
  /-- Keys that the resynchronisation sends, and those of them that have arrived; R288 (09); reset 0. -/
  resyncKeys : Nat := 0
  resyncGot : Nat := 0
  /-- TW_RESYNC_PCT; R289 (09); reset 0. -/
  resyncPct : Nat := 0
  /-- TW_RESYNC_RATE, MB/s; R289 (09); reset 2710h. -/
  rate : Nat := 10000
  /-- TW_ACKED_SEQ; R289 (09); reset 0. -/
  ackedSeq : Nat := 0
  /-- TW_FAILOVERS; R289 (09); reset 0. -/
  failovers : Nat := 0
  /-- TW_LOST_ASYNC; R289 (09); reset 0. -/
  lostAsync : Nat := 0
  /-- TW_RTT_NS; R289 (09); reset 0. -/
  rttNs : Nat := 0
  /-- Replicated writes under way, by sequence, and the monotonic time at which each left; R289 (09); reset none. -/
  sentAt : List (Nat × Nat × Nat) := []
  /-- Bytes of twin-asynchronous writes that the twin has acknowledged, and no store has used, while the lag is above its goal; R418 (15);
  reset 0. -/
  credit : Nat := 0
  /-- Round trips of the last second, each as the monotonic time of its end and its length; R289 (09); reset none. -/
  rtts : List (Nat × Nat) := []
  /-- The twin service NQN of the twin, once it is known; R261 (09); reset none. -/
  twinNqn : Nqn := []
  /-- Replicated writes under way to the twin whose host command is over, by sequence, and those that wait for a context; R56 (02); reset none. -/
  sending : List Nat := []
  unsent : List ReplWrite := []
  /-- Repairs asked of the twin, by namespace and key: 0 a NAND read, 1 a record lost in Wax, 2 a pending record lost in Wax; R282, R287, R542 (09); reset none. -/
  repairs : List (Nat × Key × Nat) := []
  /-- Of those, the ones that wait for a context before they are asked, oldest first; R56 (02); reset none. -/
  unasked : List (Nat × Key) := []
  /-- Writes received from the twin that wait for staging or for the journal, in order; R161, R163, R262 (05, 09); reset none. -/
  inbound : List ReplWrite := []
  /-- A drive that is not the authority has met its twin, and its LOSS records wait for room in the journal; R161, R280 (05, 09); reset none. -/
  lateJoin : Option PeerView := none
  /-- Twin protocol version of the running image; R435 (16); reset 1 (log 2). -/
  proto : Nat := 1
  deriving DecidableEq, Repr

/-- Origin fill (chapter 10). -/
structure Origin where
  /-- Origin records 0 to 7; R291 (10); reset none. -/
  origins : List (Option OriginRec) := List.replicate 8 none
  /-- Mirror bindings; R294 (10); reset none. -/
  bindings : List Binding := []
  /-- Paths; R292 (10); reset none. -/
  paths : List OriginPath := []
  /-- Fills, in the order of their misses; R293 (10); reset none. -/
  fills : List Fill := []
  /-- Expired records whose delete waits for room in the journal; R161, R299 (05, 10); reset none. -/
  deletes : List (Nat × Key) := []
  /-- Negative entries oldest first; R301 (10); reset none. -/
  neg : List NegEntry := []
  /-- Checkpoint ring of (power-on seconds, next sequence), newest first, at most 43,200; R299 (10); reset empty. -/
  ttl : List (Nat × Nat) := []
  /-- Counts per origin; R305 (10); reset 0. -/
  counts : List OriginCounts := List.replicate 8 {}
  /-- Origin errors since the last recorded event, and the monotonic time of that event, per origin; R302 (10); reset 0, none. -/
  errRun : List Nat := List.replicate 8 0
  errTime : List (Option Nat) := List.replicate 8 none
  /-- Path whose turn it is, per origin; R293 (10); reset DESIGN CHOICE 0 (log 2). -/
  turn : List Nat := List.replicate 8 0
  deriving DecidableEq, Repr

/-- Stacking and the Sildin chain (chapter 11). -/
structure Stack where
  /-- Participation enabled; R307 (11); reset disabled. -/
  enabled : Bool := false
  /-- SK_STACK_ID, 16 bytes; R326 (11); reset 0. -/
  stackId : Bytes := List.replicate 16 0
  /-- The drive has joined, and neither left nor been disabled since; R308 (11); reset no. -/
  member : Bool := false
  /-- SK_STATE; R326 (11); reset 00h relay. -/
  st : Nat := 0
  /-- SK_ROLE; R326 (11); reset 00h none. -/
  role : Nat := 0
  /-- SK_BEACON_POS; R326 (11); reset FFh. -/
  beacon : Nat := 255
  /-- SK_MEMBERS, 16 bits; R326 (11); reset 0. -/
  members : BitVec 16 := 0
  /-- SK_TOKEN_ROT, 16 bits; R313 (11); reset 0. -/
  tokenRot : BitVec 16 := 0
  /-- SK_GEN, 32 bits; R312 (11); reset 0. -/
  gen : BitVec 32 := 0
  /-- SK_LAP_SF; R326 (11); reset 0. -/
  lap : Nat := 0
  /-- SK_FLAGS, 8 bits; R326 (11); reset 0. -/
  flags : BitVec 8 := 0
  /-- SK_ELECTIONS, SK_LOOKUPS, SK_RETRIES, SK_UNAVAILABLE, SK_CACHE_HITS, SK_LINK_ERRORS, 64 bits each; R326 (11); reset 0. -/
  elections : Nat := 0
  lookups : Nat := 0
  retries : Nat := 0
  unavailable : Nat := 0
  cacheHits : Nat := 0
  linkErrors : Nat := 0
  /-- SK_CACHE_EPOCH, 32 bits; R322 (11); reset 0. -/
  epoch : BitVec 32 := 0
  /-- Replica words by position × 65,536 + address; R320 (11); reset 0. -/
  replica : List (Nat × BitVec 64) := []
  /-- Namespaces covered by announced disabled global entries, as (position, address, NSID, mask); R314, R257 (11, 08); reset none. -/
  disabledGlobal : List (Nat × Nat × BitVec 32 × BitVec 32) := []
  /-- Result cache entries, most recently used first; R322 (11); reset empty. -/
  cache : List CacheEntry := []
  /-- Global lookups; R315 (11); reset none. -/
  pending : List GLookup := []
  /-- Messages to send when the token comes; R313 (11); reset none. -/
  outbox : List (Nat × Nat × List Nat) := []
  /-- Message sent with the token whose return is awaited; R313, R314 (11); reset none. -/
  sent : Option (Nat × Nat × List Nat) := none
  /-- Rows of the members; R326 (11); reset none. -/
  rows : List Member := []
  /-- SC_SEQ of the next message; R313 (11); reset DESIGN CHOICE 0 (log 2). -/
  seq : Nat := 0
  /-- Global wins to report in HITS, as (position, address, count); R318 (11); reset none. -/
  wins : List (Nat × Nat × Nat) := []
  /-- Election in progress, and ELECT blocks naming this drive on consecutive laps; R312 (11); reset no, 0. -/
  electing : Bool := false
  electLaps : Nat := 0
  /-- Chain carries valid superframes; R308 (11); reset no. -/
  ringUp : Bool := false
  /-- Rule change between PEND and SET; R321 (11); reset none. -/
  change : Option RuleChange := none
  /-- Member position that the Beacon polled last; R316 (11); reset DESIGN CHOICE 0 (log 2). -/
  poll : Nat := 0
  /-- Join in progress: 0 none, 1 JOIN queued, 2 replica received and own entries queued as SET, 3 FLUSH queued; R323 (11); reset 0. -/
  joining : Nat := 0
  /-- The Beacon's FLUSH after an election is still to come: until then no lookup claims a slot and no member bids; R312, R324 (11); reset no. -/
  flushDue : Bool := false
  /-- Token passes for which a first Beacon still waits for joins: 0 none, 1 all gone by; R323 (11); reset 0. -/
  gather : Nat := 0
  /-- What this drive as a witness knows of the drives it polls; R273, R274 (09); reset none. -/
  views : List WitnessView := []
  /-- Monotonic time of the last reply that a drive of each pair gave as its Primary; R274 (09); reset none. -/
  primarySeen : List (Bytes × Nat) := []
  /-- Monotonic time at which this drive began to poll under the present Beacon, and of its last polls; R274 (09); reset 0. -/
  watchFrom : Nat := 0
  lastPolls : Nat := 0
  deriving DecidableEq, Repr

/-- Both ports and the statistics snapshot (chapter 12). -/
structure Ports where
  /-- Port A; R327 (12); reset as the fields of Port. -/
  a : Port := {}
  /-- Port B; R327 (12); reset as the fields of Port. -/
  b : Port := {}
  /-- PS_GEN; R350 (12); reset 0. -/
  snapGen : Nat := 0
  /-- Snapshot bank, 2,080 bytes; R350 (12); reset 0. -/
  snap : Bytes := List.replicate 2080 0
  deriving DecidableEq, Repr

/-- Calendar time (chapter 13). -/
structure Time where
  /-- Clock, UTC nanoseconds excluding leap seconds; R352 (13); reset CFH_TIME, DESIGN CHOICE 0 (log 2). -/
  clock : Nat := 0
  /-- Monotonic clock, nanoseconds; R228 (07); reset DESIGN CHOICE 0 (log 2). -/
  mono : Nat := 0
  /-- Time state; R357 (13); reset Untraced. -/
  st : TimeState := .untraced
  /-- Reference in use or last used: 0 PTP, 1 PPS; R355 (13); reset 0. -/
  ref : Nat := 0
  /-- Inserted leap second in progress, TQ_LEAP; R353 (13); reset 0. -/
  leapNow : Bool := false
  /-- Leap announced: 0 none, 1 insert, 2 delete; R353, R369 (13); reset 0. -/
  leap : Nat := 0
  /-- B0, nanoseconds; R356 (13); reset 0. -/
  b0 : Nat := 0
  /-- Monotonic time at which Holdover began; R356 (13); reset 0. -/
  holdStart : Nat := 0
  /-- A slew is in progress with this much still to correct; R357 (13); reset none. -/
  slew : Option Int := none
  /-- While Traceable, what frequency alone has still to correct: the reference in use less the clock at its last exchange or edge, ns; R352,
  R354 (13); reset 0. -/
  steer : Int := 0
  /-- A start has made the time state Untraced, which is still to be recorded; R357 (13); reset no. -/
  restarted : Bool := false
  /-- Monotonic end of the inserted second in progress; R353 (13); reset 0. -/
  leapEnd : Nat := 0
  /-- Day, since 1970-01-01, whose end the leap announced by TIME.SET_EPOCH stands at; R369 (13); reset none. -/
  leapDay : Option Nat := none
  /-- PTP servo; R360 (13); reset empty. -/
  ptp : Servo := {}
  /-- PPS servo; R361 (13); reset empty. -/
  pps : Servo := {}
  /-- PPS epoch: UTC second of the next edge; R361, R369 (13); reset none. -/
  ppsEpoch : Option Nat := none
  /-- Monotonic time of the last PPS edge; R361 (13); reset none. -/
  lastEdge : Option Nat := none
  /-- Edges ignored for spacing; R529 (21); reset 0. -/
  ppsIgnored : Nat := 0
  /-- PTP messages outside the limits; R358 (13); reset 0. -/
  ptpIgnored : Nat := 0
  /-- Foreign masters heard; R358 (13); reset none. -/
  masters : List ForeignMaster := []
  /-- Chosen master's port and identity; TM_PTP_PORT, TM_GM_ID; R369 (13); reset none. -/
  master : Option (Nat × Nat) := none
  gm : BitVec 64 := 0
  /-- PTP configuration of Ports A and B; R540 (13); reset disabled, DESIGN CHOICE (log 2). -/
  ptpA : PtpPort := {}
  ptpB : PtpPort := {}
  /-- PTP domain; R540 (13); reset 0. -/
  domain : Nat := 0
  /-- PPS enabled; R540 (13); reset disabled, DESIGN CHOICE (log 2). -/
  ppsOn : Bool := false
  /-- Preferred reference; R540 (13); reset 00h PTP. -/
  prefer : Nat := 0
  /-- TM_ASYM_NS; R369 (13); reset 0064h. -/
  asym : Nat := 100
  /-- TM_FLAGS[0], reference conflict, and the consecutive differing seconds; R362 (13); reset 0. -/
  conflict : Bool := false
  conflictRun : Nat := 0
  /-- TM_OFFSET_NS; R369 (13); reset 0. -/
  offset : Int := 0
  /-- Traceable at least once since the last start; R368 (13); reset no. -/
  everTraceable : Bool := false
  /-- Untraced span table, oldest first, at most 1,024; R365 (13); reset empty. -/
  spans : List Span := []
  /-- Commit time table; R363 (13); reset empty. -/
  commits : List CommitTime := []
  /-- Servo started (B10); R422 (16); reset no. -/
  servoOn : Bool := false
  deriving DecidableEq, Repr

/-- Micro-engines and customer microcode (chapter 14). -/
structure Micro where
  /-- Wick engines that differ from the reset engine, of 64; R370 (14); reset all at the reset engine. -/
  wick : List (Nat × Engine) := []
  /-- Taper sequencers that differ from the reset engine, of 32; R370 (14); reset as above. -/
  taper : List (Nat × Engine) := []
  /-- Wick patch and customer micro store words, by address 24,576 to 32,767; R370 (14); reset 0. -/
  micro : List (Nat × BitVec 40) := []
  /-- Wick patch and customer nano store words, by address 14,336 to 16,383; R370 (14); reset 0. -/
  nano : List (Nat × BitVec 128) := []
  /-- The stores of the 32 Taper sequencers: patch micro words, by address 7,168 to 8,191, patch nano words, by address 1,792 to 2,047, and
  patch traps, at most 16 each; R370, R386 (14); reset 0 and none. -/
  taperStores : List TaperStore := List.replicate 32 {}
  /-- Patch traps of the Wick groups, factory to patch address, at most 64; R386 (14); reset none. -/
  traps : List (Nat × Nat) := []
  /-- MCV_CUSTOMER, 16 bits; R385 (14); reset 0. -/
  customer : BitVec 16 := 0
  /-- Loaded programs, at most 32; R389 (14); reset none. -/
  progs : List Program := []
  /-- Images kept in internal data; R394 (14); reset none. -/
  stored : List (Nat × Bytes) := []
  /-- Customer keys of slots 0 to 3: ECDSA and ML-DSA public keys; R388 (14); reset none. -/
  keys : List (Option (Bytes × Bytes)) := List.replicate 4 none
  /-- Staging buffer, 64 KiB, as (offset, byte) of bytes staged, and the mailbox that staged; R390 (14); reset empty. -/
  staging : List (Nat × Byte) := []
  stagingBy : Option Nat := none
  /-- Unload messages waiting for routines to end; R396 (14); reset none. -/
  unloads : List (Nat × MsgReq) := []
  /-- Constant-table loads issued, the index of the free hit or miss; R375 (14); reset 0. -/
  loadNo : Nat := 0
  deriving DecidableEq, Repr

/-- Mailboxes, sideband and control loops (chapter 15). -/
structure Mail where
  /-- Mailboxes 0 to 15; R401, R402 (15); reset as the fields of Mailbox. -/
  boxes : List Mailbox := List.replicate 16 {}
  /-- MCTP EID; R409 (15); reset none. -/
  eid : Option Nat := none
  /-- MCTP transmission unit, bytes; R409 (15); reset 64. -/
  mtu : Nat := 64
  /-- The bus owner is an SMBus or I2C controller, 1 bit; R409 (15); reset DESIGN CHOICE no, I3C (log 41). -/
  smbus : Bool := false
  /-- NVMe-MI configuration items 1 and 2 as set; R410 (15); reset none, what they then read as is free (log 41). -/
  miConfig : List (Nat × Nat) := []
  /-- Who waits for the response of a tunnelled command that ends in a later step: the controller of NVMe-MI Send, or none for the sideband,
  and the endpoint; R410 (15); reset none. -/
  miWait : Option (Option Nat × Nat) := none
  /-- MCTP endpoint answers; R420 (16); reset yes while the auxiliary supply is good. -/
  endpoint : Bool := true
  /-- PG_POWER_W; R417 (15); reset 70. -/
  goalPower : Nat := 70
  /-- PG_TEMP_C; R417 (15); reset 75. -/
  goalTemp : Nat := 75
  /-- PG_READ_P99_US; R417 (15); reset 0. -/
  goalRead : Nat := 0
  /-- PG_TWIN_LAG_MS; R417 (15); reset 1,000. -/
  goalLag : Nat := 1000
  /-- Control loops 0 to 8; R419 (15); reset 0. -/
  loops : List Loop := List.replicate 9 {}
  deriving DecidableEq, Repr

/-- Lifecycle, debug and identity (chapter 17). -/
structure Life where
  /-- SEALED fuse; R442 (17); reset DESIGN CHOICE blown (log 2). -/
  sealedFuse : Bool := true
  /-- RETIRED fuse; R442 (17); reset not blown. -/
  retiredFuse : Bool := false
  /-- D2 opened on a Sealed drive since this start; R442 (17); reset no. -/
  debugOpen : Bool := false
  /-- Debug level, 0 to 3; R449 (17); reset D0. -/
  level : Nat := 0
  /-- Monotonic end of a D1 session; R454 (17); reset none. -/
  d1End : Option Nat := none
  /-- Challenge outstanding: nonce and monotonic time; R452 (17); reset none. -/
  nonce : Option (Bytes × Nat) := none
  /-- Refusals in a row, and the monotonic end of the wait; R453 (17); reset 0. -/
  refusals : Nat := 0
  waitUntil : Nat := 0
  /-- Owner debug keys of slots 0 and 1; R451 (17); reset none. -/
  keys : List (Option (Bytes × Bytes)) := [none, none]
  /-- Opening of D2 that waits for the curtain, with its message; R456 (17); reset none. -/
  curtainReq : Option MsgReq := none
  /-- Sealed starts seen; R227, R445 (07, 17); reset 0. -/
  sealedStarts : Nat := 0
  /-- A probe holds the Lamplighter halted; R450 (17); reset no. -/
  halted : Bool := false
  deriving DecidableEq, Repr

/-- Clocks, freeze and calibration (chapter 18). -/
structure Clocks where
  /-- Gated clock domains, CD00 to CD39; R470, R471 (18); reset none. -/
  gated : BitVec 40 := 0
  /-- Root PLL locked; R469 (18); reset no. -/
  rootLock : Bool := false
  /-- The PLLs run with the factory wide-band loop settings; R422 B2 (16); reset no. -/
  wideBand : Bool := false
  /-- Freeze latch FZ_FLAGS[2:1] cause, 0 when not held; R479 (18); reset 0. -/
  fzCause : Nat := 0
  /-- FZ_LIFECYCLE, FZ_DEBUG, FZ_TQ, FZ_PS, FZ_TIME, FZ_START, FZ_HBM_SR; R479 (18); reset DESIGN CHOICE 0 (log 2). -/
  fzLifecycle : Nat := 0
  fzDebug : Nat := 0
  fzTq : BitVec 8 := 0
  fzPs : Nat := 0
  fzTime : Nat := 0
  fzStart : Nat := 0
  fzHbmSr : Nat := 0
  /-- LED_ACT_N and LED_FAULT_N as they stood at T0; R535 (21); reset DESIGN CHOICE off (log 2). -/
  fzLeds : Led × Led := (.off, .off)
  /-- DUMP_SEL section and offset; R478 (18); reset DESIGN CHOICE 0 (log 2). -/
  dumpSection : Nat := 0
  dumpOffset : Nat := 0
  /-- Lines FRZ_HBM serves through DUMP_DATA; R478 (18); reset none. -/
  dumpHbm : Option (Nat × Nat) := none
  /-- CFH_TIME of the factory record; R483 (18); reset DESIGN CHOICE 0 (log 2). -/
  cfhTime : Nat := 0
  /-- Factory items, CF_ENTRY; R482, R483 (18); reset DESIGN CHOICE the items R482 numbers, with value 0 and limits of 20,000 ps, 5.0 °C and else 100 units about it (log 2). -/
  factory : List CalItem := factoryItems
  /-- The two copies of the user record, CUH_GEN, entries, CUH_TIME and CUH_TQ; R484 (18); reset 0. -/
  cal : Copies UserCal := Copies.fresh {}
  /-- Effective values in force where they have been applied; R485 (18); reset none. -/
  applied : List (Nat × Int) := []
  /-- User entries are in force, which B3 undoes on a start with factory values only; R422 B3 (16); reset DESIGN CHOICE yes (log 2). -/
  userApplied : Bool := true
  /-- Channel recalibrations done; R520 (20); reset 0. -/
  recals : Nat := 0
  /-- Scrub sweeps done; R511 (20); reset 0. -/
  scrubs : Nat := 0
  deriving DecidableEq, Repr

/-- Event log (chapter 19). -/
structure Evlog where
  /-- Kept area, first 4,096 records; R495 (19); reset empty. -/
  kept : List EvRec := []
  /-- Circulating area, oldest first, at most 28,672; R495 (19); reset empty. -/
  circ : List EvRec := []
  /-- Next EV_SEQ, 32 bits; R492 (19); reset 1. -/
  nextSeq : BitVec 32 := 1
  /-- Records of this second with severity below 4h, and the suppressed ones with the sequence the first would have taken; R494 (19); reset 0. -/
  second : Nat := 0
  supp : Nat := 0
  suppFirst : BitVec 32 := 0
  /-- EV_SUPPRESSED, 64 bits; R501 (19); reset 0. -/
  suppressed : Nat := 0
  /-- Hold: the holder as ES_HOLDER, the monotonic begin and last read; R498 (19); reset none. -/
  hold : Option (Nat × Nat × Nat) := none
  /-- Hold buffer, at most 1,024; R498 (19); reset empty. -/
  buffer : List EvRec := []
  /-- Records discarded in this hold, and EV_HOLD_OVERFLOW; R498, R501 (19); reset 0. -/
  discarded : Nat := 0
  overflow : Nat := 0
  /-- EV_CLEARS, EV_LAST_CLEAR_TIME, EV_LAST_CLEAR_SEQ; R501 (19); reset 0. -/
  clears : Nat := 0
  lastClearTime : Nat := 0
  lastClearSeq : BitVec 32 := 0
  /-- Records held in SRAM before B4; R493 (19); reset empty. -/
  early : List EvRec := []
  deriving DecidableEq, Repr

/-- Black box (chapter 19). -/
structure Bbox where
  /-- Fault ring, newest last, at most 1,024; R503 (19); reset empty. -/
  fault : List BbRec := []
  /-- Start ring, newest last, at most 4,096: start number, image, outcome, fails, cause, time; R503 (19); reset empty. -/
  starts : List StartHead := []
  /-- Permanent area, at most 30,176; R503 (19); reset empty. -/
  perm : List BbRec := []
  /-- Permanent tail, newest last, at most 1,024; R503 (19); reset empty. -/
  tail : List BbRec := []
  /-- Next BB_SEQ, 64 bits; R504 (19); reset DESIGN CHOICE 1 (log 2). -/
  seq : Nat := 1
  /-- Lifetime counters of R506 that no other part holds: failed starts, pilot entries, power fails, orderly, fatal, freezes, faults, activations, fallbacks, permanent records, debug opens (19); reset 0. -/
  failedStarts : Nat := 0
  pilots : Nat := 0
  powerFails : Nat := 0
  orderly : Nat := 0
  fatals : Nat := 0
  freezes : Nat := 0
  faults : Nat := 0
  activations : Nat := 0
  fallbacks : Nat := 0
  permRecords : Nat := 0
  debugOpens : Nat := 0
  /-- Boot-flash copies, oldest first, at most 4; R508 (19); reset none. -/
  flash : List FlashCopy := []
  /-- Records the fault ring and the start ring have taken in the drive's life, which place the next one; R503, R507 (19); reset 0. -/
  faultAdded : Nat := 0
  startAdded : Nat := 0
  /-- BBH_COPY_GEN and BBH_COPY_TIME; R507 (19); reset 0. -/
  copyGen : Nat := 0
  copyTime : Nat := 0
  deriving DecidableEq, Repr

/-- Self-test (chapter 20). -/
structure Selftest where
  /-- Test that runs; R516 (20); reset none. -/
  running : Option SelfTest := none
  /-- Last 20 results of log 06h, newest first: result, namespace, failing segment, extended, power-on hours; R79, R518 (02, 20); reset none. -/
  results : List (Nat × Nat × Nat × Bool × Nat) := []
  deriving DecidableEq, Repr

/-- The drive. -/
structure State where
  pw : Power := {}
  bt : Boot := {}
  fe : Front := {}
  fl : Flight := {}
  va : Vault := {}
  ix : Index := {}
  mc : Mantle := {}
  wx : Wax := {}
  md : Media := {}
  ky : Keys := {}
  cam : Cam := {}
  tw : Twin := {}
  og : Origin := {}
  sk : Stack := {}
  pt : Ports := {}
  tm : Time := {}
  me : Micro := {}
  mb : Mail := {}
  li : Life := {}
  ck : Clocks := {}
  ev : Evlog := {}
  bb : Bbox := {}
  stt : Selftest := {}
  /-- What the drive has sent, newest last; the model's own field; reset empty, DESIGN CHOICE (log 7). -/
  out : List Out := []
  /-- Counter behind the free values; the model's own field; reset 0, DESIGN CHOICE (log 3). -/
  free : Nat := 0
  /-- Commands waiting, first in, first out; the model's own field; reset empty. -/
  pending : List Instr := []
  deriving DecidableEq, Repr

/-- The drive right after reset: as shipped, Sealed and Solo, supplies good, the first start due (log 2). -/
def State.reset : State := {}

/-- The faults of the model. -/
inductive Fault where
  /-- A cache access names a line outside the 48 GiB HBM3 space of R112, which the manual says does not exist; raised
  by CACHE_ACCESS. Safe: the drive never makes such an access. -/
  | hbm3LineOutsideSpace
  deriving DecidableEq, Repr

/-- The refusals of the model. -/
inductive Refusal where
  /-- An instruction whose meaning has not been written yet; raised by `exec` alone. Safe. -/
  | notModelled (mnemonic : String)
  deriving DecidableEq, Repr

end Sys2Proof.Machine
end

