-- ==== Sys2Proof/Machine/Bytes.lean ====
section
/-! DEFINITION. Association lists, byte strings, and the checks over them. -/

namespace Sys2Proof.Machine

/-- Replaces the entry of `k`, or adds one at the end. -/
def setAssoc {α β : Type} [DecidableEq α] (k : α) (v : β) : List (α × β) → List (α × β)
  | [] => [(k, v)]
  | p :: t => if p.1 = k then (k, v) :: t else p :: setAssoc k v t

/-! ## Records in two copies (R434, R484) -/

/-- A reader takes the first copy: it is valid, and the other is not or is no newer. -/
def Copies.readsA {α : Type} (c : Copies α) : Bool := c.a.ok && (!c.b.ok || decide (c.b.gen ≤ c.a.gen))

/-- The generation of the valid copy that is the newer; with no valid copy the higher of the two. -/
def Copies.gen {α : Type} (c : Copies α) : Nat := if c.readsA then c.a.gen else if c.b.ok then c.b.gen else max c.a.gen c.b.gen

/-- What the valid copy of the higher generation holds; `none_` where neither is valid. -/
def Copies.get {α : Type} (c : Copies α) (none_ : α) : α := if c.readsA then c.a.data else if c.b.ok then c.b.data else none_

/-- A write takes the older copy, with the next generation. -/
def Copies.set {α : Type} (c : Copies α) (x : α) : Copies α :=
  if c.readsA then { c with b := { gen := c.gen + 1, data := x } } else { c with a := { gen := c.gen + 1, data := x } }

/-- The copies whose checks fail from now on. -/
def Copies.spoil {α : Type} (c : Copies α) (bad : List Nat) : Copies α :=
  { a := { c.a with ok := c.a.ok && !bad.contains 0 }, b := { c.b with ok := c.b.ok && !bad.contains 1 } }

/-- Removes every entry of `k`. -/
def dropAssoc {α β : Type} [DecidableEq α] (k : α) (l : List (α × β)) : List (α × β) := l.filter fun p => p.1 ≠ k

/-- The newest `n` elements of a list that keeps its newest last. -/
def keepLast {α : Type} (n : Nat) (l : List α) : List α := l.drop (l.length - n)

/-- Element `i` becomes `f` of itself. -/
def modAt {α : Type} (l : List α) (i : Nat) (f : α → α) : List α :=
  match l[i]? with
  | some a => l.set i (f a)
  | none => l

/-- `n` bytes of a number, least significant first (R7). -/
def leBytes : Nat → Nat → Bytes
  | 0, _ => []
  | n + 1, v => BitVec.ofNat 8 v :: leBytes n (v / 256)

/-- The number that bytes spell, least significant first (R7). -/
def leNat : Bytes → Nat
  | [] => 0
  | b :: t => b.toNat + 256 * leNat t

/-- `n` bytes of a number, most significant first. -/
def beBytes (n v : Nat) : Bytes := (leBytes n v).reverse

/-- The field of `n` bytes at an offset of a payload. -/
def bytesAt (p : Bytes) (off n : Nat) : Bytes := (p.drop off).take n
def natAt (p : Bytes) (off n : Nat) : Nat := leNat (bytesAt p off n)

/-- Whether a run of bytes is all 00h. -/
def allZero (p : Bytes) : Bool := p.all (· == 0)

/-- A string padded with 00h, or cut, to `n` bytes. -/
def padTo (n : Nat) (b : Bytes) : Bytes := (b ++ List.replicate (n - b.length) 0).take n

/-- A string without its trailing 00h bytes: the NQN of a fixed field. -/
def trimZero (b : Bytes) : Bytes := (b.reverse.dropWhile (· == 0)).reverse

/-- Two's complement of a signed number in `n` bytes. -/
def intBytes (n : Nat) (v : Int) : Bytes := leBytes n (v % (2 ^ (8 * n) : Int)).toNat

/-- A signed field. -/
def intAt (p : Bytes) (off n : Nat) : Int :=
  let u := natAt p off n
  if u < 2 ^ (8 * n - 1) then (u : Int) else (u : Int) - 2 ^ (8 * n)

/-- One bit step of a reflected CRC with polynomial `poly`. -/
def crcBit (poly r : BitVec 32) : BitVec 32 := if r.getLsbD 0 then (r >>> 1) ^^^ poly else r >>> 1

/-- One byte of a reflected CRC. -/
def crcByte (poly r : BitVec 32) (b : Byte) : BitVec 32 :=
  let x := r ^^^ b.setWidth 32
  crcBit poly (crcBit poly (crcBit poly (crcBit poly (crcBit poly (crcBit poly (crcBit poly (crcBit poly x)))))))

/-- CRC32C, the check of every table that names it (R243, R428, R504). -/
def crc32c (b : Bytes) : BitVec 32 := ~~~ (b.foldl (crcByte 0x82F63B78#32) 0xFFFFFFFF#32)

/-- The Ethernet CRC, whose bits select the group hash bit (R334). -/
def crcIeee (b : Bytes) : BitVec 32 := ~~~ (b.foldl (crcByte 0xEDB88320#32) 0xFFFFFFFF#32)

/-- One byte of the CRC-16 of a lookup slot: polynomial 1021h, most significant bit first (R316). -/
def crc16Byte (c : BitVec 16) (b : Byte) : BitVec 16 :=
  (List.range 8).foldl (fun c _ => if c.getLsbD 15 then (c <<< 1) ^^^ 0x1021#16 else c <<< 1) (c ^^^ (b.setWidth 16 <<< 8))
def crc16 (b : Bytes) : BitVec 16 := b.foldl crc16Byte 0xFFFF#16

/-- The pieces of `n` bytes of a message, the last one short where they do not come out even; `fuel` bounds their number. -/
def cut (n : Nat) : Nat → Bytes → List Bytes
  | 0, _ => []
  | fuel + 1, b => if b.isEmpty then [] else b.take n :: cut n fuel (b.drop n)

/-- Byte by byte exclusive or. -/
def xorBytes (a b : Bytes) : Bytes := List.zipWith (· ^^^ ·) a b

end Sys2Proof.Machine
end

