-- ==== Sys2Proof/Machine/Sha.lean ====
section
/-! DEFINITION. The hash functions the manual names: SHA-384 (R225, R229 to R231), SHA3-384 (R225, chapter 14) and
SHAKE256 (R225), after FIPS 180-4 and FIPS 202. -/

namespace Sys2Proof.Machine

abbrev W64 := BitVec 64

/-- The round constants of SHA-384. -/
def shaK : List W64 :=
  [0x428A2F98D728AE22, 0x7137449123EF65CD, 0xB5C0FBCFEC4D3B2F, 0xE9B5DBA58189DBBC,
   0x3956C25BF348B538, 0x59F111F1B605D019, 0x923F82A4AF194F9B, 0xAB1C5ED5DA6D8118,
   0xD807AA98A3030242, 0x12835B0145706FBE, 0x243185BE4EE4B28C, 0x550C7DC3D5FFB4E2,
   0x72BE5D74F27B896F, 0x80DEB1FE3B1696B1, 0x9BDC06A725C71235, 0xC19BF174CF692694,
   0xE49B69C19EF14AD2, 0xEFBE4786384F25E3, 0x0FC19DC68B8CD5B5, 0x240CA1CC77AC9C65] ++
  [0x2DE92C6F592B0275, 0x4A7484AA6EA6E483, 0x5CB0A9DCBD41FBD4, 0x76F988DA831153B5,
   0x983E5152EE66DFAB, 0xA831C66D2DB43210, 0xB00327C898FB213F, 0xBF597FC7BEEF0EE4,
   0xC6E00BF33DA88FC2, 0xD5A79147930AA725, 0x06CA6351E003826F, 0x142929670A0E6E70,
   0x27B70A8546D22FFC, 0x2E1B21385C26C926, 0x4D2C6DFC5AC42AED, 0x53380D139D95B3DF,
   0x650A73548BAF63DE, 0x766A0ABB3C77B2A8, 0x81C2C92E47EDAEE6, 0x92722C851482353B] ++
  [0xA2BFE8A14CF10364, 0xA81A664BBC423001, 0xC24B8B70D0F89791, 0xC76C51A30654BE30,
   0xD192E819D6EF5218, 0xD69906245565A910, 0xF40E35855771202A, 0x106AA07032BBD1B8,
   0x19A4C116B8D2D0C8, 0x1E376C085141AB53, 0x2748774CDF8EEB99, 0x34B0BCB5E19B48A8,
   0x391C0CB3C5C95A63, 0x4ED8AA4AE3418ACB, 0x5B9CCA4F7763E373, 0x682E6FF3D6B2B8A3,
   0x748F82EE5DEFB2FC, 0x78A5636F43172F60, 0x84C87814A1F0AB72, 0x8CC702081A6439EC] ++
  [0x90BEFFFA23631E28, 0xA4506CEBDE82BDE9, 0xBEF9A3F7B2C67915, 0xC67178F2E372532B,
   0xCA273ECEEA26619C, 0xD186B8C721C0C207, 0xEADA7DD6CDE0EB1E, 0xF57D4F7FEE6ED178,
   0x06F067AA72176FBA, 0x0A637DC5A2C898A6, 0x113F9804BEF90DAE, 0x1B710B35131C471B,
   0x28DB77F523047D84, 0x32CAAB7B40C72493, 0x3C9EBE0A15C9BEBC, 0x431D67C49C100D4C,
   0x4CC5D4BECB3E42B6, 0x597F299CFC657E2A, 0x5FCB6FAB3AD6FAEC, 0x6C44198C4A475817]

/-- The initial hash value of SHA-384. -/
def shaInit : List W64 :=
  [0xCBBB9D5DC1059ED8, 0x629A292A367CD507, 0x9159015A3070DD17, 0x152FECD8F70E5939,
   0x67332667FFC00B31, 0x8EB44A8768581511, 0xDB0C2E0D64F98FA7, 0x47B5481DBEFA4FA4]

/-- The 64-bit words of a block, most significant byte first. -/
def beWords : Nat → Bytes → List W64
  | 0, _ => []
  | n + 1, b => BitVec.ofNat 64 (leNat (b.take 8).reverse) :: beWords n (b.drop 8)

/-- The message schedule, newest word first: `n` more words after the first sixteen. -/
def shaSchedule : Nat → List W64 → List W64
  | 0, w => w
  | n + 1, w =>
    let a := w.getD 14 0
    let b := w.getD 1 0
    let s0 := a.rotateRight 1 ^^^ a.rotateRight 8 ^^^ a >>> 7
    let s1 := b.rotateRight 19 ^^^ b.rotateRight 61 ^^^ b >>> 6
    shaSchedule n ((w.getD 15 0 + s0 + w.getD 6 0 + s1) :: w)

/-- One round on the working variables a to h. -/
def shaRound (v : List W64) (kw : W64) : List W64 :=
  match v with
  | [a, b, c, d, e, f, g, h] =>
    let t1 := h + (e.rotateRight 14 ^^^ e.rotateRight 18 ^^^ e.rotateRight 41) + ((e &&& f) ^^^ (~~~e &&& g)) + kw
    let t2 := (a.rotateRight 28 ^^^ a.rotateRight 34 ^^^ a.rotateRight 39) + ((a &&& b) ^^^ (a &&& c) ^^^ (b &&& c))
    [t1 + t2, a, b, c, d + t1, e, f, g]
  | _ => v

/-- One 128-byte block. -/
def shaBlock (h : List W64) (b : Bytes) : List W64 :=
  let w := (shaSchedule 64 (beWords 16 b).reverse).reverse
  List.zipWith (· + ·) h ((List.zipWith (· + ·) shaK w).foldl shaRound h)

/-- The blocks of a padded message. -/
def shaBlocks : Nat → List W64 → Bytes → List W64
  | 0, h, _ => h
  | n + 1, h, b => shaBlocks n (shaBlock h (b.take 128)) (b.drop 128)

/-- SHA-384 of a byte string, 48 bytes. -/
@[irreducible] def sha384 (m : Bytes) : Bytes :=
  let z := (239 - m.length % 128) % 128
  let p := m ++ [0x80] ++ List.replicate z 0 ++ beBytes 16 (8 * m.length)
  ((shaBlocks (p.length / 128) shaInit p).take 6).flatMap fun w => beBytes 8 w.toNat

/-- The 8-bit register whose low bits, seven to a round, select the bits that a round of the Keccak permutation flips in lane 0. -/
def keccakClock (r : BitVec 8) : BitVec 8 := if r.msb then (r <<< 1) ^^^ 0x71 else r <<< 1

/-- What round step iota flips in lane 0, and the register after its seven steps: step `j` governs bit 2^j - 1. -/
def keccakIota : Nat → Nat → BitVec 8 → W64 → W64 × BitVec 8
  | 0, _, r, m => (m, r)
  | n + 1, j, r, m => keccakIota n (j + 1) (keccakClock r) (if r.getLsbD 0 then m ||| BitVec.twoPow 64 (2 ^ j - 1) else m)

/-- Steps rho and pi as one walk over the 24 lanes that move: the lane at (x, y) goes to (y, 2x + 3y), turned by the triangular
number of its place in the walk; `moved` holds the new lanes by place. -/
def keccakWalk : Nat → Nat → Nat → Nat → List W64 → List W64 → List W64
  | 0, _, _, _, _, moved => moved
  | n + 1, x, y, turn, a, moved =>
    let y' := (2 * x + 3 * y) % 5
    keccakWalk n y y' (turn + (24 - n) + 1) a (moved.set (y + 5 * y') ((a.getD (x + 5 * y) 0).rotateLeft (turn % 64)))

/-- Step theta: every lane takes in the parities of the columns beside it. -/
def keccakTheta (a : List W64) : List W64 :=
  let parity (x : Nat) : W64 := ((a.drop (x % 5)).zipIdx.filter fun p => p.2 % 5 == 0).foldl (fun t p => t ^^^ p.1) 0
  let mix := (List.range 5).map fun x => parity (x + 4) ^^^ (parity (x + 1)).rotateLeft 1
  a.zipIdx.map fun (l, i) => l ^^^ mix.getD (i % 5) 0

/-- Step chi on one row of five lanes. -/
def keccakRow (r : List W64) : List W64 :=
  let turned (n : Nat) := r.drop n ++ r.take n
  (r.zip ((turned 1).zip (turned 2))).map fun (l, m, n) => l ^^^ (n &&& ~~~m)

/-- `n` rounds of the Keccak permutation. -/
def keccakRounds : Nat → BitVec 8 → List W64 → List W64
  | 0, _, a => a
  | n + 1, r, a =>
    let moved := keccakTheta a
    let b := keccakWalk 24 1 0 1 moved moved
    let c := (List.range 5).flatMap fun y => keccakRow ((b.drop (5 * y)).take 5)
    let (flip, r') := keccakIota 7 0 r 0
    keccakRounds n r' (c.modifyHead (· ^^^ flip))

/-- Absorbs `n` blocks of `rate` bytes. -/
def keccakAbsorb (rate : Nat) : Nat → List W64 → Bytes → List W64
  | 0, a, _ => a
  | n + 1, a, b =>
    let block := ((List.range (rate / 8)).map fun i => BitVec.ofNat 64 (natAt b (8 * i) 8)) ++ List.replicate (25 - rate / 8) 0
    keccakAbsorb rate n (keccakRounds 24 1 (List.zipWith (· ^^^ ·) a block)) (b.drop rate)

/-- A message padded to blocks of `rate` bytes, `first` in the byte after it. -/
def keccakPad (rate : Nat) (first : Byte) (m : Bytes) : Bytes :=
  let z := rate - m.length % rate
  m ++ (if z = 1 then [first ||| 0x80] else [first] ++ List.replicate (z - 2) 0 ++ [0x80])

/-- The lanes after a message has been absorbed. -/
def keccakSponge (rate : Nat) (first : Byte) (m : Bytes) : List W64 :=
  let p := keccakPad rate first m
  keccakAbsorb rate (p.length / rate) (List.replicate 25 0) p

/-- `n` blocks of `rate` bytes squeezed out. -/
def keccakSqueeze (rate : Nat) : Nat → List W64 → Bytes
  | 0, _ => []
  | n + 1, a => ((a.flatMap fun w => leBytes 8 w.toNat).take rate) ++ keccakSqueeze rate n (keccakRounds 24 1 a)

/-- SHA3-384 of a byte string, 48 bytes. -/
@[irreducible] def sha3_384 (m : Bytes) : Bytes := (keccakSqueeze 104 1 (keccakSponge 104 0x06 m)).take 48

/-- SHAKE256 of a byte string, `n` bytes (R225). -/
@[irreducible] def shake256 (m : Bytes) (n : Nat) : Bytes := (keccakSqueeze 136 ((n + 135) / 136) (keccakSponge 136 0x1F m)).take n

end Sys2Proof.Machine
end

