-- ==== Sys2Proof/Machine/Crypto.lean ====
section
/-! DEFINITION. The algorithms the manual names by their standards, beside the hashes: AES-256 (R210, R215; FIPS 197), HMAC and HKDF with
SHA-384 (R218; RFC 2104, RFC 5869), GCM and the seal nonce (R215; SP 800-38D), the wrapping of keys (R218, R219, R222), the secrets and
nonces of a TLS record (R223; RFC 8446), and the deterministic ECDSA P-384 signature (R226; FIPS 186-5, RFC 6979). Log 4. -/

namespace Sys2Proof.Machine

/-- The bytes of a text. -/
def textBytes (t : String) : Bytes := t.toList.map fun c => BitVec.ofNat 8 c.toNat

/-- A block of 16 bytes as a number whose first byte is its most significant. -/
def blockOf (b : Bytes) : BitVec 128 := BitVec.ofNat 128 (leNat (padTo 16 b).reverse)
def blockBytes (x : BitVec 128) : Bytes := beBytes 16 x.toNat

/-! ## AES-256 -/

/-- Twice an element of the field of 256, and the product of two. -/
def fieldTwice (x : Byte) : Byte := if x.msb then (x <<< 1) ^^^ 0x1B#8 else x <<< 1
def fieldMul (x y : Byte) : Byte :=
  ((List.range 8).foldl (fun (a : Byte × Byte) i => (if y.getLsbD i then a.1 ^^^ a.2 else a.1, fieldTwice a.2)) (0, x)).1

/-- The inverse of an element, its 254th power; 0 of 0. -/
def fieldInverse (x : Byte) : Byte :=
  ((List.range 7).foldl (fun (a : Byte × Byte) _ => let q := fieldMul a.2 a.2; (fieldMul a.1 q, q)) (1, x)).1

/-- The substitution of a byte. -/
def aesSub (x : Byte) : Byte :=
  let y := fieldInverse x
  (List.range 4).foldl (fun a i => a ^^^ y.rotateLeft (i + 1)) (y ^^^ 0x63#8)

/-- The 60 words of the key schedule, the newest first: `n` more words. -/
def aesSchedule : Nat → Nat → Byte → List Bytes → List Bytes
  | 0, _, _, w => w
  | n + 1, i, c, w =>
    let t := w.headD []
    let u := if i % 8 = 0 then ((t.drop 1 ++ t.take 1).map aesSub).modifyHead (· ^^^ c) else if i % 8 = 4 then t.map aesSub else t
    aesSchedule n (i + 1) (if i % 8 = 0 then fieldTwice c else c) (xorBytes (w.getD 7 []) u :: w)

/-- The 15 round keys of a key of 32 bytes. -/
def aesKeys (key : Bytes) : List Bytes :=
  cut 16 15 (aesSchedule 52 8 1 (cut 4 8 (padTo 32 key)).reverse).reverse.flatten

/-- The bytes substituted and each row of the square turned by its number. -/
def aesShift (b : Bytes) : Bytes := (List.range 16).map fun i => aesSub (b.getD ((i + 4 * (i % 4)) % 16) 0)

/-- The columns of the square mixed. -/
def aesMix (b : Bytes) : Bytes :=
  (List.range 16).map fun i =>
    let at_ (j : Nat) : Byte := b.getD (i / 4 * 4 + (i + j) % 4) 0
    fieldTwice (at_ 0) ^^^ (fieldTwice (at_ 1) ^^^ at_ 1) ^^^ at_ 2 ^^^ at_ 3

/-- AES-256 of one block: fourteen rounds, the last without the mixing (R210). -/
@[irreducible] def aes256 (key : Bytes) (x : BitVec 128) : BitVec 128 :=
  let ks := aesKeys key
  let b := ((ks.drop 1).take 13).foldl (fun b k => xorBytes (aesMix (aesShift b)) k) (xorBytes (blockBytes x) (ks.headD []))
  blockOf (xorBytes (aesShift b) (ks.getD 14 []))

/-! ## HMAC and HKDF with SHA-384 -/

/-- HMAC-SHA-384 of a message under a key. -/
@[irreducible] def hmac384 (key m : Bytes) : Bytes :=
  let k := padTo 128 (if 128 < key.length then sha384 key else key)
  sha384 (k.map (· ^^^ 0x5C#8) ++ sha384 (k.map (· ^^^ 0x36#8) ++ m))

/-- The blocks of an expansion from block `i` on, each over the one before it. -/
def hkdfBlocks (prk info : Bytes) : Nat → Nat → Bytes → Bytes
  | 0, _, _ => []
  | n + 1, i, last =>
    let t := hmac384 prk (last ++ info ++ leBytes 1 i)
    t ++ hkdfBlocks prk info n (i + 1) t

def hkdfExpand (prk info : Bytes) (n : Nat) : Bytes := (hkdfBlocks prk info ((n + 47) / 48) 1 []).take n

/-- HKDF-SHA-384: `n` bytes of key material for a purpose. -/
def hkdf384 (salt secret info : Bytes) (n : Nat) : Bytes := hkdfExpand (hmac384 (if salt.isEmpty then List.replicate 48 0 else salt) secret) info n

/-! ## Nonces (R215) -/

inductive NonceKind where
  | media | staging | wrap
  deriving DecidableEq, Repr

def NonceKind.code : NonceKind → Nat
  | .media => 0 | .staging => 1 | .wrap => 2

/-- N, 12 bytes: NC_KIND, three reserved bytes, NC_COUNTER. -/
def sealNonce (k : NonceKind) (counter : Nat) : Bytes := leBytes 1 k.code ++ [0, 0, 0] ++ leBytes 8 counter

/-- Counter block `i`: N followed by `i` as a 32-bit big-endian number. -/
def counterBlock (n : Bytes) (i : Nat) : BitVec 128 := blockOf (n ++ beBytes 4 i)

/-! ## Modes (R214, R215) -/

/-- CTR from counter block `i` on: a final partial block takes as much of the key stream as it has bytes (R211). -/
def ctrFrom (key n : Bytes) (i : Nat) (m : Bytes) : Bytes :=
  ((cut 16 (m.length + 1) m).zipIdx i).flatMap fun (b, j) => xorBytes b (blockBytes (aes256 key (counterBlock n j)))

/-- The product of GHASH's field: bit 127 is the coefficient of 1 (SP 800-38D). -/
def ghashMul (x y : BitVec 128) : BitVec 128 :=
  ((List.range 128).foldl (fun (zv : BitVec 128 × BitVec 128) i =>
    (if x.getLsbD (127 - i) then zv.1 ^^^ zv.2 else zv.1,
     if zv.2.getLsbD 0 then (zv.2 >>> 1) ^^^ (0xE1#128 <<< 120) else zv.2 >>> 1)) (0, y)).1

def ghash (h : BitVec 128) (m : Bytes) : BitVec 128 :=
  (cut 16 (m.length + 1) m).foldl (fun y b => ghashMul (y ^^^ blockOf b) h) 0

/-- Bytes padded with 00h to whole blocks. -/
def wholeBlocks (m : Bytes) : Bytes := padTo ((m.length + 15) / 16 * 16) m

/-- REC_TAG of GCM: N is the IV, the header the additional authenticated data (R215). -/
def gcmTag (key n aad sealed : Bytes) : Bytes :=
  let lens := beBytes 8 (8 * aad.length) ++ beBytes 8 (8 * sealed.length)
  let g := ghash (aes256 key 0) (wholeBlocks aad ++ wholeBlocks sealed ++ lens)
  blockBytes (g ^^^ aes256 key (counterBlock n 1))

/-! ## Wrapped keys (R218, R219, R222) -/

/-- The KEK that the device secret and a salt give (R218). -/
def kekOf (uds salt : Bytes) : Bytes := hkdf384 salt uds Config.kekInfo 32

def SealMode.code : SealMode → Nat
  | .gcm => 0 | .xts => 1 | .ctr => 2 | .cbc => 3

/-- The least number that is not in a list; `f` bounds the search. -/
def leastNot (l : List Nat) : Nat → Nat → Nat
  | 0, i => i
  | f + 1, i => if i ∈ l then leastNot l f (i + 1) else i

/-- Bytes 0 to 15 of a key record, the AAD of its wrap (R219). -/
def KeyRec.aad (r : KeyRec) : Bytes :=
  leBytes 4 r.nsid ++ leBytes 4 r.gen ++ leBytes 1 r.state ++ leBytes 1 r.mode.code ++ leBytes 2 r.kekGen ++ [0, 0, 0, 0]

/-- A record with its data key wrapped under a KEK, by AES-256-GCM with a wrap counter (R215, R219). -/
def KeyRec.wrap (r : KeyRec) (kek key : Bytes) (counter : Nat) : KeyRec :=
  let n := sealNonce .wrap counter
  let w := ctrFrom kek n 2 key
  { r with nonce := counter, wrapped := w, tag := gcmTag kek n r.aad w }

/-- The data key of a record; an erased one holds none (R219, R221). -/
def KeyRec.dataKey (r : KeyRec) (kek : Bytes) : Option Bytes :=
  if r.state = 3 then none else some (ctrFrom kek (sealNonce .wrap r.nonce) 2 r.wrapped)

/-- The 128 bytes of a record (R219). -/
def KeyRec.bytes (r : KeyRec) : Bytes :=
  let b := r.aad ++ padTo 12 (sealNonce .wrap r.nonce) ++ [0, 0, 0, 0] ++ padTo 32 r.wrapped ++ padTo 16 r.tag ++ leBytes 8 r.time
    ++ leBytes 1 r.tq.toNat ++ List.replicate 35 0
  b ++ leBytes 4 (crc32c b).toNat

/-- A record changes and its key is wrapped anew: the new record takes a free slot, and the slot it supersedes is zeroed (R219). An erased
record holds no key to wrap. -/
def KeyRec.change (r : KeyRec) (old new : Bytes) (slot counter : Nat) : KeyRec :=
  match r.dataKey old with
  | some key => { r with slot := slot }.wrap new key counter
  | none => { r with slot := slot, nonce := counter }

/-- Records under a condition change one after another, each with the next wrap counter, from the KEK `old` to `new` (R219, R222). -/
def rewrap (old new : Bytes) (p : KeyRec → Bool) (f : KeyRec → KeyRec) : List KeyRec → List Nat → Nat → List KeyRec
  | [], _, _ => []
  | r :: l, used, c =>
    if p r then
      let i := leastNot used used.length 0
      (f r).change old new i c :: rewrap old new p f l (i :: used.erase r.slot) (c + 1)
    else r :: rewrap old new p f l used c

/-- A pre-shared key wrapped under a KEK, and unwrapped as it was configured (R222, R224). -/
def Psk.wrap (p : Psk) (kek key : Bytes) (counter : Nat) : Psk :=
  let n := sealNonce .wrap counter
  let w := ctrFrom kek n 2 key
  { p with nonce := counter, wrapped := w, tag := gcmTag kek n (Config.pskAad p.host p.identity) w }

def Psk.configured (p : Psk) (kek : Bytes) : Bytes := ctrFrom kek (sealNonce .wrap p.nonce) 2 p.wrapped

/-! ## TLS handshakes and records (R62, R223, R224; PRESUMED: RFC 8446 and the NVMe/TCP binding, log 4) -/

/-- `n` bytes that a TLS secret gives for a label and a context. -/
def tlsContext (secret : Bytes) (label : String) (context : Bytes) (n : Nat) : Bytes :=
  let l := textBytes "tls13 " ++ textBytes label
  hkdfExpand secret (beBytes 2 n ++ leBytes 1 l.length ++ l ++ leBytes 1 context.length ++ context) n

/-- The same without a context. -/
def tlsExpand (secret : Bytes) (label : String) (n : Nat) : Bytes := tlsContext secret label [] n

/-- HKDF-Extract without a salt. -/
def tlsExtract (secret : Bytes) : Bytes := hmac384 (List.replicate 48 0) secret

/-- The retained PSK of a configured one: bound to its host NQN (R62). -/
def Psk.retained (p : Psk) (kek : Bytes) : Bytes := tlsContext (tlsExtract (p.configured kek)) "HostNQN" p.host 48

/-- What the TLS PSK is bound to: the identity, and from version 1 on the hash and the digest that ends the identity. -/
def Psk.context (p : Psk) : Bytes :=
  if p.identity.getD 4 0x30 = 0x30 then p.identity
  else bytesAt p.identity 6 2 ++ [0x20] ++ (p.identity.reverse.takeWhile (· ≠ 0x20)).reverse

/-- The PSK that TLS uses (R62). -/
def Psk.tls (p : Psk) (kek : Bytes) : Bytes := tlsContext (tlsExtract (p.retained kek)) "nvme-tls-psk" p.context 48

/-- The binder by which a ClientHello shows that it knows a PSK, over the hash of the message as far as the binders. -/
def pskBinder (psk truncated : Bytes) : Bytes :=
  hmac384 (tlsExpand (tlsContext (tlsExtract psk) "ext binder" (sha384 []) 48) "finished" 48) truncated

/-- The application traffic secret of a side: `side` is "c ap traffic" or "s ap traffic", `shared` the ECDHE secret and `transcript` the hash
of the handshake. -/
def trafficSecret (psk shared transcript : Bytes) (side : String) : Bytes :=
  let handshake := hmac384 (tlsContext (tlsExtract psk) "derived" (sha384 []) 48) shared
  let master := hmac384 (tlsContext handshake "derived" (sha384 []) 48) (List.replicate 48 0)
  tlsContext master side transcript 48

/-- The key and the IV of a traffic secret, and the secret after a KeyUpdate. -/
def trafficKey (secret : Bytes) : Bytes := tlsExpand secret "key" 32
def trafficIv (secret : Bytes) : Bytes := tlsExpand secret "iv" 12
def nextTraffic (secret : Bytes) : Bytes := tlsExpand secret "traffic upd" 48

/-- The nonce of the record with a number under its traffic secret: the number, at the end of 12 bytes, over the IV. -/
def recordNonce (secret : Bytes) (number : Nat) : Bytes := xorBytes (List.replicate 4 0 ++ beBytes 8 number) (trafficIv secret)

/-- The 5-byte AAD of a record with a payload of `n` bytes, which its type byte and its tag follow. -/
def recordAad (n : Nat) : Bytes := [0x17, 0x03, 0x03] ++ beBytes 2 (n + 17)

/-! ## ECDSA over P-384 (R226) -/

def curveP : Nat := 2 ^ 384 - 2 ^ 128 - 2 ^ 96 + 2 ^ 32 - 1
def curveN : Nat := 0xFFFFFFFFFFFFFFFFFFFFFFFFFFFFFFFFFFFFFFFFFFFFFFFFC7634D81F4372DDF581A0DB248B0A77AECEC196ACCC52973
def curveG : Nat × Nat :=
  (0xAA87CA22BE8B05378EB1C71EF320AD746E1D3B628BA79B9859F741E082542A385502F25DBF55296C3A545E3872760AB7,
   0x3617DE4A96262C6F5D9E98BF9292DC29F8F41DBD289A147CE9DA3113B5F0B8C00A60B1CE1D7E819D7A431D7C90EA0E5F)

/-- A power modulo a number; `f` bounds the bits of the exponent. -/
def powMod : Nat → Nat → Nat → Nat → Nat
  | 0, _, _, m => 1 % m
  | f + 1, x, e, m => let r := powMod f (x * x % m) (e / 2) m; if e % 2 = 1 then r * x % m else r

/-- The inverse modulo a prime of 384 bits. -/
def invMod (x m : Nat) : Nat := powMod 384 x (m - 2) m

/-- The sum of two points of the curve; none is the point at infinity. -/
def curveAdd : Option (Nat × Nat) → Option (Nat × Nat) → Option (Nat × Nat)
  | none, q => q
  | p, none => p
  | some (x, y), some (u, v) =>
    let third (slope : Nat) : Option (Nat × Nat) :=
      let w := (slope * slope + 2 * curveP - x - u) % curveP
      some (w, (slope * (x + curveP - w) + curveP - y) % curveP)
    if x ≠ u then third ((v + curveP - y) * invMod ((u + curveP - x) % curveP) curveP % curveP)
    else if y = v && y ≠ 0 then third ((3 * x * x + curveP - 3) * invMod (2 * y % curveP) curveP % curveP)
    else none

/-- The multiple of a point by the low 384 bits of a number. -/
def curveMul (k : Nat) (p : Option (Nat × Nat)) : Option (Nat × Nat) :=
  (List.range 384).reverse.foldl (fun a i => let d := curveAdd a a; if k.testBit i then curveAdd d p else d) none

/-- The public key of a private one, as the 97-byte uncompressed point (R227). -/
@[irreducible] def ecdsaPublic (d : Nat) : Bytes :=
  match curveMul d (some curveG) with
  | some (x, y) => [4] ++ beBytes 48 x ++ beBytes 48 y
  | none => List.replicate 97 0

/-- The ECDHE secret of a private key and a peer's share: the x coordinate of their point (RFC 8446, section 7.4.2). -/
@[irreducible] def ecdheSecret (d : Nat) (share : Bytes) : Bytes :=
  match curveMul d (some (leNat (bytesAt share 1 48).reverse, leNat (bytesAt share 49 48).reverse)) with
  | some (x, _) => beBytes 48 x
  | none => []

/-- A signature with a given nonce: r and then s, each 48 bytes big-endian; none where one of them would be 0. -/
def ecdsaWith (d z k : Nat) : Option Bytes :=
  let r := ((curveMul k (some curveG)).map (·.1)).getD 0 % curveN
  let s := invMod k curveN * (z + r * d) % curveN
  if r = 0 ∨ s = 0 then none else some (beBytes 48 r ++ beBytes 48 s)

/-- The nonces of RFC 6979 are tried in their order, `f` of them at most. -/
def ecdsaTries (d z : Nat) : Nat → Bytes → Bytes → Bytes
  | 0, _, _ => List.replicate 96 0
  | f + 1, key, v =>
    let v := hmac384 key v
    let k := leNat v.reverse
    match if k = 0 ∨ curveN ≤ k then none else ecdsaWith d z k with
    | some g => g
    | none => let key := hmac384 key (v ++ [0]); ecdsaTries d z f key (hmac384 key v)

/-- The deterministic ECDSA signature of a message under a private key (R226). -/
@[irreducible] def ecdsaSign (d : Nat) (m : Bytes) : Bytes :=
  let h := sha384 m
  let z := leNat h.reverse
  let seed := beBytes 48 d ++ beBytes 48 (z % curveN)
  let v := List.replicate 48 1
  let key := hmac384 (List.replicate 48 0) (v ++ [0] ++ seed)
  let v := hmac384 key v
  let key := hmac384 key (v ++ [1] ++ seed)
  ecdsaTries d z 64 key (hmac384 key v)

/-! ## The drive's signatures (R226, R227) -/

/-- A private ECDSA key from the number it is derived as: 1 to one below the order. -/
def privateKey (scalar : Nat) : Nat := 1 + scalar % (curveN - 1)

/-- The public keys of a signer: the 97-byte point and then the ML-DSA key of 1,952 bytes (R226, R227). -/
def publicKeys (scalar : Nat) (mldsa : Bytes) : Bytes := ecdsaPublic (privateKey scalar) ++ padTo 1952 mldsa

/-- A hybrid signature: 96 bytes of ECDSA P-384 and 3,309 of ML-DSA-65 (R226). -/
def hybridSign (scalar : Nat) (secret : Bytes) (fresh : Nat) (m : Bytes) : Bytes × Bytes :=
  (ecdsaSign (privateKey scalar) m, padTo 3309 (Config.mldsaSign fresh secret m))

end Sys2Proof.Machine
end

