-- ==== Sys2Proof/Machine/Transmit.lean ====
section
/-! DEFINITION. What the drive sends, as frames: the PDUs and packets of a connection, TLS records, send descriptors and the segments that the
MAC cuts them into, traffic classes, and the transmit queues (R223, R330, R333, R335 to R337, R343). -/

namespace Sys2Proof.Machine

def Front.conn? (f : Front) (id : Nat) : Option Conn := f.conns.find? (·.id == id)

/-- The connection of a queue. -/
def Front.connOf (f : Front) (ctrl sq : Nat) : Option Conn := f.conns.find? fun k => k.ctrl == some (ctrl, sq)

/-- A port by its number: 0 is Port A, any other Port B (R327). -/
def Ports.port (p : Ports) (n : Nat) : Port := if n = 0 then p.a else p.b
def Ports.modPort (p : Ports) (n : Nat) (f : Port → Port) : Ports :=
  if n = 0 then { p with a := f p.a } else { p with b := f p.b }

/-! ## Addresses and tags (R333) -/

/-- A MAC address or group address as its six bytes, first byte first. -/
def macBytes (a : BitVec 48) : Bytes := beBytes 6 a.toNat

/-- The IPv6 link-local address that a port forms from its MAC address: fe80::/64 and the modified EUI-64, whose universal bit is inverted. -/
def linkLocal (port : Nat) : Bytes :=
  let m := macBytes (Config.macAddress port)
  [0xFE, 0x80, 0, 0, 0, 0, 0, 0] ++ (m.take 3).zipWith (· ^^^ ·) [2, 0, 0] ++ [0xFF, 0xFE] ++ m.drop 3

/-- The addresses of an interface of a port. -/
def IpIf.addrs (i : IpIf) (port : Nat) : List Bytes := (i.ipv4.map (·.1)).toList ++ i.ipv6 ++ [linkLocal port]

/-- The VLAN ID in the tag of the frames an interface sends: the untagged one sends priority-tagged frames while PC_FLOW is PFC. -/
def Port.tagIf (p : Port) (i : IpIf) : Option Nat := if i.vlan = 0 ∧ p.cfg.flow ≠ 2 then none else some i.vlan
def Port.tagOf (p : Port) (ifx : Nat) : Option Nat := (p.ifs.find? (·.index == ifx)).bind p.tagIf

/-- The tag of the frames of an address: that of its interface, or of the first one (log 27). -/
def Port.tagFor (p : Port) (port : Nat) (a : Bytes) : Option Nat :=
  ((p.ifs.find? fun i => decide (a ∈ i.addrs port)).or p.ifs.head?).bind p.tagIf

/-! ## Segmentation (R343) -/

/-- A send descriptor: the headers of its first segment and up to 262,144 bytes of TCP payload. -/
structure TxDesc where
  head : SegHead
  ipId : BitVec 16
  seq : BitVec 32
  cwr : Bool
  psh : Bool
  fin : Bool
  payload : Bytes
  deriving DecidableEq, Repr

def ipHeader (v6 : Bool) : Nat := if v6 then 40 else 20

/-- MSS: the smaller of the peer's and of PC_MTU less the headers and the options in use. -/
def mssOf (peer mtu : Nat) (v6 : Bool) (options : Nat) : Nat := min peer (mtu - ipHeader v6 - 20 - options)

/-- The segments of a descriptor: the headers are copied into each; the sequence number advances by the payload before it and the IPv4
identification by 1; CWR stays in the first, PSH and FIN in the last. -/
def TxDesc.segments (d : TxDesc) (mss : Nat) : List Segment :=
  let l := cut mss d.payload.length d.payload
  (l.zipIdx).map fun (p, i) =>
    { head := d.head, ipId := d.ipId + BitVec.ofNat 16 i, seq := d.seq + BitVec.ofNat 32 (mss * i),
      cwr := d.cwr && i == 0, psh := d.psh && i + 1 == l.length, fin := d.fin && i + 1 == l.length, payload := p }

/-- The 16-bit words of a header and its data, most significant byte first, added up. -/
def wordSum : Bytes → Nat
  | a :: b :: t => 256 * a.toNat + b.toNat + wordSum t
  | [a] => 256 * a.toNat
  | [] => 0

/-- The Internet checksum: the complement of the ones' complement sum. -/
def inetSum (b : Bytes) : Bytes := beBytes 2 (if wordSum b = 0 then 0xFFFF else 0xFFFE - (wordSum b - 1) % 0xFFFF)

/-- The IP header over `n` bytes, with the length field and the checksum of this segment. -/
def Segment.ipBytes (g : Segment) (n : Nat) : Bytes :=
  let h := g.head
  if h.v6 then
    beBytes 4 (6 * 2 ^ 28 + h.dscp * 2 ^ 22 + h.label.toNat) ++ beBytes 2 n ++ [6] ++ [h.hops] ++ padTo 16 h.src ++ padTo 16 h.dst
  else
    let front := [0x45] ++ leBytes 1 (4 * h.dscp) ++ beBytes 2 (20 + n) ++ beBytes 2 g.ipId.toNat
      ++ beBytes 2 (0x4000 * (h.label.getLsbD 0).toNat) ++ [h.hops, 6]
    let back := padTo 4 h.src ++ padTo 4 h.dst
    front ++ inetSum (front ++ [0, 0] ++ back) ++ back

/-- The TCP segment, with its checksum over the pseudo-header: ACK is always set. -/
def Segment.tcpBytes (g : Segment) : Bytes :=
  let h := g.head
  let n := 20 + h.options.length + g.payload.length
  let size := if h.v6 then 16 else 4
  let pseudo := padTo size h.src ++ padTo size h.dst ++ (if h.v6 then beBytes 4 n ++ [0, 0, 0, 6] else [0, 6] ++ beBytes 2 n)
  let front := beBytes 2 h.sport ++ beBytes 2 h.dport ++ beBytes 4 g.seq.toNat ++ beBytes 4 h.ack.toNat
    ++ leBytes 1 ((20 + h.options.length) / 4 * 16)
    ++ leBytes 1 (128 * g.cwr.toNat + 16 + 8 * g.psh.toNat + g.fin.toNat) ++ beBytes 2 h.window.toNat
  let back := [0, 0] ++ h.options ++ g.payload
  front ++ inetSum (pseudo ++ front ++ [0, 0] ++ back) ++ back

/-- A segment from its IP header on. -/
def Segment.bytes (g : Segment) : Bytes := g.ipBytes (20 + g.head.options.length + g.payload.length) ++ g.tcpBytes

/-! ## PDUs (R59, R60, R78) -/

/-- Status Code Type and Status Code: the vendor codes C0h to C7h of R78, the others as the manual or NVMe Base gives them. -/
def statusCode : Status → Nat × Nat
  | .success => (0, 0x00)
  | .invalidOpcode => (0, 0x01)
  | .invalidField => (0, 0x02)
  | .cidConflict => (0, 0x03)
  | .internalError => (0, 0x06)
  | .abortRequested => (0, 0x07)
  | .invalidNamespace => (0, 0x0B)
  | .commandSequenceError => (0, 0x0C)
  | .invalidNumberOfSgl => (0, 0x0E)
  | .sglDescriptorTypeInvalid => (0, 0x11)
  | .sanitizeInProgress => (0, 0x1D)
  | .nsWriteProtected => (0, 0x20)
  | .commandInterrupted => (0, 0x21)
  | .capacityExceeded => (0, 0x81)
  | .invalidValueSize => (0, 0x85)
  | .invalidKeySize => (0, 0x86)
  | .keyDoesNotExist => (0, 0x87)
  | .keyExists => (0, 0x89)
  | .deferredErrorReported => (0, 0xC0)
  | .retentionActive => (0, 0xC1)
  | .timeNotTraceable => (0, 0xC2)
  | .policyDenied => (0, 0xC3)
  | .policyUnavailable => (0, 0xC4)
  | .twinUnavailable => (0, 0xC5)
  | .originUnreachable => (0, 0xC6)
  | .receiptNotYetSealed => (0, 0xC7)
  | .abortLimitExceeded => (1, 0x03)
  | .aerLimitExceeded => (1, 0x05)
  | .invalidFirmwareSlot => (1, 0x06)
  | .invalidFirmwareImage => (1, 0x07)
  | .fwNeedsConventionalReset => (1, 0x0B)
  | .fwActivationProhibited => (1, 0x13)
  | .nsIdentifierUnavailable => (1, 0x16)
  | .nsAlreadyAttached => (1, 0x18)
  | .nsNotAttached => (1, 0x1A)
  | .controllerListInvalid => (1, 0x1C)
  | .selfTestInProgress => (1, 0x1D)
  | .connectControllerBusy => (1, 0x81)
  | .connectInvalidParameters => (1, 0x82)
  | .connectInvalidHost => (1, 0x84)
  | .unrecoveredReadError => (2, 0x81)
  | .anaInaccessible => (3, 0x02)
  | .anaTransition => (3, 0x03)

/-- The 16 bytes of a completion entry: Dwords 0 and 1, the head and identifier of its queue, the command's identifier, and the status
field with its code, type and DNR; a fabrics queue has no phase. -/
def cqeBytes (sq cid : Nat) (st : Status) (dnr : Bool) (dw0 dw1 : BitVec 32) (sqhd : Nat) : Bytes :=
  leBytes 4 dw0.toNat ++ leBytes 4 dw1.toNat ++ leBytes 2 sqhd ++ leBytes 2 sq ++ leBytes 2 cid
    ++ leBytes 2 (2 * (statusCode st).2 + 512 * (statusCode st).1 + 2 ^ 15 * dnr.toNat)

/-- A PDU of NVMe/TCP: its common header, the rest of the header and the data, each with its digest where that is in use (R59; PRESUMED: the
NVMe/TCP transport, log 27). -/
def Conn.pdu (k : Conn) (type flags : Nat) (rest data : Bytes) : Bytes :=
  let h := 8 + rest.length
  let hd := 4 * k.hdgst.toNat
  let dd := if data.isEmpty then 0 else 4 * k.ddgst.toNat
  let head := leBytes 1 type ++ leBytes 1 (flags + k.hdgst.toNat + (if data.isEmpty then 0 else 2 * k.ddgst.toNat)) ++ leBytes 1 h
    ++ leBytes 1 (if data.isEmpty then 0 else h + hd) ++ leBytes 4 (h + hd + data.length + dd) ++ rest
  head ++ (if k.hdgst then leBytes 4 (crc32c head).toNat else []) ++ data
    ++ (if k.ddgst && !data.isEmpty then leBytes 4 (crc32c data).toNat else [])

/-- The C2HData PDUs of a transfer: at most 131,072 bytes each, without SUCCESS, the last one marked (R60, R343). -/
def Conn.dataPdus (k : Conn) (cid : Nat) (d : Bytes) : List Bytes :=
  let l := cut 131072 (d.length / 131072 + 1) d
  l.zipIdx.map fun (p, i) =>
    k.pdu 7 (if i + 1 = l.length then 4 else 0) (leBytes 2 cid ++ [0, 0] ++ leBytes 4 (131072 * i) ++ leBytes 4 p.length ++ [0, 0, 0, 0]) p

/-- Dword 0 of the completion of an Asynchronous Event Request: type, information and log page (R66; PRESUMED: NVMe Base, log 14). -/
def eventDword : EventKind → Nat
  | .smartHealth => 0x020001
  | .nsAttribute => 0x040002
  | .fwActivation => 0x030102
  | .anaChange => 0x0C0302
  | .logC1 => 0xC10007
  | .logC3 => 0xC30007
  | .logC4 => 0xC40007

/-! ## TLS records (R223) -/

/-- A TLS record: at most 16,384 bytes of plaintext and their content type, sealed under the sending traffic key. -/
def sealTls (secret : Bytes) (number : Nat) (type : Byte) (p : Bytes) : Bytes :=
  let head := recordAad p.length
  let key := trafficKey secret
  let nonce := recordNonce secret number
  let body := ctrFrom key nonce 2 (p ++ [type])
  head ++ body ++ gcmTag key nonce head body

/-- What a connection puts into its TCP stream for a PDU, and the records that takes: under TLS it is sealed before segmentation. -/
def Conn.stream (k : Conn) (records : Nat) (type : Byte) (p : Bytes) : Bytes × Nat :=
  if !k.tls then (p, 0)
  else
    let l := cut 16384 (p.length / 16384 + 1) p
    (l.zipIdx.flatMap fun (x, i) => sealTls k.txSecret (records + i) type x, l.length)

/-! ## Frames (R330, R332, R333, R335, R336) -/

/-- A frame enters the transmit queue of its class; while the link is down it is discarded and counted. -/
def Port.enqueue (p : Port) (cls : Nat) (f : TxFrame) : Port :=
  if p.link.isNone then { p with cnt := { p.cnt with txLinkDownDrop := p.cnt.txLinkDownDrop + 1 } }
  else { p with txq := modAt p.txq (p.cfg.classPcp.getD cls 0) (· ++ [{ f with cls := cls, dscp := p.cfg.classDscp.getD cls 0 }]) }

/-- The length of a frame with `n` bytes after its Ethernet header: the tag and the FCS count, and none is shorter than 64 (R332). -/
def frameLen (vlan : Option Nat) (n : Nat) : Nat := max 64 (18 + 4 * vlan.isSome.toNat + n)

/-- The headers of a descriptor of a connection from the place it starts at. The receive window goes out shifted where scaling is in use,
and 12 bytes of options are a timestamp (RFC 7323); what no rule gives is open (log 3). -/
def Conn.head (k : Conn) (p : Port) (cls pos : Nat) : SegHead :=
  let o (i : Nat) : BitVec 32 := Config.tcpOpen k.id i pos
  { v6 := k.v6, src := k.addr, dst := k.peer, sport := k.tcpPort, dport := k.peerPort, dscp := p.cfg.classDscp.getD cls 0,
    hops := (o 2).setWidth 8, label := (o 3).setWidth 20, ack := o 4, window := ((o 5) >>> k.wscale.getD 0).setWidth 16,
    options := if k.options = 12 then [1, 1, 8, 10] ++ beBytes 4 (o 6).toNat ++ beBytes 4 (o 7).toNat
               else (List.range k.options).map fun i => ((o (16 + i)).setWidth 8 : Byte) }

/-- A PDU of a connection goes to the MAC in descriptors of at most 262,144 bytes, which cuts them into segments (R343, R350). -/
def Port.sendPdu (p : Port) (port : Nat) (k : Conn) (cls : Nat) (type : Byte) (pdu : Bytes) : Port :=
  let was := (p.sent.find? (·.conn == k.id)).getD { conn := k.id, gen := k.txGen }
  let pos := if was.gen = k.txGen then was else { was with gen := k.txGen, records := 0 }
  let (stream, records) := k.stream pos.records type pdu
  let mss := mssOf k.mss k.mtu k.v6 k.options
  let vlan := p.tagFor port k.addr
  let (p, pos) := (cut 262144 (stream.length / 262144 + 1) stream).foldl (fun (x : Port × TxPos) d =>
    let (p, pos) := x
    let o (i : Nat) : BitVec 32 := Config.tcpOpen k.id i pos.bytes
    let segs := ({ head := k.head p cls pos.bytes, ipId := (Config.tcpOpen k.id 1 0).setWidth 16 + BitVec.ofNat 16 pos.ids,
                   seq := Config.tcpOpen k.id 0 0 + BitVec.ofNat 32 pos.bytes, cwr := (o 8).getLsbD 0, psh := (o 8).getLsbD 1, fin := false,
                   payload := d } : TxDesc).segments mss
    let p := segs.foldl (fun (p : Port) g => p.enqueue cls
      { len := frameLen vlan (ipHeader k.v6 + 20 + k.options + g.payload.length), tag := 0, dest := Config.neighbour port k.peer, vlan := vlan,
        seg := some g }) p
    ({ p with cnt := { p.cnt with tsoSegments := p.cnt.tsoSegments + segs.length } },
     { pos with bytes := pos.bytes + d.length, ids := pos.ids + segs.length })) (p, pos)
  { p with sent := p.sent.filter (·.conn ≠ k.id) ++ [{ pos with records := pos.records + records }] }

/-- The path MTU of RoCEv2, and the sizes of the packets that Write and Read response data is cut into (R343). -/
def roceMtu (mtu : Nat) : Nat := if 4200 ≤ mtu then 4096 else 1024
def rocePackets (mtu n : Nat) : List Nat :=
  List.replicate (n / roceMtu mtu) (roceMtu mtu) ++ (if n % roceMtu mtu = 0 then [] else [n % roceMtu mtu])

/-- A RoCEv2 packet with `ext` bytes of extended headers and `n` of payload, ECT set (R335, R337): beside the IP and UDP headers it has 12
bytes of base header, the padding to whole words and 4 bytes of check (PRESUMED: the InfiniBand architecture, log 27). -/
def Port.sendRoce (p : Port) (port : Nat) (k : Conn) (ext n : Nat) : Port :=
  let vlan := p.tagFor port k.addr
  p.enqueue 4 { len := frameLen vlan (ipHeader (k.addr.length == 16) + 8 + 12 + ext + (n + 3) / 4 * 4 + 4), tag := 0, dest := Config.neighbour port k.peer,
                vlan := vlan, ect := true }

/-- Data to a host over RDMA: the packets of an RDMA Write, whose first one has the 16 bytes of an RDMA extended header. -/
def Port.sendWrite (p : Port) (port : Nat) (k : Conn) (n : Nat) : Port :=
  (rocePackets k.mtu n).zipIdx.foldl (fun (p : Port) x => p.sendRoce port k (if x.2 = 0 then 16 else 0) x.1) p

/-- A capsule of `n` bytes that the drive sends as an initiator, to its twin or an origin. DESIGN CHOICE (log 27): its segments, on IPv4 with
timestamps, are known by their length. -/
def Port.sendCapsule (p : Port) (cls n : Nat) : Port :=
  let mss := mssOf p.cfg.mtu p.cfg.mtu false 12
  let vlan := p.ifs.head?.bind p.tagIf
  let sizes := List.replicate (n / mss) mss ++ (if n % mss = 0 then [] else [n % mss])
  let p := sizes.foldl (fun (p : Port) m => p.enqueue cls { len := frameLen vlan (52 + m), tag := 0, vlan := vlan }) p
  { p with cnt := { p.cnt with tsoSegments := p.cnt.tsoSegments + sizes.length } }

/-- What a host connection is sent: a PDU on TCP, or a Send of `n` bytes on RDMA. -/
def Ports.toHost (p : Ports) (k : Conn) (type : Byte) (pdus : List Bytes) (roce : Port → Port) : Ports :=
  p.modPort k.port fun x => if k.rdma then roce x else pdus.foldl (fun (x : Port) b => x.sendPdu k.port k 3 type b) x

/-- The port on which twin traffic that names no path leaves: the lower one whose link is up (DESIGN CHOICE, log 27). -/
def Ports.twinPort (p : Ports) : Nat := if p.a.link.isNone && p.b.link.isSome then 1 else 0

/-- The bytes of the capsule in which an output goes to the twin: 72 bytes of command capsule, and the keys and data that go with it
(DESIGN CHOICE, log 27); none where it is no twin capsule. -/
def Out.twinBytes : Out → Option Nat
  | .twinWrite w => some (72 + w.key.length + w.value.length)
  | .twinData _ d => some (72 + d.length)
  | .twinForward f => some (72 + f.key.length)
  | .twinResync _ l h => some (72 + (l.map fun x => 12 + x.2.1.length + ((x.2.2.map List.length).getD 0)).sum + (h.map fun x => 16 + x.2.1.length).sum)
  | .twinAsk _ k => some (72 + k.length)
  | .forwardDone _ _ _ _ _ _ d => some (24 + d.length)
  | .twinAck _ | .twinRefuse _ | .twinTerm _ | .twinResyncAsk | .twinDetachAsk _ | .twinDetached _ | .twinNs .. | .twinNsAsk .. | .twinNsDone _
  | .twinNsRefused _ | .twinLevel .. => some 72
  | _ => none

/-- Whether an output changes the sending traffic key of a connection (R224). -/
def Out.rekeys (o : Out) (id : Nat) : Bool := o == .tls id "KeyUpdate update_requested" || o == .tls id "KeyUpdate update_not_requested"

/-- An output takes its place in the transmit queues: `conn` and `connOf` give the connections as they are when it leaves. Opening, closing
and the TLS handshake leave no frames here (log 27). -/
def Ports.send (p : Ports) (conn : Nat → Option Conn) (connOf : Nat → Nat → Option Conn) (o : Out) : Ports :=
  let capsule (k : Conn) (e : Bytes) : Ports := p.toHost k 0x17 [k.pdu 5 0 e []] fun x => x.sendRoce k.port k 0 16
  match o with
  | .cqe ctrl sq cid st dnr dw0 dw1 sqhd inv =>
    match connOf ctrl sq with
    | some k => if k.rdma then p.modPort k.port fun x => x.sendRoce k.port k (if inv.isSome then 4 else 0) 16
                else capsule k (cqeBytes sq cid st dnr dw0 dw1 sqhd)
    | none => p
  | .aen ctrl cid e =>
    match connOf ctrl 0 with
    | some k => capsule k (cqeBytes 0 cid .success false (BitVec.ofNat 32 (eventDword e)) 0 0)
    | none => p
  | .connectRsp id cid st cntlid =>
    match conn id with
    | some k => capsule k (cqeBytes 0 cid st false (BitVec.ofNat 32 cntlid) 0 0)
    | none => p
  | .data ctrl sq cid d =>
    match connOf ctrl sq with
    | some k => p.toHost k 0x17 (k.dataPdus cid d) fun x => x.sendWrite k.port k d.length
    | none => p
  | .icResp id cpda maxh2c =>
    match conn id with
    | some k => p.toHost k 0x17 [{ k with hdgst := false, ddgst := false }.pdu 1 0
        ([0, 0] ++ leBytes 1 cpda ++ leBytes 1 (k.hdgst.toNat + 2 * k.ddgst.toNat) ++ leBytes 4 maxh2c ++ List.replicate 112 0) []] (fun x => x)
    | none => p
  | .r2t id cid off len =>
    match conn id with
    | some k => p.toHost k 0x17 [k.pdu 9 0 (leBytes 2 cid ++ leBytes 2 cid ++ leBytes 4 off ++ leBytes 4 len ++ [0, 0, 0, 0]) []] (fun x => x)
    | none => p
  | .rdmaRead id _ _ =>
    match conn id with
    | some k => p.modPort k.port fun x => x.sendRoce k.port k 16 0
    | none => p
  | .cnp id =>
    match conn id with
    | some k => p.modPort k.port fun x => x.sendRoce k.port k 16 0
    | none => p
  | .tls id m =>
    match (conn id).filter fun _ => o.rekeys id with
    | some k => p.toHost k 0x16 [[24, 0, 0, 1, if m == "KeyUpdate update_requested" then 1 else 0]] (fun x => x)
    | none => p
  | .closed id =>
    let drop (x : Port) : Port := { x with sent := x.sent.filter (·.conn ≠ id) }
    { p with a := drop p.a, b := drop p.b }
  | .twinHeartbeat path .. => p.modPort path fun x => x.sendCapsule 1 72
  | .originRetrieve _ port _ k _ _ => p.modPort port fun x => x.sendCapsule 5 (72 + k.length)
  | o =>
    match o.twinBytes with
    | some n => p.modPort p.twinPort fun x => x.sendCapsule 2 n
    | none => p

/-- The outputs of a command take their places one after another. A connection is as the command leaves it, or as it was where the command
has closed it or a change of its key is still to come. -/
def sendAll (before after : Front) : List Out → Ports → Ports
  | [], p => p
  | o :: rest, p =>
    let as (id : Nat) : Option Conn :=
      if (o :: rest).any (·.rekeys id) then (before.conn? id).or (after.conn? id) else (after.conn? id).or (before.conn? id)
    let of (c q : Nat) : Option Conn := ((after.connOf c q).or (before.connOf c q)).bind fun k => as k.id
    sendAll before after rest (p.send as of o)

/-- The ports after a command that leaves `t`: what it has put out since `s` stands in their transmit queues. -/
def State.queued (s t : State) : Ports := sendAll s.fe t.fe (t.out.drop s.out.length) t.pt

end Sys2Proof.Machine
end

