-- ==== Sys2Proof/Machine/Ops.lean ====
section
/-! DEFINITION. Shared operations: updates of one part of the state, the end of a command, outputs, time quality, the boot record,
the event log and black box, asynchronous events, completions, admin gates and mailbox messages. -/

namespace Sys2Proof.Machine

/-- The outcome type of every meaning. -/
abbrev Res := Host.Outcome State Fault Refusal

/-! ## Updates of one part -/

def State.modPw (s : State) (f : Power → Power) : State := { s with pw := f s.pw }
def State.modBt (s : State) (f : Boot → Boot) : State := { s with bt := f s.bt }
def State.modFe (s : State) (f : Front → Front) : State := { s with fe := f s.fe }
def State.modFl (s : State) (f : Flight → Flight) : State := { s with fl := f s.fl }
def State.modVa (s : State) (f : Vault → Vault) : State := { s with va := f s.va }
def State.modIx (s : State) (f : Index → Index) : State := { s with ix := f s.ix }
def State.modMc (s : State) (f : Mantle → Mantle) : State := { s with mc := f s.mc }
def State.modWx (s : State) (f : Wax → Wax) : State := { s with wx := f s.wx }
def State.modMd (s : State) (f : Media → Media) : State := { s with md := f s.md }
def State.modKy (s : State) (f : Keys → Keys) : State := { s with ky := f s.ky }
def State.modCam (s : State) (f : Cam → Cam) : State := { s with cam := f s.cam }
def State.modTw (s : State) (f : Twin → Twin) : State := { s with tw := f s.tw }
def State.modOg (s : State) (f : Origin → Origin) : State := { s with og := f s.og }
def State.modSk (s : State) (f : Stack → Stack) : State := { s with sk := f s.sk }
def State.modPt (s : State) (f : Ports → Ports) : State := { s with pt := f s.pt }
def State.modTm (s : State) (f : Time → Time) : State := { s with tm := f s.tm }
def State.modMe (s : State) (f : Micro → Micro) : State := { s with me := f s.me }
def State.modMb (s : State) (f : Mail → Mail) : State := { s with mb := f s.mb }
def State.modLi (s : State) (f : Life → Life) : State := { s with li := f s.li }
def State.modCk (s : State) (f : Clocks → Clocks) : State := { s with ck := f s.ck }
def State.modEv (s : State) (f : Evlog → Evlog) : State := { s with ev := f s.ev }
def State.modBb (s : State) (f : Bbox → Bbox) : State := { s with bb := f s.bb }
def State.modStt (s : State) (f : Selftest → Selftest) : State := { s with stt := f s.stt }

/-! ## Time quality (R355, R356) -/

/-- The error bound B in ns; none is no bound (R356, R357). -/
def Time.bound (t : Time) : Option Nat :=
  match t.st with
  | .traceable => some 0
  | .holdover => some (max (t.b0 + 100 * ((t.mono - t.holdStart) / Figure.secondNs)) ((t.slew.map Int.natAbs).getD 0))
  | .untraced => none

/-- TQ_BOUND: 0 in Traceable, otherwise the smallest E with B at most 2^(E + 10) ns, Fh for no bound (R355, R356). -/
def Time.boundCode (t : Time) : Nat :=
  match t.bound with
  | none => 15
  | some b => ((List.range 15).find? fun e => b ≤ 2 ^ (e + 10)).getD 15

/-- TQ_STATE (R355). -/
def TimeState.code : TimeState → Nat
  | .traceable => 0
  | .holdover => 1
  | .untraced => 2

/-- The TQ byte (R355). -/
def Time.tq (t : Time) : BitVec 8 :=
  let pps := if t.st == .untraced then 0 else t.ref
  BitVec.ofNat 8 (t.st.code + 4 * pps + 8 * t.leapNow.toNat + 16 * t.boundCode)

/-! ## The end of a command -/

/-- What log C0h shows, or computes its figures from (R206, R207, R208). -/
def State.shownC0 (s t : State) : Bool :=
  let m := s.md
  let n := t.md
  m.inService == n.inService && m.bands.length == n.bands.length && m.blockSets == n.blockSets && m.blocks == n.blocks
    && m.gcMode == n.gcMode && m.victimU == n.victimU && m.bankEmpty == n.bankEmpty && m.overdue == n.overdue && m.diesLost == n.diesLost
    && m.pPlan == n.pPlan && m.waMilli == n.waMilli && m.accrual == n.accrual && m.bank == n.bank && m.hostBytes == n.hostBytes
    && m.nandBytes == n.nandBytes && m.liveBytes == n.liveBytes && m.fgSeconds == n.fgSeconds && m.patrolPasses == n.patrolPasses
    && m.patrolProgress == n.patrolProgress && m.err == n.err && s.ix.lost == t.ix.lost && s.ix.resident == t.ix.resident
    && s.ix.spill.length == t.ix.spill.length
    && s.pw.tempHist.map (·.map (· / 3600)) == t.pw.tempHist.map (·.map (· / 3600))

/-- What logs C1h and C2h show (R99, R239). -/
def State.shownC1 (s t : State) : Bool := s.fl.overflow == t.fl.overflow && s.fl.c1 == t.fl.c1
def State.shownC2 (s t : State) : Bool :=
  let k := s.ky
  let l := t.ky
  k.epochMs == l.epochMs && k.open_.map (fun o => (o.number, o.leaves.length)) == l.open_.map (fun o => (o.number, o.leaves.length))
    && k.lastSigned == l.lastSigned && k.pruned == l.pruned && k.lastRoot == l.lastRoot && k.roots.map (·.root) == l.roots.map (·.root)
    && k.waiting.map (·.root) == l.waiting.map (·.root)
    && k.store.map (fun e => (e.root, e.leaves.length)) == l.store.map (fun e => (e.root, e.leaves.length))

/-- What log C3h shows (R289). -/
def State.shownC3 (s t : State) : Bool :=
  let a := s.tw
  let b := t.tw
  a.role == b.role && a.st == b.st && a.witnessMode == b.witnessMode && a.witnessState == b.witnessState && a.fullResync == b.fullResync
    && a.strict == b.strict && a.degraded == b.degraded && a.impaired == b.impaired && a.term == b.term && a.pairId == b.pairId
    && a.twinId == b.twinId && a.lag.map (·.bytes) == b.lag.map (·.bytes) && a.attachReason == b.attachReason && a.resyncPct == b.resyncPct
    && a.rate == b.rate && a.lastHbTime == b.lastHbTime && a.ackedSeq == b.ackedSeq && a.failovers == b.failovers
    && a.lostAsync == b.lostAsync && a.rttNs == b.rttNs && s.wx.heldRecs.length == t.wx.heldRecs.length

/-- What log C4h shows (R326). -/
def State.shownC4 (s t : State) : Bool :=
  let a := s.sk
  let b := t.sk
  let globals (c : Cam) : Nat := c.entries.countP fun p => p.2.flags.getLsbD 0 && p.2.flags.getLsbD 1
  let words (k : Stack) : Nat := k.replica.countP fun p => p.2.getLsbD 32
  a.st == b.st && a.role == b.role && s.pw.pos == t.pw.pos && a.beacon == b.beacon && a.members == b.members && a.tokenRot == b.tokenRot
    && a.gen == b.gen && a.lap == b.lap && a.flags == b.flags && a.stackId == b.stackId && a.elections == b.elections
    && a.lookups == b.lookups && a.retries == b.retries && a.unavailable == b.unavailable && a.cacheHits == b.cacheHits
    && a.linkErrors == b.linkErrors && a.epoch == b.epoch && a.rows == b.rows && globals s.cam == globals t.cam && words a == words b

/-! ## The boot record (R434) -/

/-- BR_ACTIVE, BR_TRIAL and the generation of the boot record. DESIGN CHOICE (log 31): with no valid copy it names image A and no trial. -/
def Boot.brActive (b : Boot) : Nat := (b.br.get {}).active
def Boot.brTrial (b : Boot) : Option Nat := (b.br.get {}).trial
def Boot.brGen (b : Boot) : Nat := b.br.gen

/-- The boot record is written. -/
def Boot.setRecord (b : Boot) (active : Nat) (trial : Option Nat) : Boot := { b with br := b.br.set { active := active, trial := trial } }

/-- What log C5h shows (R428, R429). -/
def State.shownC5 (s t : State) : Bool :=
  let a := s.bt
  let b := t.bt
  a.fails == b.fails && a.running == b.running && a.brTrial == b.brTrial && a.floor == b.floor && a.imageA.map (·.svn) == b.imageA.map (·.svn)
    && a.imageB.map (·.svn) == b.imageB.map (·.svn) && a.starts == b.starts && a.pilot == b.pilot && a.ledger == b.ledger

/-- Whether vendor log C0h + n shows the same in two states. -/
def State.shownSame (s t : State) : Nat → Bool
  | 0 => s.shownC0 t
  | 1 => s.shownC1 t
  | 2 => s.shownC2 t
  | 3 => s.shownC3 t
  | 4 => s.shownC4 t
  | _ => s.shownC5 t

/-- The generation of each vendor log whose content a command has changed rises, unless the command has raised it already, and the log
takes the time of the change (R80). -/
def State.raisedLogs (s t : State) : Front :=
  let up (i : Nat) : Bool := !s.shownSame t i && t.fe.logGen.getD i 0 == s.fe.logGen.getD i 0
  { t.fe with logGen := t.fe.logGen.zipIdx.map fun g => if up g.2 then g.1 + 1 else g.1,
              logTime := t.fe.logTime.zipIdx.map fun x => if up x.2 then (t.tm.clock, t.tm.tq) else x.1 }

/-- The end of a command that does not reach HBM3: the queue, and the bytes of HBM3 that the cache commands alone
write, stay as they were when the command began; the vendor logs it changed have a new generation (R80), and what it has put out stands in
the transmit queues (R336). -/
def finish (s t : State) : Res :=
  .next { t with pending := s.pending, mc := { t.mc with hbm := s.mc.hbm }, fe := s.raisedLogs t, pt := s.queued t }

/-- The end of a command that reaches HBM3: only the queue stays. -/
def finishMem (s t : State) : Res := .next { t with pending := s.pending, fe := s.raisedLogs t, pt := s.queued t }

/-- The end of a command that may reset the drive: HBM3 has lost its contents, or they stay as they were. -/
def finishReset (s t : State) : Res :=
  .next { t with pending := s.pending, mc := { t.mc with hbm := if t.mc.hbm = [] then [] else s.mc.hbm }, fe := s.raisedLogs t,
                 pt := s.queued t }

/-- The end of a command that only a running drive takes: in reset, unpowered or frozen nothing changes (R168, R422, R473). -/
def whileUp (s t : State) : Res := finish s (if s.pw.phase == .serving || s.pw.phase == .pilot || s.pw.phase == .starting then t else s)

/-- Does `f` where `c` holds, and nothing otherwise. -/
def State.whenB (s : State) (c : Bool) (f : State → State) : State := if c then f s else s

/-- One more output, newest last (log 7). -/
def State.emit (s : State) (o : Out) : State := { s with out := s.out ++ [o] }

/-- The next free value is used up (log 3). -/
def State.spend (s : State) : State := { s with free := s.free + 1 }

/-! ## Phases -/

/-- The drive serves hosts (B14 done, R422). -/
def State.serving (s : State) : Bool := s.pw.phase == .serving

/-- The Lamplighter runs and answers its mailboxes: serving or in Pilot-light mode (R431). -/
def State.managed (s : State) : Bool := s.pw.phase == .serving || s.pw.phase == .pilot

/-- Packing, GC, patrol, rotation and sweeps run: while the drive serves, and not behind the key curtain (R431, R456). -/
def State.mediaWork (s : State) : Bool := s.pw.phase == .serving && !s.ky.signOff

/-- The drive runs at all: supplies are good and no reset, freeze or stop holds it (R168, R422, R473). -/
def State.alive (s : State) : Bool :=
  s.pw.phase == .serving || s.pw.phase == .pilot || s.pw.phase == .starting

/-- The lifecycle state: the fuses, and Debug-open for the start in which D2 opened (R442). -/
def State.lifecycle (s : State) : Lifecycle :=
  if s.li.retiredFuse then .retired else if !s.li.sealedFuse then .blank else if s.li.debugOpen then .debugOpen else .isSealed

/-- A Sanitize runs (R109). -/
def State.sanitizing (s : State) : Bool := s.fl.sanitize != 0

/-! ## The clock -/

def State.tq (s : State) : BitVec 8 := s.tm.tq
def State.now (s : State) : Nat := s.tm.clock
def State.mono (s : State) : Nat := s.tm.mono

/-! ## Health figures that several records carry (R190, R202, R206) -/

/-- F, the number of FREE bands (R190). -/
def Media.freeBands (m : Media) : Nat := m.inService - m.bands.length

/-- SPARE_BANDS (R202). -/
def Media.spareBands (m : Media) : Nat := m.blockSets / 16 - 58103

/-- Available Spare in percent of the first census (R202). -/
def Media.availableSpare (m : Media) : Nat := if m.spareFirst = 0 then 0 else m.spareBands * 100 / m.spareFirst

/-- HL_FLAGS (R206). -/
def State.hlFlags (s : State) : Nat :=
  (s.md.gcMode == 2).toNat + 2 * s.md.bankEmpty.toNat + 4 * (decide (s.md.availableSpare < 10)).toNat
    + 8 * (s.ix.lost.any id).toNat + 16 * (s.md.spareBands == 0).toNat + 32 * s.md.overdue.toNat
    + 64 * (!s.md.diesLost.isEmpty).toNat

/-- SMART critical warning, HS_WARN: bit 0 spare, 1 temperature, 2 reliability, 3 read-only (R133, R201, R202, R416,
R537). -/
def State.smartWarn (s : State) : Nat :=
  (decide (s.md.availableSpare < 10)).toNat + 2 * s.pw.tempWarning.toNat + 4 * s.pw.reliability.toNat
    + 8 * (decide (s.md.blockSets = 0 ∧ s.md.spareFirst ≠ 0)).toNat

/-- The effective power state, HS_PS: PS2 limits at a critical temperature, and for overdue work in PS3 and PS4; otherwise
the state the host set (R463). -/
def Power.effective (p : Power) : Nat := if p.critical || (p.overdueWork && decide (3 ≤ p.psHost)) then 2 else p.psHost

/-- Settles the effective state after a change of what it follows from. -/
def Power.settle (p : Power) : Power := { p with psNow := p.effective }

/-- The hottest sensor, HS_TEMP (R416). -/
def Power.hottest (p : Power) : Int := p.sensors.foldl max (-1000)

/-! ## Black box (R503 to R508) -/

/-- Whether a kind of record goes to the fault ring (R503). -/
def bbIsFault (kind : Nat) : Bool := kind ∈ [1, 2, 3, 9, 10, 11, 12, 13]

/-- A record is added to the ring or area its kind names; nothing clears the black box (R503 to R506). -/
def Bbox.add (b : Bbox) (kind source start time : Nat) (tq : BitVec 8) (body : List Nat) : Bbox :=
  let r : BbRec := { kind := kind, tq := tq, source := source, start := start, seq := b.seq, time := time, body := body }
  let b := { b with seq := b.seq + 1, faults := b.faults + (kind == 1).toNat }
  if bbIsFault kind then { b with fault := keepLast 1024 (b.fault ++ [r]), faultAdded := b.faultAdded + 1 }
  else if b.perm.length < 30176 then { b with perm := b.perm ++ [r], permRecords := b.permRecords + 1 }
  else { b with tail := keepLast 1024 (b.tail ++ [r]), permRecords := b.permRecords + 1 }

/-- The source of the drive itself: mailbox 15, CNTLID 0 (R502). -/
def srcDrive : Nat := 15

/-- A source coded as in ES_HOLDER: [3:0] mailbox, [15:4] CNTLID or EID (R501, R502). -/
def srcCode (mbox src : Nat) : Nat := mbox % 16 + 16 * (src % 4096)

/-- A black box record of the drive's present start, time and time quality. -/
def State.blackBox (s : State) (kind source : Nat) (body : List Nat) : State :=
  { s with bb := s.bb.add kind source s.bt.starts s.now s.tq body }

/-! ## Event log (R489 to R500) -/

/-- The severity of a named event, which its catalogue gives and the manual does not (log 10). -/
def sevOf (name : String) : Nat := 1 + Config.eventSev name % 6

/-- The code of a named event: within the range of its unit (R490, log 10). -/
def codeOf (unit : Nat) (name : String) : Nat :=
  (if unit ≤ 11 then unit else unit - 1) * 256 + Config.eventLow name % 256

/-- A written record takes its area: the kept area until it is full, then the circulating area (R495). -/
def Evlog.place (e : Evlog) (r : EvRec) : Evlog :=
  if e.kept.length < 4096 then { e with kept := e.kept ++ [r] }
  else { e with circ := keepLast 28672 (e.circ ++ [r]) }

/-- The codes of the record unit itself are not subject to the ceiling (R494). -/
def ownCode (code : Nat) : Bool := 0x1201 ≤ code && code ≤ 0x1205

/-- The ceiling of 200 records a second suppresses this record (R494). -/
def Evlog.suppresses (e : Evlog) (code sev : Nat) : Bool := !ownCode code && decide (sev < 4) && decide (200 ≤ e.second)

/-- The hold buffer is full, so the record is discarded (R498). -/
def Evlog.discards (e : Evlog) : Bool := e.hold.isSome && decide (1024 ≤ e.buffer.length)

/-- EV_SEQ the record takes; 0 where it takes none (R492, R498). -/
def Evlog.seqFor (e : Evlog) (early : Bool) : Nat := if early || e.discards then 0 else e.nextSeq.toNat

/-- One record: counted and suppressed, kept for B4, buffered or discarded in a hold, or written (R492 to R498). -/
def Evlog.record (e : Evlog) (early : Bool) (r : EvRec) : Evlog :=
  if e.suppresses r.code r.sev then
    { e with supp := e.supp + 1, suppressed := e.suppressed + 1,
             suppFirst := if e.supp = 0 then e.nextSeq else e.suppFirst }
  else
    let e := if ownCode r.code || 4 ≤ r.sev then e else { e with second := e.second + 1 }
    if early then { e with early := e.early ++ [r] }
    else if e.hold.isSome then
      if e.discards then { e with discarded := e.discarded + 1, overflow := e.overflow + 1 }
      else { e with buffer := e.buffer ++ [r], nextSeq := e.nextSeq + 1 }
    else { e with nextSeq := e.nextSeq + 1 }.place r

/-- Records written before B4 wait in Lamplighter SRAM (R493). -/
def State.early (s : State) : Bool := s.pw.phase == .starting && decide (s.pw.curStep < 4)

/-- BB_BODY of kind 01h: the event record, the Lamplighter's program counter and status (free), CFS, the power state,
temperature, power, supply readings (free), HL_FLAGS and TW_STATE (R504, log 3). -/
def State.faultBody (s : State) (r : EvRec) : List Nat :=
  [r.code, r.unit, r.sev, r.seq, r.time, r.p0, r.p1, r.p2, r.tq.toNat, (Config.freeWord s.free).toNat,
   s.pw.cfs.toNat, s.pw.psNow, s.pw.hottest.toNat, s.pw.inputPower, (Config.freeWord (s.free + 1)).toNat, s.hlFlags,
   s.tw.st]

/-- Records an event: the log under R492 to R498, and the black box for severity 4h and above (R504). -/
def State.recordEvent (s : State) (unit code sev p0 p1 p2 : Nat) : State :=
  let r : EvRec := { code := code, unit := unit, sev := sev, seq := s.ev.seqFor s.early, time := s.now, p0 := p0,
                     p1 := p1, p2 := p2, tq := s.tq }
  { s with ev := s.ev.record s.early r,
           bb := if 4 ≤ sev then s.bb.add 1 srcDrive s.bt.starts s.now s.tq (s.faultBody r) else s.bb,
           free := s.free + 2 }

/-- Records a named event of a unit; code, severity and parameters stand in the drive's catalogue (R491, log 10). -/
def State.event (s : State) (unit : Nat) (name : String) : State :=
  s.recordEvent unit (codeOf unit name) (sevOf name) (Config.eventParam name 0 s.free) (Config.eventParam name 1 s.free)
    (Config.eventParam name 2 s.free)

/-- Records a named event whose parameters a rule gives. -/
def State.eventP (s : State) (unit : Nat) (name : String) (p0 p1 p2 : Nat) : State :=
  s.recordEvent unit (codeOf unit name) (sevOf name) p0 p1 p2

/-- Records an event of the record unit (R491). -/
def State.unitEvent (s : State) (code sev p0 p1 p2 : Nat) : State := s.recordEvent 0x12 code sev p0 p1 p2

/-- A record that waited (before B4, or in the hold buffer) is written; it takes its EV_SEQ at B4 (R493, R498). -/
def Evlog.writeEarly (e : Evlog) : Evlog :=
  e.early.foldl (fun e r => { e with nextSeq := e.nextSeq + 1 }.place { r with seq := e.nextSeq.toNat }) { e with early := [] }

/-- The end of a hold: the buffered records are written in order, then 1203h with the cause (R498). -/
def State.endHold (s : State) (cause : Nat) : State :=
  match s.ev.hold with
  | none => s
  | some _ =>
    let b := s.ev.buffer
    let d := s.ev.discarded
    let e := b.foldl Evlog.place { s.ev with hold := none, buffer := [], discarded := 0 }
    { s with ev := e }.unitEvent 0x1203 1 cause b.length d

/-- The end of a hold held by a source, because its controller is reset or its EID is lost (R498 cause 4). -/
def State.holderGone (s : State) (isHolder : Nat → Bool) : State :=
  match s.ev.hold with
  | some (h, _, _) => if isHolder h then s.endHold 4 else s
  | none => s

/-! ## Logs and asynchronous events (R66, R80) -/

/-- The content of vendor log C0h + n has changed (R80). -/
def State.logChanged (s : State) (n : Nat) : State :=
  { s with fe := { s.fe with logGen := modAt s.fe.logGen n (· + 1), logTime := s.fe.logTime.set n (s.now, s.tq) } }

/-- A vendor event stays masked for the controller until its log is read (R66). -/
def vendorEvent : EventKind → Bool
  | .logC1 | .logC3 | .logC4 => true
  | _ => false

/-- An event reaches a controller: not if its configuration disables it or it is masked; it completes an outstanding
request, or waits for one (R65, R66, log 11). -/
def Ctrl.notify (c : Ctrl) (k : EventKind) : Ctrl × List Out :=
  if c.discovery || k ∉ c.events || k ∈ c.masked then (c, [])
  else
    let c := if vendorEvent k then { c with masked := k :: c.masked } else c
    match c.aers with
    | [] => ({ c with raised := if k ∈ c.raised then c.raised else c.raised ++ [k] }, [])
    | cid :: rest => ({ c with aers := rest }, [.aen c.cntlid cid k])

/-- Raises an asynchronous event on the controllers `who` names (R66). -/
def State.notify (s : State) (k : EventKind) (who : Ctrl → Bool) : State :=
  { s with fe := { s.fe with ctrls := s.fe.ctrls.map fun c => if who c then (c.notify k).1 else c },
           out := s.out ++ s.fe.ctrls.flatMap fun c => if who c then (c.notify k).2 else [] }

def State.notifyAll (s : State) (k : EventKind) : State := s.notify k fun _ => true

/-- A change of the C3h, C4h or C1h content that the drive announces on every controller. -/
def State.logEvent (s : State) (n : Nat) (k : EventKind) : State := (s.logChanged n).notifyAll k

/-! ## Controllers, hosts and completions -/

def Front.ctrl? (f : Front) (id : Nat) : Option Ctrl := f.ctrls.find? (·.cntlid == id)
def Front.modCtrl (f : Front) (id : Nat) (g : Ctrl → Ctrl) : Front :=
  { f with ctrls := f.ctrls.map fun c => if c.cntlid == id then g c else c }
def Front.modConn (f : Front) (id : Nat) (g : Conn → Conn) : Front :=
  { f with conns := f.conns.map fun c => if c.id == id then g c else c }
def Front.host? (f : Front) (n : Nqn) : Option HostRow := f.hosts.find? (·.nqn == n)
def State.port (s : State) (n : Nat) : Port := s.pt.port n
def State.modPort (s : State) (n : Nat) (f : Port → Port) : State := s.modPt fun p => p.modPort n f
def State.modCtrl (s : State) (id : Nat) (g : Ctrl → Ctrl) : State := s.modFe fun f => f.modCtrl id g
def State.modConn (s : State) (id : Nat) (g : Conn → Conn) : State := s.modFe fun f => f.modConn id g

/-! ## Low Power Idle (R344, R345) -/

/-- The unit under which a port's events stand. -/
def unitOfPort (port : Nat) : Nat := 0xB + port % 2

/-- The partner wake time a port accepts: PC_LPI_MAX_TW_US in PS0 to PS2, 1,000 µs in PS3 and PS4 (R344). -/
def State.wakeLimit (s : State) (port : Nat) : Nat := if 3 ≤ s.pw.psNow then 1000 else (s.port port).cfg.lpiMaxTw

/-- The resolved wake time exceeds the limit, so that the port does not signal LPI (R344). -/
def State.wakeTooLong (s : State) (port : Nat) : Bool :=
  (s.port port).link.isSome && (s.port port).eee && decide (s.wakeLimit port < (s.port port).wakeUs)

/-- The transmitter leaves Low Power Idle (R350). -/
def Port.rouse (p : Port) : Port := { p with lpi := false, cnt := { p.cnt with lpiWakes := p.cnt.lpiWakes + p.lpi.toNat } }

/-- After a change of the power state, of a port's settings or of its wake time: a wake time that has come to exceed its limit is recorded,
and a port in LPI that may no longer signal it leaves it (R344, R345). -/
def State.lpiCheck (was s : State) : State :=
  [0, 1].foldl (fun s port =>
    let s := s.whenB (s.wakeTooLong port && !was.wakeTooLong port) fun s => s.event (unitOfPort port) "LPI wake time above the limit"
    s.whenB ((s.port port).lpi && (s.wakeTooLong port || !(decide (3 ≤ s.pw.psNow) || (s.port port).cfg.services.getLsbD 3))) fun s =>
      s.modPort port Port.rouse) s

/-- Whether the Do Not Retry bit is set: as R78 and the owning rules state, otherwise open (log 12). -/
def statusDnr : Status → Bool
  | .retentionActive | .policyDenied => true
  | .deferredErrorReported | .timeNotTraceable | .policyUnavailable | .twinUnavailable | .originUnreachable
  | .receiptNotYetSealed | .commandInterrupted | .success => false
  | st => Config.dnrOf st

/-- A command that has started holds a context; the first four phases have not started (chapter 03). -/
def CmdPhase.started : CmdPhase → Bool
  | .heldOrd | .waitContext | .waitRate | .waitService => false
  | _ => true

def Ctrl.queue? (c : Ctrl) (sq : Nat) : Option Queue := c.queues.find? (·.qid == sq)
def Front.queue? (f : Front) (ctrl sq : Nat) : Option Queue := (f.ctrl? ctrl).bind (·.queue? sq)

/-- The head of a submission queue: it does not pass the entry of a command that has not started (R57, R88). -/
def State.sqHead (s : State) (ctrl sq : Nat) : Nat :=
  let held := (s.fl.cmds.filter fun c => c.ctrl == ctrl && c.sq == sq && !c.phase.started && c.forwardedFrom.isNone).map (·.entry)
    ++ (if sq = 0 then (s.fe.admEntries.filter (·.1.1 == ctrl)).map (·.2) else [])
  match s.fe.queue? ctrl sq with
  | some q => held.min?.getD q.fetched % q.size
  | none => 0

/-- An entry is fetched from a queue. -/
def State.fetch (s : State) (ctrl sq : Nat) : State :=
  s.modCtrl ctrl fun c => { c with queues := c.queues.map fun q => if q.qid == sq then { q with fetched := q.fetched + 1 } else q }

/-- Whether a completion can be posted: the controller and the queue still exist (R107). -/
def Front.hasQueue (f : Front) (ctrl sq : Nat) : Bool := f.ctrls.any fun c => c.cntlid == ctrl && c.enabled && c.queues.any (·.qid == sq)

/-- Posts a completion entry, with the head of its submission queue; `inv` is the remote key that a Send with Invalidate carries (R57,
R63). Nothing is posted on a queue that is gone (R107). A command that fails takes an entry of the Error Information log, 64 entries
(R79, log 17). -/
def State.post (s : State) (ctrl sq cid : Nat) (st : Status) (dw0 : Nat := 0) (dw1 : Nat := 0)
    (dnr : Bool := statusDnr st) (inv : Option (BitVec 32) := none) : State :=
  { s with out := if s.fe.hasQueue ctrl sq
                  then s.out ++ [.cqe ctrl sq cid st dnr (BitVec.ofNat 32 dw0) (BitVec.ofNat 32 dw1) (s.sqHead ctrl sq) inv] else s.out,
           fe := if st == .success then s.fe else { s.fe with errorLog := keepLast 64 (s.fe.errorLog ++ [(ctrl, sq, cid)]) } }

/-- The remote key a data pointer asks to be invalidated (R63). -/
def sglInv : Sgl → Option (BitVec 32)
  | .keyed _ k => k
  | _ => none

/-- The completion of an admin command. -/
def State.admDone (s : State) (a : Adm) (st : Status) (dw0 : Nat := 0) : State :=
  s.post a.ctrl 0 a.cid st dw0 0 (statusDnr st) (sglInv a.sgl)

/-- What an admin command returns in its buffer, then Successful Completion. -/
def State.admRead (s : State) (a : Adm) (name : String) (vals : List Int) : State :=
  (s.emit (.reading a.ctrl a.cid name vals)).admDone a .success

/-- The admin commands that behave as ORD on the admin queue (R91). -/
def ordLike : Instr → Bool
  | .firmwareCommitReplace _ _ | .firmwareCommitReplaceTrial _ _ | .firmwareCommitSetTrial _ _ | .firmwareCommitActivate _ _
  | .sanitizeCryptoErase _ | .sanitizeBlockErase _ | .namespaceCreate _ _ _ _ _ | .namespaceDelete _ | .namespaceAttach _ _
  | .namespaceDetach _ _ => true
  | _ => false

/-- An admin command that behaves as ORD still runs on a controller: Sanitize, Namespace Management, an activation (R91).
DESIGN CHOICE (log 13): an Asynchronous Event Request that is outstanding is no earlier command that such a one waits for. -/
def State.adminRuns (s : State) (ctrl : Nat) : Bool :=
  s.fe.jobs.any (fun j => j.ctrl == ctrl && j.what != 1 && j.what != 5) || (match s.bt.commit with | some (c, _, _) => c == ctrl | none => false)

/-- One that behaves as ORD runs or waits on a controller: later admin commands are held behind it (R91). -/
def State.adminBlocked (s : State) (ctrl : Nat) : Bool :=
  s.adminRuns ctrl || s.fe.heldAdm.any fun h => h.1 == ctrl && ordLike h.2.2

/-- Whether an admin command identifier is outstanding on its queue; a command that is held is (R58, R88, R91). -/
def State.adminCid (s : State) (a : Adm) : Bool :=
  s.fe.jobs.any (fun j => j.ctrl == a.ctrl && j.cid == a.cid)
    || s.fe.heldAdm.any (fun h => h.1 == a.ctrl && h.2.1 == a.cid)
    || s.fe.ctrls.any (fun c => c.cntlid == a.ctrl && a.cid ∈ c.aers)
    || (match s.bt.commit with | some (c, k, _) => c == a.ctrl && k == a.cid | none => false)

/-! ## Contexts (R56, R57) -/

/-- Started I/O commands of a queue. -/
def State.startedOn (s : State) (ctrl sq : Nat) : Nat :=
  s.fl.cmds.countP fun c => c.ctrl == ctrl && c.sq == sq && c.phase.started && c.forwardedFrom.isNone

/-- Contexts of the admin commands of a controller: the started ones whose completion has not been sent, and those to which a freed
context has gone. -/
def State.adminStarted (s : State) (ctrl : Nat) : Nat :=
  s.fe.jobs.countP (·.ctrl == ctrl) + ((s.fe.ctrl? ctrl).map (·.aers.length)).getD 0
    + (match s.bt.commit with | some (c, _, _) => (c == ctrl).toNat | none => 0)
    + s.fe.ctxWait.countP fun w => w.1.1 == ctrl && w.2

def Front.ioQueues (f : Front) : List (Nat × Nat) :=
  f.ctrls.flatMap fun c => (c.queues.filter fun q => 0 < q.qid).map fun q => (c.cntlid, q.qid)
def Front.adminQueues (f : Front) : Nat := f.ctrls.length

/-- The queues of all controllers, in the order of the round robin (R55, R57). -/
def Front.allQueues (f : Front) : List (Nat × Nat) := f.ctrls.flatMap fun c => c.queues.map fun q => (c.cntlid, q.qid)

/-- IDV_CTX_SHARED: the contexts that no queue reserves (R56, R84). -/
def State.sharedPool (s : State) : Nat :=
  Figure.contexts - Figure.ioReserve * s.fe.ioQueues.length - Figure.adminReserve * s.fe.adminQueues

/-- Contexts of the commands the drive issues as an initiator: fills, repairs asked of the twin, and replicated writes whose host
command is over; a write that waits for the twin keeps its host's context (R56). -/
def State.initiatorUsed (s : State) : Nat :=
  s.og.fills.countP (·.sent) + (s.tw.repairs.length - s.tw.unasked.length) + s.tw.sending.length

/-- Shared contexts in use. -/
def State.sharedUsed (s : State) : Nat :=
  (s.fe.ioQueues.map fun (c, q) => s.startedOn c q - Figure.ioReserve).sum
    + (s.fe.ctrls.map fun c => s.adminStarted c.cntlid - Figure.adminReserve).sum
    + s.fl.cmds.countP (·.forwardedFrom.isSome) + s.initiatorUsed

/-- A context for one more command of the initiator: the shared pool has one and the initiator holds fewer than 4,096 (R56). -/
def State.initiatorRoom (s : State) : Bool := decide (s.initiatorUsed < Figure.initiatorMax) && decide (s.sharedUsed < s.sharedPool)

/-- A context that a command of a queue may take: one of the queue's reserve, or a shared one (R56, R57). -/
def State.contextRoom (s : State) (ctrl sq : Nat) : Bool :=
  decide (s.startedOn ctrl sq < Figure.ioReserve) || decide (s.sharedUsed < s.sharedPool)

/-- A context that an admin command of a controller may take: one of its queue's reserve, or a shared one (R56, R57). -/
def State.adminRoom (s : State) (ctrl : Nat) : Bool :=
  decide (s.adminStarted ctrl < Figure.adminReserve) || decide (s.sharedUsed < s.sharedPool)

/-- Some command waits for a context: an I/O command, or an admin command of a controller that `p` names (R57). -/
def State.waitsIo (s : State) : Bool := s.fl.cmds.any (·.phase == .waitContext)
def State.waitsAdm (s : State) (p : Nat → Bool) : Bool := s.fe.ctxWait.any fun w => !w.2 && p w.1.1

/-- An admin command has its context: one that was freed for it, one of its queue's reserve unless another command of the queue waits for
one, or a shared one while no command waits (R56, R57). -/
def State.admRoom (s : State) (a : Adm) : Bool :=
  s.fe.ctxWait.lookup (a.ctrl, a.cid) == some true
    || (decide (s.adminStarted a.ctrl < Figure.adminReserve) && !s.waitsAdm (· == a.ctrl))
    || (decide (s.sharedUsed < s.sharedPool) && !s.waitsIo && !s.waitsAdm fun _ => true)

/-! ## Admin commands on their way -/

/-- The entry of an admin command: the one it has kept while it was held, or the next one fetched; one whose identifier is outstanding is
another command (R57, R58, R88). -/
def State.admEntry (s : State) (a : Adm) : State × Nat :=
  match if s.adminCid a then none else s.fe.admEntries.lookup (a.ctrl, a.cid) with
  | some e => (s.modFe fun f => { f with admEntries := dropAssoc (a.ctrl, a.cid) f.admEntries, ctxWait := dropAssoc (a.ctrl, a.cid) f.ctxWait }, e)
  | none => (s.fetch a.ctrl 0, ((s.fe.queue? a.ctrl 0).map (·.fetched)).getD 0)

/-- What is held has no command identifier: the value is none of the 16 bits of one. -/
def noCid : Nat := 65536

/-- Holds an admin command, or a reset that a command or an event asks for, until it can start (R57, R91, R110). -/
def State.holdAdm (s : State) (i : Instr) (ctrl cid entry : Nat) : State :=
  s.modFe fun f => { f with heldAdm := f.heldAdm ++ [(ctrl, cid, i)],
                            admEntries := if cid = noCid then f.admEntries else setAssoc (ctrl, cid) entry f.admEntries }

/-- Holds an admin command that lacks nothing but a context (R57). -/
def State.holdCtx (s : State) (i : Instr) (a : Adm) (entry : Nat) : State :=
  (s.holdAdm i a.ctrl a.cid entry).modFe fun f => { f with ctxWait := f.ctxWait ++ [((a.ctrl, a.cid), false)] }

/-- The data pointer of an admin command: the descriptors R61 and R63 accept for its transport, and at most 256 bytes in its capsule. -/
def State.admSgl (s : State) (a : Adm) : Option Status :=
  let rdma := ((s.fe.queue? a.ctrl 0).bind fun q => s.fe.conn? q.conn).any (·.rdma)
  if 256 < a.icdLen then some .invalidField
  else match a.sgl with
    | .none => none
    | .offset n => if n = 0 then none else some .invalidField
    | .transport => if rdma then some .sglDescriptorTypeInvalid else none
    | .keyed n _ => if !rdma then some .sglDescriptorTypeInvalid else if 16 < n then some .invalidNumberOfSgl else none
    | .other => some .sglDescriptorTypeInvalid

/-- What an admin command meets before its own checks: a drive that does not serve and a controller that is gone or not ready take no command;
Pilot-light mode accepts only the commands R431 lists; its identifier must be free (R58); a command behind one that behaves as ORD is held, and
so is a command that itself behaves as ORD while an earlier one runs or waits (R91, log 13); nothing starts in the pause of an activation (R110),
without a context (R57) or while it `waits` for work of its own; a Sanitize refuses what the standard does not permit during one (R109); its
reserved fields must be zero (R9) and its data pointer of a kind the drive accepts (R61, R63). -/
def State.admin (s : State) (i : Instr) (a : Adm) (ordLike duringSanitize inPilot : Bool) (k : State → State)
    (waits : Bool := false) : State :=
  match s.managed, s.fe.ctrl? a.ctrl with
  | true, some c =>
    if !c.enabled then s
    else
      let room := s.admRoom a
      let (s, e) := s.admEntry a
      if s.pw.phase == .pilot && !inPilot then s.admDone a .commandSequenceError
      else if s.adminCid a then s.admDone a .cidConflict
      else if s.bt.paused || waits || s.adminBlocked a.ctrl
          || (ordLike && (s.fe.jobs.any (·.ctrl == a.ctrl) || s.fe.heldAdm.any (·.1 == a.ctrl))) then s.holdAdm i a.ctrl a.cid e
      else if !room then s.holdCtx i a e
      else if s.sanitizing && !duringSanitize then s.admDone a .sanitizeInProgress
      else if a.reservedSet then s.admDone a .invalidField
      else match s.admSgl a with
        | some st => s.admDone a st
        | none => k s
  | _, _ => s

/-- A reset that is requested in the pause of an activation takes effect after the resume (R110). -/
def State.inWindow (s : State) (i : Instr) (ctrl cid : Nat) (k : State → State) : State :=
  if s.bt.paused then s.holdAdm i ctrl cid 0 else k s

/-- A Fabrics command of a controller, which takes it in every state of CC.EN: its identifier must be free (R58), it starts neither in the
pause of an activation (R110) nor behind a command that behaves as ORD (R91) nor without a context (R57), its reserved fields must be zero
(R9) and its data pointer of a kind the drive accepts (R61, R63). -/
def State.fabrics (s : State) (i : Instr) (a : Adm) (k : State → State) : State :=
  let room := s.admRoom a
  let (s, e) := s.admEntry a
  if s.adminCid a then s.admDone a .cidConflict
  else if s.bt.paused || s.adminBlocked a.ctrl then s.holdAdm i a.ctrl a.cid e
  else if !room then s.holdCtx i a e
  else if a.reservedSet then s.admDone a .invalidField
  else match s.admSgl a with
    | some st => s.admDone a st
    | none => k s

/-- An autonomous transition of the power state is recorded, at most once per minute per cause (R463). -/
def State.autoEvent (s : State) (cause : Nat) (name : String) : State :=
  if (s.pw.psEvents.lookup cause).any fun t => decide (s.mono < t + 60 * Figure.secondNs) then s
  else (s.modPw fun p => { p with psEvents := setAssoc cause s.mono p.psEvents }).event 0x10 name

/-! ## Calibration values (R482 to R485) -/

/-- The user record: entries, CUH_TIME, CUH_TQ and CUH_GEN. DESIGN CHOICE (log 32): with no valid copy it has no entries (R484). -/
def Clocks.user (k : Clocks) : List CalUser := (k.cal.get {}).entries
def Clocks.userTime (k : Clocks) : Nat := (k.cal.get {}).time
def Clocks.userTq (k : Clocks) : BitVec 8 := (k.cal.get {}).tq
def Clocks.userGen (k : Clocks) : Nat := k.cal.gen

def Clocks.calUser (k : Clocks) (item : Nat) : Option CalUser := k.user.find? (·.item == item)

/-- Whether a category takes a user delta (R482). -/
def calAdjustable (cat : Nat) : Bool := decide (2 ≤ cat) && decide (cat ≤ 5)

/-- The user delta in force: an entry of an adjustable item (R485). -/
def Clocks.calDelta (k : Clocks) (i : CalItem) : Int :=
  if k.userApplied && calAdjustable i.cat then ((k.calUser i.item).map (·.delta)).getD 0 else 0

/-- clamp(F + U, CF_MIN, CF_MAX) (R485). -/
def clampItem (i : CalItem) (u : Int) : Int := max i.min (min i.max (i.value + u))
def Clocks.effective (k : Clocks) (i : CalItem) : Int := clampItem i (k.calDelta i)

/-- The effective values of a run of item codes come into force: their apply point is reached (R482, R486). -/
def State.applyCal (s : State) (lo n : Nat) : State :=
  { s with ck := { s.ck with
      applied := s.ck.applied.filter (fun (p : Nat × Int) => p.1 < lo || lo + n ≤ p.1)
        ++ (s.ck.factory.filter fun i => decide (lo ≤ i.item) && decide (i.item < lo + n)).map fun i => (i.item, s.ck.effective i) } }

/-- The value of an item in force. -/
def Clocks.inForce (k : Clocks) (item : Nat) : Int := (k.applied.lookup item).getD 0

/-! ## Self-test results (R79, R518) -/

/-- A running self-test ends with a result code of log 06h, which keeps the last 20, newest first (R79, R518). -/
def State.endTest (s : State) (result seg : Nat) : State :=
  match s.stt.running with
  | none => s
  | some t => s.modStt fun x => { x with running := none, results := ((result, t.nsid, seg, t.extended, s.pw.powerOnS / 3600) :: x.results).take 20 }

/-- A running self-test that `which` names ends. -/
def State.endTestIf (s : State) (which : SelfTest → Bool) (result : Nat) : State :=
  if s.stt.running.any which then s.endTest result 0 else s

/-! ## Mailbox messages (R401 to R413) -/

/-- Message status codes (R405). -/
inductive MStatus where
  | success | unknown | invalidField | busy | notPermitted | stateRefused | length | internal
  deriving DecidableEq, Repr

def MStatus.code : MStatus → Nat
  | .success => 0 | .unknown => 1 | .invalidField => 2 | .busy => 3
  | .notPermitted => 4 | .stateRefused => 5 | .length => 6 | .internal => 7

/-- What a message answers: its status, MH_DETAIL, and the payloads of its replies (R403). -/
structure Answer where
  st : MStatus := .success
  detail : Nat := 0
  body : List Bytes := [[]]
  deriving DecidableEq, Repr

/-- MH_DETAIL of INVALID_FIELD: the offset of the first field that failed, and a reason code (R403). -/
def badField (off : Nat) (reason : Nat := 0) : Answer := { st := .invalidField, detail := off % 65536 + 65536 * reason }
def refuse (st : MStatus) : Answer := { st := st }
/-- One reply with a payload. -/
def answer (b : Bytes) : Answer := { body := [b] }

/-- Pieces of at most 4,096 bytes, at least one (R403). -/
def pieces : Nat → Bytes → List Bytes
  | 0, b => [b]
  | n + 1, b => if b.length ≤ 4096 then [b] else b.take 4096 :: pieces n (b.drop 4096)
def answerLong (b : Bytes) : Answer := { body := pieces (b.length / 4096 + 1) b }

/-- The meaning of a message: the state after it and its answer; none is a reply that a later event posts. -/
abbrev Handler := State → MsgReq → State × Option Answer

/-- An answer that changes nothing. -/
def saying (s : State) (a : Answer) : State × Option Answer := (s, some a)
/-- An answer with a new state. -/
def doing (s : State) (a : Answer) : State × Option Answer := (s, some a)

/-- The source of a request for R404: a host NQN, also of a controller that a reset has ended (R413), an EID or a chain position. -/
def State.sourceOf (s : State) (mbox src : Nat) : Bytes :=
  if mbox < 8 then (match s.fe.ctrl? src with | some c => c.host | none => (s.fe.gone.lookup src).getD []) else [BitVec.ofNat 8 src]

def State.box (s : State) (n : Nat) : Mailbox := s.mb.boxes.getD n {}
def State.modBox (s : State) (n : Nat) (f : Mailbox → Mailbox) : State := s.modMb fun m => { m with boxes := modAt m.boxes n f }

/-- A message as the drive accepts it: named by its source, and by the ownership of its mailbox (R404, R413). -/
def State.named (s : State) (m : MsgReq) : MsgReq := { m with who := s.sourceOf m.mbox m.src, epoch := (s.box m.mbox).epoch }

/-- A mailbox whose last message is done is free (R407). -/
def Mailbox.settle (b : Mailbox) : Mailbox := if b.inFlight = 0 then { b with owner := 0, owned := false } else b

/-- The replies of an answer: every one but the last has MORE (R403). -/
def repliesOf (s : State) (cls op : Nat) (m : MsgReq) (st detail flags : Nat) (body : List Bytes) : List Reply :=
  (body.zipIdx).map fun (b, i) =>
    { dst := m.src, cls := cls, op := op, tag := m.tag, seq := m.seq, status := st,
      flags := 1 + (if i + 1 < body.length then 2 else 0) + flags, detail := detail, time := s.now, tq := s.tq, payload := b }

/-- The 32 bytes of a message header (R403). -/
def headerBytes (cls op tag len status flags seq detail time : Nat) (tq : BitVec 8) : Bytes :=
  leBytes 1 cls ++ leBytes 1 op ++ leBytes 2 tag ++ leBytes 4 len ++ leBytes 2 status ++ leBytes 2 flags ++ leBytes 4 seq
    ++ leBytes 4 detail ++ leBytes 8 time ++ [tq, 0, 0, 0]

/-- A reply as it is read: header and payload (R403). -/
def Reply.bytes (r : Reply) : Bytes :=
  headerBytes r.cls r.op r.tag r.payload.length r.status r.flags r.seq r.detail r.time r.tq ++ r.payload

/-- The last reply of its tag (R403). -/
def Reply.final (r : Reply) : Bool := r.flags / 2 % 2 == 0

/-- A message of the mailbox is in progress: it is in flight, no longer queued, and has no final reply yet; or it runs to its end after a
reset of its owner (R408, R413). -/
def Mailbox.working (b : Mailbox) : Bool := decide (b.queue.length + b.replies.countP Reply.final < b.inFlight) || b.orphan

/-- The body of a sideband mailbox message: SB_TYPE, SB_IANA, SB_MBOX and two reserved bytes before the mailbox message (R409). -/
def sbBody (mbox : Nat) (b : Bytes) : Bytes := [0x7F, 0x00, 0x00, 0xF2, 0xA5] ++ leBytes 1 mbox ++ [0, 0] ++ b

/-- Replies of sideband mailboxes leave as MCTP responses with the request's message tag, and those of mailbox 12 as PEER messages, and are
taken at once; the others wait in their mailbox (R314, R403, R407, R409). A mailbox that a reset has released since takes no reply, whoever
owns it now; the message has ended (R408, R413). -/
def State.deliver (s : State) (m : MsgReq) (rs : List Reply) : State :=
  if m.epoch ≠ (s.box m.mbox).epoch then s.modBox m.mbox fun b => { b with orphan := false }
  else if (s.box m.mbox).inFlight = 0 then s
  else if 8 ≤ m.mbox ∧ m.mbox ≤ 11 then
    { s.modBox m.mbox (fun b => { b with inFlight := b.inFlight - 1 }.settle) with
      out := s.out ++ rs.map fun r => .mctp r.dst m.mctpTag r.status (sbBody m.mbox r.bytes) }
  else if m.mbox = 12 then
    (s.modBox m.mbox fun b => { b with inFlight := b.inFlight - 1 }.settle).modSk fun k =>
      { k with outbox := k.outbox ++ rs.map fun r => (9, r.dst, r.bytes.map (·.toNat)) }
  else s.modBox m.mbox fun b => { b with replies := b.replies ++ rs }

/-- Posts the answer of a message: the reply, the kept reply of R404 under the source that sent the request, and the count of MBX_REJECTS
(R402 to R404). -/
def State.reply (s : State) (cls op : Nat) (m : MsgReq) (a : Answer) : State :=
  let kept : KeptReply := { source := m.who, seq := m.seq, cls := cls, op := op, posted := s.mono, time := s.now, tq := s.tq,
                            status := a.st.code, detail := a.detail, payloads := a.body }
  let s := s.modBox m.mbox fun b =>
    let mine := keepLast 8 ((b.kept.filter (·.source == m.who)) ++ [kept])
    { b with kept := b.kept.filter (·.source != m.who) ++ mine, rejects := b.rejects + (a.st != .success).toNat }
  s.deliver m (repliesOf s cls op m a.st.code a.detail 0 a.body)

/-- The reply kept for this request within 60 s, if any (R404). -/
def State.keptFor (s : State) (cls op : Nat) (m : MsgReq) : Option KeptReply :=
  (s.box m.mbox).kept.find? fun k => k.source == s.sourceOf m.mbox m.src && k.seq == m.seq && k.cls == cls && k.op == op
    && decide (s.mono ≤ k.posted + 60 * Figure.secondNs)

/-- A kept reply as it is returned, with the new tag and REPLAY; its time and time state are those at which it was posted (R403, R404). -/
def KeptReply.replies (k : KeptReply) (s : State) (m : MsgReq) : List Reply :=
  (repliesOf s k.cls k.op m k.status k.detail 4 k.payloads).map fun r => { r with time := k.time, tq := k.tq }

/-- Returns a kept reply (R404). -/
def State.replay (s : State) (m : MsgReq) (k : KeptReply) : State :=
  (s.modBox m.mbox fun b => { b with rejects := b.rejects + (k.status != 0).toNat }).deliver m (k.replies s m)

/-- Whether a message of a class changes nothing, so that the Read right carries it (R411, R501, R509). -/
def isRead (cls op : Nat) (p : Bytes) : Bool :=
  match cls with
  | 0x01 => op ∈ [0x03, 0x0A, 0x0D, 0x0E]
  | 0x02 => op ∈ [0x02, 0x03]
  | 0x03 => op == 0x01
  | 0x04 => op != 0x05
  | 0x05 => true
  | 0x06 => op == 0x05
  | 0x07 => op == 0x02
  | 0x08 => op == 0x01
  | 0x09 => op ∈ [0x12, 0x22, 0x32, 0x45]
  | 0x0B => op == 0x02
  | 0x0C => op ∈ [0x01, 0x04]
  | 0x0D => op ∈ [0x02, 0x06, 0x07] || (op == 0x05 && natAt p 8 1 == 0)
  | 0x0E => true
  | _ => false

/-- The management level of the host of a controller (R411). -/
def State.levelOf (s : State) (ctrl : Nat) : Nat :=
  match s.fe.ctrl? ctrl with
  | some c => ((s.fe.host? c.host).map (·.level)).getD 0
  | none => 0

/-- The right of mailboxes 0 to 7: level 1 gives Read and level 2 All; BBOX is Read, FREEZE nothing, HEALTH Read at
either level (R411); SECURITY.PSK_ADD only over TLS (R412); SECURITY.ATTEST from level 1 (R465). -/
def State.hostRight (s : State) (src : Nat) (tls : Bool) (cls op : Nat) (p : Bytes) : Bool :=
  let lv := s.levelOf src
  if cls == 0x0B then false
  else if cls == 0x09 && op == 0x01 && !tls then false
  else if cls == 0x09 && op == 0x48 then decide (1 ≤ lv)
  else (decide (1 ≤ lv) && isRead cls op p) || (lv == 2 && cls != 0x05 && cls != 0x0E)

/-- The right of mailbox 14: at D0 only the four messages of R449; at D1 Read and at D2 All of the classes "As CONFIG",
and All or Read of the others as the table sets (R411, R449). -/
def State.tapRight (s : State) (cls op : Nat) (p : Bytes) : Bool :=
  let open4 := cls == 0x09 && op ∈ [0x40, 0x41, 0x48, 0x45]
  let rd := isRead cls op p
  match s.li.level with
  | 0 => open4
  | lv =>
    match cls with
    | 0x04 | 0x0A | 0x0B | 0x0E => true
    | 0x05 | 0x08 => rd
    | 0x09 => open4 || op == 0x42 || rd
    | _ => rd || decide (2 ≤ lv)

/-- Whether the source of a message has the right to send it (R411, R412). -/
def State.permitted (s : State) (mbox src : Nat) (tls : Bool) (cls op : Nat) (p : Bytes) : Bool :=
  if mbox < 8 then s.hostRight src tls cls op p
  else if mbox ≤ 11 then cls != 0x05 || isRead cls op p
  else if mbox == 12 then
    (cls == 0x06 && op ∈ [0x05, 0x06]) || (cls == 0x07 && op == 0x02) || (cls == 0x0E && op == 0x01)
  else if mbox == 14 then s.tapRight cls op p
  else mbox == 15

/-- The messages a running Sanitize refuses (R413). -/
def sanitizeRefuses (cls op : Nat) : Bool :=
  match cls with
  | 0x09 => op ∈ [0x10, 0x11, 0x13]
  | 0x08 => op ∈ [0x02, 0x03]
  | 0x01 => op ∈ [0x08, 0x09]
  | 0x06 => op ∈ [0x01, 0x03, 0x08, 0x09]
  | _ => false

/-- Under ROM recovery, or with Wax failed, only the sideband serves (R431). -/
def State.romOnly (s : State) : Bool := s.pw.phase == .pilot && (s.bt.running == 2 || s.bt.waxFailed)

/-- The messages Pilot-light mode carries out: Read messages, EVLOG, BBOX and DIAG; where only the sideband serves, event log and
black box reads, and DIAG, without which the mode could not end (R413, R431, R432, log 30). -/
def State.pilotAllows (s : State) (cls op : Nat) (p : Bytes) : Bool :=
  cls == 0x0A || cls == 0x05 || (if s.romOnly then cls == 0x04 && isRead cls op p else isRead cls op p || cls == 0x04)

/-- The head message of a mailbox starts: a kept reply answers a repeat (R404), then the length (R405, R406), the right
(R411), the state (R413) and the reserved fields (R9) are checked, and the message is carried out (R408). -/
def State.perform (s : State) (cls op : Nat) (h : Handler) (m : MsgReq) : State :=
  match s.keptFor cls op m with
  | some k => s.replay m k
  | none =>
    if m.len ≠ m.payload.length then s.reply cls op m (refuse .length)
    else if !s.permitted m.mbox m.src m.tls cls op m.payload then s.reply cls op m (refuse .notPermitted)
    else if s.sanitizing && sanitizeRefuses cls op then s.reply cls op m (refuse .stateRefused)
    else if s.pw.phase == .pilot && !s.pilotAllows cls op m.payload then s.reply cls op m (refuse .stateRefused)
    else if m.reservedSet then s.reply cls op m (badField 0xFFFF)
    else
      match h s m with
      | (t, some a) => t.reply cls op m a
      | (t, none) => t

/-- Whether a mailbox takes a post from a source: it is free or owned by it, and holds fewer than 8 messages (R406,
R407). -/
def State.takes (s : State) (mbox src : Nat) : Bool :=
  (!(s.box mbox).owned || (s.box mbox).owner == src) && decide ((s.box mbox).inFlight < 8)

/-- A post is accepted: the message counts, is in flight, and its source owns the mailbox (R402, R407). -/
def State.accept (s : State) (mbox src : Nat) : State :=
  s.modBox mbox fun b => { b with msgs := b.msgs + 1, inFlight := b.inFlight + 1, owner := src, owned := true }

/-- A request is posted: MBX_HDR shows its header and the data window its payload (R402, R403). -/
def State.takeIn (s : State) (m : MsgReq) (cls op : Nat) : State :=
  (s.accept m.mbox m.src).modBox m.mbox fun b =>
    { b with hdr := BitVec.ofNat 256 (leNat (headerBytes cls op m.tag m.len 0 0 m.seq 0 0 0)), window := m.payload }

/-- An accepted message waits behind the others of its mailbox; the flag says that its MH_LEN did not fit. During the pause
of an activation the mailbox is marked HELD (R406, R408, R413). -/
def State.queueMsg (s : State) (m : MsgReq) (cls op : Nat) (bad : Bool) : State :=
  (s.takeIn m cls op).modBox m.mbox fun b => { b with queue := b.queue ++ [(m, cls, op, bad)], held := b.held || s.bt.paused }

/-- Whether a message must wait for its turn: another is queued or in progress before it, or an activation pauses (R408,
R413). -/
def State.mustWait (s : State) (mbox : Nat) : Bool := !(s.box mbox).queue.isEmpty || (s.box mbox).working || s.bt.paused

/-- A sideband mailbox (R401). -/
def sideband (mbox : Nat) : Bool := decide (8 ≤ mbox) && decide (mbox ≤ 11)

/-- Before B4 of a start has ended, while the auxiliary supply is good (R420). B0's failure leaves no service (R426), nor does a
freeze (R473). -/
def State.beforeB4 (s : State) : Bool :=
  s.mb.endpoint && (match s.pw.phase with
    | .starting => decide (s.pw.curStep ≤ 4)
    | .off | .tripped | .ready | .failedStart | .fatal => true
    | _ => false)

/-- Sideband mailboxes refuse every message before B4 has ended (R420). -/
def State.tooEarly (s : State) (mbox : Nat) : Bool := s.beforeB4 && sideband mbox

/-- A message of the sideband that is not queued is answered with a reply header alone, which its mailbox counts in MBX_REJECTS (R402, R409,
R420). -/
def State.turnAway (s : State) (cls op : Nat) (m : MsgReq) (st : MStatus) : State :=
  (s.modBox m.mbox fun b => { b with rejects := b.rejects + 1 }).emit
    (.mctp m.src m.mctpTag st.code (sbBody m.mbox (headerBytes cls op m.tag 0 st.code 1 m.seq 0 s.now s.tq)))

/-- The Lamplighter takes a post to a mailbox: it serves or is in Pilot-light mode, or, on the sideband, B4 has ended (R420). -/
def State.takesPosts (s : State) (mbox : Nat) : Bool :=
  if s.romOnly then sideband mbox
  else s.managed || (sideband mbox && s.pw.phase == .starting && decide (4 < s.pw.curStep))

/-- A message row: the mailbox takes the message and, with nothing before it, starts it. A drive whose Lamplighter does
not run, or a mailbox that takes no post, leaves the message aside; a full mailbox sets OVERRUN,
and the sideband answers BUSY (R402, R406, R408, R409). -/
def State.message (s : State) (cls op : Nat) (h : Handler) (m : MsgReq) : State :=
  if s.tooEarly m.mbox then s.turnAway cls op m .stateRefused
  else if !s.takesPosts m.mbox then s
  else if !s.takes m.mbox m.src then
    let s := s.modBox m.mbox fun b => if 8 ≤ b.inFlight then { b with overrun := true } else b
    s.whenB (sideband m.mbox) fun s => s.turnAway cls op m .busy
  else if s.mustWait m.mbox then s.queueMsg (s.named m) cls op false
  else (s.takeIn (s.named m) cls op).perform cls op h (s.named m)

end Sys2Proof.Machine
end

