-- ==== Sys2Proof/Machine/Layout.lean ====
section
/-! DEFINITION. Where things lie on the media: NAND addresses (R175, R176), the units of a band and the records in them (R177,
R180, R182, R184), open-band parity (R185, R187), the Wax address map (R152) and the stripes of the journal (R158). -/

namespace Sys2Proof.Machine

/-! ## NAND addresses (R176) -/

def naChannel (g : Nat) : Nat := g / 2 ^ 38 % 16
def naDie (g : Nat) : Nat := g / 2 ^ 33 % 32
def naPlane (g : Nat) : Nat := g / 2 ^ 31 % 4
def naBlock (g : Nat) : Nat := g / 2 ^ 20 % 2048
def naPage (g : Nat) : Nat := g / 2 ^ 9 % 2048

/-- The block set a granule lies in. -/
def naMember (g : Nat) : Nat × Nat × Nat := (naChannel g, naDie g, naBlock g)

/-- The granule at an offset of the mapping unit at a page row of a block set: plane 0 granule 0 to plane 3 granule 511
(R176, R182). -/
def unitAddr (x : Nat × Nat × Nat) (row off : Nat) : Nat :=
  x.1 * 2 ^ 38 + x.2.1 * 2 ^ 33 + off / 512 * 2 ^ 31 + x.2.2 * 2 ^ 20 + row * 512 + off % 512

/-! ## Units of a band (R177, R180, R182) -/

/-- Granules of a mapping unit, of a fine unit, and of a block set (R175, R182). -/
def unitGranules : Nat := 2048
def fineGranules : Nat := 128
def setGranules : Nat := 4194304

/-- The members whose units carry records, in channel order: in a FINE_INTERNAL band those on the designated channels of its
opening (R180, R195). -/
def Band.recordLanes (b : Band) : List (Nat × Nat × Nat) :=
  if b.kind == .fineInternal then b.members.filter fun x => b.channels.getLsbD x.1 else b.members

/-- The members of a FINE_INTERNAL band that carry internal data (R180). -/
def Band.internalLanes (b : Band) : List (Nat × Nat × Nat) :=
  if b.kind == .fineInternal then b.members.filter fun x => !b.channels.getLsbD x.1 else []

/-- The granule at a position in unit order: unit u lies at page row u ÷ n on the u mod n-th of n members (R182, log 20). -/
def laneAddr (l : List (Nat × Nat × Nat)) (pos : Nat) : Option Nat :=
  (l[pos / unitGranules % l.length]?).map fun x => unitAddr x (pos / unitGranules / l.length) (pos % unitGranules)

/-- The position of a granule in unit order. -/
def lanePos (l : List (Nat × Nat × Nat)) (g : Nat) : Option Nat :=
  (l.findIdx? (· == naMember g)).map fun i => (naPage g * l.length + i) * unitGranules + naPlane g * 512 + g % 512

/-- The next position from `fill` on that begins a unit of `u` granules. -/
def unitUp (u fill : Nat) : Nat := (fill + u - 1) / u * u

/-- Where `n` granules begin: at `fill`, or at the next unit where the rest of this one cannot take them (R182, R184). -/
def nextStart (u fill n : Nat) : Nat := if fill % u + n ≤ u then fill else unitUp u fill

/-- The unit in which a band's records are packed: a fine unit is never spanned (R182, R183). -/
def Band.unit (b : Band) : Nat := if b.kind == .fineInternal then fineGranules else unitGranules

/-- Where a band's next record of `n` granules begins, as a position and an address; none where the band has no room. -/
def Band.nextAt (b : Band) (n : Nat) : Option (Nat × Nat) :=
  let p := nextStart b.unit b.fill n
  if p + n ≤ setGranules * b.recordLanes.length then (laneAddr b.recordLanes p).map fun a => (p, a) else none

/-- The band with that record in it, a padding marker before it where granules are skipped (R184). -/
def Band.took (b : Band) (p n : Nat) : Band :=
  { b with fill := p + n, pads := if p = b.fill then b.pads else b.pads ++ (laneAddr b.recordLanes b.fill).toList }

/-- Where the next 4 KiB page of internal data goes (R180). -/
def Band.nextInternal (b : Band) : Option Nat :=
  if b.fillInt + fineGranules ≤ setGranules * b.internalLanes.length then laneAddr b.internalLanes b.fillInt else none

/-- Written pages of a band, numbered in unit order over its records and then over its internal data. -/
def Band.pageCount (b : Band) : Nat := (b.fill + 511) / 512 + (b.fillInt + 511) / 512

/-- The pages of a record of `n` granules, first and last: it goes on at the next unit, in unit order (R182). -/
def Band.pagesOf (b : Band) (g n : Nat) : Option (Nat × Nat) :=
  (lanePos b.recordLanes g).map fun p => (p / 512, (p + n - 1) / 512)

/-- A record has a part in the pages `a` to `z`. -/
def Band.onPages (b : Band) (a z g n : Nat) : Bool := (b.pagesOf g n).any fun (x, y) => decide (x ≤ z) && decide (a ≤ y)

/-- A record has a part on the member `x` (R182). -/
def Band.onMember (b : Band) (x : Nat × Nat × Nat) (g n : Nat) : Bool :=
  match b.pagesOf g n, b.recordLanes.findIdx? (· == x) with
  | some (a, z), some i => (List.range (min b.recordLanes.length (z / 4 - a / 4 + 1))).any fun k => (a / 4 + k) % b.recordLanes.length == i
  | _, _ => naMember g == x

/-- The member that holds a page of the records. -/
def Band.memberAt (b : Band) (page : Nat) : Option (Nat × Nat × Nat) := b.recordLanes[page / 4 % b.recordLanes.length]?

/-- Rows of a member that have been programmed, in whole or in part: the rows that a failure rebuilds (R194). -/
def Band.rowsOn (b : Band) (x : Nat × Nat × Nat) : Nat :=
  let rows (l : List (Nat × Nat × Nat)) (fill : Nat) : Nat :=
    match l.findIdx? (· == x) with
    | some i => ((fill + unitGranules - 1) / unitGranules + l.length - 1 - i) / l.length
    | none => 0
  rows b.recordLanes b.fill + rows b.internalLanes b.fillInt

/-- Page `page` of the records lies on a member that `gone` takes, in a row that another member it takes has been programmed in as
well, so that parity does not give it back (R187). -/
def Band.rowGone (b : Band) (gone : Nat × Nat × Nat → Bool) (page : Nat) : Bool :=
  (b.memberAt page).any fun x =>
    gone x && b.members.any fun y => y != x && gone y && decide (page / 4 / b.recordLanes.length < b.rowsOn y)

/-- The granule address of the same page in another block set (R176). -/
def naMove (g die block : Nat) : Nat :=
  g / 2 ^ 38 * 2 ^ 38 + die * 2 ^ 33 + (g / 2 ^ 31 % 4) * 2 ^ 31 + block * 2 ^ 20 + g % 2 ^ 20

/-! ## Band headers (R178) -/

def streamCode : StreamKind → Nat
  | .hostHot => 1
  | .hostCold => 2
  | .fineInternal => 3
  | .gcHot => 4
  | .gcCold => 5

/-- The 2 bytes of BH_MEMBERS for a channel. -/
def memberWord (ms : List (Nat × Nat × Nat)) (ch : Nat) : Nat :=
  match ms.find? (·.1 == ch) with
  | some (_, die, block) => die * 2048 + block
  | none => 0xFFFF

/-- The 64 bytes of a band header. -/
def BandHeader.bytes (h : BandHeader) : Bytes :=
  let b := leBytes 1 (streamCode h.kind) ++ leBytes 1 h.replacement.toNat ++ leBytes 2 h.band ++ leBytes 4 h.ec ++ leBytes 8 h.openSeq
    ++ ((List.range 16).flatMap fun c => leBytes 2 (memberWord h.members c)) ++ leBytes 8 h.openTime ++ [h.tq, 0, 0, 0]
  b ++ leBytes 4 (crc32c b).toNat

/-- The members the census reads for a band: of the headers that name it and its opening, one for each channel, a replacement
before the original (R178). -/
def censusMembers (hs : List ((Nat × Nat × Nat) × BandHeader)) (number openSeq : Nat) : List (Nat × Nat × Nat) :=
  let mine := hs.filter fun p => p.2.band == number && p.2.openSeq == openSeq
  (List.range 16).filterMap fun c =>
    ((mine.find? fun p => p.1.1 == c && p.2.replacement).or (mine.find? fun p => p.1.1 == c)).map (·.1)

/-! ## The Wax address map (R152) -/

inductive WaxRegion where
  | staging | journal | parity | records | reserve
  deriving DecidableEq, Repr

def WaxRegion.base : WaxRegion → Nat
  | .staging => 0
  | .journal => 0x100000000
  | .parity => 0x180000000
  | .records => 0x1C0000000
  | .reserve => 0x1C4000000

def WaxRegion.size : WaxRegion → Nat
  | .staging => 0x100000000
  | .journal => 0x80000000
  | .parity => 0x40000000
  | .records => 0x4000000
  | .reserve => 0x3C000000

/-- The region of a Wax address. -/
def waxRegion (a : Nat) : Option WaxRegion :=
  [WaxRegion.staging, .journal, .parity, .records, .reserve].find? fun r => decide (r.base ≤ a) && decide (a < r.base + r.size)

/-- Staging granule g lies at address 32 g (R152). -/
def stagingAddr (g : Nat) : Nat := 32 * g

/-- The package of an address of a region interleaved in 256-byte units (R152). -/
def waxPackage (a : Nat) : Nat := a / 256 % 8

/-- Whether granules of staging have a part in a package. -/
def inPackage (g n pkg : Nat) : Bool :=
  (List.range (min 8 ((stagingAddr (g + n) + 255) / 256 - stagingAddr g / 256))).any fun i => waxPackage (stagingAddr g + 256 * i) == pkg

/-- Row p of parity slot k in Wax (R185). -/
def parityAddr (slot row : Nat) : Nat := WaxRegion.parity.base + slot * 0x8000000 + row * 0x10000

/-! ## Locations (R118) -/

/-- SLOT_LOC as a 48-bit word. -/
def Loc.word : Loc → Nat
  | .wax g => g % 2 ^ 27
  | .nand g => 2 ^ 46 + g % 2 ^ 42

/-! ## The stripes of the journal (R158) -/

/-- The package that holds the parity block of a stripe. -/
def stripeParityPackage (stripe : Nat) : Nat := 7 - stripe % 8

/-- Where usable block `b` of the ring lies: stripe and package. Seven blocks of a stripe carry records, in the packages that do
not hold its parity, in ascending order (R158, log 30). -/
def journalBlockAt (b : Nat) : Nat × Nat :=
  let s := b / 7
  (s, if b % 7 < stripeParityPackage s then b % 7 else b % 7 + 1)

/-- The parity of the blocks of a stripe (R158). -/
def stripeParity (blocks : List Bytes) : Bytes := blocks.foldl xorBytes (List.replicate 64 0)

/-- A block of a stripe from the others and their parity (R158, R170). -/
def rebuildBlock (others : List Bytes) (parity : Bytes) : Bytes := xorBytes (stripeParity others) parity

end Sys2Proof.Machine
end

