-- ==== Sys2Proof/Machine/Open.lean ====
section
/-! DEFINITION. Block sets, bands as they open and end, and the pages of internal data they take (R175 to R185, R195). -/

namespace Sys2Proof.Machine

/-- The band that holds a granule, if it is not FREE (R177, R179). -/
def Media.bandOf (m : Media) (g : Nat) : Option Band := m.bands.find? fun b => naMember g ∈ b.members
def Media.band? (m : Media) (n : Nat) : Option Band := m.bands.find? (·.number == n)
def Media.modBand (m : Media) (n : Nat) (f : Band → Band) : Media :=
  { m with bands := m.bands.map fun b => if b.number == n then f b else b }
def State.modBand (s : State) (n : Nat) (f : Band → Band) : State := s.modMd fun m => m.modBand n f

/-! ## Block sets (R175, R195, R200) -/

def Media.set (m : Media) (b : Nat × Nat × Nat) : BlockSet := (m.blocks.lookup b).getD {}
def Media.modSet (m : Media) (b : Nat × Nat × Nat) (f : BlockSet → BlockSet) : Media :=
  { m with blocks := setAssoc b (f (m.set b)) m.blocks }

/-- The die of a block set serves: it is neither retired nor lost (R201). -/
def Media.dieServes (m : Media) (b : Nat × Nat × Nat) : Bool := !((b.1, b.2.1) ∈ m.diesRetired) && !((b.1, b.2.1) ∈ m.diesLost)

/-- A block set in service (R196, R200, R202). -/
def Media.inUse (m : Media) (b : Nat × Nat × Nat) : Bool := !(m.set b).retired && m.dieServes b

/-- A block set that can be taken: in service and of no band. -/
def Media.freeSet (m : Media) (b : Nat × Nat × Nat) : Bool := m.inUse b && !(m.bands.any fun x => b ∈ x.members)

/-- The first free block set of a channel from number `i` on, numbered die × 2,048 + block. -/
def Media.firstFree (m : Media) (ch : Nat) : Nat → Nat → Option (Nat × Nat × Nat)
  | 0, _ => none
  | f + 1, i => if m.freeSet (ch, i / 2048, i % 2048) then some (ch, i / 2048, i % 2048) else m.firstFree ch f (i + 1)

/-- The free block sets of a channel that have been erased, with their erases. -/
def Media.worn (m : Media) (ch : Nat) : List (Nat × (Nat × Nat × Nat)) :=
  (m.blocks.filter fun p => p.1.1 == ch && m.freeSet p.1).map fun p => (p.2.erases, p.1)

/-- The least-worn free block set of a channel: one that has never been erased, or the one with the fewest erases among
those that have (R195, log 9). -/
def Media.leastWorn (m : Media) (ch : Nat) : Option (Nat × Nat × Nat) :=
  match m.firstFree ch 65536 0 with
  | none => none
  | some b =>
    if (m.set b).erases = 0 then some b
    else some (((m.worn ch).foldl (fun acc p => if p.1 < acc.1 then p else acc) ((m.set b).erases, b)).2)

/-- The most-worn free block set of a channel (R195). -/
def Media.mostWorn (m : Media) (ch : Nat) : Option (Nat × Nat × Nat) :=
  match m.firstFree ch 65536 0 with
  | none => none
  | some b => some (((m.worn ch).foldl (fun acc p => if acc.1 < p.1 then p else acc) ((m.set b).erases, b)).2)

/-- The block set a band of a stream takes on a channel: the least-worn free one on a designated channel, the most-worn for GC_COLD
on a static one; the manual leaves the others to the drive, which takes the least-worn (R195, log 9). -/
def Media.pickSet (m : Media) (k : StreamKind) (ch : Nat) : Option (Nat × Nat × Nat) :=
  if k == .gcCold && !m.channels.getLsbD ch then m.mostWorn ch else m.leastWorn ch

/-- A block set may open a band of a stream: it is free and, where R195 orders the choice, as worn as the rule asks. -/
def Media.mayOpen (m : Media) (k : StreamKind) (x : Nat × Nat × Nat) : Bool :=
  m.freeSet x && (if m.channels.getLsbD x.1 || k == .gcCold then ((m.pickSet k x.1).map fun y => (m.set y).erases) == some (m.set x).erases else true)

/-! ## Bands that open and fill (R177 to R185) -/

/-- The parity slot a band takes, of the eight that OPEN and VERIFY bands hold (R179, R185). DESIGN CHOICE (log 9): the lowest. -/
def Media.freeSlot (m : Media) : Option Nat := (List.range 8).find? fun i => !(m.bands.any fun b => b.slot == some i)

/-- The number of a band that opens. DESIGN CHOICE (log 9): the lowest that no band has. -/
def Media.freeNumber (m : Media) : Option Nat := ((0 :: m.bands.map fun b => b.number + 1).filter fun n => (m.band? n).isNone && decide (n < 65536)).min?

/-- The page of the erase-count table that holds a block set: 1,024 counts of 4 bytes to a page, by channel, die and block (log 9). -/
def ecPage (x : Nat × Nat × Nat) : Nat := (x.1 * 65536 + x.2.1 * 2048 + x.2.2) / 1024

/-- A block set has been erased: its count rises, and its page of the erase-count table has changed (R180, R200). -/
def Media.erased (m : Media) (x : Nat × Nat × Nat) : Media :=
  { m.modSet x fun y => { y with erases := y.erases + 1 } with
    ecDirty := if ecPage x ∈ m.ecDirty then m.ecDirty else m.ecDirty ++ [ecPage x] }

/-- The open band of a stream (R180). -/
def Media.openOf (m : Media) (k : StreamKind) : Option Band := m.bands.find? fun b => b.state == 1 && b.kind == k

/-- The band that opens for a stream with its members, and their headers (R177 to R180). -/
def State.newBand (s : State) (k : StreamKind) (slot n : Nat) (ms : List (Nat × Nat × Nat)) : Band × List ((Nat × Nat × Nat) × BandHeader) :=
  ({ number := n, kind := k, state := 1, openSeq := s.md.openSeq, openTime := s.now, tq := s.tq, members := ms, hashes := [],
     slot := some slot, lastWrite := s.mono, channels := s.md.channels },
   ms.map fun x => (x, { kind := k, replacement := false, band := n, ec := (s.md.set x).erases, openSeq := s.md.openSeq, members := ms,
                         openTime := s.now, tq := s.tq }))

/-- Opens a band of a stream, with a given block set on its channel if one is asked for; none while all parity slots are taken
(R177 to R180). A channel without a free block set gives no member (R177). -/
def State.openBand (s : State) (k : StreamKind) (want : Option (Nat × Nat × Nat)) : Option State :=
  match s.md.freeSlot, s.md.freeNumber with
  | some slot, some n =>
    if want.any fun x => !s.md.mayOpen k x then none
    else
      let ms := (List.range 16).filterMap fun ch => (want.filter (·.1 == ch)).or (s.md.pickSet k ch)
      let (b, hs) := s.newBand k slot n ms
      some (s.modMd fun m => { m with openSeq := m.openSeq + 1, bands := m.bands ++ [b],
                                      headers := hs ++ m.headers.filter fun p => p.1 ∉ ms })
  | _, _ => none

/-- The NAND bytes of a program (R196, R206); log C0h changes with them (R80). -/
def Media.program (m : Media) (bytes : Nat) : Media := { m with nandBytes := m.nandBytes + bytes, winNand := m.winNand + bytes }

/-- The rest of a band is padding: its last row is programmed and it enters VERIFY (R179, R184). -/
def State.padBand (s : State) (b : Band) : State :=
  let full := setGranules * b.recordLanes.length
  let fullInt := setGranules * b.internalLanes.length
  (s.modBand b.number fun x =>
    { x with state := 2, fill := full, fillInt := fullInt, lastWrite := s.mono,
             pads := if b.fill < full then b.pads ++ (laneAddr b.recordLanes b.fill).toList else b.pads }).modMd
    fun m => m.program (32 * (full - b.fill + (fullInt - b.fillInt)))

/-- What a band that has ended still owes its record list: the last page, kept in part (R184). -/
def Band.lastList (b : Band) : List IntPage := if b.hashes.length % 510 = 0 then [] else [.recordList b.number (b.hashes.length / 510 * 510)]

/-- Pages of internal data that wait for a place, each once and in order (R179). -/
def Media.await (m : Media) (l : List IntPage) : Media := { m with intWaits := m.intWaits.filter (· ∉ l) ++ l }

/-- A band ends: the rest of it is padding, and the last page of its record list is to be written (R179, R184). -/
def State.endBand (s : State) (b : Band) : State := (s.padBand b).modMd fun m => m.await b.lastList

/-- A page of internal data takes the next place of the open FINE_INTERNAL band, in place of the page it supersedes; none without an open
band that has room (R180). -/
def State.putInternal (s : State) (pg : IntPage) : Option State :=
  (s.md.openOf .fineInternal).bind fun b => b.nextInternal.map fun g =>
    (s.modBand b.number fun x => { x with fillInt := b.fillInt + fineGranules, lastWrite := s.mono }).modMd fun m =>
      { m.program 4096 with internal := m.internal.filter (·.2 ≠ pg) ++ [(g, pg)] }

/-- A band opens for internal data after the open one, if there is one, has ended; none while all parity slots are taken (R179, R180). -/
def State.nextInternalBand (s : State) : Option State :=
  (match s.md.openOf .fineInternal with
    | some b => s.endBand b
    | none => s).openBand .fineInternal none

/-- The pages that wait are written in order, as far as bands can open for them (R179, R180); `f` bounds how many. -/
def State.drainInternal : Nat → State → State
  | 0, s => s
  | f + 1, s =>
    match s.md.intWaits with
    | [] => s
    | pg :: _ =>
      match (s.putInternal pg).or (s.nextInternalBand.bind fun t => t.putInternal pg) with
      | some t => (t.modMd fun m => { m with intWaits := m.intWaits.erase pg }).drainInternal f
      | none => s

/-- Waiting pages of internal data try again; the ends of at most the eight bands with a parity slot add a page each (R179, R184). -/
def State.retryInternal (s : State) : State := s.drainInternal (s.md.intWaits.length + 8)

/-- Pages of internal data go to the FINE_INTERNAL band, after those that wait; while no parity slot is free they wait unwritten (R179,
R180). -/
def State.placeInternal (s : State) (l : List IntPage) : State := ((s.logChanged 0).modMd fun m => m.await l).retryInternal

/-- The record list of a band is kept in pages of 510 entries: the page that its newest entry completes is written (R184). -/
def State.listPage (s : State) (band : Nat) : State :=
  match s.md.band? band with
  | none => s
  | some b =>
    let n := b.hashes.length
    if n ≠ 0 && n % 510 = 0 then s.placeInternal [.recordList band (n - 510)] else s

end Sys2Proof.Machine
end

