-- ==== Sys2Proof/Machine/Index.lean ====
section
/-! DEFINITION. Stored records and the Ember index: record sizes, the keyed hash, buckets and chains, lookup,
insertion, removal, spill (R114 to R128, R154, R214), and what becomes of a record that nothing points at (R162, R193). -/

namespace Sys2Proof.Machine

/-! ## Record sizes -/

/-- Body length of a record whose key and value have `b` bytes together (R214). -/
def bodyLen (m : SealMode) (b : Nat) : Nat :=
  match m with
  | .gcm | .ctr => b
  | .xts => max b 16
  | .cbc => 16 * (b / 16 + 1)

/-- REC_TAG is 16 bytes under GCM and absent otherwise (R154, R214). -/
def tagLen (m : SealMode) : Nat := if m = .gcm then 16 else 0

/-- Granules of 32 bytes of a padded record (R154). -/
def recGranules (m : SealMode) (keyLen valLen : Nat) : Nat := (16 + bodyLen m (keyLen + valLen) + tagLen m + 31) / 32

/-- Padded bytes of a stored record. -/
def StoredRec.granules (r : StoredRec) : Nat := recGranules r.mode r.key.length r.value.length
def StoredRec.bytes (r : StoredRec) : Nat := 32 * r.granules

/-- SLOT_LEN_CLASS: the smallest class whose bound covers the granules (R119). -/
def lenClass (g : Nat) : Nat := if g ≤ 2048 then g - 1 else 2047 + (g - 2048 + 1023) / 1024

/-! ## The keyed hash (R114) -/

/-- H of a key (R114). -/
def State.hash (s : State) (nsid : Nat) (key : Key) : BitVec 64 := Config.keyedHash s.ix.seed nsid key

/-- FP, H[63:40] (R114). -/
def hashFp (h : BitVec 64) : BitVec 24 := h.extractLsb' 40 24

/-- The owning engine E, H[5:0] (R114). -/
def hashEngine (h : BitVec 64) : Nat := (h.extractLsb' 0 6).toNat

/-- R, rows per engine: full or half-size geometry (R114, R133). -/
def Index.rows (x : Index) : Nat := if x.half then 4915200 else 9830400

/-- Candidate buckets 1 and 2 (R114). -/
def Index.cand1 (x : Index) (h : BitVec 64) : Nat := 64 * ((h.extractLsb' 6 34).toNat % x.rows) + hashEngine h
def Index.cand2 (x : Index) (h : BitVec 64) : Nat :=
  64 * (((h.extractLsb' 6 34).toNat % x.rows + 1 + (hashFp h).toNat % (x.rows - 1)) % x.rows) + hashEngine h

/-- IDV_KEYS_RESIDENT (R83, R125, R133). -/
def Index.residentMax (x : Index) : Nat := if x.half then Figure.residentHalf else Figure.residentFull

/-- Overflow pool buckets of one engine (R122, R133). -/
def Index.poolPart (x : Index) : Nat := if x.half then 327680 else 655360

/-! ## Buckets -/

/-- A bucket of the primary table or of the overflow pool. -/
inductive BRef where
  | prim (n : Nat) | pool (n : Nat)
  deriving DecidableEq, Repr

/-- Where a key stands: a slot of a bucket, or the spill table, where the location of its record tells keys of one hash
apart. -/
inductive Place where
  | slot (b : BRef) (i : Nat) | spilled (loc : Loc)
  deriving DecidableEq, Repr

def Bucket.slots (b : Bucket) : List (Option Slot) := [b.s0, b.s1, b.s2, b.s3, b.s4]
def Bucket.withSlots (b : Bucket) (l : List (Option Slot)) : Bucket :=
  { b with s0 := l.getD 0 none, s1 := l.getD 1 none, s2 := l.getD 2 none, s3 := l.getD 3 none, s4 := l.getD 4 none }

/-- Slots in use of a bucket. -/
def Bucket.count (b : Bucket) : Nat := b.slots.countP (·.isSome)
def Bucket.free? (b : Bucket) : Option Nat := b.slots.findIdx? (·.isNone)

def Index.get (x : Index) : BRef → Bucket
  | .prim n => (x.buckets.lookup n).getD {}
  | .pool n => (x.pool.lookup n).getD {}

/-- The 4 KiB page of the index region that holds a bucket (R112, R129, R132). -/
def Index.page (x : Index) : BRef → Nat
  | .prim n => n / 64
  | .pool n => x.rows + n / 64

/-! ## The spill table (R126) -/

/-- Rows of the spill table per engine (R126). -/
def spillRows : Nat := 7864320

/-- The two candidate buckets of a key in the spill table, a bucket table of the same format. -/
def spillCand1 (h : BitVec 64) : Nat := 64 * ((h.extractLsb' 6 34).toNat % spillRows) + hashEngine h
def spillCand2 (h : BitVec 64) : Nat :=
  64 * (((h.extractLsb' 6 34).toNat % spillRows + 1 + (hashFp h).toNat % (spillRows - 1)) % spillRows) + hashEngine h

/-- Keys that a bucket of the spill table holds. -/
def Index.spillCount (x : Index) (c : Nat) : Nat := x.spill.countP (·.bucket == c)

/-- The bucket a spilled key takes: the emptier of its candidates, as in the primary table. DESIGN CHOICE (log 9): where both hold five
keys, the first bucket with a free slot in the rows of its engine after candidate 1; the manual leaves that case open (R122, R126). -/
def Index.spillBucket (x : Index) (h : BitVec 64) : Nat :=
  let c := if x.spillCount (spillCand2 h) < x.spillCount (spillCand1 h) then spillCand2 h else spillCand1 h
  let row (i : Nat) : Nat := 64 * ((spillCand1 h / 64 + i) % spillRows) + hashEngine h
  if x.spillCount c < 5 then c
  else (((List.range (x.spill.length / 5 + 1)).map row).find? fun k => decide (x.spillCount k < 5)).getD c

/-- Pages the spill page cache holds: its region of 1 GiB, or 512 MiB in half-size geometry (R113, R133). -/
def Index.spillPages (x : Index) : Nat := if x.half then 131072 else 262144

/-- A page of the spill table is used, and written if `dirty`: it comes into the spill page cache as its newest (R126). -/
def Index.spillTouch (x : Index) (page : Nat) (dirty : Bool) : Index :=
  let was := x.spillCache.any fun p => p.1 == page && p.2
  { x with spillCache := (page, was || dirty) :: x.spillCache.filter (·.1 ≠ page) }

/-- Writes a bucket; its page has changed since the last checkpoint (R129). A bucket all empty is not listed. -/
def Index.put (x : Index) (r : BRef) (b : Bucket) : Index :=
  let p := x.page r
  let x := { x with dirtyPages := if p ∈ x.dirtyPages then x.dirtyPages else p :: x.dirtyPages }
  match r with
  | .prim n => { x with buckets := if b = Bucket.mk none none none none none .none then dropAssoc n x.buckets else setAssoc n b x.buckets }
  | .pool n => { x with pool := setAssoc n b x.pool }

/-- A candidate bucket and its overflow buckets, at most two (R120, R122). -/
def Index.chain (x : Index) (n : Nat) : List BRef :=
  match (x.get (.prim n)).ovf with
  | .bucket a =>
    match (x.get (.pool a)).ovf with
    | .bucket b => [.prim n, .pool a, .pool b]
    | _ => [.prim n, .pool a]
  | _ => [.prim n]

/-- The spill entry of a hash and a record. -/
def Spilled.is (h : BitVec 64) (loc : Loc) (e : Spilled) : Bool := e.h == h && e.slot.loc == loc

/-- The last bucket of a chain. -/
def Index.chainEnd (x : Index) (n : Nat) : BRef := (x.chain n).getLastD (.prim n)

def Index.slotAt (x : Index) (h : BitVec 64) : Place → Option Slot
  | .slot b i => ((x.get b).slots.getD i none)
  | .spilled loc => (x.spill.find? (Spilled.is h loc)).map (·.slot)

/-! ## Lookup (R120, R121) -/

/-- The first slot of a bucket whose fingerprint matches and whose stored key is confirmed. -/
def Bucket.search (b : Bucket) (fp : BitVec 24) (confirm : Slot → Bool) : Option Nat :=
  b.slots.findIdx? fun o => match o with
    | some t => t.fp == fp && confirm t
    | none => false

/-- The lookup of R120: candidate 1 and its chain, candidate 2 and its chain, and the spill table only if the end of
candidate 1's chain carries a spill mark. -/
def Index.find (x : Index) (h : BitVec 64) (confirm : Slot → Bool) : Option Place :=
  match (x.chain (x.cand1 h) ++ x.chain (x.cand2 h)).findSome? fun r =>
      ((x.get r).search (hashFp h) confirm).map (Place.slot r) with
  | some p => some p
  | none =>
    match (x.get (x.chainEnd (x.cand1 h))).ovf with
    | .spillMark _ => (x.spill.find? fun e => e.h == h && confirm e.slot).map fun e => .spilled e.slot.loc
    | _ => none

/-- Slots of the search of R120 whose fingerprint matches, in its order; the spill table's only where the search reaches it. -/
def Index.matches (x : Index) (h : BitVec 64) (confirm : Slot → Bool) : List Slot :=
  let l := ((x.chain (x.cand1 h) ++ x.chain (x.cand2 h)).flatMap fun r => (x.get r).slots.filterMap id).filter (·.fp == hashFp h)
  match l.any confirm, (x.get (x.chainEnd (x.cand1 h))).ovf with
  | false, .spillMark _ =>
    l ++ (x.spill.filter fun e => (e.bucket == spillCand1 h || e.bucket == spillCand2 h) && e.slot.fp == hashFp h).map (·.slot)
  | _, _ => l

/-- Fingerprint collisions of a lookup: matches whose stored key differs, before the search stops (R121). -/
def Index.collisions (x : Index) (h : BitVec 64) (confirm : Slot → Bool) : Nat :=
  ((x.matches h confirm).takeWhile fun t => !confirm t).length

/-- A lookup reaches the spill table: no resident slot is confirmed, and candidate 1's chain ends in a spill mark (R120). -/
def Index.reachesSpill (x : Index) (h : BitVec 64) (confirm : Slot → Bool) : Bool :=
  !((x.chain (x.cand1 h) ++ x.chain (x.cand2 h)).any fun r => ((x.get r).search (hashFp h) confirm).isSome)
    && (match (x.get (x.chainEnd (x.cand1 h))).ovf with | .spillMark _ => true | _ => false)

/-- Puts a slot at its place. -/
def Index.setSlot (x : Index) (h : BitVec 64) (t : Slot) : Place → Index
  | .slot b i => x.put b ((x.get b).withSlots ((x.get b).slots.set i (some t)))
  | .spilled loc =>
    let page := ((x.spill.find? (Spilled.is h loc)).map (·.bucket / 64)).getD 0
    ({ x with spill := x.spill.map fun e => if Spilled.is h loc e then { e with slot := t } else e }).spillTouch page true

/-! ## Insertion (R122) -/

/-- A new overflow bucket comes from the owning engine's part of the pool (R122). DESIGN CHOICE (log 9): that part is the run of
buckets from engine × part on, and the lowest bucket of it that is not in use is taken. -/
def Index.freePool (x : Index) (e : Nat) : Option Nat :=
  let used := (x.pool.map (·.1)).filter fun n => n / x.poolPart == e
  if used.length < x.poolPart then
    ((List.range (used.length + 1)).find? fun i => (e * x.poolPart + i) ∉ used).map (e * x.poolPart + ·)
  else none

/-- Into the spill table; the spill count at the end of candidate 1's chain rises, saturating (R116, R122). -/
def Index.toSpill (x : Index) (h : BitVec 64) (t : Slot) : Index :=
  let r := x.chainEnd (x.cand1 h)
  let b := x.get r
  let n := match b.ovf with
    | .spillMark k => min (k + 1) 0x3FFFFFFF
    | _ => 1
  let k := x.spillBucket h
  let y := x.put r { b with ovf := .spillMark n }
  ({ y with spill := y.spill ++ [{ h := h, slot := t, bucket := k }] } : Index).spillTouch (k / 64) true

/-- A new overflow bucket at the end of candidate 1's chain, holding the slot; a spill mark moves to the new end (R122,
R124). -/
def Index.chainNew (x : Index) (h : BitVec 64) (t : Slot) (n : Nat) : Index :=
  let r := x.chainEnd (x.cand1 h)
  let b := x.get r
  ((x.put r { b with ovf := .bucket n }).put (.pool n) { s0 := some t, ovf := match b.ovf with
    | .spillMark k => .spillMark k
    | _ => .none })

/-- The insertion of a new key in the order of R122; the resident count rises unless it spills (R122, R125). DESIGN CHOICE (log 9):
where the chains of both candidates have a free slot, candidate 1's chain takes the key, in its first free slot. -/
def Index.insert (x : Index) (h : BitVec 64) (t : Slot) : Index :=
  if x.residentMax ≤ x.resident then x.toSpill h t
  else
    let c1 := x.cand1 h
    let c2 := x.cand2 h
    let first := if (x.get (.prim c2)).count < (x.get (.prim c1)).count then c2 else c1
    let into (r : BRef) : Option Index := ((x.get r).free?).map fun i =>
      { x.setSlot h t (.slot r i) with resident := x.resident + 1 }
    match into (.prim first) with
    | some y => y
    | none =>
      match ((x.chain c1).drop 1 ++ (x.chain c2).drop 1).findSome? into with
      | some y => y
      | none =>
        match (if (x.chain c1).length < 3 then x.freePool (hashEngine h) else none) with
        | some n => { x.chainNew h t n with resident := x.resident + 1 }
        | none => x.toSpill h t

/-! ## Removal (R124) -/

/-- Unchains an overflow bucket that has become empty; its BKT_OVF passes to the bucket before it (R124). -/
def Index.unchain (x : Index) (c : Nat) (n : Nat) : Index :=
  if (x.get (.pool n)).count ≠ 0 then x
  else
    match (x.chain c).find? fun r => (x.get r).ovf == .bucket n with
    | some r =>
      let y := x.put r { x.get r with ovf := (x.get (.pool n)).ovf }
      { y with pool := dropAssoc n y.pool }
    | none => x

/-- The spill count falls; at 0 the mark goes, unless the count had saturated (R124). -/
def Index.spillDown (x : Index) (h : BitVec 64) : Index :=
  let r := x.chainEnd (x.cand1 h)
  let b := x.get r
  match b.ovf with
  | .spillMark k =>
    if k = 0x3FFFFFFF then x
    else x.put r { b with ovf := if k ≤ 1 then .none else .spillMark (k - 1) }
  | _ => x

/-- Clears the slot of a key (R124). -/
def Index.remove (x : Index) (h : BitVec 64) : Place → Index
  | .slot b i =>
    let y := x.put b ((x.get b).withSlots ((x.get b).slots.set i none))
    let y := { y with resident := x.resident - 1 }
    match b with
    | .pool n => (y.unchain (x.cand1 h) n).unchain (x.cand2 h) n
    | .prim _ => y
  | .spilled loc =>
    let page := ((x.spill.find? (Spilled.is h loc)).map (·.bucket / 64)).getD 0
    (({ x with spill := x.spill.eraseP (Spilled.is h loc) }).spillTouch page true).spillDown h

/-- Keys of every namespace, spilled ones included (R127). -/
def Index.keys (x : Index) : Nat := x.resident + x.spill.length

/-- Every slot in use with its place. -/
def Index.all (x : Index) : List (Place × Slot) :=
  (x.buckets.flatMap fun (n, b) => (b.slots.zipIdx).filterMap fun (o, i) => o.map fun t => (Place.slot (.prim n) i, t))
    ++ (x.pool.flatMap fun (n, b) => (b.slots.zipIdx).filterMap fun (o, i) => o.map fun t => (Place.slot (.pool n) i, t))
    ++ x.spill.map fun e => (Place.spilled e.slot.loc, e.slot)

/-! ## The index over the stored records (R16, R118, R155) -/

/-- The record at a location (R118). -/
def State.recAt (s : State) : Loc → Option StoredRec
  | .wax g => s.wx.staged.lookup g
  | .nand g => s.md.nand.lookup g

/-- Whether the key of a record's generation still unseals it: an erased generation fails key confirmation (R155,
R221). -/
def State.unseals (s : State) (r : StoredRec) : Bool :=
  s.ky.recs.any fun k => k.nsid == r.nsid && k.gen == r.keyGen && k.state != 3

/-- Confirmation of an index hit against the stored key (R16, R155). -/
def State.confirms (s : State) (nsid : Nat) (key : Key) (t : Slot) : Bool :=
  match s.recAt t.loc with
  | some r => r.nsid == nsid && r.key == key && s.unseals r
  | none => false

/-- A key that the index holds: its place, slot and record. -/
structure Found where
  place : Place
  slot : Slot
  record : StoredRec
  deriving DecidableEq, Repr

/-- The key's slot and record, if it is present (R120). -/
def State.find (s : State) (nsid : Nat) (key : Key) : Option Found :=
  let h := s.hash nsid key
  match s.ix.find h (s.confirms nsid key) with
  | some p =>
    match s.ix.slotAt h p with
    | some t => (s.recAt t.loc).map fun r => { place := p, slot := t, record := r }
    | none => none
  | none => none

def State.present (s : State) (nsid : Nat) (key : Key) : Bool := (s.find nsid key).isSome

/-- The bucket of a key is held: a committed write of the key waits for the twin outside the index, or one that has passed its checks
waits for room in the journal (R115, R157, R161). -/
def State.isPending (s : State) (nsid : Nat) (key : Key) : Bool :=
  s.wx.pend.any (fun p => p.nsid == nsid && p.key == key)
    || s.fl.cmds.any fun c => c.phase == .waitJournal && c.e.nsid == nsid && c.key == key

/-! ## Records that nothing points at any more (R162, R179, R193) -/

/-- Some slot points at a location. -/
def Index.points (x : Index) (l : Loc) : Bool := x.all.any fun (_, t) => t.loc == l

/-- The slot that points at a location. -/
def Index.slotFor (x : Index) (l : Loc) : Option Slot := (x.all.find? fun p => p.2.loc == l).map (·.2)

/-- Granules of a band: 2^22 for each member (R177). -/
def Band.size (b : Band) : Nat := setGranules * b.members.length

/-- Live granules of a band: its records that a slot points at, and its current pages of internal data (R180, R191). -/
def State.bandLive (s : State) (b : Band) : Nat :=
  ((s.md.nand.filter fun p => naMember p.1 ∈ b.members && s.ix.points (.nand p.1)).map (·.2.granules)).sum
    + fineGranules * s.md.internal.countP fun p => naMember p.1 ∈ b.members

/-- Reads under way that have resolved a location in a band (R515). -/
def State.bandRead (s : State) (b : Band) : Bool :=
  s.fl.cmds.any fun c => c.phase == .waitMedia && (match c.loc with
    | some (.nand g) => decide (naMember g ∈ b.members)
    | _ => false)

/-- VICTIM bands in which nothing is live and which no read has still to reach are erased (R179, R193, R515). -/
def State.settleVictims (s : State) : State :=
  if s.md.bands.any (·.state == 4) then
    s.modMd fun m => { m with bands := m.bands.map fun b => if b.state == 4 && s.bandLive b == 0 && !s.bandRead b then { b with state := 5 } else b }
  else s

/-- A page of a delta segment that a checkpoint begun at a control-block generation replaces (R130). -/
def IntPage.deltaUpTo (gen : Nat) : IntPage → Bool
  | .delta g _ => decide (g ≤ gen)
  | _ => false

/-- A checkpoint is complete once all its pages are written: it leaves no delta segment from before it (R129, R130). -/
def State.endCheckpoint (s : State) : State :=
  match s.ix.checkpointing with
  | some (gen, n) =>
    if !s.md.intWaits.isEmpty then s
    else ((s.modIx fun x => { x with checkpointing := none, deltas := x.deltas - n }).modMd fun m =>
      { m with internal := m.internal.filter fun p => !p.2.deltaUpTo gen }).settleVictims
  | none => s

/-- Written pages of the records of a band; its pages of internal data are numbered after them (log 9). -/
def Band.recordPages (b : Band) : Nat := (b.fill + 511) / 512

/-- The live records with a part in pages `a` to `z` of a band. -/
def State.liveOnPages (s : State) (b : Band) (a z : Nat) : List Nat :=
  (s.md.nand.filter fun p => naMember p.1 ∈ b.members && s.ix.points (.nand p.1) && b.onPages a (min z (b.recordPages - 1)) p.1 p.2.granules).map (·.1)

/-- The current pages of internal data in pages `a` to `z` of a band. -/
def Media.internalOn (m : Media) (b : Band) (a z : Nat) : List IntPage :=
  (m.internal.filter fun p => naMember p.1 ∈ b.members && (lanePos b.internalLanes p.1).any fun q =>
    decide (a ≤ b.recordPages + q / 512) && decide (b.recordPages + q / 512 ≤ z)).map (·.2)

/-- The band is CLOSED, or a victim at once if it holds a copy that a Secure Delete removes or a block set that is retired; its parity slot
is free, for the internal data that wait first (R179, R185, R186, R200, R203). -/
def State.closeBand (s : State) (b : Band) : State :=
  let victim := s.md.secdel.any (fun j => b.number ∈ j.bands) || b.members.any fun x => (s.md.set x).retired
  let rows := (b.members.map b.rowsOn).foldl max 0
  (((s.modWx fun w => { w with parityRows := (b.slot.map fun k => modAt w.parityRows k (max rows)).getD w.parityRows }).modBand b.number
    fun x => { x with slot := none, state := if victim then 4 else 3 }).settleVictims).retryInternal.endCheckpoint

/-- Every page of a band has been read back, and those that failed have been rewritten: no live record and no current internal page is left
on them, but for records that cannot be given back (R186, R189). -/
def State.verified (s : State) (b : Band) : Bool :=
  b.checked && b.failed.all fun p => (s.md.internalOn b p p).isEmpty && (s.liveOnPages b p p).all fun g => decide (g ∈ s.md.badNand)

/-- VERIFY bands whose last failed page has been rewritten close, whatever took its last record or internal page away (R179, R186). -/
def State.settleVerify (s : State) : State := (s.md.bands.filter fun b => b.state == 2 && s.verified b).foldl State.closeBand s

/-- What a record or an internal page that has gone from NAND leaves to do: victims to erase and VERIFY bands to close (R179, R186, R193). -/
def State.settleBands (s : State) : State := s.settleVictims.settleVerify

/-- The tail passes padding, dead records and reservations given back: it is the oldest granule that a record or a reservation
holds (R162). -/
def State.trimRing (s : State) : State :=
  s.modWx fun w =>
    { w with ring := w.ring.dropWhile fun (g, _) =>
        !(w.staged.any (·.1 == g)) && !(s.fl.cmds.any (·.granule == some g)) && !(s.og.fills.any (·.granule == some g)) }

/-- A staged record is dead: its granules keep it until a reservation takes them (R162, R203). -/
def Wax.kill (w : Wax) (g : Nat) : Wax :=
  { w with staged := dropAssoc g w.staged, copies := w.copies.filter (· ≠ g), bad := w.bad.filter (· ≠ g),
           streams := dropAssoc g w.streams,
           dead := (w.staged.lookup g).toList.map (fun r => (g, r)) ++ dropAssoc g w.dead }

/-- A record that no slot points at any more: a staged one is dead, one on NAND is garbage in its band (R21, R162, R193). Its
bytes leave the live bytes (R181). -/
def State.dropRecord (s : State) (loc : Loc) (bytes : Nat) : State :=
  let s := (s.modMd fun m => { m with liveBytes := m.liveBytes - bytes }).logChanged 0
  match loc with
  | .wax g => (s.modWx fun w => w.kill g).trimRing
  | .nand _ => s.settleBands

/-- The spill page cache gives up its oldest pages beyond its region; dirty ones are written back (R126). -/
def State.spillTrim (s : State) : State :=
  let n := s.ix.spillPages
  if s.ix.spillCache.length ≤ n then s
  else (s.modIx fun x => { x with spillCache := x.spillCache.take n }).placeInternal (((s.ix.spillCache.drop n).filter (·.2)).map fun p => .spill p.1)

/-- What the read cache keeps of a list of NAND records, newest first: what its region holds, 4 GiB, with the 1 GiB of the spill page
cache while nothing is spilled, or half of that after the loss of a stack (R113, R133). -/
def State.readCacheKeeps (s : State) (l : List Nat) : List Nat :=
  let cap := (if s.ix.spill.isEmpty then 5 else 4) * 2 ^ 30 / (if s.ix.half then 2 else 1)
  let size (x : Nat) : Nat := ((s.md.nand.lookup x).map (·.bytes)).getD 0
  (l.foldl (fun (acc : List Nat × Nat) x => if size x ≤ acc.2 then (acc.1 ++ [x], acc.2 - size x) else (acc.1, 0)) ([], cap)).1

/-- A change of the index takes effect: the spill page cache keeps to its region. The read cache gives that region back when the first key
spills, and the spill page cache leaves it, its dirty pages written back, once nothing is spilled (R113, R126). -/
def State.index (s : State) (f : Index → Index) : State :=
  let t := s.modIx f
  if t.ix.spill.isEmpty then
    t.whenB (!t.ix.spillCache.isEmpty) fun t =>
      (t.modIx fun x => { x with spillCache := [] }).placeInternal ((t.ix.spillCache.filter (·.2)).map fun p => .spill p.1)
  else
    (t.whenB s.ix.spill.isEmpty fun t => t.modMd fun m => { m with readCache := t.readCacheKeeps m.readCache }).spillTrim

/-- What the tables keep of a record goes with it: its entries of the key-scope hold table and of the commit time table (R35, R363). -/
def State.forget (s : State) (nsid seq : Nat) : State :=
  (s.modVa fun v => { v with keyHolds := v.keyHolds.filter fun k => !(k.nsid == nsid && k.seq == seq) }).modTm
    fun t => { t with commits := t.commits.filter (·.seq ≠ seq) }

/-- Deletes a key from the index and releases its record, with what the tables keep of it (R35, R124, R363). -/
def State.removeKey (s : State) (nsid : Nat) (key : Key) : State :=
  match s.find nsid key with
  | some f => ((s.index fun x => x.remove (s.hash nsid key) f.place).forget nsid f.record.seq).dropRecord f.slot.loc f.record.bytes
  | none => s

/-- The slot of a record just committed in staging (R117, R164). -/
def State.newSlot (s : State) (loc : Loc) (r : StoredRec) (twinPend : Bool) : Slot :=
  { fp := hashFp (s.hash r.nsid r.key), loc := loc, lenClass := BitVec.ofNat 12 (lenClass r.granules),
    stagedCopy := (match loc with | .wax g => decide (g ∈ s.wx.copies) | .nand _ => false), twinPend := twinPend, fine := false, hold := false,
    long := decide (16 < r.key.length) }

/-- The index update of a store: the slot is replaced, releasing the previous record, or inserted (R122, R156 step 6). A record of a Ledger
namespace that a replicated store or a resynchronisation replaces takes its holds and its commit time with it (R35, R363). -/
def State.putKey (s : State) (loc : Loc) (r : StoredRec) (twinPend : Bool) : State :=
  let h := s.hash r.nsid r.key
  let t := s.newSlot loc r twinPend
  let s' := match s.find r.nsid r.key with
    | some f => ((s.index fun x => x.setSlot h t f.place).forget r.nsid f.record.seq).dropRecord f.slot.loc f.record.bytes
    | none => s.index fun x => x.insert h t
  (s'.modMd fun m => { m with liveBytes := m.liveBytes + r.bytes }).logChanged 0

/-- Every slot becomes `f` of itself; the pages of the slots that change have changed since the last checkpoint (R129). -/
def Index.mapSlots (x : Index) (f : Slot → Slot) : Index :=
  let g (o : Option Slot) : Option Slot := o.map f
  let gb (b : Bucket) : Bucket := { b with s0 := g b.s0, s1 := g b.s1, s2 := g b.s2, s3 := g b.s3, s4 := g b.s4 }
  let hit := ((x.buckets.filter fun p => gb p.2 != p.2).map fun p => x.page (.prim p.1))
    ++ (x.pool.filter fun p => gb p.2 != p.2).map fun p => x.page (.pool p.1)
  let spilt := (x.spill.filter fun e => f e.slot != e.slot).map (·.bucket / 64)
  spilt.foldl (fun y p => y.spillTouch p true)
    { x with buckets := x.buckets.map fun (n, b) => (n, gb b), pool := x.pool.map fun (n, b) => (n, gb b),
             spill := x.spill.map fun e => { e with slot := f e.slot },
             dirtyPages := (hit.filter fun p => p ∉ x.dirtyPages).dedup ++ x.dirtyPages }

/-- A relocation updates a slot only if SLOT_LOC still holds the location it moved from (R123). -/
def Index.relocate (x : Index) (old : Loc) (f : Slot → Slot) : Index := x.mapSlots fun t => if t.loc = old then f t else t

/-- Flips bits of the slot of a key. -/
def State.modSlot (s : State) (nsid : Nat) (key : Key) (f : Slot → Slot) : State :=
  match s.find nsid key with
  | some r => s.index fun x => x.setSlot (s.hash nsid key) (f r.slot) r.place
  | none => s

/-- An error of a class is counted; the count saturates (R207). -/
def State.countErrs (s : State) (i n : Nat) : State :=
  (s.modMd fun m => { m with err := modAt m.err i fun k => min 0xFFFFFFFF (k + n) }).logChanged 0
def State.countErr (s : State) (i : Nat) : State := s.countErrs i 1

/-- Codewords of 4 KiB that the `n` granules at an address of a band span (R175, R182). -/
def State.codewords (s : State) (g n : Nat) : Nat :=
  match (s.md.bandOf g).bind fun b => lanePos b.recordLanes g with
  | some p => (p + n - 1) / fineGranules - p / fineGranules + 1
  | none => 1

/-- Codewords that needed at most a stage, each counted in its class: how many stopped at which stage is free (log 9, R207). -/
def State.countUpTo : Nat → Nat → State → State
  | 0, k, s => s.countErrs 0 k
  | n + 1, k, s =>
    let m := (Config.freeWord s.free).toNat % (k + 1)
    (s.spend.countErrs (n + 1) m).countUpTo n (k - m)

/-- The codewords of a read that ended at a stage are counted: at stage 0 all of them; at a later one at least one needed it, and how many
did is free (R188, R207, log 9). -/
def State.countRead (s : State) (stage k : Nat) : State :=
  match stage with
  | 0 => s.countErrs 0 k
  | n + 1 =>
    let m := 1 + (Config.freeWord s.free).toNat % k
    (s.spend.countErrs (n + 1) m).countUpTo n (k - m)

/-- What a lookup of a key leaves behind: its fingerprint collisions are counted, and where it reaches the spill table the pages it
reads come into the spill page cache (R121, R126, R207). -/
def State.look (s : State) (nsid : Nat) (key : Key) : State :=
  let h := s.hash nsid key
  let c := s.confirms nsid key
  let n := s.ix.collisions h c
  let s := s.whenB (n != 0) fun s => s.countErrs 13 n
  s.whenB (s.ix.reachesSpill h c) fun s => s.index fun x => (x.spillTouch (spillCand2 h / 64) false).spillTouch (spillCand1 h / 64) false

/-- The read cache takes a record, as its newest, and keeps what its region holds (R113, R133). -/
def State.cacheRecord (s : State) (g : Nat) : State :=
  s.modMd fun m => { m with readCache := s.readCacheKeeps (g :: m.readCache.filter (· ≠ g)) }

/-- Re-inserts every key into the geometry in force, spilling beyond the resident count; a staging copy that has gone is marked no more. The
pages that held keys have changed, those that the rebuild leaves empty too, as far as the geometry has them (R117, R129, R133 step 4). -/
def State.reinsert (s : State) (half : Bool) : State :=
  let mark (t : Slot) : Slot := { t with stagedCopy := t.stagedCopy && (match t.loc with | .wax g => decide (g ∈ s.wx.copies) | .nand _ => false) }
  let all := s.ix.all.filterMap fun (_, t) => (s.recAt t.loc).map fun r => (s.hash r.nsid r.key, mark t)
  s.index fun x =>
    let was := x.buckets.map (fun p => x.page (.prim p.1)) ++ x.pool.map (fun p => x.page (.pool p.1)) ++ x.dirtyPages
    let y : Index := { x with half := half, buckets := [], pool := [], spill := [], resident := 0, spillCache := [] }
    all.foldl (fun y (h, t) => y.insert h t) { y with dirtyPages := (was.filter fun p => decide (p < y.rows + y.poolPart)).dedup }

end Sys2Proof.Machine
end

