-- ==== Sys2Proof/Machine/Cam.lean ====
section
/-! DEFINITION. The policy CAM: entries and lookup keys, the winning entry, loading rules, moves, soft errors, hit
counters and the CAM messages (chapter 08), with the choice between the local and the global winner (R248, R318). -/

namespace Sys2Proof.Machine

/-! ## Entry records (R243) -/

def CamEntry.valid (e : CamEntry) : Bool := e.flags.getLsbD 0
def CamEntry.isGlobal (e : CamEntry) : Bool := e.flags.getLsbD 1

/-- Bytes 0 to 59 of the record, CE_FLAGS.DISABLED taken as 0 (R243). -/
def CamEntry.body (e : CamEntry) : Bytes :=
  leBytes 4 e.nsid.toNat ++ leBytes 4 e.nsidMask.toNat ++ beBytes 16 e.pfx.toNat ++ beBytes 16 e.pfxMask.toNat
    ++ leBytes 1 e.op.toNat ++ leBytes 1 e.opMask.toNat ++ leBytes 2 e.hgroup.toNat ++ leBytes 2 e.hgroupMask.toNat
    ++ leBytes 2 e.prio.toNat ++ leBytes 2 (e.flags &&& 0xFFFB#16).toNat ++ leBytes 2 e.rsvd.toNat
    ++ leBytes 8 e.action.toNat

/-- The CRC computed over an entry (R243, R256). -/
def CamEntry.computed (e : CamEntry) : BitVec 32 := crc32c e.body

/-- The all-zero record with CE_FLAGS.VALID 0 and a correct CE_CRC (R256). -/
def CamEntry.blank : CamEntry := { crc := 0x5A0B0531#32 }

/-- The record that 64 bytes spell (R243). -/
def camOfBytes (p : Bytes) : CamEntry :=
  { nsid := BitVec.ofNat 32 (natAt p 0 4), nsidMask := BitVec.ofNat 32 (natAt p 4 4),
    pfx := BitVec.ofNat 128 (leNat (bytesAt p 8 16).reverse), pfxMask := BitVec.ofNat 128 (leNat (bytesAt p 24 16).reverse),
    op := BitVec.ofNat 8 (natAt p 40 1), opMask := BitVec.ofNat 8 (natAt p 41 1),
    hgroup := BitVec.ofNat 16 (natAt p 42 2), hgroupMask := BitVec.ofNat 16 (natAt p 44 2),
    prio := BitVec.ofNat 16 (natAt p 46 2), flags := BitVec.ofNat 16 (natAt p 48 2),
    rsvd := BitVec.ofNat 16 (natAt p 50 2), action := BitVec.ofNat 64 (natAt p 52 8), crc := BitVec.ofNat 32 (natAt p 60 4) }

/-- The 64 bytes of a record, CE_FLAGS.DISABLED shown (R243, R259). -/
def CamEntry.bytes (e : CamEntry) (disabled : Bool) : Bytes :=
  e.body.take 48 ++ leBytes 2 (e.flags.toNat % 4 + (e.flags.toNat / 8) * 8 + 4 * disabled.toNat) ++ e.body.drop 50
    ++ leBytes 4 e.crc.toNat

def Cam.entry (c : Cam) (a : Nat) : CamEntry := (c.entries.lookup a).getD CamEntry.blank
def Cam.copyAt (c : Cam) (a : Nat) : CamEntry := (c.copy.lookup a).getD CamEntry.blank
def Cam.dirAt (c : Cam) (a : Nat) : CamDir := (c.dir.lookup a).getD { crc := CamEntry.blank.crc }
def Cam.counter (c : Cam) (a : Nat) : Nat := (c.counters.lookup a).getD 0

/-- The directory record that a message leaves for an entry (R256). -/
def CamEntry.dir (e : CamEntry) : CamDir :=
  { nsid := e.nsid, nsidMask := e.nsidMask, crc := e.crc, valid := e.valid, isGlobal := e.isGlobal }

/-! ## Lookup keys and the winning entry (R242, R245) -/

/-- The lookup key of a command (R242). -/
structure LKey where
  nsid : BitVec 32
  pfx : BitVec 128
  op : BitVec 8
  hgroup : BitVec 16
  deriving DecidableEq, Repr

/-- The key prefix: bytes 0 to 15, byte 0 most significant, padded with 00h (R17, R242). -/
def keyPrefix (k : Key) : BitVec 128 := BitVec.ofNat 128 (leNat (padTo 16 k).reverse)

/-- The 192 bits of a lookup key (R242). -/
def LKey.bits (k : LKey) : BitVec 192 :=
  ((k.nsid ++ k.pfx) ++ (k.op ++ k.hgroup ++ (0 : BitVec 8)) : BitVec (32 + 128 + (8 + 16 + 8))).setWidth 192

def lkeyOfBits (b : BitVec 192) : LKey :=
  { nsid := b.extractLsb' 160 32, pfx := b.extractLsb' 32 128, op := b.extractLsb' 24 8, hgroup := b.extractLsb' 8 16 }

/-- An entry matches when it is valid and every compared bit equals the key (R243, R245). -/
def CamEntry.hits (e : CamEntry) (k : LKey) : Bool :=
  e.valid && (k.nsid ^^^ e.nsid) &&& e.nsidMask == 0 && (k.pfx ^^^ e.pfx) &&& e.pfxMask == 0
    && (k.op ^^^ e.op) &&& e.opMask == 0 && (k.hgroup ^^^ e.hgroup) &&& e.hgroupMask == 0

/-- The better of two entries: the lower priority number, then the lower address (R245). -/
def better (a b : Nat × CamEntry) : Nat × CamEntry :=
  if b.2.prio.toNat < a.2.prio.toNat ∨ (b.2.prio = a.2.prio ∧ b.1 < a.1) then b else a

/-- The winner among the local (or the global) entries of this drive (R245, R248). -/
def Cam.winner (c : Cam) (global : Bool) (k : LKey) : Option (Nat × CamEntry) :=
  (c.entries.filter fun p => p.2.isGlobal == global && p.2.hits k).foldl
    (fun acc p => some (match acc with | some a => better a p | none => p)) none

/-! ## Soft errors (R255 to R257) -/

/-- An error of the action word that its ECC cannot correct: more than one bit is wrong (R249, R541). -/
def Cam.actBad (c : Cam) (a : Nat) : Bool := decide (2 ≤ c.actErr.countP (·.1 == a))

/-- A hit on an address is a parity failure: of its entry, or of its action word (R255, R541). -/
def Cam.hitFails (c : Cam) (a : Nat) : Bool := decide (a ∈ c.parityBad) || c.actBad a

/-- What array and copy hold of a disabled address: the entry set invalid (R257). -/
def CamEntry.off (e : CamEntry) : CamEntry := { e with flags := e.flags &&& 0xFFFE#16 }

/-- An entry is rewritten in the array, its parity and its action word right again. -/
def Cam.rewrite (c : Cam) (a : Nat) (e : CamEntry) : Cam :=
  { c with entries := setAssoc a e c.entries, parityBad := c.parityBad.filter (· ≠ a), actErr := c.actErr.filter (·.1 ≠ a) }

/-- The copy of an entry is rewritten. -/
def Cam.recopy (c : Cam) (a : Nat) (e : CamEntry) : Cam := { c with copy := setAssoc a e c.copy, copyBad := c.copyBad.filter (· ≠ a) }

/-- An address is marked disabled in the directory and in the rule image, and invalid in the array and its copy (R257). -/
def Cam.disable (c : Cam) (a : Nat) : Cam :=
  let d := c.dirAt a
  let e := (c.entry a).off
  { (c.rewrite a e).recopy a e with
    dir := setAssoc a { d with disabled := true } c.dir,
    image := c.image.map fun (b, r, g) => if b = a then (b, r, { g with disabled := true }) else (b, r, g) }

/-- The disabled global entry of an address is announced on the chain (R257, R314, R320). -/
def State.announceDisabled (s : State) (a : Nat) (d : CamDir) : State :=
  s.modSk fun k =>
    { k with outbox := k.outbox ++ [(7, 0x80, [a, d.nsid.toNat, d.nsidMask.toNat])],
             disabledGlobal := k.disabledGlobal.filter (fun (p, b, _, _) => !(p == s.pw.pos && b == a)) ++ [(s.pw.pos, a, d.nsid, d.nsidMask)],
             flags := k.flags ||| 8 }

/-- Steps 1 to 3 of R256 for one address whose CAM entry and copy differ or whose copy cannot be read. One that is disabled stays so
(R257). -/
def State.camRepair (s : State) (a : Nat) : State :=
  let c := s.cam
  let d := c.dirAt a
  let e := c.entry a
  let k := c.copyAt a
  if d.disabled then s.modCam fun c => c.disable a
  else if a ∉ c.copyBad && k.computed == d.crc then
    (s.modCam fun c => { c.rewrite a k with fromCopy := c.fromCopy + 1 }).event 7 "CAM entry repaired from its copy"
  else if e.computed == d.crc && !c.actBad a then
    (s.modCam fun c => { (c.rewrite a e).recopy a e with toCopy := c.toCopy + 1 }).event 7 "CAM copy repaired from its entry"
  else if d.valid then
    ((s.modCam fun c => c.disable a).event 7 "CAM entry disabled").whenB d.isGlobal fun s => s.announceDisabled a d
  else
    (s.modCam fun c =>
      { (c.rewrite a CamEntry.blank).recopy a CamEntry.blank with
        dir := setAssoc a CamEntry.blank.dir c.dir, fromCopy := c.fromCopy + 1 }).event 7 "CAM entry repaired from its copy"

/-- Hits that fail and repeat at most this often: each repairs one address. -/
def Cam.faults (c : Cam) : Nat := c.parityBad.length + c.actErr.length + 1

/-- A lookup among the entries of one kind; a parity failure of the winner repairs it and looks up again (R255). -/
def State.camLookup : Nat → State → Bool → LKey → State × Option (Nat × CamEntry)
  | 0, s, global, k => (s, s.cam.winner global k)
  | n + 1, s, global, k =>
    match s.cam.winner global k with
    | some w =>
      if s.cam.hitFails w.1 then
        camLookup n ((s.camRepair w.1).modCam fun c => { c with parityHits := c.parityHits + 1 }) global k
      else (s, some w)
    | none => (s, none)

/-- Whether a disabled entry covers a namespace (R257): of this drive, or announced on the chain for a namespace of
stack scope. -/
def State.policyDown (s : State) (nsid : Nat) (stack : Bool) : Bool :=
  let covers (n m : BitVec 32) : Bool := BitVec.ofNat 32 nsid &&& m == n &&& m
  (s.cam.dir.any fun p => p.2.disabled && covers p.2.nsid p.2.nsidMask)
    || (stack && s.sk.disabledGlobal.any fun (_, _, n, m) => covers n m)

/-- The entry's hit counter rises, saturating (R258). -/
def State.countHit (s : State) (a n : Nat) : State :=
  s.modCam fun c => { c with counters := setAssoc a (min (c.counter a + n) 0xFFFFFFFF) c.counters }

/-! ## Global lookups (R248, R315, R318, R322) -/

/-- A stack member: a drive that has joined, until it leaves or is disabled, whatever becomes of its chain and over every start (R308). -/
def Stack.joinedNow (k : Stack) : Bool := k.member || k.st == 2 || k.st == 3

/-- SK_STATE: a member whose drive has started again and has not yet rejoined is a member without chain (R308, R326). -/
def Stack.shown (k : Stack) : Nat := if k.st = 0 ∧ k.member = true then 3 else k.st

/-- A drive makes a global lookup only as a stack member and for a namespace of stack scope (R248, R523). -/
def State.wantsGlobal (s : State) (stackScope : Bool) : Bool := stackScope && s.sk.joinedNow

/-- The replica word of a position and address (R320). -/
def Stack.word (k : Stack) (pos a : Nat) : BitVec 64 := (k.replica.lookup (pos * 65536 + a)).getD 0
def repValid (w : BitVec 64) : Bool := w.getLsbD 32
def repPending (w : BitVec 64) : Bool := w.getLsbD 33
def repPrio (w : BitVec 64) : Nat := (w.extractLsb' 16 16).toNat
def repAction (w : BitVec 64) : ActWord := (w.extractLsb' 0 16).setWidth 64

/-- The replica word of an entry (R320). -/
def CamEntry.word (e : CamEntry) : BitVec 64 :=
  if e.valid && e.isGlobal then (e.action.extractLsb' 0 16).setWidth 64 ||| (e.prio.setWidth 64 <<< 16) ||| 0x100000000#64 else 0

/-- The final winner's action: the lowest of the local and the global winner in the order (priority, position, address);
a local entry ranks at its own drive's position (R248). `true` says that the local entry won. -/
def pickWinner (pos : Nat) (loc : Option (Nat × CamEntry)) (glob : Option (Nat × Nat × BitVec 64)) :
    Option (Bool × Nat × Nat × Nat × ActWord) :=
  match loc, glob with
  | none, none => none
  | some (a, e), none => some (true, pos, a, e.prio.toNat, e.action)
  | none, some (p, a, w) => some (false, p, a, repPrio w, repAction w)
  | some (a, e), some (p, b, w) =>
    let l := (e.prio.toNat, pos, a)
    let g := (repPrio w, p, b)
    if l.1 < g.1 ∨ (l.1 = g.1 ∧ (l.2.1 < g.2.1 ∨ (l.2.1 = g.2.1 ∧ l.2.2 ≤ g.2.2)))
    then some (true, pos, a, e.prio.toNat, e.action) else some (false, p, b, repPrio w, repAction w)

/-- The result cache's entry for a key, valid only at the current epoch (R322). -/
def Stack.cached (k : Stack) (key : BitVec 192) : Option CacheEntry :=
  k.cache.find? fun e => e.key == key && e.epoch == k.epoch.toNat

/-- Four ways of 131,072 sets hold the result cache; the least recently used way is replaced (R322). -/
def State.cacheEnter (s : State) (e : CacheEntry) : State :=
  s.modSk fun k =>
    let set := Config.cacheSet s.ix.seed e.key
    let others := k.cache.filter (·.key ≠ e.key)
    let mine := (others.filter fun x => Config.cacheSet s.ix.seed x.key == set).take 3
    { k with cache := e :: (mine ++ others.filter fun x => Config.cacheSet s.ix.seed x.key != set) }

/-- A way that serves a result becomes the most recently used (R322). -/
def Stack.touch (k : Stack) (key : BitVec 192) : Stack := { k with cache := k.cache.filter (·.key == key) ++ k.cache.filter (·.key != key) }

/-- The result cache is emptied: the epoch rises (R322). -/
def Stack.raiseEpoch (k : Stack) : Stack := { k with epoch := k.epoch + 1 }

/-- What the policy says of a command: unavailable, denied, an action, or that the chain must be asked, with the local winner that the
command keeps meanwhile (R246 to R248). -/
inductive Policy where
  | unavailable | denied | allowed (a : ActWord) | ask (loc : Option (Nat × CamEntry))
  deriving DecidableEq, Repr

/-- ACT_ALLOW (R249). -/
def actAllow (a : ActWord) : Bool := a.getLsbD 15
def actTwin (a : ActWord) : Nat := (a.extractLsb' 0 2).toNat
def actClass (a : ActWord) : Nat := (a.extractLsb' 2 6).toNat
def actReceipt (a : ActWord) : Bool := a.getLsbD 8
def actHint (a : ActWord) : BitVec 2 := a.extractLsb' 9 2
def actRate (a : ActWord) : Nat := (a.extractLsb' 11 4).toNat

def policyOf (w : Option (Bool × Nat × Nat × Nat × ActWord)) : Policy :=
  match w with
  | some (_, _, _, _, a) => if actAllow a then .allowed a else .denied
  | none => .denied

/-- The entry that wins a local lookup counts it (R258). -/
def State.countLocal (s : State) : Option (Nat × CamEntry) → State
  | some (a, _) => s.countHit a 1
  | none => s

/-- The entry that wins an arbitration counts it: this drive's at once, another's in HITS (R258, R318). -/
def State.countGlobal (s : State) : Option (Nat × Nat) → State
  | some (p, a) => if p = s.pw.pos then s.countHit a 1 else s.modSk fun k => { k with wins := (p, a, 1) :: k.wins }
  | none => s

/-- The global result that the cache gives for a key: none where it holds none or where the replica word of its winner is not valid or
is pending, so that the chain must be asked (R318, R322). -/
def Stack.fromCache (k : Stack) (key : BitVec 192) : Option (Option (Nat × Nat × BitVec 64)) :=
  match (k.cached key).map (·.winner) with
  | none => none
  | some none => some none
  | some (some (p, a)) => let w := k.word p a; if repValid w && !repPending w then some (some (p, a, w)) else none

/-- A global result served from the cache counts there, and its way is the most recently used (R258, R322, R326). -/
def State.countCached (s : State) (key : BitVec 192) : State :=
  (s.modSk fun x => { x.touch key with cacheHits := x.cacheHits + 1 }).modCam fun c => { c with cacheHits := c.cacheHits + 1 }

/-- The policy of a command with its lookup key. A disabling that its own lookup brings about acts on it (R246, R248, R257, R315, R322). -/
def State.policy (s : State) (k : LKey) (stackScope : Bool) : State × Policy :=
  let down (s : State) : Bool := s.policyDown k.nsid.toNat (s.wantsGlobal stackScope)
  if down s then (s, .unavailable)
  else
    let (s, loc) := s.camLookup s.cam.faults false k
    if down s then (s, .unavailable)
    else
      let s := s.countLocal loc
      if !s.wantsGlobal stackScope then (s, policyOf (pickWinner s.pw.pos loc none))
      else match s.sk.fromCache k.bits with
        | none => (s, .ask loc)
        | some g => (s.countCached k.bits, policyOf (pickWinner s.pw.pos loc g))

/-- The policy once the chain has answered with its winner, beside the local winner that the command has kept (R247, R248, R318). -/
def State.policyChain (s : State) (loc : Option (Nat × CamEntry)) (glob : Option (Nat × Nat)) : Policy :=
  policyOf (pickWinner s.pw.pos loc (glob.map fun (p, a) => (p, a, s.sk.word p a)))

/-! ## Loading rules (R244, R250, R252) -/

def State.nsOf (s : State) (nsid : Nat) : Option Ns := s.va.ns.find? (·.nsid == nsid)
def State.modNs (s : State) (nsid : Nat) (f : Ns → Ns) : State :=
  s.modVa fun v => { v with ns := v.ns.map fun n => if n.nsid == nsid then f n else n }

/-- Whether an entry can match the STORE class (R250). -/
def CamEntry.canStore (e : CamEntry) : Bool := e.valid && (1 &&& e.opMask) == e.op

def CamEntry.exact (e : CamEntry) : Bool := e.nsidMask == 0xFFFFFFFF#32

/-- No value bit is set under a mask bit of 0, and the reserved fields are 0 (R244, R250 check 03h). -/
def CamEntry.tidy (e : CamEntry) : Bool :=
  e.flags.toNat < 4 && e.rsvd == 0 && e.action.toNat < 65536 && e.nsid &&& ~~~e.nsidMask == 0
    && e.pfx &&& ~~~e.pfxMask == 0 && e.op &&& ~~~e.opMask == 0 && e.hgroup &&& ~~~e.hgroupMask == 0

def levelOfCode : Nat → Level
  | 0 => .loc
  | 1 => .sync
  | _ => .async
def levelCode : Level → Nat
  | .loc => 0
  | .sync => 1
  | .async => 2

/-- The level in force for a namespace: the levels a message has fixed so far, then the namespace's own (R252). -/
def levelNow (s : State) (fixed : List (Nat × Level)) (nsid : Nat) : Option Level :=
  match fixed.lookup nsid with
  | some l => some l
  | none => (s.nsOf nsid).bind (·.level)

/-- An entry that binds the level of its namespace (R252); a Mirror namespace has none to bind. -/
def bindsLevel (s : State) (e : CamEntry) : Bool :=
  e.canStore && e.exact && (match s.nsOf e.nsid.toNat with | some n => n.type != .mirror | none => false)

/-- The reason of the first check that a record fails, in the order of R250 from check 02h. -/
def camCheck (s : State) (fixed : List (Nat × Level)) (e : CamEntry) : Option Nat :=
  if e.crc ≠ e.computed then some 2
  else if !e.tidy then some 3
  else if e.opMask == 0xFF#8 && !(1 ≤ e.op.toNat && e.op.toNat ≤ 9) then some 4
  else if actTwin e.action == 3 || actHint e.action == 3 then some 5
  else if (s.va.retention.getD (actClass e.action) none).isNone then some 6
  else if e.exact && (s.nsOf e.nsid.toNat).isNone then some 7
  else if e.canStore && actAllow e.action && !(e.exact && !e.isGlobal) then some 8
  else if bindsLevel s e && (match levelNow s fixed e.nsid.toNat with
      | some l => levelCode l != actTwin e.action
      | none => false) then some 9
  else if e.isGlobal && !s.sk.joinedNow then some 10
  else none

/-- The byte of a record at which the field that fails a check stands: for check 03h the first of those that fail, for 08h
the mask before the flags (R243, R250, R403). -/
def camField (e : CamEntry) : Nat → Nat
  | 2 => 60
  | 3 =>
    if e.nsid &&& ~~~e.nsidMask != 0 then 0
    else if e.pfx &&& ~~~e.pfxMask != 0 then 8
    else if e.op &&& ~~~e.opMask != 0 then 40
    else if e.hgroup &&& ~~~e.hgroupMask != 0 then 42
    else if 4 ≤ e.flags.toNat then 48
    else if e.rsvd != 0 then 50 else 52
  | 4 => 40
  | 7 => 0
  | 8 => if e.exact then 48 else 4
  | 10 => 48
  | _ => 52

/-- The field of an address range that fails: the first address where it is itself beyond the CAM, else the count (R259,
R403). -/
def rangeField (first count : Nat) : Nat := if 65535 < first then 0 else count

/-- The checks over the records of one message: the first failing record and its reason, or the levels it fixes (R250,
R252). -/
def camChecks (s : State) : List (Nat × CamEntry) → List (Nat × Level) → Except (Nat × Nat) (List (Nat × Level))
  | [], fixed => .ok fixed
  | (i, e) :: t, fixed =>
    match camCheck s fixed e with
    | some r => .error (i, r)
    | none =>
      camChecks s t (if bindsLevel s e then setAssoc e.nsid.toNat (levelOfCode (actTwin e.action)) fixed else fixed)

/-- The records of a CAM.WRITE payload with their addresses. -/
def camRecords (p : Bytes) : List (Nat × CamEntry) :=
  (List.range (natAt p 4 4)).map fun i => (natAt p 0 4 + i, camOfBytes (bytesAt p (8 + 64 * i) 64))

/-- What the checks of R250 say of the records of a CAM.WRITE: the first that fails and its reason. -/
def State.camRefusal (s : State) (p : Bytes) : Option (Nat × Nat) :=
  match camChecks s ((camRecords p).zipIdx.map fun (r, i) => (i, r.2)) [] with
  | .error x => some x
  | .ok _ => none

/-- The answer to a CAM.WRITE whose record fails a check (R250, R403). -/
def camRefused (p : Bytes) (x : Nat × Nat) : Answer :=
  { badField (8 + 64 * x.1 + camField (camOfBytes (bytesAt p (8 + 64 * x.1) 64)) x.2) x.2 with body := [leBytes 4 x.1 ++ leBytes 1 x.2] }

/-- One entry write: array, action word, copy, directory and rule image; the counter is set (R247, R251, R256, R258). -/
def Cam.store (c : Cam) (a : Nat) (e : CamEntry) (d : CamDir) (count : Nat) : Cam :=
  { c with entries := setAssoc a e c.entries, copy := setAssoc a e c.copy, dir := setAssoc a d c.dir,
           image := setAssoc a (e, d) c.image, counters := setAssoc a count c.counters,
           parityBad := c.parityBad.filter (· ≠ a), copyBad := c.copyBad.filter (· ≠ a), actErr := c.actErr.filter (·.1 ≠ a) }

/-- The address is no longer announced as disabled (R257, R320). -/
def Stack.undisable (k : Stack) (pos a : Nat) : Stack :=
  let l := k.disabledGlobal.filter fun (p, b, _, _) => !(p == pos && b == a)
  { k with disabledGlobal := l, flags := if l.isEmpty then k.flags &&& 0xF7 else k.flags }

def State.camStore (s : State) (a : Nat) (e : CamEntry) : State :=
  (s.modCam fun c => c.store a e e.dir 0).modSk fun k => k.undisable s.pw.pos a

/-- One copy of CAM.COPY, the disabled state carried with the entry and announced if it is global (R254). DESIGN CHOICE (log 42): of a source
with a soft error that nothing has repaired, what the array holds is copied, with the directory's CRC. -/
def State.camCopy1 (s : State) (src dst : Nat) : State :=
  let d := s.cam.dirAt src
  let s := s.modCam fun c => c.store dst (c.entry src) d (c.counter src)
  if d.disabled && d.isGlobal then s.announceDisabled dst d
  else s.modSk fun k => k.undisable s.pw.pos dst

/-- The order of CAM.COPY: the highest entry first when the destination is above the source (R254). -/
def copyOrder (src dst n : Nat) : List (Nat × Nat) :=
  let l := (List.range n).map fun i => (src + i, dst + i)
  if src < dst then l.reverse else l

/-- The ANA group of a namespace (R265). -/
def Ns.group (n : Ns) : Nat :=
  if n.type == .mirror then 4
  else match n.level with
    | some .sync => 1
    | some .async => 2
    | _ => 3

/-- Fixes a namespace's level, with an ANA Change notice when it moves to another group (R252, R265). -/
def State.fixLevel (s : State) (nsid : Nat) (l : Level) : State :=
  let moves := (s.nsOf nsid).any fun n => { n with level := some l : Ns }.group != n.group
  (s.modNs nsid fun x => { x with level := some l }).whenB moves fun s => s.notifyAll .anaChange

/-- A twin that is reached learns of a level that is fixed here (R263). -/
def State.tellLevel (s : State) (nsid : Nat) (l : Level) : State :=
  s.whenB (s.tw.role != .solo && s.tw.reached && !s.tw.lost) fun s => s.emit (.twinLevel nsid (levelCode l))

/-- The change that a CAM.WRITE (1), CAM.INVALIDATE (3) or CAM.COPY (4) makes (R250, R254, R258). -/
def State.camApply (s : State) (op : Nat) (p : Bytes) : State :=
  match op with
  | 1 =>
    let rs := camRecords p
    let s := match camChecks s (rs.zipIdx.map fun (r, i) => (i, r.2)) [] with
      | .ok fixed => fixed.foldl (fun s (n, l) => (s.fixLevel n l).tellLevel n l) s
      | .error _ => s
    rs.foldl (fun s (a, e) => s.camStore a e) s
  | 3 => (List.range (natAt p 4 4)).foldl (fun s i => s.camStore (natAt p 0 4 + i) CamEntry.blank) s
  | _ => (copyOrder (natAt p 0 4) (natAt p 4 4) (natAt p 8 4)).foldl (fun s (a, b) => s.camCopy1 a b) s

/-- The addresses a change writes. -/
def camAddrs (op : Nat) (p : Bytes) : List Nat :=
  match op with
  | 1 | 3 => (List.range (natAt p 4 4)).map (natAt p 0 4 + ·)
  | _ => (List.range (natAt p 8 4)).map (natAt p 4 4 + ·)

/-- Whether a change touches a global entry, or sets or clears CE_FLAGS.GLOBAL (R321). -/
def State.camGlobal (s : State) (op : Nat) (p : Bytes) : Bool :=
  (camAddrs op p).any (fun a => (s.cam.entry a).isGlobal || (s.cam.dirAt a).isGlobal)
    || (op == 1 && (camRecords p).any fun r => r.2.isGlobal)
    || (op == 4 && (List.range (natAt p 8 4)).any fun i => (s.cam.entry (natAt p 0 4 + i)).isGlobal)

/-- Chain messages carry at most 512 items (R314). -/
def chunks512 {α : Type} : Nat → List α → List (List α)
  | 0, l => [l]
  | n + 1, l => if l.length ≤ 512 then [l] else l.take 512 :: chunks512 n (l.drop 512)

/-- The SET messages with the present replica words of addresses of this drive (R320, R321). -/
def State.setMsgs (s : State) (as : List Nat) : List (Nat × Nat × List Nat) :=
  (chunks512 (as.length / 512) as).map fun l => (5, 0x80, l.flatMap fun a => [a, (s.cam.entry a).word.toNat])

/-- The PEND messages for addresses of this drive (R321). -/
def pendMsgs (as : List Nat) : List (Nat × Nat × List Nat) := (chunks512 (as.length / 512) as).map fun l => (4, 0x80, l)

/-- A change of rules: while one runs a second is refused (R259); a change of global entries goes over the chain, where
the drive sends PEND and the message waits (R321); any other is made at once. DESIGN CHOICE (log 42): a second one that also fails a check of
its fields or records is answered for that, and not as busy. -/
def camChange (op : Nat) (s : State) (m : MsgReq) : State × Option Answer :=
  if s.sk.change.isSome then saying s (refuse .busy)
  else if s.camGlobal op m.payload then
    let as := camAddrs op m.payload
    (s.modSk fun k => { k with change := some { addrs := as, written := false, setSent := false, req := m, op := op },
                               outbox := k.outbox ++ pendMsgs as }, none)
  else doing (s.camApply op m.payload) {}

/-! ## CAM messages (R259) -/

/-- CAM.WRITE. DESIGN CHOICE (log 42): check 01h is one of the whole message, and its reply names record 0 (R250). -/
def hCamWrite : Handler := fun s m =>
  let p := m.payload
  let n := natAt p 4 4
  if p.length < 8 then saying s (refuse .length)
  else if n = 0 ∨ 63 < n then saying s (badField 4)
  else if p.length ≠ 8 + 64 * n then saying s (refuse .length)
  else if 65536 < natAt p 0 4 + n then
    saying s { badField (rangeField (natAt p 0 4) 4) 1 with body := [leBytes 4 0 ++ leBytes 1 1] }
  else
    match s.camRefusal p with
    | some x => saying s (camRefused p x)
    | none => camChange 1 s m

def hCamRead : Handler := fun s m =>
  let p := m.payload
  if p.length ≠ 8 then saying s (refuse .length)
  else if natAt p 4 4 = 0 ∨ 63 < natAt p 4 4 ∨ 65536 < natAt p 0 4 + natAt p 4 4 then saying s (badField (rangeField (natAt p 0 4) 4))
  else saying s (answer ((List.range (natAt p 4 4)).flatMap fun i =>
    (s.cam.entry (natAt p 0 4 + i)).bytes (s.cam.dirAt (natAt p 0 4 + i)).disabled))

def hCamInvalidate : Handler := fun s m =>
  let p := m.payload
  if p.length ≠ 8 then saying s (refuse .length)
  else if natAt p 4 4 = 0 ∨ 65536 < natAt p 0 4 + natAt p 4 4 then saying s (badField (rangeField (natAt p 0 4) 4))
  else camChange 3 s m

def hCamCopy : Handler := fun s m =>
  let p := m.payload
  if p.length ≠ 12 then saying s (refuse .length)
  else if natAt p 8 4 = 0 ∨ 65536 < natAt p 0 4 + natAt p 8 4 ∨ 65536 < natAt p 4 4 + natAt p 8 4 then
    saying s (badField (if 65535 < natAt p 0 4 then 0 else if 65535 < natAt p 4 4 then 4 else 8))
  else camChange 4 s m

def hCamCounters : Handler := fun s m =>
  let p := m.payload
  let a := natAt p 0 4
  let n := natAt p 4 4
  if p.length ≠ 9 then saying s (refuse .length)
  else if n = 0 ∨ 1022 < n ∨ 65536 < a + n then saying s (badField (rangeField a 4))
  else if 1 < natAt p 8 1 then saying s (badField 8)
  else
    let body := (List.range n).flatMap fun i => leBytes 4 (s.cam.counter (a + i))
    let t := if natAt p 8 1 = 1 then
        s.modCam fun c => { c with counters := c.counters.filter fun (b, _) => !(decide (a ≤ b) && decide (b < a + n)) }
      else s
    doing t (answer body)

/-- Addresses of disabled entries, lowest first. -/
def Cam.disabledAt (c : Cam) : List Nat := ((c.dir.filter (·.2.disabled)).map (·.1)).mergeSort (· ≤ ·)

def hCamStatus : Handler := fun s m =>
  let c := s.cam
  let d := c.disabledAt
  if m.payload ≠ [] then saying s (refuse .length)
  else saying s (answer (leBytes 4 (c.entries.countP (·.2.valid)) ++ leBytes 4 d.length
    ++ (d.take 256).flatMap (leBytes 4 ·) ++ leBytes 8 c.fromCopy ++ leBytes 8 c.toCopy ++ leBytes 8 c.parityHits
    ++ leBytes 8 c.lastSweep ++ leBytes 8 c.cacheHits))

/-- The reply of CAM.LOOKUP: winner address, priority, chain position, action word; or no match (R259). -/
def lookupReply (w : Option (Bool × Nat × Nat × Nat × ActWord)) : Answer :=
  match w with
  | some (_, p, a, pr, act) => answer (leBytes 4 a ++ leBytes 2 pr ++ leBytes 1 p ++ leBytes 1 1 ++ leBytes 8 act.toNat)
  | none => answer (List.replicate 16 0)

/-- CAM.LOOKUP counts nothing (R258); its hit is checked as any other (R255); for a namespace of stack scope on a member it asks the chain
like a command. -/
def hCamLookup : Handler := fun s m =>
  let p := m.payload
  if p.length ≠ 24 then saying s (refuse .length)
  else if natAt p 0 1 ≠ 0 then saying s (badField 0)
  else
    let b := BitVec.ofNat 192 (leNat p)
    let k := lkeyOfBits b
    let scope := (s.nsOf k.nsid.toNat).any (·.stackScope)
    let (s, loc) := s.camLookup s.cam.faults false k
    if !s.wantsGlobal scope then saying s (lookupReply (pickWinner s.pw.pos loc none))
    else
      match s.sk.fromCache b with
      | some g => saying (s.modSk fun k => k.touch b) (lookupReply (pickWinner s.pw.pos loc g))
      | none =>
        if !s.sk.ringUp then saying s (refuse .busy)
        else
          (s.modSk fun x =>
            if x.pending.any (·.key == b) then
              { x with pending := x.pending.map fun g => if g.key == b then { g with msgs := g.msgs ++ [m] } else g }
            else { x with pending := x.pending ++ [{ key := b, gen := x.gen.toNat, epoch := x.epoch.toNat, inFlight := false, cmds := [], msgs := [m] }] },
           none)

def hCamNsInfo : Handler := fun s m =>
  let p := m.payload
  if p.length ≠ 6 then saying s (refuse .length)
  else
    match s.nsOf (natAt p 0 4) with
    | none => saying s (badField 0)
    | some n =>
      if 1 < natAt p 4 1 then saying s (badField 4)
      else if 1 < natAt p 5 1 then saying s (badField 5)
      else
        let set := natAt p 4 1 == 1
        let scope := natAt p 5 1 == 1
        if set && scope && !s.sk.joinedNow then saying s (badField 5)
        else
          let now := if set then scope else n.stackScope
          let body := leBytes 1 now.toNat ++ leBytes 1 (match n.level with | some l => levelCode l | none => 255)
          doing (if set then s.modNs n.nsid fun x => { x with stackScope := scope } else s) (answer body)

/-! ## Meanings -/

/-- CAM.WRITE (R250, R259). -/
def execCamWrite (m : MsgReq) (s : State) : Res := finish s (s.message 0x0D 0x01 hCamWrite m)
/-- CAM.READ (R259). -/
def execCamRead (m : MsgReq) (s : State) : Res := finish s (s.message 0x0D 0x02 hCamRead m)
/-- CAM.INVALIDATE (R258, R259). -/
def execCamInvalidate (m : MsgReq) (s : State) : Res := finish s (s.message 0x0D 0x03 hCamInvalidate m)
/-- CAM.COPY (R254). -/
def execCamCopy (m : MsgReq) (s : State) : Res := finish s (s.message 0x0D 0x04 hCamCopy m)
/-- CAM.COUNTERS (R258, R259). -/
def execCamCounters (m : MsgReq) (s : State) : Res := finish s (s.message 0x0D 0x05 hCamCounters m)
/-- CAM.STATUS (R259). -/
def execCamStatus (m : MsgReq) (s : State) : Res := finish s (s.message 0x0D 0x06 hCamStatus m)
/-- CAM.LOOKUP (R258, R259). -/
def execCamLookup (m : MsgReq) (s : State) : Res := finish s (s.message 0x0D 0x07 hCamLookup m)
/-- CAM.NS_INFO (R259). -/
def execCamNsInfo (m : MsgReq) (s : State) : Res := finish s (s.message 0x0D 0x08 hCamNsInfo m)

/-- Whether the sweep finds an address to repair: its entry and copy differ, or the copy cannot be read (R256). -/
def Cam.differs (c : Cam) (a : Nat) : Bool := a ∈ c.copyBad || c.entry a != c.copyAt a || c.actBad a

/-- The sweep compares every entry with its copy and repairs what differs (R256). -/
def State.camSweep (s : State) : State :=
  let as := ((s.cam.entries.map (·.1) ++ s.cam.copy.map (·.1) ++ s.cam.actErr.map (·.1) ++ s.cam.copyBad).eraseDups).filter s.cam.differs
  (as.foldl State.camRepair s).modCam fun c => { c with lastSweep := s.now }

/-- The sweep runs while the CAM is loaded. -/
def execCamSweep (s : State) : Res := finish s (if s.alive && s.cam.loaded then s.camSweep else s)

/-- An entry with one bit of its key, mask, priority and flags flipped (R541): bits 0 to 415 in record order, from bit 416
on the action word. -/
def CamEntry.flip (e : CamEntry) (bit : Nat) : CamEntry :=
  let b := bit % 480
  let p := e.body ++ leBytes 4 e.crc.toNat
  camOfBytes (p.set (b / 8) ((p.getD (b / 8) 0) ^^^ BitVec.ofNat 8 (2 ^ (b % 8))))

/-- A soft error flips a bit of an entry or of its copy (R255, R541). A flip in the array leaves the parity wrong; one of the action word is
its ECC's matter, which corrects a single bit on every hit and no more. -/
def execCamSoftError (addr bit : Nat) (inCopy : Bool) (s : State) : Res :=
  let x := (addr, bit % 480 - 416)
  whileUp s (
    if inCopy then s.modCam fun c => { c with copy := setAssoc addr ((c.copyAt addr).flip bit) c.copy }
    else if 416 ≤ bit % 480 then
      s.modCam fun c => { c with actErr := if x ∈ c.actErr then c.actErr.filter (· ≠ x) else x :: c.actErr }
    else s.modCam fun c => { c with entries := setAssoc addr ((c.entry addr).flip bit) c.entries,
                                    parityBad := if addr ∈ c.parityBad then c.parityBad.filter (· ≠ addr) else addr :: c.parityBad })

end Sys2Proof.Machine
end

