-- ==== Sys2Proof/Machine/Operands.lean ====
section
/-! DEFINITION. The operands of I/O commands: keys, the ORD flag, options, buffers and data pointers, with the checks of
a command's own fields (R15, R18, R61, R63, R68 to R72, R77, R521 step 6), and its operation class (R41). -/

namespace Sys2Proof.Machine

/-- The commands whose key lies in dwords; the others carry a key block, Flush neither (R68, R71). -/
def IoKind.shortKey : IoKind → Bool
  | .store | .retrieve | .list | .delete | .exist => true
  | _ => false

def IoKind.isFlush : IoKind → Bool
  | .flush => true
  | _ => false

def IoKind.isStore : IoKind → Bool
  | .store | .longStore => true
  | _ => false

def IoKind.isRetrieve : IoKind → Bool
  | .retrieve | .longRetrieve => true
  | _ => false

def IoKind.isDelete : IoKind → Bool
  | .delete | .longDelete => true
  | _ => false

def IoKind.isExist : IoKind → Bool
  | .exist | .longExist => true
  | _ => false

def IoKind.isHold : IoKind → Bool
  | .holdKeyPlace | .holdKeyRelease | .holdNsPlace | .holdNsRelease => true
  | _ => false

def IoKind.nsHold : IoKind → Bool
  | .holdNsPlace | .holdNsRelease => true
  | _ => false

def IoKind.release : IoKind → Bool
  | .holdKeyRelease | .holdNsRelease => true
  | _ => false

/-- Stores, deletes, Secure Delete and Retention Hold: the commands that commit (chapter 03). -/
def IoKind.writes (k : IoKind) : Bool := k.isStore || k.isDelete || k == .secureDelete || k.isHold

/-- The operation class of a command (R41); Flush is not looked up. -/
def IoKind.opClass : IoKind → Nat
  | .store | .longStore => 1
  | .retrieve | .longRetrieve => 2
  | .delete | .longDelete => 3
  | .exist | .longExist => 4
  | .list => 5
  | .filteredList => 6
  | .getReceipt => 7
  | .secureDelete => 8
  | .holdKeyPlace | .holdKeyRelease | .holdNsPlace | .holdNsRelease => 9
  | .flush => 0

/-- KEY_LEN, CDW11[7:0] (R68, R72). -/
def keyLenOf (e : Sqe) : Nat := (e.cdw11.extractLsb' 0 8).toNat

/-- The 16 key bytes of CDW2, CDW3, CDW14 and CDW15 (R69). -/
def dwordKey (e : Sqe) : Bytes :=
  leBytes 4 e.cdw2.toNat ++ leBytes 4 e.cdw3.toNat ++ leBytes 4 e.cdw14.toNat ++ leBytes 4 e.cdw15.toNat

/-- The ORD flag: CDW15[31]; on a short-key command only with a key length of 1 to 15, and never on Flush (R69, R72,
R88). -/
def ordOf (k : IoKind) (e : Sqe) : Bool :=
  if k.isFlush then false
  else if k.shortKey then decide (1 ≤ keyLenOf e) && decide (keyLenOf e ≤ 15) && e.cdw15.getLsbD 31
  else e.cdw15.getLsbD 31

/-- What a command's fields spell. -/
structure Fields where
  key : Key := []
  valueSize : Nat := 0
  ifExists : Bool := false
  ifAbsent : Bool := false
  bufSize : Nat := 0
  progId : Nat := 0
  arg0 : BitVec 32 := 0
  arg1 : BitVec 32 := 0
  epoch : Nat := 0
  leaf : Nat := 0
  tag : Nat := 0
  deriving DecidableEq, Repr

/-- The fields a command spells, taken without checks. -/
def fieldsOf (k : IoKind) (e : Sqe) : Fields :=
  { key := if k.isFlush then [] else if k.shortKey then (dwordKey e).take (keyLenOf e) else e.icd.take (keyLenOf e),
    valueSize := e.cdw10.toNat, ifExists := e.cdw11.getLsbD 8, ifAbsent := e.cdw11.getLsbD 9,
    bufSize := if k == .getReceipt then e.cdw13.toNat else e.cdw10.toNat,
    progId := (e.cdw12.extractLsb' 0 16).toNat, arg0 := e.cdw13, arg1 := e.cdw14,
    epoch := e.cdw10.toNat + 4294967296 * (e.cdw11.extractLsb' 8 8).toNat, leaf := (e.cdw12.extractLsb' 0 23).toNat,
    tag := e.cdw10.toNat }

/-- Key bytes beyond the key length are 00h, the ORD bit aside (R69). -/
def keyTailOk (k : IoKind) (e : Sqe) : Bool :=
  let d := if ordOf k e then e.cdw15.toNat - 2147483648 else e.cdw15.toNat
  allZero ((leBytes 4 e.cdw2.toNat ++ leBytes 4 e.cdw3.toNat ++ leBytes 4 e.cdw14.toNat ++ leBytes 4 d).drop (keyLenOf e))

/-- The reserved fields of the dwords are 0 (R9, R68, R69, R72). -/
def reservedOk (k : IoKind) (e : Sqe) : Bool :=
  let ord0 := e.cdw15 &&& 0x7FFFFFFF#32 == 0
  let up8 := e.cdw11.extractLsb' 8 24 == 0
  let up16 := e.cdw11.extractLsb' 16 16 == 0
  let vend := e.cdw2 == 0 && e.cdw3 == 0 && e.cdw4 == 0 && e.cdw5 == 0 && ord0
  let mid := e.cdw12 == 0 && e.cdw13 == 0
  !e.reservedSet && match k with
    | .flush => e.cdw2 == 0 && e.cdw3 == 0 && e.cdw4 == 0 && e.cdw5 == 0 && e.cdw10 == 0 && e.cdw11 == 0 && mid
        && e.cdw14 == 0 && e.cdw15 == 0
    | .store => e.cdw4 == 0 && e.cdw5 == 0 && mid && up16
    | .retrieve | .list => e.cdw4 == 0 && e.cdw5 == 0 && mid && up8
    | .delete | .exist => e.cdw4 == 0 && e.cdw5 == 0 && e.cdw10 == 0 && mid && up8
    | .longStore => vend && mid && e.cdw14 == 0 && up16
    | .longRetrieve => vend && mid && e.cdw14 == 0 && up8
    | .longDelete | .longExist | .secureDelete => vend && e.cdw10 == 0 && mid && e.cdw14 == 0 && up8
    | .filteredList => vend && up8 && e.cdw12.extractLsb' 16 16 == 0
    | .getReceipt => vend && up16 && e.cdw12.extractLsb' 23 9 == 0 && e.cdw14 == 0
    | .holdKeyPlace | .holdKeyRelease | .holdNsPlace | .holdNsRelease =>
      vend && mid && e.cdw14 == 0 && e.cdw11.extractLsb' 10 22 == 0

/-- The store options: any bit of CDW11[15:8] beyond the two, or both set, is refused (R68, R72). -/
def optionsOk (k : IoKind) (e : Sqe) : Bool :=
  if k.isStore then e.cdw11.extractLsb' 10 6 == 0 && !(e.cdw11.getLsbD 8 && e.cdw11.getLsbD 9) else true

/-- The in-capsule data and key block: exactly 256 bytes where a key block stands, its bytes beyond the key and its
reserved bytes 00h; at most 256 bytes otherwise (R61, R71). -/
def capsuleOk (k : IoKind) (e : Sqe) : Bool :=
  if k.isFlush || k.shortKey then decide (e.icd.length ≤ 256)
  else e.icd.length == 256 && allZero (e.icd.drop (keyLenOf e))

/-- The data pointer: on NVMe/TCP a Transport or an Offset descriptor at offset 0, on NVMe/RDMA up to 16 keyed
descriptors (R61, R63). A key block leaves no room for further in-capsule data (R71). DESIGN CHOICE (log 14): an Offset descriptor at
another offset, or on a command with a key block, is an invalid field, and a Transport descriptor on NVMe/RDMA is of an invalid type. -/
def sglCheck (rdma : Bool) (k : IoKind) (e : Sqe) : Option Status :=
  match e.sgl with
  | .none => none
  | .offset n => if n = 0 && k.shortKey then none else some .invalidField
  | .transport => if rdma then some .sglDescriptorTypeInvalid else none
  | .keyed n _ => if !rdma then some .sglDescriptorTypeInvalid else if 16 < n then some .invalidNumberOfSgl else none
  | .other => some .sglDescriptorTypeInvalid

/-- The key length: 1 to 16 or 1 to 240; a listing also takes 0 (R15, R70, R72). A hold of a namespace takes 0, and a
length that does not fit its scope is an invalid field (R72). -/
def keyLenCheck (k : IoKind) (e : Sqe) : Option Status :=
  let n := keyLenOf e
  match k with
  | .flush => none
  | .list => if n ≤ 16 then none else some .invalidKeySize
  | .store | .retrieve | .delete | .exist => if 1 ≤ n ∧ n ≤ 16 then none else some .invalidKeySize
  | .filteredList => if n ≤ 240 then none else some .invalidKeySize
  | .holdNsPlace | .holdNsRelease => if n = 0 then none else some .invalidField
  | .holdKeyPlace | .holdKeyRelease =>
    if n = 0 then some .invalidField else if n ≤ 240 then none else some .invalidKeySize
  | _ => if 1 ≤ n ∧ n ≤ 240 then none else some .invalidKeySize

/-- The scope and release bits of a Retention Hold are those of its row (R72). -/
def holdBitsOk (k : IoKind) (e : Sqe) : Bool :=
  !k.isHold || (e.cdw11.getLsbD 8 == k.nsHold && e.cdw11.getLsbD 9 == k.release)

/-- The command's own fields, in the order reserved fields, options, value size, key length, and then what depends on
them (R521 step 6, log 14). DESIGN CHOICE (log 14): a store of non-zero size without a data pointer, or with fewer in-capsule bytes than its
size behind an Offset descriptor, is an invalid field. -/
def fieldCheck (rdma : Bool) (k : IoKind) (e : Sqe) : Option Status :=
  if !reservedOk k e || !holdBitsOk k e then some .invalidField
  else if !optionsOk k e then some .invalidField
  else if k.isStore && decide (Figure.maxValue < e.cdw10.toNat) then some .invalidValueSize
  else match keyLenCheck k e with
    | some st => some st
    | none =>
      if !capsuleOk k e then some .invalidField
      else if k.shortKey && !(keyTailOk k e) then some .invalidField
      else if k == .filteredList && decide (e.cdw10.toNat < 252) then some .invalidField
      else if k.isStore && e.cdw10 != 0 && (e.sgl == .none || (e.sgl == .offset 0 && decide (e.icd.length < e.cdw10.toNat))) then some .invalidField
      else sglCheck rdma k e

/-- The lookup key of a command (R17, R41, R72, R242). -/
def lookupKey (k : IoKind) (nsid : Nat) (key : Key) (group : Nat) : LKey :=
  { nsid := BitVec.ofNat 32 nsid,
    pfx := if k == .list || k == .filteredList || k.nsHold then 0 else keyPrefix key,
    op := BitVec.ofNat 8 k.opClass, hgroup := BitVec.ofNat 16 group }

/-- The bytes a command is charged against its rate class (R45). -/
def chargedBytes (k : IoKind) (e : Sqe) : Nat :=
  if k.isStore then e.cdw10.toNat
  else if k.isRetrieve || k == .list || k == .filteredList || k == .getReceipt then e.bufLen
  else 0

end Sys2Proof.Machine
end

