-- ==== Sys2Proof/Machine/Commit.lean ====
section
/-! DEFINITION. The commit of a write: receipt leaves and epochs (R228 to R232), the journal record (R158), commit
sequence and time (R25), retention (R28, R32, R363 to R365), the index update (R156 step 6, R157), and deferred errors
(R96 to R105). -/

namespace Sys2Proof.Machine

/-! ## Epochs (R228 to R232) -/

/-- The largest power of two below n, for n above 1, found from `k` up (R230). -/
def splitPow : Nat → Nat → Nat → Nat
  | 0, k, _ => k
  | f + 1, k, n => if 2 * k < n then splitPow f (2 * k) n else k

/-- The root of a list of leaves (R230); `f` bounds the depth. -/
def treeRoot : Nat → List Bytes → Bytes
  | 0, _ => []
  | _ + 1, [] => []
  | _ + 1, [d] => d
  | f + 1, d =>
    let k := splitPow 64 1 d.length
    sha384 ([1] ++ treeRoot f (d.take k) ++ treeRoot f (d.drop k))

/-- The sibling hashes of a leaf, leaf level first (R230, R237). -/
def treePath : Nat → List Bytes → Nat → List Bytes
  | 0, _, _ => []
  | _ + 1, [], _ => []
  | _ + 1, [_], _ => []
  | f + 1, d, i =>
    let k := splitPow 64 1 d.length
    if i < k then treePath f (d.take k) i ++ [treeRoot f (d.drop k)]
    else treePath f (d.drop k) (i - k) ++ [treeRoot f (d.take k)]

/-- ER_SIGNER_ID and ER_DRIVE_ID (R227, R231). -/
def State.signerId (s : State) : Bytes := (sha384 (publicKeys (Config.receiptScalar s.ky.uds) (Config.receiptMldsaKey s.ky.uds))).take 16
def State.driveId (s : State) : Bytes := (sha384 (publicKeys (Config.deviceIdScalar s.ky.uds) (Config.deviceIdMldsaKey s.ky.uds))).take 16

/-- ER_PREV_ROOT: the hash of the previous root record; all 00h in epoch 1 (R231). -/
def Keys.prevRoot (k : Keys) : Bytes :=
  match k.lastRoot with
  | some r => sha384 r
  | none => List.replicate 48 0

/-- The root record of an epoch that closes now with the given cause bits of ER_FLAGS (R231). -/
def State.rootRecord (s : State) (o : OpenEpoch) (flags : Nat) : Bytes :=
  [1] ++ leBytes 1 (flags + 8 * (o.debug || s.li.level != 0).toNat) ++ leBytes 1 s.tq.toNat ++ [0]
    ++ leBytes 4 o.leaves.length ++ leBytes 8 o.number ++ leBytes 8 ((o.leaves.head?.map (·.seq)).getD 0)
    ++ leBytes 8 ((o.leaves.getLast?.map (·.seq)).getD 0) ++ leBytes 8 o.openTime ++ leBytes 8 s.now
    ++ treeRoot 24 (o.leaves.map (·.hash)) ++ s.ky.prevRoot ++ s.signerId ++ s.driveId

/-- Closes the open epoch; it waits for the signature engine (R228, R232). -/
def State.closeEpoch (s : State) (flags : Nat) : State :=
  match s.ky.open_ with
  | none => s
  | some o =>
    let r := s.rootRecord o flags
    (s.modKy fun k => { k with open_ := none, lastRoot := some r,
                               waiting := k.waiting ++ [{ number := o.number, root := r, leaves := o.leaves }] }).logChanged 2

/-- The leaf message of a commit (R229). -/
def leafMessage (nsid : Nat) (key : Key) (vh : Bytes) (seq time : Nat) (tq : BitVec 8) : Bytes :=
  leBytes 4 nsid ++ key ++ vh ++ leBytes 8 seq ++ leBytes 8 time ++ leBytes 1 tq.toNat

/-- Adds the leaf of a commit, opening an epoch if none is open; at 8,388,608 leaves the epoch closes (R75, R228, R229).
Answers the epoch, the leaf index and the leaf hash. -/
def State.addLeaf (s : State) (nsid : Nat) (key : Key) (value : Bytes) (seq : Nat) : State × Nat × Nat × Bytes :=
  let vh := sha384 value
  let h := sha384 (leafMessage nsid key vh seq s.now s.tq)
  let leaf : Leaf := { hash := h, valueHash := vh, nsid := nsid, key := key, seq := seq, time := s.now, tq := s.tq }
  let o := match s.ky.open_ with
    | some o => o
    | none => { number := s.ky.nextEpoch, lengthMs := s.ky.epochMs, openMono := s.mono, openTime := s.now,
                debug := s.li.level != 0, leaves := [] }
  let i := o.leaves.length
  let n := if s.ky.open_.isSome then s.ky.nextEpoch else s.ky.nextEpoch + 1
  let s := (s.modKy fun k => { k with open_ := some { o with leaves := o.leaves ++ [leaf] }, nextEpoch := n }).logChanged 2
  (if Figure.epochLeaves ≤ i + 1 then s.closeEpoch 1 else s, o.number, i, h)

/-! ## Journal and commit time (R25, R158, R161, R363, R365) -/

/-- Blocks of a journal record (R158). -/
def JRec.blocks (r : JRec) : Nat := 1 + (r.key.length - 8 + 63) / 64 + r.leaf.isSome.toNat

def Wax.journalUsed (w : Wax) : Nat := (w.journal.map JRec.blocks).sum

/-- Journal records with the block and the lap at which each begins (R158). -/
def placeRecs : List JRec → Nat → Nat → List (JRec × Nat × Nat)
  | [], _, _ => []
  | r :: rest, o, l =>
    let n := o + r.blocks
    (r, o, l) :: placeRecs rest (n % Figure.journalBlocks) (if Figure.journalBlocks ≤ n then (l + 1) % 256 else l)

/-- Whether the ring has room for a record of `n` blocks (R158, R161). -/
def State.journalRoom (s : State) (n : Nat) : Bool := decide (s.wx.journalUsed + n ≤ Figure.journalBlocks)

/-- What the index base holds of a key is noted when the first journal record from the replay start on names it (R131, R171). -/
def State.noteBase (s : State) (nsid : Nat) (key : Key) : State :=
  if s.ix.base.any fun b => b.nsid == nsid && b.key == key then s
  else
    let f := s.find nsid key
    s.modIx fun x => { x with base := x.base ++ [{ nsid := nsid, key := key, slot := f.map (·.slot),
                                                   commit := f.bind fun f => s.tm.commits.find? (·.seq == f.record.seq) }] }

/-- Writes a journal record; the ring offset advances, and the lap at its end (R158, R160). -/
def State.putJournal (s : State) (r : JRec) : State :=
  s.modWx fun w =>
    let o := w.offset + r.blocks
    { w with journal := w.journal ++ [r],
             past := w.past.filter fun p => !(w.offset ≤ p.2.1 && p.2.1 + p.1.blocks ≤ o), offset := o % Figure.journalBlocks,
             lap := if Figure.journalBlocks ≤ o then (w.lap + 1) % 256 else w.lap }

/-- Writes the journal record of a write, with H of the key it names (R158). -/
def State.writeJournal (s : State) (r : JRec) : State :=
  if r.key.isEmpty then s.putJournal r
  else (s.noteBase r.nsid r.key).putJournal { r with h := s.hash r.nsid r.key }

/-- Writes the journal record of a relocation or a loss, which names no key: the record it concerns gives JR_H, and `old` is the
location it leaves. DESIGN CHOICE (log 30): JR_NSID is 0 in it and in a LOSS record, where the manual leaves it open (R123, R158). -/
def State.journalMove (s : State) (type : JrType) (r : StoredRec) (old : Loc) (new : Option Loc) : State :=
  let j : JRec :=
    { type := type, h := s.hash r.nsid r.key, loc := new, lenClass := BitVec.ofNat 12 (if new.isSome then lenClass r.granules else 0),
      aux := old.word }
  (s.noteBase r.nsid r.key).putJournal j

/-- Writes a LOSS record: the sequence of the lost command, the location lost, which JR_AUX gives and which a command without a record has
none of, and DE_KIND (R158, R159). -/
def State.journalLost (s : State) (nsid : Nat) (key : Key) (seq : Nat) (old : Option Loc) (kind : Nat) : State :=
  (s.noteBase nsid key).putJournal
    { type := .loss, h := s.hash nsid key, seq := seq, time := s.now, tq := s.tq, loc := old,
      aux := (old.map Loc.word).getD 0 + kind * 2 ^ 48 }

def State.journalLoss (s : State) (r : StoredRec) (old : Loc) (kind : Nat) : State := s.journalLost r.nsid r.key r.seq (some old) kind

/-- A commit in the Untraced state opens or extends the open span; a full table merges its two oldest (R365). -/
def Time.spanCommit (t : Time) (seq : Nat) : Time :=
  if t.st != .untraced then t
  else
    match t.spans.getLast? with
    | some ⟨f, _, none⟩ => { t with spans := t.spans.dropLast ++ [⟨f, seq, none⟩] }
    | _ =>
      match t.spans with
      | a :: b :: rest =>
        if t.spans.length < 1024 then { t with spans := t.spans ++ [⟨seq, seq, none⟩] }
        else { t with spans := ⟨a.first, b.last, (match a.trace, b.trace with
                | some x, some y => some (max x y)
                | x, none => x
                | none, y => y)⟩ :: rest ++ [⟨seq, seq, none⟩] }
      | l => { t with spans := l ++ [⟨seq, seq, none⟩] }

/-- The expiry instant of a record in the commit time table: none while its span is open (R28, R364). -/
def Time.expiry (t : Time) (c : CommitTime) (days : Nat) : Option Nat :=
  let period := days * Figure.dayNs
  match (c.tq.extractLsb' 0 2).toNat with
  | 0 => some (c.time + period)
  | 1 => some (c.time + 2 ^ ((c.tq.extractLsb' 4 4).toNat + 10) + period)
  | _ =>
    match t.spans.find? fun p => p.first ≤ c.seq && c.seq ≤ p.last with
    | some p => p.trace.map (· + period)
    | none => none

/-- Whether retention of a record has run out, judged at this moment: only on Traceable time (R32 steps 5 and 6, R364,
R366). A record of a class period 0 committed Traceable expires at once. DESIGN CHOICE (log 40): so does a record whose class is undefined on
this drive, as a class that only its twin has defined is, and one without an entry of the commit time table; R28 gives them no period. -/
def State.expired (s : State) (seq : Nat) : Bool :=
  match s.tm.commits.find? (·.seq == seq) with
  | none => true
  | some c =>
    match s.va.retention.getD c.cls none with
    | none => true
    | some d => match s.tm.expiry c d with
      | some t => decide (t ≤ s.now)
      | none => false

/-- A key is under hold while a tag is active on it or on its namespace (R31). -/
def State.underHold (s : State) (nsid seq : Nat) : Bool :=
  s.va.keyHolds.any (fun k => k.nsid == nsid && k.seq == seq) || (s.nsOf nsid).any fun n => !n.tags.isEmpty

/-- Steps 3 to 6 of the deletion checks in a Ledger namespace (R32). -/
def State.ledgerCheck (s : State) (nsid : Nat) (key : Key) : Option Status :=
  match s.find nsid key with
  | none => some .keyDoesNotExist
  | some f =>
    if s.underHold nsid f.record.seq then some .retentionActive
    else if s.tm.st != .traceable then some .timeNotTraceable
    else if !s.expired f.record.seq then some .retentionActive
    else none

/-- Whether a Ledger namespace holds a record under a hold or with an unexpired retention; while the time is not
Traceable every record of a class period other than 0 counts (R36). -/
def State.ledgerBound (s : State) (nsid : Nat) : Bool :=
  (s.ix.all.filterMap fun (_, t) => s.recAt t.loc).any fun r =>
    r.nsid == nsid && s.unseals r && (s.underHold nsid r.seq ||
      (if s.tm.st == .traceable then !s.expired r.seq
       else (s.tm.commits.find? (·.seq == r.seq)).any fun c => (s.va.retention.getD c.cls none).getD 0 != 0))

/-! ## Writes -/

/-- A write on its way to its commit. `srec` is the staged record of a store and `loc` its place; `slot` is the log C1h slot of a Secure
Delete, none of the 1,022 where it has none; `origin` is the host command of this drive behind a write that comes from the twin. -/
structure Write where
  kind : WriteKind
  nsid : Nat
  key : Key
  action : BitVec 16
  ledger : Bool := false
  srec : Option StoredRec := none
  loc : Option Loc := none
  leaf : Bool := false
  tag : Nat := 0
  slot : Nat := 1022
  cmd : Option (Nat × Nat × Nat) := none
  origin : Option (Nat × Nat × Nat) := none
  host : Nqn := []
  level : Level := .loc
  fromTwin : Bool := false
  deriving DecidableEq, Repr

/-- The removal of a key that the twin does not have: a Local-level DELETE (R278, R542). -/
def Write.removal (nsid : Nat) (key : Key) : Write := { kind := .delete, nsid := nsid, key := key, action := 0, fromTwin := true }

/-- How the twin takes part in a write: not at all; the write waits for it; it follows; or it is absent and the write
enters the lag log (R157, R262, R269, R276). -/
inductive TwinPart where
  | none | waits | follows | absent
  deriving DecidableEq, Repr

/-- The twin counts as lost: declared lost, or impaired and its stale notice confirmed (R269, R282). -/
def State.twinGone (s : State) : Bool := s.tw.lost || (s.tw.impaired && s.tw.staleConfirmed)

/-- This drive sends a resynchronisation (R278, R289). -/
def State.resyncSends (s : State) : Bool := s.tw.role == .primary && s.tw.reached && s.tw.sendForm != 0

def State.twinPart (s : State) (w : Write) : TwinPart :=
  if w.fromTwin || w.level == .loc || s.tw.role != .primary then .none
  else if s.twinGone then
    if w.level == .sync && !s.tw.localOk then .waits else .absent
  else if w.level == .sync then .waits else .follows

/-- Under STRICT a twin-synchronous write with the twin lost is not performed (R269). -/
def State.strictRefuses (s : State) (level : Level) : Bool :=
  s.tw.role == .primary && level == .sync && s.twinGone && s.tw.strict

def writeCode : WriteKind → Nat
  | .store => 1
  | .delete => 2
  | .secdel => 3
  | _ => 4

def jrTypeOf : WriteKind → JrType
  | .store => .store
  | .delete => .delete
  | .secdel => .secdel
  | _ => .hold

/-- JR_AUX of a write: leaf fields, log C1h slot, or hold tag, scope and release (R158). -/
def Write.aux (w : Write) (epoch index : Nat) (hasLeaf : Bool) : Nat :=
  match w.kind with
  | .store => if hasLeaf then epoch + index * 2 ^ 40 + 2 ^ 63 else 0
  | .delete => 0
  | .secdel => w.slot
  | .holdKeyPlace => w.tag
  | .holdKeyRelease => w.tag + 2 ^ 33
  | .holdNsPlace => w.tag + 2 ^ 32
  | .holdNsRelease => w.tag + 2 ^ 32 + 2 ^ 33

/-- Bytes of an entry in the ring, 48 to 272 (R277). -/
def LagEntry.size (e : LagEntry) : Nat := 32 + max 1 ((e.key.length + 15) / 16) * 16

/-- LL_FLAGS (R277). -/
def LagEntry.flags (e : LagEntry) : Nat :=
  e.sync.toNat + 2 * e.superseded.toNat + (if e.kind == .holdNsPlace || e.kind == .holdNsRelease then 4 else 0)
    + (if e.kind == .holdKeyRelease || e.kind == .holdNsRelease then 8 else 0)

/-- An entry as it lies in the ring, with LL_CRC (R277). -/
def LagEntry.image (e : LagEntry) : Bytes :=
  let head := leBytes 8 e.seq ++ leBytes 4 e.nsid ++ leBytes 1 (writeCode e.kind) ++ leBytes 1 e.key.length ++ leBytes 1 e.flags ++ [0]
    ++ leBytes 4 e.bytes ++ leBytes 4 e.tag ++ [0, 0, 0, 0]
  let key := padTo (e.size - 32) e.key
  head ++ leBytes 4 (crc32c (head ++ [0, 0, 0, 0] ++ key)).toNat ++ key

/-- The lag log takes an entry; it overflows when its ring of 16 MiB is full or the bytes would pass 2 GiB, and then
asks for a full resynchronisation, stops and is discarded (R277). -/
def Twin.lagAdd (t : Twin) (e : LagEntry) : Twin :=
  if t.lagOver then t
  else
    let l := t.lag.map (fun x => if x.nsid == e.nsid && x.key == e.key && e.key != [] then { x with superseded := true } else x) ++ [e]
    if 16777216 < (l.map LagEntry.size).sum || 2147483648 < (l.map (·.bytes)).sum then { t with lag := [], lagOver := true, fullResync := true }
    else { t with lag := l }

def Write.lagEntry (w : Write) (seq : Nat) : LagEntry :=
  { seq := seq, nsid := w.nsid, kind := w.kind, key := w.key, sync := w.level == .sync, superseded := false,
    bytes := (w.srec.map (·.bytes)).getD 0, tag := w.tag }

/-! ## Physical removal (R203, R204) -/

/-- Slots a Secure Delete may still take: free and closed ones (R101, R102). -/
def Flight.c1Free (f : Flight) : Nat := f.c1.countP fun r => r.state == 0 || r.state == 3 || r.state == 0x13

/-- The slot a new record takes: a free one, or the closed one with the oldest DE_EVENT_TIME; not one that a committed Secure Delete
waits to take (R101, R158). -/
def State.c1Slot (s : State) : Option Nat :=
  let open_ := s.fl.c1.zipIdx.filter fun (_, i) => !((s.wx.pend ++ s.wx.heldRecs).any fun p => p.kind == .secdel && p.slot == i)
  match open_.find? fun (r, _) => r.state == 0 with
  | some (_, i) => some i
  | none =>
    ((open_.filter fun (r, _) => r.state == 3 || r.state == 0x13).foldl
      (fun acc p => match acc with
        | some q => if p.1.eventTime < q.1.eventTime then some p else some q
        | none => some p) none).map (·.2)

def State.setC1 (s : State) (i : Nat) (f : DeRec → DeRec) : State := (s.modFl fun x => { x with c1 := modAt x.c1 i f }).logChanged 1

/-- The log C1h event on every controller connected with a host (R96). -/
def State.notifyHost (s : State) (host : Nqn) : State := s.notify .logC1 fun c => c.host == host

/-- A Secure Delete's record ends: state 11h with its event; a removal without a record writes an event (R100, R262). -/
def State.secdelDone (s : State) (j : SecDelJob) : State :=
  let s := s.modMd fun m => { m with secdel := m.secdel.filter (·.seq ≠ j.seq) }
  match j.slot with
  | some i => (s.setC1 i fun r => { r with state := 0x11, erased := j.total, bands := j.total, eventTime := s.now }).notifyHost j.host
  | none => s

/-- The record is a copy of a key that can still be confirmed (R155). -/
def State.isCopy (s : State) (nsid : Nat) (key : Key) (r : StoredRec) : Bool := r.nsid == nsid && r.key == key && s.unseals r

/-- The band holds a copy of a key, live or garbage: H stands in its record list and the key is confirmed (R203). -/
def State.holdsCopy (s : State) (b : Band) (nsid : Nat) (key : Key) : Bool :=
  decide (s.hash nsid key ∈ b.hashes) && s.md.nand.any fun p => decide (naMember p.1 ∈ b.members) && s.isCopy nsid key p.2

/-- The physical removal that a Secure Delete starts: its copies in staging and in HBM3 are overwritten at once, and every band that
holds a copy becomes a victim; a copy in a block set that could not be erased keeps the removal open (R203, R204). The overwriting follows
the journal record: a staged copy stays listed as dead behind its overwritten run, for a start that finds the record torn (R169, log 30). -/
def State.startSecdel (s : State) (slot : Option Nat) (seq nsid : Nat) (key : Key) (host : Nqn) : State :=
  let bs := (s.md.bands.filter fun b => s.holdsCopy b nsid key).map (·.number)
  let j : SecDelJob := { slot := slot, nsid := nsid, key := key, h := s.hash nsid key, bands := bs, done := 0, total := bs.length,
                         started := s.pw.powerOnS, urgent := false, overdue := false, host := host,
                         stuck := s.md.nand.any fun p => (s.md.bandOf p.1).isNone && s.isCopy nsid key p.2, seq := seq }
  let gone := (s.wx.staged.filter fun p => s.isCopy nsid key p.2).map (·.1)
  let runs := ((s.wx.staged ++ s.wx.dead).filter fun p => s.isCopy nsid key p.2).map fun p => (p.1, p.2.granules)
  let t := (s.modWx fun w => { gone.foldl Wax.kill w with zeroed := runs.filter (· ∉ w.zeroed) ++ w.zeroed }).trimRing
  let t := (t.modMd fun m =>
    { m with bands := m.bands.map (fun b => if b.number ∈ bs && (b.state == 3) then { b with state := 4 } else b),
             readCache := m.readCache.filter (fun g => !((m.nand.lookup g).any (s.isCopy nsid key))),
             secdel := m.secdel ++ [j] }).settleVictims
  if bs.isEmpty && !j.stuck then t.secdelDone j else t

/-! ## The index update of a committed write (R156 step 6) -/

/-- The stream of a record that goes to NAND from staging, by its hint and by the record it replaces (R183). -/
def State.streamFor (s : State) (hint : BitVec 2) (bytes : Nat) (old : Option Found) : StreamKind :=
  let hot (f : Found) : Bool := match f.slot.loc with
    | .wax _ => true
    | .nand g => f.slot.fine || (s.md.bandOf g).any fun b => b.state == 1 && b.kind == .hostHot
  let small := decide (bytes ≤ 4096)
  if hint == 2 then .hostCold
  else if hint == 1 then (if small then .fineInternal else .hostHot)
  else match old with
    | some f => if small && hot f then .fineInternal else .hostHot
    | none => .hostCold

/-- The current generation of a namespace's key (R219). -/
def State.currentGen (s : State) (nsid : Nat) : Nat := ((s.ky.recs.find? fun k => k.nsid == nsid && k.state == 1).map (·.gen)).getD 0

/-- A record was sealed under a generation that a crypto-erase has taken since: its key is absent from the start (R221). -/
def State.erasedSeal (s : State) (r : StoredRec) : Bool := r.keyGen != s.currentGen r.nsid && !s.unseals r

/-- A twin-asynchronous hold of a key waits for its acknowledgement beside the record (R157). -/
def State.holdPends (s : State) (w : Write) (seq : Nat) (twinPend : Bool) : State :=
  s.whenB twinPend fun s => s.modWx fun x => { x with pendKeys := x.pendKeys ++ [(seq, w.nsid, w.key)] }

/-- The effect of a committed write on the index, the hold tables and the commit time table. -/
def State.applyWrite (s : State) (w : Write) (seq : Nat) (time : Nat) (tq : BitVec 8) (twinPend : Bool) : State :=
  match w.kind with
  | .store =>
    match w.srec, w.loc with
    | some r, some l =>
      if s.erasedSeal r then (s.removeKey w.nsid w.key).dropRecord l 0
      else
      let k := s.streamFor (w.action.extractLsb' 9 2) r.bytes (s.find w.nsid w.key)
      let s := s.putKey l { r with seq := seq } twinPend
      let s := match l with
        | .wax g => s.modWx fun x => { x with streams := setAssoc g k x.streams }
        | .nand _ => s
      if w.ledger then
        s.modTm fun t => { t with commits := t.commits ++ [{ seq := seq, time := time, tq := tq, cls := (w.action.extractLsb' 2 6).toNat }] }
      else s
    | _, _ => s
  | .delete | .secdel =>
    let s := s.removeKey w.nsid w.key
    if w.kind != .secdel then s
    else if w.slot < Figure.c1Slots then
      let (c, q, k) := (w.cmd.or w.origin).getD (0, 0, 0)
      (s.setC1 w.slot fun _ => { kind := 4, state := 0x10, cntlid := c, sqid := q, cid := k, nsid := w.nsid, key := w.key, tq := tq, seq := seq,
                                 time := time, host := w.host }).startSecdel (some w.slot) seq w.nsid w.key w.host
    else s.startSecdel none seq w.nsid w.key w.host
  | .holdKeyPlace =>
    match s.find w.nsid w.key with
    | some f =>
      let k : KeyHold := { nsid := w.nsid, tag := w.tag, seq := f.record.seq }
      ((s.modVa fun v => { v with keyHolds := if k ∈ v.keyHolds then v.keyHolds else v.keyHolds ++ [k] }).holdPends w seq twinPend).modSlot
        w.nsid w.key fun t => { t with hold := true, twinPend := t.twinPend || twinPend }
    | none => s
  | .holdKeyRelease =>
    match s.find w.nsid w.key with
    | some f =>
      let l := s.va.keyHolds.filter fun k => !(k.nsid == w.nsid && k.tag == w.tag && k.seq == f.record.seq)
      ((s.modVa fun v => { v with keyHolds := l }).holdPends w seq twinPend).modSlot w.nsid w.key
        fun t => { t with hold := l.any fun k => k.nsid == w.nsid && k.seq == f.record.seq, twinPend := t.twinPend || twinPend }
    | none => s
  | .holdNsPlace => s.modNs w.nsid fun n => { n with tags := if w.tag ∈ n.tags then n.tags else n.tags ++ [w.tag] }
  | .holdNsRelease => s.modNs w.nsid fun n => { n with tags := n.tags.filter (· ≠ w.tag) }

/-- The capsule that carries a write to the twin (R262). -/
def Write.toTwin (w : Write) (seq : Nat) (fwd : Option (Nat × Nat × Nat)) : ReplWrite :=
  { seq := seq, kind := w.kind, nsid := w.nsid, key := w.key, value := (w.srec.map (·.value)).getD [], action := w.action,
    ledger := w.ledger, leaf := w.leaf, tag := w.tag, host := w.host, forwarded := fwd }

/-- A replicated write leaves, and the time at which it does is kept for TW_RTT_NS (R262, R289). -/
def State.emitWrite (s : State) (w : ReplWrite) : State :=
  (s.modTw fun t => { t with sentAt := t.sentAt ++ [(w.seq, s.mono, w.key.length + w.value.length)] }).emit (.twinWrite w)

/-- A write goes to the twin. One that keeps the context of its host command goes at once; another takes a context of the initiator, or
waits for one; none overtakes those that wait (R56, R262, R268). -/
def State.sendTwin (s : State) (w : ReplWrite) (hosted : Bool) : State :=
  if hosted && s.tw.unsent.isEmpty then s.emitWrite w
  else if s.tw.unsent.isEmpty && s.initiatorRoom then (s.modTw fun t => { t with sending := t.sending ++ [w.seq] }).emitWrite w
  else s.modTw fun t => { t with unsent := t.unsent ++ [w] }

/-- The command toward the twin that has waited longest takes a context, a repair before a write (R56, log 24). -/
def State.sendWaiting (s : State) : State :=
  if !s.initiatorRoom then s
  else match s.tw.unasked, s.tw.unsent with
    | (n, k) :: rest, _ => (s.modTw fun t => { t with unasked := rest }).emit (.twinAsk n k)
    | [], w :: rest => (s.modTw fun t => { t with unsent := rest, sending := t.sending ++ [w.seq] }).emitWrite w
    | [], [] => s

/-- The context of a write that the twin has acknowledged is free, and the write that waited longest takes one (R56). -/
def State.sentTwin (s : State) (seq : Nat) : State :=
  (s.modTw fun t => { t with sending := t.sending.filter (· ≠ seq) }).sendWaiting

/-- The result of a commit: its sequence, whether it waits for the twin, and its leaf fields. -/
structure Committed where
  seq : Nat
  waits : Bool
  leaf : Option (Nat × Nat)
  deriving DecidableEq, Repr

/-- Steps 5 and 6 of R156: the commit takes the next sequence, the time and its quality, and for a leaf the epoch and
index; the journal record is written; the write goes to the twin; the index is updated unless the write waits for the
twin's acknowledgement; a hold of a namespace takes effect here at every level (R25, R34, R157, R158, R277). DESIGN CHOICE (log 30): a write
of a twin-synchronous namespace that is performed at the Local level, the twin absent, has JR_FLAGS[0] = 1 and [1] = 0. -/
def State.commit (s : State) (w : Write) (fwd : Option (Nat × Nat × Nat)) : State × Committed :=
  let seq := s.va.nextSeq
  let part := s.twinPart w
  let time := s.now
  let tq := s.tq
  let (s, lf, lh) := if w.leaf then
      let (t, e, i, h) := s.addLeaf w.nsid w.key ((w.srec.map (·.value)).getD []) seq
      (t, some (e, i), some h)
    else (s, none, none)
  let (e, i) := lf.getD (0, 0)
  let s := (s.modVa fun v => { v with nextSeq := seq + 1 }).modTm fun t => t.spanCommit seq
  let s := s.writeJournal { type := jrTypeOf w.kind, twinLevel := w.level != .loc && !w.fromTwin, twinSync := part == .waits,
                            leaf := lh, nsid := w.nsid, key := w.key, seq := seq, time := time, tq := tq, loc := w.loc,
                            lenClass := BitVec.ofNat 12 ((w.srec.map fun r => lenClass r.granules).getD 0),
                            aux := w.aux e i lf.isSome, action := w.action }
  let s := match w.cmd with
    | some (c, q, k) => s.modWx fun x => { x with owners := setAssoc seq { ctrl := c, sq := q, cid := k, host := w.host, time := time, tq := tq } x.owners }
    | none =>
      if fwd.isSome then s.modWx fun x => { x with owners := setAssoc seq { ctrl := 0, sq := 0, cid := 0, host := w.host, time := time, tq := tq } x.owners }
      else s
  let s := if part == .waits || part == .follows then
      (s.modWx fun x => { x with unacked := x.unacked ++ [seq] }).sendTwin (w.toTwin seq fwd) (part == .waits || fwd.isSome)
    else if part == .absent then s.modWx fun x => { x with unacked := x.unacked ++ [seq] }
    else s
  let s := s.modWx fun x => { x with unackedNs := if part == .none then x.unackedNs else x.unackedNs ++ [(seq, w.nsid)] }
  let s := if part == .follows || part == .absent then s.modTw fun t => t.lagAdd (w.lagEntry seq) else s
  if part == .waits then
    let early := w.kind == .holdNsPlace || w.kind == .holdNsRelease
    let s := if early then s.applyWrite w seq time tq false else s
    (s.modWx fun x => { x with pend := x.pend ++ [{ seq := seq, kind := w.kind, nsid := w.nsid, key := w.key, loc := w.loc,
                                                    flags := 0, value := (w.srec.map (·.value)).getD [], tag := w.tag, action := w.action,
                                                    time := time, tq := tq, cmd := w.cmd, host := w.host, slot := w.slot, applied := early }],
                               staged := match w.loc, w.srec with
                                 | some (.wax g), some r => setAssoc g { r with seq := seq } x.staged
                                 | _, _ => x.staged },
     { seq := seq, waits := true, leaf := lf })
  else
    let s := match w.loc, w.srec with
      | some (.wax g), some r => s.modWx fun x => { x with staged := setAssoc g { r with seq := seq } x.staged }
      | _, _ => s
    (s.applyWrite w seq time tq (part == .follows || part == .absent), { seq := seq, waits := false, leaf := lf })

/-- The write that a pending entry stands for (R157, R171). -/
def State.pendWrite (s : State) (p : Pend) : Write :=
  let sr := match p.loc with
    | some l => s.recAt l
    | none => none
  { kind := p.kind, nsid := p.nsid, key := p.key, action := p.action, leaf := sr.any (·.flags.getLsbD 1),
    ledger := (s.nsOf p.nsid).any (·.type == .ledger), srec := sr, loc := p.loc, tag := p.tag,
    slot := p.slot, cmd := p.cmd, host := p.host, level := .sync }

/-- A pending write leaves its table and is applied to the index (R157, R171, R280). -/
def State.applyPend (s : State) (p : Pend) : State :=
  let w := s.pendWrite p
  let s := s.modWx fun x => { x with pend := x.pend.filter (·.seq ≠ p.seq), heldRecs := x.heldRecs.filter (·.seq ≠ p.seq) }
  if p.applied then s else s.applyWrite w p.seq p.time p.tq false

/-- A pending write that will not be applied: a hold of a namespace that has already taken effect is undone (R34, R280). -/
def State.undoPend (s : State) (p : Pend) : State :=
  if !p.applied then s
  else match p.kind with
    | .holdNsPlace => s.modNs p.nsid fun n => { n with tags := n.tags.filter (· ≠ p.tag) }
    | .holdNsRelease => s.modNs p.nsid fun n => { n with tags := if p.tag ∈ n.tags then n.tags else n.tags ++ [p.tag] }
    | _ => s

/-! ## Deferred errors (R96 to R105) -/

/-- The carrier queue of a loss: the original queue if it still exists, or the lowest I/O queue of the lowest controller
of the host; none until one connects (R97). -/
def State.carrierQueue (s : State) (ctrl sq : Nat) (host : Nqn) : Option (Nat × Nat) :=
  if s.fe.hasQueue ctrl sq && (s.fe.ctrl? ctrl).any (·.host == host) then some (ctrl, sq)
  else
    let ios (c : Ctrl) : List Nat := (c.queues.map (·.qid)).filter (0 < ·)
    let cs := s.fe.ctrls.filter fun c => c.host == host && !(ios c).isEmpty
    match cs.map (·.cntlid) |>.min? with
    | some id => (s.fe.ctrl? id).bind fun c => ((ios c).min?).map fun q => (id, q)
    | none => none

/-- A deferred error: the log C1h record, or DEL_OVERFLOW and an event; the event on the host's controllers; the carrier
(R96, R97, R105). -/
def State.deferredError (s : State) (kind : Nat) (nsid : Nat) (key : Key) (seq : Nat) (o : Owner) : State :=
  let q := s.carrierQueue o.ctrl o.sq o.host
  match s.c1Slot with
  | some i =>
    let s := s.setC1 i fun _ => { kind := kind, state := 1, cntlid := o.ctrl, sqid := o.sq, cid := o.cid, nsid := nsid,
                                  key := key, tq := o.tq, seq := seq, time := o.time, eventTime := s.now, host := o.host }
    (s.notifyHost o.host).modFl fun f => { f with carriers := f.carriers ++ [{ queue := q, host := some o.host, record := some i }] }
  | none =>
    let s := ((s.modFl fun f => { f with overflow := f.overflow + 1 }).logChanged 1).event 2 "Deferred error without a record"
    (s.notifyHost o.host).modFl fun f => { f with carriers := f.carriers ++ [{ queue := q, host := some o.host, record := none }] }

/-- The staged record of a location is given up: its slot is cleared if it still points there, and its commit time goes (R123, R166). -/
def State.giveUp (s : State) (g : Nat) (r : StoredRec) : State :=
  let s := if (s.find r.nsid r.key).any (·.slot.loc == .wax g) then s.removeKey r.nsid r.key else s
  ((s.modTm fun t => { t with commits := t.commits.filter (·.seq ≠ r.seq) }).modWx fun w =>
    { w.kill g with owners := dropAssoc r.seq w.owners }).trimRing

/-- The loss of a staged record before packing: the LOSS record, the slot cleared, the deferred error where a host's write was
acknowledged (R166, R304). While the ring has no room for the LOSS record the loss waits, and condensing begins (R159, R161). -/
def State.loseStaged (s : State) (g : Nat) : State :=
  match s.wx.staged.lookup g with
  | none => s
  | some r =>
    if !s.journalRoom 1 then
      (s.modWx fun w => { w with losses := g :: w.losses.filter (· ≠ g), condensing := true }).event 4 "Commit waits for journal room"
    else
      let o := s.wx.owners.lookup r.seq
      let s := (s.journalLoss r (.wax g) 1).giveUp g r
      let s := s.modWx fun w => { w with losses := w.losses.filter (· ≠ g) }
      match o with
      | some o => s.deferredError 1 r.nsid r.key r.seq o
      | none => s

end Sys2Proof.Machine
end

