-- ==== Sys2Proof/Machine/Bands.lean ====
section
/-! DEFINITION. Bands as they open, fill and take internal data (R177 to R185, R195), the staging ring and its seal counters, and
the admission of host bytes (R162, R163, R192, R197, R217). -/

namespace Sys2Proof.Machine

/-! ## Records in bands (R180 to R184) -/

/-- A record takes the next place of a band, if that is the address given: padding may come before it; its band's record list takes
H, and its bytes and the padding are programmed (R182 to R184). -/
def State.landIn (s : State) (b : Band) (naddr : Nat) (r : StoredRec) : Option State :=
  match b.nextAt r.granules with
  | some (p, a) =>
    if a = naddr then
      let h := s.hash r.nsid r.key
      let t := (s.modBand b.number fun x => { x.took p r.granules with hashes := b.hashes ++ [h], lastWrite := s.mono }).modMd fun m =>
        { m.program (32 * (p + r.granules - b.fill)) with nand := setAssoc naddr r m.nand }
      some ((t.listPage b.number).logChanged 0)
    else none
  | none => none

/-- A record lands at an address of a stream: in the stream's open band, or in one that opens for it; none where that is not the
stream's next place (R180, R182, log 20). -/
def State.land (s : State) (k : StreamKind) (naddr : Nat) (r : StoredRec) : Option State :=
  match s.md.openOf k with
  | some b => s.landIn b naddr r
  | none => (s.openBand k (some (naMember naddr))).bind fun t => (t.md.openOf k).bind fun b => t.landIn b naddr r

/-- A record lands at the next place of a stream: in its open band, or, where that has no room for it, in one that opens after the open
one has ended; none while no band can open (R179, R180). -/
def State.landNext (s : State) (k : StreamKind) (r : StoredRec) : Option (State × Nat) :=
  let put (s : State) : Option (State × Nat) :=
    (s.md.openOf k).bind fun b => (b.nextAt r.granules).bind fun (_, a) => (s.landIn b a r).map fun t => (t, a)
  (put s).or (((match s.md.openOf k with
    | some b => s.endBand b
    | none => s).openBand k none).bind put)

/-! ## Admission (R163, R192, R197) -/

/-- Foreground GC admits at most (1 − u) ÷ u bytes for every byte it copies from the current victim, and none without a victim
(R192). -/
def Media.gcAllows (m : Media) (bytes : Nat) : Bool :=
  if m.gcMode != 2 then true
  else
    match m.victimU with
    | some (live, size) => decide ((m.gcAdmitted + bytes) * live ≤ m.gcCopied * (size - live))
    | none => false

/-- What the power and thermal loops withhold of a second's media write rate is not admitted (R418). -/
def Media.loopsAllow (m : Media) (bytes : Nat) : Bool :=
  m.throttle == 0 || decide (100 * (m.secHost + bytes) ≤ (100 - m.throttle) * Figure.mediaRate)

/-- Whether a reservation of host bytes is admitted now: not with 64 or fewer FREE bands, nor beyond foreground GC's
share or what the control loops leave (R192, R418). -/
def State.mediaAdmits (s : State) (bytes : Nat) : Bool := decide (64 < s.md.freeBands) && s.md.gcAllows bytes && s.md.loopsAllow bytes

/-! ## The staging ring (R162, R217) -/

/-- The tail of the ring: the oldest granule still held, or the head. -/
def Wax.tail (w : Wax) : Nat := (w.ring.head?.map (·.1)).getD w.head

/-- Where a reservation of `n` granules begins: at the head, or at granule 0 when it does not fit before the end; none
while the ring has no room. The head never enters the segment that holds the tail (R162, R217). -/
def Wax.room (w : Wax) (n : Nat) : Option Nat :=
  let size := Figure.stagingGranules
  let before (at_ : Nat) : Bool := decide ((at_ + n - 1) / Figure.segmentGranules < w.tail / Figure.segmentGranules)
  if w.ring.isEmpty then (if w.head + n ≤ size then some w.head else some 0)
  else if w.tail < w.head then
    if w.head + n ≤ size then some w.head
    else if before 0 then some 0 else none
  else if before w.head then some w.head else none

/-- The segments that a reservation at `at_` makes the head enter: each records the seal counter as its base and raises
it by 32,768 (R217). -/
def Wax.enter (w : Wax) (at_ n : Nat) : Wax :=
  let seg := Figure.segmentGranules
  let first := at_ / seg
  let last := (at_ + n - 1) / seg
  let new := (List.range (last + 1 - first)).map (first + ·) |>.filter fun s => at_ < w.head || w.head ≤ s * seg
  new.foldl (fun w s => { w with segBase := setAssoc s w.sealCounter w.segBase, sealCounter := w.sealCounter + seg }) w

/-- Two runs of granules have one in common. -/
def overlaps (a n b m : Nat) : Bool := decide (a < b + m) && decide (b < a + n)

/-- Reserves `n` granules at `at_`: granules skipped at the end are padding, and what lay dead in the granules taken is overwritten
(R162, R203). -/
def Wax.take (w : Wax) (at_ n : Nat) : Wax :=
  let skipped := if at_ < w.head && !w.ring.isEmpty then [(w.head, Figure.stagingGranules - w.head)] else []
  let parts (p : Nat × Nat) : List (Nat × Nat) :=
    if overlaps at_ n p.1 p.2 then [(p.1, at_ - p.1), (at_ + n, p.1 + p.2 - (at_ + n))].filter (0 < ·.2) else [p]
  { w.enter at_ n with ring := w.ring ++ skipped ++ [(at_, n)], head := (at_ + n) % Figure.stagingGranules,
                       dead := w.dead.filter (fun p => !overlaps at_ n p.1 p.2.granules), zeroed := w.zeroed.flatMap parts }

/-- Granules of the staging ring whose copies region 2 of HBM3 holds: 2 GiB, or 1 GiB after the loss of a stack (R133, R164). -/
def State.copyGranules (s : State) : Nat := if s.ix.half then 2 ^ 25 else 2 ^ 26

/-- The HBM3 copy of the record of `n` granules at `g` is valid: it was written, and the head has advanced less than the region's
size past its end (R164). -/
def State.copyValid (s : State) (g n : Nat) : Bool :=
  decide (g ∈ s.wx.copies) && decide ((s.wx.head + Figure.stagingGranules - (g + n)) % Figure.stagingGranules < s.copyGranules)

/-- NC_COUNTER of a staging seal: the base of the segment of its first granule plus the offset within it (R217). -/
def Wax.nonce (w : Wax) (g : Nat) : Nat := (w.segBase.lookup (g / Figure.segmentGranules)).getD 0 + g % Figure.segmentGranules

/-- The bytes of a reservation leave the wear bank and count as host bytes (R196, R197, R206). -/
def Media.debit (m : Media) (bytes : Nat) : Media :=
  { m with bank := m.bank - bytes, hostBytes := m.hostBytes + bytes, winHost := m.winHost + bytes, secHost := m.secHost + bytes,
           gcAdmitted := if m.gcMode == 2 then m.gcAdmitted + bytes else m.gcAdmitted }

/-- A reservation freed without a commit returns its bytes (R197). -/
def Media.refund (m : Media) (bytes : Nat) : Media :=
  { m with bank := min (m.bank + bytes) (30 * m.accrual), hostBytes := m.hostBytes - bytes, winHost := m.winHost - bytes }

/-- The bank becomes empty when a reservation finds it holding fewer bytes than it needs (R197). -/
def State.bankCheck (s : State) (bytes : Nat) : State :=
  if s.md.bank < bytes && !s.md.bankEmpty then ((s.modMd fun m => { m with bankEmpty := true }).logChanged 0).event 5 "Wear bank empty" else s

/-- Reserves staging for a record of `n` granules, if the media admits its bytes and the ring has room; the record's HBM3 copy is
written with it (R156 step 3, R162 to R164, R192, R197). `granted` is an admission at the accrual rate, which passes an empty bank. -/
def State.reserve (s : State) (n : Nat) (granted : Bool) : State × Option Nat :=
  let s := s.bankCheck (32 * n)
  if !s.mediaAdmits (32 * n) || (s.md.bankEmpty && !granted) then (s, none)
  else
    match s.wx.room n with
    | some g => (((s.modWx fun w => { w.take g n with copies := g :: w.copies.filter (· ≠ g) }).modMd fun m => m.debit (32 * n)).logChanged 0, some g)
    | none => (s, none)

/-- Gives a reservation back, and the tail passes it (R156 step 4, R162, R197). -/
def State.unreserve (s : State) (g n : Nat) : State :=
  (((s.modWx fun w => { w with ring := w.ring.filter (fun p => p.1 ≠ g), copies := w.copies.filter (· ≠ g) }).modMd fun m => m.refund (32 * n)).logChanged
    0).trimRing

end Sys2Proof.Machine
end

