-- ==== Sys2Proof/Machine/Memory.lean ====
section
/-! DEFINITION. The HBM3 contents as canonical cells: reading a byte, writing bytes, and the form every operation keeps
(R112, log 8). -/

namespace Sys2Proof.Machine

/-- HBM3 contents: cells in strictly rising address order, none equal to what an unlisted address reads as. -/
abbrev Memory := List Host.Cell

/-- What an unlisted byte reads as (log 8). -/
def Memory.blank : Byte := 0

/-- One byte. -/
def Memory.read : Memory → Nat → Byte
  | [], _ => Memory.blank
  | c :: t, a => if c.1 = a then c.2 else Memory.read t a

/-- Every address of a memory lies above a bound, rising, and no cell is blank. -/
def Memory.above : Nat → Memory → Bool
  | _, [] => true
  | lo, c :: t => decide (lo ≤ c.1) && c.2 != Memory.blank && Memory.above (c.1 + 1) t

/-- The canonical form. -/
def Memory.wf (m : Memory) : Bool := Memory.above 0 m

/-- Puts a cell, or nothing where the byte is blank. -/
def Memory.cons (a : Nat) (b : Byte) (m : Memory) : Memory := if b = Memory.blank then m else (a, b) :: m

/-- Writes one byte in the canonical form. -/
def Memory.write : Memory → Nat → Byte → Memory
  | [], a, b => Memory.cons a b []
  | c :: t, a, b =>
    if a < c.1 then Memory.cons a b (c :: t)
    else if a = c.1 then Memory.cons a b t
    else c :: Memory.write t a b

/-- Writes bytes from an address on. -/
def Memory.writeAll (m : Memory) (a : Nat) : Bytes → Memory
  | [] => m
  | b :: t => Memory.writeAll (Memory.write m a b) (a + 1) t

/-- Reads `n` bytes from an address on. -/
def Memory.readAll (m : Memory) (a : Nat) : Nat → Bytes
  | 0 => []
  | n + 1 => Memory.read m a :: Memory.readAll m (a + 1) n

end Sys2Proof.Machine
end

