-- ==== Sys2Proof/Machine/Mantle.lean ====
section
/-! DEFINITION. The Mantle cache (R135 to R151): lines and their replacement, miss registers, the Chimney, invalidation
sweeps and the register block. Readings of corners: log 21. -/

namespace Sys2Proof.Machine

/-! ## Geometry (R112, R135 to R137) -/

/-- Lines of the 48 GiB space (R112). -/
def hbmLines : Nat := 0x30000000

/-- The stack a line of an interleaved region lies in (R112). -/
def stackOf (line : Nat) : Nat := line / 64 % 2

/-- The regions of HBM3: base and size in MiB, write attribute, and whether it is mirrored (R113, R137). -/
def hbmRegions : List (Nat × Nat × Nat × Bool) :=
  [(0, 40960, 0, false), (40960, 4096, 2, false), (45056, 2048, 2, false), (47104, 1024, 0, false), (48128, 768, 0, true),
   (48896, 64, 1, true), (48960, 64, 0, false), (49024, 128, 3, true)]

/-- The region of a line: its first line and its size in lines, and whether it is mirrored. -/
def hbmRegion (line : Nat) : Option (Nat × Nat × Bool) :=
  (hbmRegions.find? fun r => decide (r.1 ≤ line / 16384) && decide (line / 16384 < r.1 + r.2.1)).map fun r => (16384 * r.1, 16384 * r.2.1, r.2.2.2)

/-- Lines of the mirrored regions 4, 5 and 7 (R113). -/
def mirrored (line : Nat) : Bool := (hbmRegion line).any (·.2.2)

/-- Where the other copy of a line of a mirrored region lies: PRESUMED (log 8), in the other half of the region, in the other stack. -/
def mirrorOf (line : Nat) : Nat :=
  match hbmRegion line with
  | some (base, size, _) => if line < base + size / 2 then line + size / 2 else line - size / 2
  | none => line

/-- The line under which both addresses of a line of a mirrored region are cached, the lower one: its two copies are one line, so that
the usable size is half of what the region occupies; any other line is its own (R112). -/
def homeLine (line : Nat) : Nat := if mirrored line then min line (mirrorOf line) else line

/-- The lines that exist: all 48 GiB, or, after the loss of a stack, the lower half of each region, whose base the manual does not
give and stays (R112, R133, log 8). -/
def hbmHas (half : Bool) (line : Nat) : Bool :=
  match hbmRegion line with
  | some (base, size, _) => !half || decide (line < base + size / 2)
  | none => false

/-- MCH_RGN of a base and size in MiB and an attribute, valid (R150). -/
def regionWord (base size attr : Nat) : BitVec 64 := BitVec.ofNat 64 (base + 65536 * size + 2 ^ 32 * attr + 2 ^ 34)

/-- The region registers the drive sets: the layout of R113, or after the loss of a stack that of R133 (R137, R150, log 30). -/
def cacheRegions (half : Bool) : List (BitVec 64) := hbmRegions.map fun r => regionWord r.1 (if half then r.2.1 / 2 else r.2.1) r.2.2.1

def lineSet (line : Nat) : Nat := line % 65536
def lineTag (line : Nat) : Nat := line / 65536
def lineOf (set tag : Nat) : Nat := tag * 65536 + set

/-- The write attribute that region registers give a line: of the lowest-numbered valid region that holds it, or uncached (R137). -/
def attrIn (rgn : List (BitVec 64)) (line : Nat) : Nat :=
  let mib := line / 16384
  match rgn.find? fun r => r.getLsbD 34 && decide ((r.extractLsb' 0 16).toNat ≤ mib)
      && decide (mib < (r.extractLsb' 0 16).toNat + (r.extractLsb' 16 16).toNat) with
  | some r => (r.extractLsb' 32 2).toNat
  | none => 3

def Mantle.attr (m : Mantle) (line : Nat) : Nat := attrIn m.rgn line

/-- The nodes on the path of a way, root first, with the half that holds the way (R136). -/
def plruPath (way : Nat) : List (Nat × Bool) :=
  let b3 := way / 8 % 2
  let b2 := way / 4 % 2
  let b1 := way / 2 % 2
  let n1 := 1 + b3
  let n2 := 2 * n1 + 1 + b2
  [(0, b3 == 1), (n1, b2 == 1), (n2, b1 == 1), (2 * n2 + 1 + b1, way % 2 == 1)]

/-- Every node on the way's path points away from it (R136). -/
def plruTouch (t : BitVec 15) (way : Nat) : BitVec 15 :=
  (plruPath way).foldl (fun t (n, hi) => if hi then t &&& ~~~(1#15 <<< n) else t ||| (1#15 <<< n)) t

/-- The way the node bits lead to; a bit of 0 points to the lower half (R136). -/
def plruVictim (t : BitVec 15) : Nat :=
  let b3 := (t.getLsbD 0).toNat
  let n1 := 1 + b3
  let b2 := (t.getLsbD n1).toNat
  let n2 := 2 * n1 + 1 + b2
  let b1 := (t.getLsbD n2).toNat
  8 * b3 + 4 * b2 + 2 * b1 + (t.getLsbD (2 * n2 + 1 + b1)).toNat

/-- The way that holds a line. -/
def Mantle.way? (m : Mantle) (line : Nat) : Option (Nat × Way) :=
  (m.lines.find? fun e => e.1.1 == lineSet line && e.2.tag == lineTag line).map fun e => (e.1.2, e.2)

def Mantle.touch (m : Mantle) (set way : Nat) : Mantle :=
  { m with plru := setAssoc set (plruTouch ((m.plru.lookup set).getD 0) way) m.plru }

/-- The victim of a set: the lowest invalid way, or the one the node bits lead to (R136). -/
def Mantle.victim (m : Mantle) (set : Nat) : Nat :=
  match (List.range 16).find? fun w => (m.lines.lookup (set, w)).isNone with
  | some w => w
  | none => plruVictim ((m.plru.lookup set).getD 0)

/-! ## Writes to HBM3 and the Chimney (R141 to R144) -/

/-- Bytes written into a line. -/
def mergeLine (d : Bytes) (w : CacheWrite) : Bytes :=
  padTo 64 (d.take w.offset ++ w.data ++ d.drop (w.offset + w.data.length))

/-- An entry whose data HBM3 has not accepted is pinned (R141). -/
def Chim.pinned (c : Chim) : Bool := c.pending || c.dirty

def Mantle.lineData (m : Mantle) (line : Nat) : Bytes := Memory.readAll m.hbm (64 * line) 64

/-- Both copies are written of a line of a mirrored region, one of any other; a drive with one stack has one copy (R112, R133). -/
def Mantle.store (m : Mantle) (line off : Nat) (d : Bytes) : Mantle :=
  let both := mirrored line && m.twoStacks
  let h := Memory.writeAll m.hbm (64 * line + off) d
  { m with hbm := if both then Memory.writeAll h (64 * mirrorOf line + off) d else h }

/-- A write to HBM3 of bytes of a line; it follows a write-back of the line that is not yet accepted (R143). -/
def Mantle.through (m : Mantle) (line : Nat) (w : CacheWrite) : Mantle :=
  if m.chimney.any (fun c => c.line == line && c.pinned) then { m with deferredWb := m.deferredWb ++ [(line, w)] }
  else m.store line w.offset (w.data.take (64 - w.offset))

/-- Room for one more Chimney entry (R141, R144). -/
def Mantle.chimRoom (m : Mantle) : Bool := decide (m.chimney.length < 32) || m.chimney.any fun c => !c.pinned

/-- The running invalidation command acts on a line: one of the addresses of its copies lies in the range (R112, R146). -/
def Mantle.inSweep (m : Mantle) (line : Nat) : Bool :=
  let here (l : Nat) : Bool := decide (m.invLo ≤ l) && decide (l ≤ m.invHi)
  here line || (mirrored line && here (mirrorOf line))

/-- The running command also drops the Chimney entry of a line: one of its range, under OP 01b or 10b, whose set the sweep has still to
reach (R146). -/
def Mantle.dropsClean (m : Mantle) (line : Nat) : Bool := m.invBusy && m.invOp != 3 && m.inSweep line && decide (m.invNext ≤ lineSet line)

/-- A new Chimney entry, in place of the oldest unpinned one when all 32 are used. A dirty one is issued at once, unless
an earlier write-back of its line is not yet accepted (R141, R143). One that an invalidation drops leaves as soon as it is clean, a clean
one at once (R146). -/
def Mantle.chimPush (m : Mantle) (line : Nat) (dirty valid : Bool) (d : Bytes) (swept : Bool := false) : Mantle :=
  let leaves := swept || m.dropsClean line
  if leaves && !dirty then m
  else
    let l := if m.chimney.length < 32 then m.chimney else m.chimney.eraseP fun c => !c.pinned
    let first := !(l.any fun c => c.line == line && c.pinned)
    { m with chimney := l ++ [{ line := line, dirty := dirty, valid := valid, pending := dirty && first, data := d, swept := swept,
                                leaves := leaves }] }

/-- Moves the line of a way into the Chimney; none where every entry is pinned (R141, R144). -/
def Mantle.evict (m : Mantle) (set way : Nat) : Option Mantle :=
  match m.lines.lookup (set, way) with
  | none => some m
  | some y =>
    if m.chimRoom then some ({ m with lines := dropAssoc (set, way) m.lines }.chimPush (lineOf set y.tag) y.dirty true y.data) else none

/-- Installs a line in the victim way of its set (R136). -/
def Mantle.install (m : Mantle) (line : Nat) (dirty : Bool) (d : Bytes) : Option Mantle :=
  let set := lineSet line
  let w := m.victim set
  (m.evict set w).map fun m =>
    { m with lines := setAssoc (set, w) { tag := lineTag line, dirty := dirty, data := d } m.lines }.touch set w

/-- The Chimney entry of a line is no longer snoopable; a pinned one still completes (R142). -/
def Mantle.unsnoop (m : Mantle) (line : Nat) : Mantle :=
  { m with chimney := m.chimney.filterMap fun c =>
      if c.line == line && c.valid then (if c.pinned then some { c with valid := false } else none) else some c }

/-! ## Accesses (R136 to R144, R149) -/

/-- What a reader gets (log 7). -/
def State.readOut (s : State) (line : Nat) (w : Option CacheWrite) (d : Bytes) : State :=
  if w.isNone then s.emit (.cacheData line d) else s

/-- An access that waits for a miss register or for the Chimney (R139, R144). -/
def State.stall (s : State) (line : Nat) (w : Option CacheWrite) : State :=
  s.modMc fun m => { m with waits := m.waits ++ [{ line := line, write := w }] }

/-- An access that passes by the cache (R137, R149). -/
def State.bypass (s : State) (line : Nat) (w : Option CacheWrite) : State :=
  match w with
  | none => s.readOut line none (s.mc.lineData line)
  | some x => s.modMc fun m => m.through line x

/-- A hit on the way that holds the line: a write-back region only marks the line dirty, the others and NOALLOC also
write HBM3 (R136, R137, R149). -/
def State.hitLine (s : State) (line : Nat) (w : Option CacheWrite) : State :=
  match s.mc.way? line with
  | none => s
  | some (way, y) =>
    let s := s.modMc fun m => { m with hits := m.hits + 1 }.touch (lineSet line) way
    match w with
    | none => s.readOut line none y.data
    | some x =>
      let back := s.mc.attr line == 0 && !s.mc.noalloc
      let y' := { y with data := mergeLine y.data x, dirty := y.dirty || back }
      let s := s.modMc fun m => { m with lines := setAssoc (lineSet line, way) y' m.lines }
      if back then s else s.modMc fun m => m.through line x

/-- A snoop hit serves the data and re-installs the line clean (R142); under NOALLOC it installs nothing, and a write
follows the entry's write-back to HBM3 (R149, log 21). -/
def State.snoopHit (s : State) (line : Nat) (w : Option CacheWrite) (d : Bytes) : State :=
  if s.mc.noalloc then
    let s := s.modMc fun m => { m with hits := m.hits + 1 }
    match w with
    | none => s.readOut line none d
    | some x => s.modMc fun m => (m.unsnoop line).through line x
  else
    match (s.mc.unsnoop line).install line false d with
    | some m => (s.modMc fun _ => m).hitLine line w
    | none => s.stall line w

/-- A miss takes a free miss register, or joins the register of its line (R139). -/
def State.takeMiss (s : State) (line : Nat) (w : Option CacheWrite) : State :=
  let rd := w.isNone.toNat
  match s.mc.miss.find? (·.line == line) with
  | some r =>
    if 8 ≤ r.secondary then s.stall line w
    else s.modMc fun m => { m with misses := m.misses + 1, miss := m.miss.map fun x =>
      if x.line == line then { x with secondary := x.secondary + 1, readers := x.readers + rd, merged := x.merged ++ w.toList } else x }
  | none =>
    if 64 ≤ s.mc.miss.length then s.stall line w
    else s.modMc fun m => { m with misses := m.misses + 1, miss := m.miss ++
      [{ line := line, drop := false, secondary := 0, readers := rd, merged := w.toList }] }

/-- One access: bypass, hit, snoop hit or miss; a write miss of a region that does not allocate joins the miss register of its line if there
is one, and else goes to HBM3 alone (R136, R137, R139, R142, R149). -/
def State.access (s : State) (line : Nat) (w : Option CacheWrite) : State :=
  if !s.mc.enable || s.mc.attr line == 3 then s.bypass line w
  else if (s.mc.way? line).isSome then s.hitLine line w
  else match s.mc.chimney.find? fun c => c.line == line && c.valid with
    | some c => s.snoopHit line w c.data
    | none =>
      match w with
      | none => s.takeMiss line none
      | some x =>
        if (s.mc.attr line == 0 && !s.mc.noalloc) || s.mc.miss.any (·.line == line) then s.takeMiss line (some x)
        else s.modMc fun m => { m with misses := m.misses + 1 }.through line x

/-! ## Fills (R140, R146 to R148) -/

/-- Every waiter of a register is released with the arrived line (R140, R148). -/
def State.releaseMiss (s : State) (r : Miss) (d : Bytes) : State :=
  let s := { s with out := s.out ++ List.replicate r.readers (Out.cacheData r.line d) }
  s.modMc fun m => { m with miss := m.miss.filter (·.line ≠ r.line), invDrop := m.invDrop.filter (· ≠ r.line) }

/-- A fill that has arrived: a DROP fill, or one whose region does not allocate, releases its waiters and sends its merged
writes to HBM3; any other is installed, once the Chimney has room for the victim, and its merged writes go to HBM3 too unless the region
is write-back (R137, R139, R140, R144, R148, R149). -/
def State.fill (s : State) (r : Miss) : State :=
  let d := r.merged.foldl mergeLine (s.mc.lineData r.line)
  if r.drop || s.mc.noalloc || 2 ≤ s.mc.attr r.line then
    (s.releaseMiss r d).modMc fun m => r.merged.foldl (fun m w => m.through r.line w) m
  else
    let back := s.mc.attr r.line == 0
    match s.mc.install r.line (back && !r.merged.isEmpty) d with
    | some m => ((s.modMc fun _ => m).releaseMiss r d).modMc fun m => if back then m else r.merged.foldl (fun m w => m.through r.line w) m
    | none => s.modMc fun m => { m with miss := m.miss.map fun x => if x.line == r.line then { x with arrived := true } else x }

/-! ## Invalidation (R146) -/

/-- What the sweep does with one line: 1 invalidates it, 2 writes it back and invalidates it, 3 writes it back and leaves
it clean. A dirty line that finds no room in the Chimney is swept later (R144, R146). -/
def Mantle.sweepLine (m : Mantle) (op line : Nat) : Mantle :=
  match m.way? line with
  | none => m
  | some (w, y) =>
    let k := (lineSet line, w)
    if op = 1 || (op = 2 && !y.dirty) then { m with lines := dropAssoc k m.lines }
    else if !y.dirty then m
    else if !m.chimRoom then { m with invTodo := m.invTodo ++ [line] }
    else
      let m := { m with invWb := m.invWb ++ [line] }
      if op = 2 then { m with lines := dropAssoc k m.lines }.chimPush line true true y.data true
      else { m with lines := setAssoc k { y with dirty := false } m.lines }.chimPush line true false y.data true

/-- The sweep comes to the sets before `n`, in set order: the lines that stand in them now are handled (R146, R147). -/
def Mantle.sweepTo (m : Mantle) (n : Nat) : Mantle :=
  let here (line : Nat) : Bool := m.inSweep line && decide (m.invNext ≤ lineSet line) && decide (lineSet line < n)
  let ls := ((m.lines.map fun e => lineOf e.1.1 e.2.tag).filter here).insertionSort fun a b => lineSet a ≤ lineSet b
  ls.foldl (fun m l => m.sweepLine m.invOp l) { m with invNext := max m.invNext n }

/-- A command is taken: DROP marks, the clean Chimney entries of the range are dropped and its others leave once they are clean, and the
sweep is due from set 0 on (R146). -/
def Mantle.begin (m : Mantle) (op : Nat) : Mantle :=
  let m := { m with invBusy := true, invOp := op, invLo := m.invBase.toNat, invHi := m.invLimit.toNat, invNext := 0 }
  { m with miss := m.miss.map (fun (r : Miss) => if m.inSweep r.line then { r with drop := true } else r),
           invDrop := (m.miss.filter fun (r : Miss) => m.inSweep r.line).map Miss.line,
           chimney := (m.chimney.filter fun (c : Chim) => c.pinned || !m.dropsClean c.line).map
             fun (c : Chim) => if m.dropsClean c.line then { c with leaves := true } else c }

/-- A write of MCH_INV_CMD; one that arrives during a sweep is ignored and sets INV_REJECT, and OP 00b is no action (R150). -/
def Mantle.command (m : Mantle) (op : Nat) : Mantle :=
  if m.invBusy then { m with invReject := true } else if op = 0 then m else m.begin op

/-! ## The attribute of a region changes (R138) -/

def Mantle.setRgn (m : Mantle) (n : Nat) (v : BitVec 64) : Mantle := { m with rgn := modAt m.rgn n fun _ => v }

/-- A line is written back through the Chimney, if it has room, and invalidated. -/
def Mantle.flushLine (m : Mantle) (line : Nat) : Mantle :=
  match m.way? line with
  | none => m
  | some (w, y) =>
    let m' := { m with lines := dropAssoc (lineSet line, w) m.lines }
    if !y.dirty then m' else if m.chimRoom then m'.chimPush line true true y.data else m

/-- A write of MCH_RGN by the drive: the lines whose attribute it changes are written back and invalidated first, and fills of them are not
installed; the write waits until HBM3 has accepted the data (R138, R143). -/
def Mantle.writeRgn (m : Mantle) (n : Nat) (v : BitVec 64) : Mantle :=
  let rgn := (m.setRgn n v).rgn
  let hit (line : Nat) : Bool := attrIn m.rgn line != attrIn rgn line
  let m := (((m.lines.map fun e => lineOf e.1.1 e.2.tag).filter hit)).foldl Mantle.flushLine m
  let m := { m with miss := m.miss.map fun (r : Miss) => if hit r.line then { r with drop := true } else r,
                    chimney := m.chimney.filter fun (c : Chim) => c.pinned || !hit c.line }
  if m.lines.any (fun e => hit (lineOf e.1.1 e.2.tag)) || m.chimney.any (fun c => hit c.line) then { m with rgnWrites := m.rgnWrites ++ [(n, v)] }
  else m.setRgn n v

/-- Writes of MCH_RGN that wait try again, in order. -/
def Mantle.retryRgn (m : Mantle) : Mantle :=
  m.rgnWrites.foldl (fun m w => if m.rgnWrites.isEmpty then m.writeRgn w.1 w.2 else { m with rgnWrites := m.rgnWrites ++ [w] }) { m with rgnWrites := [] }

/-! ## Progress -/

/-- The next write-back of a line goes out once the earlier one is accepted, then the writes that waited behind it
(R143). -/
def Mantle.issueNext (m : Mantle) (line : Nat) : Mantle :=
  match m.chimney.findIdx? fun c => c.line == line && c.dirty && !c.pending with
  | some i =>
    if m.chimney.any (fun c => c.line == line && c.pending) then m
    else { m with chimney := modAt m.chimney i fun c => { c with pending := true } }
  | none =>
    if m.chimney.any (fun c => c.line == line && c.pinned) then m
    else
      let w := m.deferredWb.filter (·.1 == line)
      w.foldl (fun m e => m.through e.1 e.2) { m with deferredWb := m.deferredWb.filter (·.1 ≠ line) }

/-- Lines still to be swept, fills that wait to be installed, accesses that wait and writes of a region try again in this order (R138,
R139, R144, R146). -/
def State.cacheProgress (s : State) : State :=
  let todo := s.mc.invTodo
  let s := s.modMc fun m => todo.foldl (fun m l => m.sweepLine m.invOp l) { m with invTodo := [] }
  let s := (s.mc.miss.filter (·.arrived)).foldl State.fill s
  let ws := s.mc.waits
  (ws.foldl (fun s a => s.access a.line a.write) (s.modMc fun m => { m with waits := [] })).modMc Mantle.retryRgn

/-- HBM3 accepts the oldest write-back of a line: its data is written and the entry unpins, or leaves (R141 to R143, R146). -/
def Mantle.accept (m : Mantle) (line : Nat) : Mantle :=
  match m.chimney.find? fun c => c.line == line && c.pending with
  | none => m
  | some c =>
    let m := { m.store line 0 (c.data.take 64) with
      invWb := if c.swept then m.invWb.erase line else m.invWb,
      chimney := if c.valid && !c.leaves then m.chimney.map (fun x => if x = c then { x with dirty := false, pending := false, swept := false } else x)
                 else m.chimney.erase c }
    m.issueNext line

/-! ## The rows; a freeze stops them (R473, R476) -/

/-- CACHE_ACCESS, of either address of a mirrored line; a line outside the space of R112, or outside what the loss of a stack leaves of it, does not exist. -/
def execCacheAccess (line : Nat) (write : Option CacheWrite) (s : State) : Res :=
  if !hbmHas (!s.mc.twoStacks) line then .fault .hbm3LineOutsideSpace else finishMem s (if s.pw.phase == .frozen then s else s.access (homeLine line) write)

/-- LINE_FILL_ARRIVAL: the fill of a line that has a miss register (R112, R140, R148). -/
def execLineFillArrival (line : Nat) (s : State) : Res :=
  finishMem s (if s.pw.phase == .frozen then s else match s.mc.miss.find? (·.line == homeLine line) with
    | some r => (s.fill r).cacheProgress
    | none => s)

/-- WRITE_BACK_ACCEPTED (R141, R143). -/
def execWriteBackAccepted (line : Nat) (s : State) : Res :=
  finishMem s (if s.pw.phase == .frozen then s else (s.modMc fun m => m.accept (homeLine line)).cacheProgress)

/-- The register block is reached by the Lamplighter, and through the debug TAP at D2 and above (R150, R402, R449). -/
def State.reaches (s : State) : RegPath → Bool
  | .lamplighter => s.alive
  | .debugTap => s.alive && decide (2 ≤ s.li.level)

/-- MCH_CTRL_WRITE (R149, R150). -/
def execMchCtrlWrite (path : RegPath) (value : BitVec 32) (s : State) : Res :=
  finish s (if s.reaches path then s.modMc fun m => { m with enable := value.getLsbD 0, noalloc := value.getLsbD 1 } else s)

/-- MCH_INVALIDATE, OP 01b (R146). -/
def execMchInvalidate (path : RegPath) (s : State) : Res :=
  finish s (if s.reaches path then s.modMc fun m => m.command 1 else s)

/-- MCH_WRITE_BACK_INVALIDATE, OP 10b (R146). -/
def execMchWriteBackInvalidate (path : RegPath) (s : State) : Res :=
  finish s (if s.reaches path then s.modMc fun m => m.command 2 else s)

/-- MCH_WRITE_BACK, OP 11b (R146). -/
def execMchWriteBack (path : RegPath) (s : State) : Res :=
  finish s (if s.reaches path then s.modMc fun m => m.command 3 else s)

/-- MCH_INV_DONE: the sweep has come to its end; INV_BUSY clears once every DROP fill has arrived and every write-back of the
command has been accepted (R146). -/
def execMchInvDone (s : State) : Res :=
  whileUp s (
    let s := s.modMc fun m => m.sweepTo 65536
    if s.mc.invTodo.isEmpty && s.mc.invDrop.isEmpty && s.mc.invWb.isEmpty then s.modMc fun m => { m with invBusy := false } else s)

/-- The mailbox of a register; MBX_STATUS.OVERRUN is W1C, MBX_HDR is RW, the others are RO (R402). -/
def State.writeMbx (s : State) (r : Reg) (v : BitVec 256) : State :=
  match r with
  | .mbxStatus n => s.modBox n fun b => { b with overrun := b.overrun && !v.getLsbD 7 }
  | .mbxHdr n => s.modBox n fun b => { b with hdr := v }
  | _ => s

/-- A register keeps its writable fields, clears the W1C bits written 1 and ignores the rest. Before the drive changes a region's attribute
it writes back and invalidates the lines concerned; DEDUCED (log 21): a user at the debug TAP must do so himself (R8, R9, R138, R149, R150,
R385, R402). -/
def State.writeReg (s : State) (path : RegPath) (r : Reg) (v : BitVec 256) : State :=
  match r with
  | .mchStatus => s.modMc fun m => { m with invReject := m.invReject && !v.getLsbD 10 }
  | .mchInvBase => s.modMc fun m => { m with invBase := v.extractLsb' 6 30 }
  | .mchInvLimit => s.modMc fun m => { m with invLimit := v.extractLsb' 6 30 }
  | .mchInvCmd => s.modMc fun m => m.command (v.extractLsb' 0 2).toNat
  | .mchRgn n =>
    let w := (v.extractLsb' 0 35).setWidth 64
    s.modMc fun m => if path == .lamplighter then (if m.rgnWrites.isEmpty then m.writeRgn n w else { m with rgnWrites := m.rgnWrites ++ [(n, w)] })
      else m.setRgn n w
  | .mchHitCnt | .mchMissCnt | .mcvWick | .mcvTaper => s
  | r => s.writeMbx r v

/-- REGISTER_WRITE (R8, R150, R402). -/
def execRegisterWrite (path : RegPath) (reg : Reg) (value : BitVec 256) (s : State) : Res :=
  finish s (if s.reaches path then s.writeReg path reg value else s)

end Sys2Proof.Machine
end

