-- ==== Sys2Proof/Machine/Segment.lean ====
section
/-! DEFINITION. A controller's data on its way out: the C2HData PDUs and TLS records it takes (R223, R224, R343). -/

namespace Sys2Proof.Machine

/-! ## A controller's data (R59, R60, R223, R343) -/

/-- Data bytes of the C2HData PDUs of a transfer: at most 131,072 each. -/
def c2hSizes (n : Nat) : List Nat := List.replicate (n / 131072) 131072 ++ (if n % 131072 = 0 then [] else [n % 131072])

/-- Bytes of a C2HData PDU: its header of 24 bytes, the digests in use, and its data. -/
def Conn.pduBytes (k : Conn) (n : Nat) : Nat := 24 + 4 * k.hdgst.toNat + n + 4 * k.ddgst.toNat

/-- TLS records of a transfer of `n` data bytes (R223). -/
def Conn.recordsOf (k : Conn) (n : Nat) : Nat := if k.tls then ((c2hSizes n).map fun d => (k.pduBytes d + 16383) / 16384).sum else 0

/-- A new sending traffic key, under which nothing has been sent (R224). -/
def Conn.update (k : Conn) : Conn := { k with txGen := k.txGen + 1, txRecords := 0, txSecret := nextTraffic k.txSecret }

/-- Records have gone out on a connection: with the 2^24th under a traffic key the drive sends KeyUpdate (R224). DESIGN CHOICE (log 27):
the records that carry data count here, and KEY_UPDATE_SEND stands for those that do not. -/
def State.countRecords (s : State) (k : Conn) (n : Nat) : State :=
  if 2 ^ 24 ≤ k.txRecords + n then (s.modConn k.id Conn.update).emit (.tls k.id "KeyUpdate update_requested")
  else s.whenB (n != 0) fun s => s.modConn k.id fun k => { k with txRecords := k.txRecords + n }

/-- Data goes out to the host of a queue; on TCP its TLS records count under their traffic key (R224, R343). -/
def State.sendData (s : State) (ctrl sq cid : Nat) (d : Bytes) : State :=
  let s := s.emit (.data ctrl sq cid d)
  match (s.fe.connOf ctrl sq).filter fun k => !k.rdma with
  | some k => s.countRecords k (k.recordsOf d.length)
  | none => s

end Sys2Proof.Machine
end

