-- ==== Sys2Proof/Machine/Flight.lean ====
section
/-! DEFINITION. Outstanding commands and their completion (R88, R156 step 7), the walk of a namespace in listing order
(R70), and dies that fail (R187, R201): what the micro-engines and the command path share. -/

namespace Sys2Proof.Machine

/-! ## Outstanding commands -/

def State.cmd? (s : State) (ctrl sq cid : Nat) : Option Cmd :=
  s.fl.cmds.find? fun c => c.ctrl == ctrl && c.sq == sq && c.e.cid == cid

/-- Rewrites the command with a fetch number. -/
def State.modCmd (s : State) (fetch : Nat) (f : Cmd → Cmd) : State :=
  s.modFl fun x => { x with cmds := x.cmds.map fun c => if c.fetch == fetch then f c else c }

def State.phase (s : State) (c : Cmd) (p : CmdPhase) : State := s.modCmd c.fetch fun x => { x with phase := p }

def State.dropCmd (s : State) (fetch : Nat) : State :=
  s.modFl fun x => { x with cmds := x.cmds.filter (·.fetch ≠ fetch), bucketQ := x.bucketQ.filter (· ≠ fetch) }

/-- The commands charged the length of their host buffer (R45). -/
def IoKind.reads (k : IoKind) : Bool := k.isRetrieve || k == .list || k == .filteredList || k == .getReceipt

/-- What a completing command did not transfer of the buffer it was charged for goes back to its rate class (R45). -/
def State.giveBack (s : State) (c : Cmd) (sent : Nat) : State :=
  let k := actRate c.action
  if c.rateCharged && k != 0 && c.kind.reads then
    s.modVa fun v => { v with rate := modAt v.rate k fun r => { r with usedB := r.usedB - (chargedBytes c.kind c.e - sent) } }
  else s

/-- A command completes: it leaves the drive, a reservation it still holds is given back unless it has committed, the bytes of its
rate charge that it did not transfer are returned, and its completion is posted, or sent to the twin that forwarded it (R45, R156
step 7, R197, R267). -/
def State.complete (s : State) (c : Cmd) (st : Status) (dw0 : Nat := 0) (dw1 : Nat := 0) (data : Bytes := [])
    (dnr : Bool := statusDnr st) : State :=
  let s := (s.dropCmd c.fetch).giveBack c data.length
  let s := match c.granule, c.seq with
    | some g, none => s.unreserve g c.granules
    | _, _ => s
  let s := s.modKy fun k => { k with hashBusy := if c.stage == 1 && c.kind.isStore then k.hashBusy - 1 else k.hashBusy }
  match c.forwardedFrom with
  | some (a, b, d) => { s with out := s.out ++ [.forwardDone a b d st dw0 dw1 data] }
  | none =>
    let s := if data.isEmpty then s else s.sendData c.ctrl c.sq c.e.cid data
    s.post c.ctrl c.sq c.e.cid st dw0 dw1 dnr (sglInv c.e.sgl)

/-- The completion of a command that returned data. -/
def State.completeRead (s : State) (c : Cmd) (data : Bytes) (dw0 dw1 : Nat) : State := s.complete c .success dw0 dw1 data

/-! ## Listing (R70) -/

/-- The keys of a namespace that the index holds. -/
def State.keysOf (s : State) (nsid : Nat) : List Key :=
  (s.ix.all.filterMap fun (_, t) => s.recAt t.loc).filterMap fun r => if r.nsid == nsid && s.unseals r then some r.key else none

/-- The order of byte strings that tells keys of one rank apart. -/
def bytesLt : Bytes → Bytes → Bool
  | [], [] => false
  | [], _ :: _ => true
  | _ :: _, [] => false
  | a :: x, b :: y => decide (a.toNat < b.toNat) || (a == b && bytesLt x y)

/-- Listing order: by rank, and by their bytes for keys of one rank, so that every key has one place in it (R70, log 15). -/
def listedBefore (nsid : Nat) (a b : Key) : Bool :=
  decide (Config.listingRank nsid a < Config.listingRank nsid b) || (Config.listingRank nsid a == Config.listingRank nsid b && bytesLt a b)

/-- Keys in listing order after a start key, which need not be present (R70). -/
def State.listFrom (s : State) (nsid : Nat) (start : Key) (longest : Nat) : List Key :=
  ((s.keysOf nsid).filter fun k => decide (k.length ≤ longest) && (start.isEmpty || listedBefore nsid start k)).mergeSort
    fun a b => !listedBefore nsid b a

/-- As many whole entries as fit. -/
def fitEntries (f : Key → Bytes) : Nat → List Key → List Key
  | _, [] => []
  | room, k :: t => if (f k).length ≤ room then k :: fitEntries f (room - (f k).length) t else []

/-! ## Dies (R187, R201, R202) -/

/-- Live records with a part on a block set that `hit` names, by granule (R182, R200, R201). -/
def State.liveOn (s : State) (hit : Nat × Nat × Nat → Bool) : List Nat :=
  (s.md.nand.filter fun p => s.ix.points (.nand p.1) && (match s.md.bandOf p.1 with
    | some b => b.members.any fun x => hit x && b.onMember x p.1 p.2.granules
    | none => hit (naMember p.1))).map (·.1)

def Media.addDue (m : Media) (l : List Nat) : Media := { m with due := m.due ++ l.filter fun g => g ∉ m.due }
def Media.addBad (m : Media) (l : List Nat) : Media := { m with badNand := m.badNand ++ l.filter fun g => g ∉ m.badNand }

/-- A patrol pass ends at a power-on time, in seconds, and the next begins: the patrol's own, or a completed segment 6 of a self-test,
which counts as one (R199, R517). -/
def Media.passDone (m : Media) (t : Nat) : Media :=
  { m with patrolPasses := m.patrolPasses + 1, patrolProgress := 0, patrolFast := false, patrolStart := t,
           bands := m.bands.map fun b => { b with read := 0 } }

/-- The die of a block set is lost. -/
def Media.onLost (m : Media) (x : Nat × Nat × Nat) : Bool := decide ((x.1, x.2.1) ∈ m.diesLost)

/-- A record that block sets which `gone` names take with them: parity gives back one member of a row of an OPEN or VERIFY band, and none
of any other band (R187, R201). -/
def Media.takenBy (m : Media) (gone : Nat × Nat × Nat → Bool) (g n : Nat) : Bool :=
  match m.bandOf g with
  | none => gone (naMember g)
  | some b =>
    if b.state == 1 || b.state == 2 then
      match b.pagesOf g n with
      | some (a, z) => (List.range (z / 4 - a / 4 + 1)).any fun k => b.rowGone gone ((a / 4 + k) * 4)
      | none => gone (naMember g)
    else b.members.any fun x => gone x && b.onMember x g n

/-- A record that lost dies take (R187, R201). -/
def Media.taken (m : Media) (g n : Nat) : Bool := m.takenBy m.onLost g n

/-- SPARE_BANDS below its thresholds: the SMART spare warning; with none left the drive takes no store that raises the live
bytes (R202). -/
def State.spareWatch (s : State) (before : Nat) : State :=
  if 10 ≤ before && s.md.availableSpare < 10 then s.notifyAll .smartHealth else s

/-- A die is retired or lost: the SMART reliability warning, the event and the black box (R201, R504). -/
def State.dieGone (s : State) (what channel die : Nat) : State :=
  let s := s.modPw fun p => { p with reliability := true }
  (((s.event 5 (if what = 1 then "Die lost" else "Die retired")).blackBox 9 srcDrive [what, channel, die])).notify .smartHealth fun _ => true

/-- Block sets of a die that are in service. -/
def Media.dieSets (m : Media) (channel die : Nat) : Nat :=
  if m.dieServes (channel, die, 0) then 2048 - m.blocks.countP fun p => p.1.1 == channel && p.1.2.1 == die && p.2.retired else 0

/-- A die leaves service with its block sets: the live records of a retired one are due for relocation, and what a lost one takes is
left to the twin or to R189 (R201, R202, R207). -/
def State.dieLeaves (s : State) (lost : Bool) (channel die : Nat) : State :=
  let before := s.md.availableSpare
  let n := s.md.blockSets - s.md.dieSets channel die
  let s := (s.countErr (if lost then 16 else 15)).modMd fun m =>
    { m with blockSets := n, inService := n / 16,
             diesLost := if lost then (channel, die) :: m.diesLost else m.diesLost,
             diesRetired := if lost then m.diesRetired else (channel, die) :: m.diesRetired }
  let s := s.modMd fun m =>
    if lost then m.addBad ((m.nand.filter fun p => m.taken p.1 p.2.granules).map (·.1))
    else m.addDue (s.liveOn fun x => x.1 == channel && x.2.1 == die)
  (s.dieGone lost.toNat channel die).spareWatch before

/-- A die-level fault; the third within 24 h retires the die (R201). -/
def State.dieFault (s : State) (channel die : Nat) : State :=
  let s := s.modMd fun m => { m with dieFaults := m.dieFaults ++ [((channel, die), s.mono)] }
  let n := s.md.dieFaults.countP fun p => p.1 == (channel, die) && decide (s.mono < p.2 + 86400 * Figure.secondNs)
  if 3 ≤ n && !((channel, die) ∈ s.md.diesRetired) then s.dieLeaves false channel die else s

end Sys2Proof.Machine
end

