-- ==== Sys2Proof/Machine/Micro.lean ====
section
/-! DEFINITION. Micro-engines (chapter 14): words and their fields, the data path, sample points, the evaluation of
Filtered List programs, loading and unloading of programs, customer keys, and the meanings of all of these. -/

namespace Sys2Proof.Machine

/-! ## Words (R370 to R374, R385, R386) -/

/-- A field of a word. -/
def fieldAt {w : Nat} (x : BitVec w) (lo n : Nat) : Nat := (x.extractLsb' lo n).toNat

def mwNptr (x : BitVec 40) : Nat := fieldAt x 26 14
def mwSeq (x : BitVec 40) : Nat := fieldAt x 23 3
def mwInv (x : BitVec 40) : Bool := x.getLsbD 22
def mwCond (x : BitVec 40) : Nat := fieldAt x 18 4
def mwTim (x : BitVec 40) : Nat := fieldAt x 15 3
def mwTgt (x : BitVec 40) : Nat := fieldAt x 0 15

/-- The microword an engine fetches: a trapped factory address takes the patch word (R386). -/
def Micro.wickWord (m : Micro) (a : Nat) : BitVec 40 :=
  let a := if a < 24576 then (m.traps.lookup a).getD a else a
  if a < 24576 then Config.romMicro a else (m.micro.lookup a).getD 0
def Micro.taperWord (m : Micro) (n a : Nat) : BitVec 40 :=
  let t := m.taperStores.getD n {}
  let a := if a < 7168 then (t.traps.lookup a).getD a else a
  if a < 7168 then Config.romTaperMicro a else (t.micro.lookup a).getD 0
def Micro.nanoWord (m : Micro) (p : Nat) : BitVec 128 := if p < 14336 then Config.romNano p else (m.nano.lookup p).getD 0
def Micro.taperNanoWord (m : Micro) (n p : Nat) : BitVec 128 :=
  if p < 1792 then Config.romTaperNano p else (((m.taperStores.getD n {}).nano).lookup p).getD 0

def Micro.engine (m : Micro) : EngineId → Engine
  | .wick n => (m.wick.lookup n).getD {}
  | .taper n => (m.taper.lookup n).getD {}
def Micro.setEngine (m : Micro) (u : EngineId) (e : Engine) : Micro :=
  match u with
  | .wick n => { m with wick := setAssoc n e m.wick }
  | .taper n => { m with taper := setAssoc n e m.taper }
def Micro.word (m : Micro) (u : EngineId) (a : Nat) : BitVec 40 :=
  match u with
  | .wick _ => m.wickWord a
  | .taper n => m.taperWord n a

/-- The addresses in RAM of the microword and the nanoword that an engine fetches at `a`: a trapped address is fetched from its patch
(R370, R386). -/
def Micro.ramFetched (m : Micro) (u : EngineId) (a : Nat) : List Nat :=
  match u with
  | .wick _ => [if a < 24576 then (m.traps.lookup a).getD a else a].filter (24576 ≤ ·) ++ [mwNptr (m.wickWord a)].filter (14336 ≤ ·)
  | .taper n => [if a < 7168 then ((m.taperStores.getD n {}).traps.lookup a).getD a else a].filter (7168 ≤ ·)
      ++ [mwNptr (m.taperWord n a)].filter (1792 ≤ ·)

/-- Some routine still runs; a sequencer that has stopped runs none (R384, R387). -/
def Micro.anyRuns (m : Micro) : Bool := (m.wick ++ m.taper).any fun e => e.2.running && !e.2.stopped

/-- An engine that exists: 64 Wick engines and 32 Taper sequencers (R370). -/
def unitExists : EngineId → Bool
  | .wick n => decide (n < 64)
  | .taper n => decide (n < 32)

def State.engine (s : State) (u : EngineId) : Engine := s.me.engine u
def State.setEngine (s : State) (u : EngineId) (e : Engine) : State := s.modMe fun m => m.setEngine u e
def Micro.prog? (m : Micro) (id : Nat) : Option Program := m.progs.find? (·.id == id)

/-- The program that an engine runs. -/
def State.progOf (s : State) (e : Engine) : Option Program := e.prog.bind s.me.prog?

/-- A request waits for a sample point (R374, R383). -/
def Engine.attn (e : Engine) : Bool := e.abortReq || e.suspendReq || e.drainReq

/-- The condition a microword selects, before inversion; one marked "—" for the unit, and the reserved code, reads 0. The
manual gives no event for the cipher job, the bucket compare, the operation queue, the LUN, the bus grant and the interval
timer: `pin` is what they read. The flags and the loop counter of a Taper sequencer are written by nanowords whose meaning the manual keeps
to Haldiaz, so they read `pin` too (R374, R379, log 16). -/
def condition (taper pin : Bool) (e : Engine) (code : Nat) : Bool :=
  if taper && decide (1 ≤ code) && decide (code ≤ 5) then pin
  else match code with
  | 0 => true
  | 1 => e.z
  | 2 => e.c
  | 3 => e.n
  | 4 => e.v
  | 5 => e.lc == 0
  | 6 => !taper && e.memReady
  | 7 => !taper && e.hashReady
  | 8 => !taper && pin
  | 9 => !taper && pin
  | 10 => !taper && pin
  | 11 => e.attn
  | 12 => taper && pin
  | 13 => taper && pin
  | 14 => taper && pin
  | _ => false

def isTaper : EngineId → Bool
  | .wick _ => false
  | .taper _ => true

def condHolds (u : EngineId) (pin : Bool) (e : Engine) (w : BitVec 40) : Bool :=
  condition (isTaper u) pin e (mwCond w) != mwInv w

/-- A free value of the conditions whose events the manual does not give (R374, log 16). -/
def State.pin (s : State) : Bool := (Config.freeWord s.free).getLsbD 0

/-! ## The Wick data path (R376 to R378) -/

/-- A register; G0 reads 0 (R376). -/
def Engine.reg (e : Engine) (i : Nat) : BitVec 64 := if i = 0 then 0 else e.regs.getD i 0
/-- A write; G0 ignores it. -/
def Engine.setReg (e : Engine) (i : Nat) (v : BitVec 64) : Engine := if i = 0 then e else { e with regs := e.regs.set i v }

/-- The bytes of a register from byte 0, bits [7:0] (R377). -/
def regBytes (a : BitVec 64) : Bytes := leBytes 8 a.toNat

/-- XBE and XLE: bytes of A from offset B[2:0], length B[11:8]; none where the field leaves A or its length is not 1 to 8. -/
def extractField (big : Bool) (a b : BitVec 64) : Option (BitVec 64) :=
  let off := fieldAt b 0 3
  let len := fieldAt b 8 4
  if len = 0 ∨ 8 < off + len then none
  else
    let f := bytesAt (regBytes a) off len
    some (BitVec.ofNat 64 (leNat (if big then f.reverse else f)))

/-- Leading zeros and set bits of A. -/
def clz (a : BitVec 64) : Nat := ((List.range 64).find? fun i => a.getLsbD (63 - i)).getD 64
def popc (a : BitVec 64) : Nat := (List.range 64).countP fun i => a.getLsbD i

/-- The ALU (R377). What it gives for "None", the reserved codes and a field that leaves its register is open (log 16). -/
def alu (op : BitVec 6) (a b : BitVec 64) : BitVec 64 :=
  let sh := fieldAt b 0 6
  match op.toNat with
  | 1 => a + b
  | 2 => a - b
  | 3 => a &&& b
  | 4 => a ||| b
  | 5 => a ^^^ b
  | 6 => a <<< sh
  | 7 => a >>> sh
  | 8 => a.rotateRight sh
  | 9 => (extractField true a b).getD (Config.reservedAlu op a b)
  | 10 => (extractField false a b).getD (Config.reservedAlu op a b)
  | 11 => if a.toNat ≤ b.toNat then a else b
  | 12 => if a.toNat ≤ b.toNat then b else a
  | 13 => a * b
  | 14 => BitVec.ofNat 64 (clz a)
  | 15 => BitVec.ofNat 64 (popc a)
  | n => if 32 ≤ n then Config.factoryAlu op a b else Config.reservedAlu op a b

/-- Carry out of ADD, borrow of SUB; other operations leave C as it was (R374). -/
def aluCarry (op : BitVec 6) (a b : BitVec 64) (old : Bool) : Bool :=
  match op.toNat with
  | 1 => decide (2 ^ 64 ≤ a.toNat + b.toNat)
  | 2 => decide (a.toNat < b.toNat)
  | _ => old

/-- Signed overflow of ADD or SUB; other operations leave V as it was (R374). -/
def aluOverflow (op : BitVec 6) (a b r : BitVec 64) (old : Bool) : Bool :=
  match op.toNat with
  | 1 => a.msb == b.msb && r.msb != a.msb
  | 2 => a.msb != b.msb && r.msb != a.msb
  | _ => old

/-- NW_LC: none, load, decrement saturating at 0; the reserved codes leave an open value (R376, log 16). -/
def loopNext (code : Nat) (imm : BitVec 64) (lc : BitVec 16) : BitVec 16 :=
  match code with
  | 0 => lc
  | 1 => imm.setWidth 16
  | 2 => if lc = 0 then 0 else lc - 1
  | _ => (Config.reservedAlu (BitVec.ofNat 6 code) imm (lc.setWidth 64)).setWidth 16

/-- Cycles of a constant-table load: 12 on a Mantle cache hit, 144 on a fill (R375). -/
def loadCycles (hit : Bool) : Nat := if hit then 12 else 144

/-- Keccak permutations of SHA3-384 over a key: one up to 104 bytes (R378). -/
def keyPermutations (len : Nat) : Nat := max 1 ((len + 103) / 104)

/-- The port of a nanoword (R378): the register written in the same cycle, and the engine after. Bytes at or beyond the
key length, and table bytes at or beyond the table length, read 00h. A hash job without a free lane waits for one (R225). -/
def Engine.port (e : Engine) (table : Bytes) (hit lane : Bool) (port : BitVec 5) (off : BitVec 64) (dst : Nat) : Engine :=
  match port.toNat with
  | 0 => e
  | 1 => e.setReg dst (BitVec.ofNat 64 (leNat (padTo 8 (bytesAt e.keyWindow off.toNat 8))))
  | 2 =>
    let v := BitVec.ofNat 64 (leNat (padTo 8 (bytesAt table off.toNat 8)))
    { e with loads := e.loads ++ [(dst, v, e.cycles + 1 + loadCycles hit)], memReady := false }
  | 3 => { e with hashBusy := lane, hashWait := !lane, hashReady := false, hashBad := false,
                  hashDue := e.cycles + 1 + 66 * keyPermutations e.keyWindow.length }
  | 4 => e.setReg dst (if e.hashReady && decide (off.toNat < 6) then BitVec.ofNat 64 (natAt e.hash (8 * off.toNat) 8)
                       else Config.factoryPort port off)
  | _ => e.setReg dst (Config.factoryPort port off)

/-- A nanoword runs: operands and the port offset are read, then the ALU result, the flags, the loop counter and the
port result are written (R376). -/
def Engine.nano (e : Engine) (table : Bytes) (hit lane : Bool) (w : BitVec 128) : Engine :=
  let op : BitVec 6 := w.extractLsb' 122 6
  let a := e.reg (fieldAt w 116 6)
  let imm : BitVec 64 := w.extractLsb' 0 64
  let b := if w.getLsbD 109 then imm else e.reg (fieldAt w 110 6)
  let off := e.reg (fieldAt w 90 6)
  let r := alu op a b
  let lc := loopNext (fieldAt w 80 4) imm e.lc
  let f := if w.getLsbD 101 then
      { e with z := r == 0, n := r.msb, c := aluCarry op a b e.c, v := aluOverflow op a b r e.v }
    else e
  let f := if w.getLsbD 102 then f.setReg (fieldAt w 103 6) r else f
  ({ f with lc := lc }).port table hit lane (w.extractLsb' 96 5) off (fieldAt w 84 6)

/-- Hash lanes in use: by stores with a leaf, and by the hash jobs of engines (R225, R378). -/
def State.hashLanes (s : State) : Nat := s.ky.hashBusy + s.me.wick.countP fun e => e.2.hashBusy

/-- Where the table of a program lies in HBM3. DESIGN CHOICE (log 16): the 128 KiB of table space is the first of working memory, region 4,
whose layout the manual does not give (R113, R392). -/
def Program.tableAt (p : Program) : Nat := 0xBC0000000 + p.tableBase

/-- The byte of a loaded program's table at an address of HBM3, of either copy of its line (R112, R392). -/
def Micro.tableByte (m : Micro) (a : Nat) : Option Byte :=
  let h := 64 * homeLine (a / 64) + a % 64
  m.progs.findSome? fun p => if p.tableAt ≤ h then p.table[h - p.tableAt]? else none

/-- A line as a fill by an engine finds it: the tables in their place, and otherwise what HBM3 holds. -/
def State.tableLine (s : State) (line : Nat) : Bytes :=
  (List.range 64).map fun i => (s.me.tableByte (64 * line + i)).getD (Memory.read s.mc.hbm (64 * line + i))

/-- The lines of the eight bytes of a table at an offset within it. -/
def Program.tableLines (p : Program) (off : Nat) : List Nat :=
  ((List.range 8).filterMap fun i => if off + i < p.table.length then some ((p.tableAt + off + i) / 64) else none).eraseDups

/-- An engine reads a line through the Mantle cache: whether it hits, and the cache after. DESIGN CHOICE (log 16): a fill by an engine is
installed as it is asked for and takes no miss register (R135, R142, R375, R378). -/
def Mantle.tableRead (m : Mantle) (data : Nat → Bytes) (line : Nat) : Mantle × Bool :=
  if !m.enable || m.attr line == 3 then (m, false)
  else match m.way? line with
    | some (way, _) => ({ m with hits := m.hits + 1 }.touch (lineSet line) way, true)
    | none =>
      match m.chimney.find? fun c => c.line == line && c.valid with
      | some c =>
        let m := { m with hits := m.hits + 1 }
        (if m.noalloc then m else ((m.unsnoop line).install line false c.data).getD m, true)
      | none =>
        let m := { m with misses := m.misses + 1 }
        (if m.noalloc || 2 ≤ m.attr line then m else (m.install line false (data line)).getD m, false)

/-- The lines of a load, in order; it is a hit if each of them is. -/
def Mantle.tableReads (m : Mantle) (data : Nat → Bytes) (lines : List Nat) : Mantle × Bool :=
  lines.foldl (fun (m, hit) l => ((m.tableRead data l).1, hit && (m.tableRead data l).2)) (m, true)

/-- The offset at which the port of a nanoword reads. -/
def Engine.portOffset (e : Engine) (w : BitVec 128) : Nat := (e.reg (fieldAt w 90 6)).toNat

/-- What an engine that fetches a nanoword loads from its table: the lines, none where the port is another or the offset is beyond the
table. -/
def Micro.loadLines (m : Micro) (e : Engine) (w : BitVec 128) : List Nat :=
  if fieldAt w 96 5 = 2 then ((e.prog.bind m.prog?).map fun p => p.tableLines (e.portOffset w)).getD [] else []

/-- The first cycle of a microword: a Wick engine runs its nanoword; a Taper nanoword drives pins whose meaning the manual
keeps to Haldiaz, for MW_TIM + 1 cycles (R373, R375, R378, R379). -/
def State.firstCycle (s : State) (u : EngineId) : State :=
  match u with
  | .taper n => s.modMe fun m =>
      let e := m.engine u
      let w := m.word u e.pc
      m.setEngine u { e with pins := m.taperNanoWord n (mwNptr w), cycles := e.cycles + mwTim w + 1 }
  | .wick _ =>
    let m := s.me
    let e := m.engine u
    let w := m.nanoWord (mwNptr (m.word u e.pc))
    let lines := m.loadLines e w
    let r := s.mc.tableReads s.tableLine lines
    let table := ((e.prog.bind m.prog?).map (·.table)).getD []
    let t := e.nano table (if lines.isEmpty then Config.tableLoadHits m.loadNo else r.2) (decide (s.hashLanes < 16)) w
    { s with mc := r.1, me := { m.setEngine u { t with cycles := t.cycles + 1 } with
        loadNo := if fieldAt w 96 5 = 2 then m.loadNo + 1 else m.loadNo } }

/-- The data of a microword is uncorrectable: a line of the constant table that it loads, or the hash result that it reads (R400). -/
def State.wordFails (s : State) (u : EngineId) : Bool :=
  let e := s.engine u
  let w := s.me.nanoWord (mwNptr (s.me.word u e.pc))
  !isTaper u && e.prog.isSome && ((s.me.loadLines e w).any (fun l => s.mc.badLines.any fun b => homeLine b == homeLine l)
    || (fieldAt w 96 5 == 4 && e.hashReady && e.hashBad && decide (e.portOffset w < 6)))

/-! ## Filtered List (R397 to R400) -/

/-- FL_ENTRY: one byte of length, the key, padding to a multiple of 4 (R76). -/
def flEntry (k : Key) : Bytes := padTo ((1 + k.length + 3) / 4 * 4) (leBytes 1 k.length ++ k)

/-- The command an engine serves. -/
def State.servedBy (s : State) (e : Engine) : Option Cmd := e.cmd.bind fun (a, b, d) => s.cmd? a b d

/-- The engine is free again. -/
def State.release (s : State) (u : EngineId) : State :=
  s.setEngine u { (s.engine u) with
    running := false, prog := none, cmd := none, waiting := false, stack := [], heldFault := none, abortReq := false,
    suspendReq := false, drainReq := false }

/-- The engines that evaluate keys of a command. -/
def Micro.serving (m : Micro) (c : Cmd) : List (Nat × Engine) := m.wick.filter fun e => e.2.cmd == some (c.ctrl, c.sq, c.e.cid)

/-- The evaluations of a command that are under way are discarded (R399). -/
def State.releaseAll (s : State) (c : Cmd) : State := (s.me.serving c).foldl (fun s e => s.release (.wick e.1)) s

/-- The listing ends: the header, the entries and Dword 1; evaluations under way are discarded (R73, R76, R399). -/
def State.endListing (s : State) (c : Cmd) (more budget : Bool) : State :=
  (s.releaseAll c).completeRead c (leBytes 4 c.count ++ [0, 0, 0, 0] ++ c.got) c.count (more.toNat + 2 * budget.toNat)

/-- G35 (R393). -/
def filterFlags (r : StoredRec) (t : Slot) : Nat := (r.flags.getLsbD 0).toNat + 2 * (r.flags.getLsbD 1).toNat + 4 * t.hold.toNat

/-- The engine at the start of a key: G1 to G31, the flags and the loop counter 0, the inputs of R393. -/
def keyStart (p : Program) (cmd : Nat × Nat × Nat) (key : Key) (r : StoredRec) (t : Slot) (a0 a1 : BitVec 32) : Engine :=
  { pc := p.microBase + p.entry, start := p.microBase + p.entry, running := true, prog := some p.id, cmd := some cmd,
    forerunner := p.forerunner, keyWindow := key,
    regs := List.replicate 32 0 ++ [BitVec.ofNat 64 key.length, BitVec.ofNat 64 r.value.length, BitVec.ofNat 64 r.seq,
      BitVec.ofNat 64 (filterFlags r t), a0.setWidth 64, a1.setWidth 64] ++ List.replicate 26 0 }

/-- The Wick engines that run nothing, in order. -/
def Micro.freeWicks (m : Micro) : List Nat :=
  (List.range 64).filter fun n => !(m.engine (.wick n)).running && !(m.engine (.wick n)).suspended

/-- The evaluation of a key of a listing starts on an engine (R393, R397). -/
def State.evaluate (s : State) (c : Cmd) (p : Program) (k : Key) (n : Nat) : State :=
  match s.find c.e.nsid k with
  | some f =>
    let fl := fieldsOf c.kind c.e
    (s.modCmd c.fetch fun x => { x with phase := .running, evals := x.evals ++ [(k, none)] }).setEngine (.wick n)
      (keyStart p (c.ctrl, c.sq, c.e.cid) k f.record f.slot fl.arg0 fl.arg1)
  | none => s

/-- The keys of a listing that follow those under evaluation go to free engines, one each; once every evaluation has ended, the listing ends
at the end of the namespace, and, as at a full buffer, where its program is being unloaded or has gone (R396, R397, R399). Without a free
engine the command waits for one. DESIGN CHOICE (log 16): a command takes every engine that is free, and finds its next keys as it does. -/
def State.nextKey (s : State) (c : Cmd) : State :=
  let p := s.me.prog? (fieldsOf c.kind c.e).progId
  let ks := s.listFrom c.e.nsid ((c.evals.getLast?.map (·.1)).getD c.pos) 240
  if s.bt.paused then s
  else if p.all (·.draining) then (if c.evals.isEmpty then s.endListing c true false else s)
  else if ks.isEmpty && c.evals.isEmpty then s.endListing c false false
  else match p with
    | some p => (ks.zip s.me.freeWicks).foldl (fun s (k, n) => s.evaluate c p k n) s
    | none => s

/-- Starts a Filtered List: with PROG_ID 0000h every key is included; a program that is not loaded or is being unloaded is
refused (R396 to R398). -/
def State.runFilter (s : State) (c : Cmd) : State :=
  let f := fieldsOf c.kind c.e
  let c := { c with phase := .running, pos := c.key }
  if f.progId = 0 then
    let all := s.listFrom c.e.nsid c.pos 240
    let ks := fitEntries flEntry (f.bufSize - 8) all
    s.endListing { c with got := ks.flatMap flEntry, count := ks.length } (ks.length < all.length) false
  else match s.me.prog? f.progId with
    | none => s.complete c .invalidField
    | some p => if p.draining then s.complete c .invalidField else (s.modCmd c.fetch fun _ => c).nextKey c

/-- Aborts that wait for a command that has gone: not caught (R93). -/
def State.settleAborts (s : State) : State :=
  let gone := s.fe.jobs.filter fun j => j.what == 5 && !(j.target.any fun (a, b, d) => (s.cmd? a b d).isSome)
  gone.foldl (fun s j => (s.modFe fun f => { f with jobs := f.jobs.filter fun x => !(x == j) }).post j.ctrl 0 j.cid .success 1) s

/-- A program leaves the stores (R392, R396). -/
def State.unload (s : State) (id : Nat) : State :=
  s.modMe fun m => { m with progs := m.progs.filter (·.id ≠ id), stored := dropAssoc id m.stored, customer := m.customer + 1 }

/-- Draining programs that no engine runs leave, and the messages that waited for them are answered; a key removal clears
its slot (R388, R396). An entry of `unloads` names a program, or slot n as 65,536 + n. -/
def State.settleUnloads (s : State) : State :=
  let busy (p : Program) : Bool := s.me.wick.any fun e => e.2.prog == some p.id
  let ids := (s.me.progs.filter fun p => p.draining && !busy p).map (·.id)
  let s := ids.foldl State.unload s
  let done := s.me.unloads.filter fun (k, _) =>
    if k < 65536 then (s.me.prog? k).isNone else !s.me.progs.any fun p => p.slot == k - 65536
  done.foldl (fun s (k, m) =>
    let s := s.modMe fun x => { x with unloads := x.unloads.filter fun y => !(y == (k, m)) }
    if k < 65536 then s.reply 0x08 0x04 m {}
    else
      let id := ((s.me.keys.getD (k - 65536) none).map fun (a, b) => leNat (bytesAt (sha384 (a ++ b)) 0 16)).getD 0
      ((s.modMe fun x => { x with keys := x.keys.set (k - 65536) none }).blackBox 7 (srcCode m.mbox m.src) [1, k - 65536, id]).reply
        0x09 0x31 m {}) s

/-- Listings that wait for an engine take the free ones. -/
def State.feedListings (s : State) : State :=
  (s.fl.cmds.filter fun c => c.kind == .filteredList && c.phase == .running).foldl State.nextKey s

/-- After an engine has been released. -/
def State.afterRelease (s : State) : State := s.settleAborts.settleUnloads.feedListings

/-- A caught Filtered List completes with Command Abort Requested, before its Abort (R93). -/
def State.abortFilter (s : State) (u : EngineId) : State :=
  let e := s.engine u
  match s.servedBy e with
  | none => (s.release u).afterRelease
  | some c =>
    let s := ((s.release u).releaseAll c).complete c .abortRequested
    let mine := s.fe.jobs.filter fun j => j.what == 5 && j.target == e.cmd
    let s := mine.foldl (fun s j => s.post j.ctrl 0 j.cid .success 0) (s.modFe fun f => { f with jobs := f.jobs.filter fun x => !(x ∈ mine) })
    s.afterRelease

/-- A program fault is taken: Internal Error with DNR 1, the code and the microaddress relative to the program; an event
with the program and the key digest (R400). DESIGN CHOICE (log 16): a fault ends the command at once, also while the evaluation of an earlier
key runs. -/
def State.takeFault (s : State) (u : EngineId) (code : Nat) : State :=
  let e := s.engine u
  let at_ := e.pc - ((s.progOf e).map (·.microBase)).getD 0
  let s := s.eventP 0xE "Program fault" (e.prog.getD 0) (natAt (sha384 e.keyWindow) 0 8) code
  match s.servedBy e with
  | none => (s.release u).afterRelease
  | some c => (((s.release u).releaseAll c).complete c .internalError code at_ [] true).afterRelease

/-- A fault of a customer program: at once in native mode, held to the end of the routine in forerunner mode (R380,
R381). Factory code has no program faults: the routine ends. -/
def State.fault (s : State) (u : EngineId) (code : Nat) (k : State → State) : State :=
  let e := s.engine u
  if e.prog.isNone then (s.release u).afterRelease
  else if e.forerunner then k (s.setEngine u { e with heldFault := e.heldFault.or (some code) })
  else s.takeFault u code

/-- The images of the drive by slot. -/
def Boot.slotImage (b : Boot) (i : Nat) : Option FwImage := if i = 0 then b.imageA else if i = 1 then b.imageB else none

/-- A routine can be suspended at an address: a customer program anywhere, other code where the resume map of the image being activated
lists the address (R384). -/
def State.suspendable (s : State) (u : EngineId) (a : Nat) : Bool :=
  (s.engine u).prog.isSome || match s.bt.commit with
    | some (_, _, i) => (s.bt.slotImage i).all fun g => (Config.resumeAddr g.hash a).isSome
    | none => true

/-- SUSPEND at a sample point: the engine stops where it is, its state kept; a routine at an address that the map does not list runs on to
its end (R383, R384). -/
def State.suspend (s : State) (u : EngineId) : State :=
  let e := s.engine u
  let stops := s.suspendable u e.pc
  s.setEngine u { e with suspendReq := false, suspended := stops || e.suspended, running := !stops }

/-- The included keys that precede, in listing order, the first whose evaluation has not finished are placed; whether the next of them does
not fit (R399). -/
def Cmd.place (c : Cmd) : List (Key × Option Bool) → Cmd × Bool
  | (k, some incl) :: rest =>
    if incl && decide ((fieldsOf c.kind c.e).bufSize < 8 + c.got.length + (flEntry k).length) then ({ c with evals := (k, some incl) :: rest }, true)
    else
      { c with pos := k, got := if incl then c.got ++ flEntry k else c.got, count := c.count + incl.toNat, evals := rest }.place rest
  | l => ({ c with evals := l }, false)

/-- The cycles that the evaluations of a command have taken, those under way and those discarded among them (R399). -/
def State.spentBy (s : State) (c : Cmd) : Nat := c.spent + ((s.me.serving c).map (·.2.cycles)).sum

/-- The end of a key's evaluation: one that crosses the budget while a key is placed is discarded; otherwise its result is taken, keys are
placed in listing order, and the listing ends or further keys are taken (R393, R396, R399). -/
def State.keyDone (s : State) (u : EngineId) : State :=
  let e := s.engine u
  match s.servedBy e, s.progOf e with
  | some c, some p =>
    let s := s.release u
    let c := { c with spent := c.spent + e.cycles }
    let s := s.modCmd c.fetch fun _ => c
    if p.budget < s.spentBy c && 0 < c.count then (s.endListing c true true).afterRelease
    else
      let r := c.place (c.evals.map fun x => if x.1 = e.keyWindow then (x.1, some ((e.reg 1).getLsbD 0)) else x)
      let s := s.modCmd c.fetch fun _ => r.1
      if r.2 then (s.endListing r.1 true false).afterRelease
      else if p.budget ≤ s.spentBy r.1 && 0 < r.1.count then (s.endListing r.1 true true).afterRelease
      else (s.nextKey r.1).afterRelease
  | _, _ => (s.release u).afterRelease

/-- The cycles of the key exceed the limit of its program (R400). -/
def State.overLimit (s : State) (u : EngineId) : Bool := (s.progOf (s.engine u)).any fun p => decide (p.keyLimit < (s.engine u).cycles)

/-- The end of a routine: the per-key limit and a held fault, then ABORT and SUSPEND, then its result (R380, R381, R383, R400). -/
def State.routineEnd (s : State) (u : EngineId) : State :=
  let e := s.engine u
  if s.overLimit u then s.takeFault u 1
  else match e.heldFault with
    | some f => s.takeFault u f
    | none =>
      if e.abortReq then s.abortFilter u
      else if e.prog.isSome then s.keyDone u
      else (s.release u).afterRelease

/-- A sample point at which the routine goes on at `next` (R380, R383). -/
def State.sample (s : State) (u : EngineId) (next : Nat) : State :=
  let e := s.engine u
  let s := s.setEngine u { e with pc := next }
  if e.abortReq then s.abortFilter u else if e.suspendReq then s.suspend u else s

/-! ## Microwords (R373, R375, R380) -/

/-- Whether an engine stands at a microword with the given next-address operation. In forerunner mode SAFE stays a SAFE
word (R381). A program beyond its per-key limit runs no further word (R400). -/
def State.standsAt (s : State) (u : EngineId) (seq : Nat) : Bool :=
  let e := s.engine u
  s.alive && unitExists u && e.running && !e.stopped && !s.overLimit u && mwSeq (s.me.word u e.pc) == seq

/-- Runs the first cycle and goes on, or takes the fault of its data; anything else leaves the drive as it is (R380, R381, R400). -/
def State.atWord (s : State) (u : EngineId) (seq : Nat) (k : State → State) : State :=
  if s.standsAt u seq && !(s.engine u).waiting then
    if s.wordFails u then (s.firstCycle u).fault u 3 k else k (s.firstCycle u)
  else s

def State.goTo (s : State) (u : EngineId) (a extra : Nat) : State :=
  let e := s.engine u
  s.setEngine u { e with pc := a, cycles := e.cycles + (if (isTaper u) then 0 else extra) }

/-- A taken branch: one more cycle; to a lower address within customer code of a native program it is a sample point
(R373, R380). -/
def State.branch (s : State) (u : EngineId) (tgt : Nat) : State :=
  let e := s.engine u
  let back := e.prog.isSome && !e.forerunner && decide (tgt < e.pc)
  let s := s.goTo u tgt 1
  if back then s.sample u tgt else s

/-- The depth CALL may reach: 4 for customer programs, 8 otherwise (R373). -/
def Engine.depth (e : Engine) : Nat := if e.prog.isSome then 4 else 8

/-- INC (R373). -/
def execInc (u : EngineId) (s : State) : Res := whileUp s (s.atWord u 0 fun t => t.goTo u ((t.engine u).pc + 1) 0)
/-- BR (R373). -/
def execBr (u : EngineId) (s : State) : Res :=
  whileUp s (s.atWord u 1 fun t => t.branch u (mwTgt (t.me.word u (t.engine u).pc)))
/-- BRC (R373, R374). -/
def execBrc (u : EngineId) (s : State) : Res :=
  whileUp s (s.atWord u 2 fun t =>
    let e := t.engine u
    let w := t.me.word u e.pc
    if condHolds u t.pin e w then t.spend.branch u (mwTgt w) else t.spend.goTo u (e.pc + 1) 0)
/-- CALL (R373); beyond the permitted depth it faults, and a forerunner routine goes on without the push (R381). -/
def execCall (u : EngineId) (s : State) : Res :=
  whileUp s (s.atWord u 3 fun t =>
    let e := t.engine u
    let tgt := mwTgt (t.me.word u e.pc)
    if e.stack.length < e.depth then (t.setEngine u { e with stack := (e.pc + 1) :: e.stack }).goTo u tgt 1
    else t.fault u 2 fun t => t.goTo u tgt 1)
/-- RET (R373). -/
def execRet (u : EngineId) (s : State) : Res :=
  whileUp s (s.atWord u 4 fun t =>
    let e := t.engine u
    match e.stack with
    | a :: rest => (t.setEngine u { e with stack := rest }).goTo u a 1
    | [] => (t.goTo u e.pc 1).routineEnd u)
/-- SAFE: a sample point, but an INC in forerunner mode (R380, R381). -/
def execSafe (u : EngineId) (s : State) : Res :=
  whileUp s (s.atWord u 5 fun t =>
    let e := t.engine u
    if e.forerunner then t.goTo u (e.pc + 1) 0 else t.sample u (e.pc + 1))

/-- A WAIT whose condition is true goes on at the next address (R375). -/
def State.waitEnds (s : State) (u : EngineId) : State :=
  let e := s.engine u
  if e.waiting && condHolds u s.pin e (s.me.word u e.pc) then s.spend.setEngine u { e with waiting := false, pc := e.pc + 1 }
  else s.spend

/-- A Taper sequencer that fetches a WAIT stops: a die-level fault of a die behind its chip enables (R379). -/
def State.taperStops (s : State) (n : Nat) : State :=
  let e := s.engine (.taper n)
  let die := 16 * (n % 2) + (Config.freeWord s.free).toNat % 16
  ((s.setEngine (.taper n) { e with stopped := true }).spend).dieFault (n / 2) die

/-- WAIT; one that holds already looks at its condition again (R375, R379). -/
def execWait (u : EngineId) (s : State) : Res :=
  whileUp s (match u with
    | .taper n => if s.standsAt u 6 then s.taperStops n else s
    | .wick _ =>
      if s.standsAt u 6 && (s.engine u).waiting then s.waitEnds u
      else s.atWord u 6 fun t => (t.setEngine u { (t.engine u) with waiting := true }).waitEnds u)

/-- Requests have been raised: a WAIT that held for ATTN goes on (R374, R375). -/
def Micro.attend (m : Micro) : Micro :=
  { m with wick := m.wick.map fun (n, e) =>
      let w := m.wickWord e.pc
      (n, if e.waiting && mwCond w == 11 && e.attn != mwInv w then { e with waiting := false, pc := e.pc + 1 } else e) }
/-- HALT (R373). -/
def execHalt (u : EngineId) (s : State) : Res := whileUp s (s.atWord u 7 fun t => t.routineEnd u)

/-- The oldest load returns its value; a WAIT that held for it has spent the cycles until then (R374, R375). -/
def execLoadReturn (engine : Nat) (s : State) : Res :=
  let u := EngineId.wick engine
  let e := s.engine u
  whileUp s (match e.loads with
    | (dst, v, due) :: rest =>
      let f := { e.setReg dst v with loads := rest, memReady := true, cycles := if e.waiting then max e.cycles due else e.cycles }
      (s.setEngine u f).waitEnds u
    | [] => s)

/-- The hash job ends: SHA3-384 of the key window; whether the result is uncorrectable is free (R378, R400, log 16). -/
def execHashJobDone (engine : Nat) (s : State) : Res :=
  let u := EngineId.wick engine
  let e := s.engine u
  whileUp s (if e.hashBusy then
      (s.setEngine u { e with hashBusy := false, hashReady := true, hash := sha3_384 e.keyWindow, hashBad := (Config.freeWord s.free).getLsbD 1,
                              cycles := if e.waiting then max e.cycles e.hashDue else e.cycles }).waitEnds u
    else s)

/-- The per-key limit stops a program whose cycles exceed it, at once in both modes; the cycles that a WAIT holds are counted as it ends, so
that the count of a held one may be beyond the limit (R381, R400, log 16). -/
def execKeyLimitExceeded (engine : Nat) (s : State) : Res :=
  let u := EngineId.wick engine
  let e := s.engine u
  whileUp s (if e.running && e.prog.isSome && (s.overLimit u || e.waiting) then s.takeFault u 1 else s)

/-- The cycles spent reach the budget of a listing that has placed a key; evaluations under way are discarded (R399). As for the per-key
limit, a held WAIT may have brought them there. -/
def execCmdBudgetReached (ctrl sq cid : Nat) (s : State) : Res :=
  whileUp s (match s.cmd? ctrl sq cid with
    | some c =>
      let reached := (s.me.prog? (fieldsOf c.kind c.e).progId).any fun p => decide (p.budget ≤ s.spentBy c)
      if c.kind == .filteredList && c.phase == .running && decide (0 < c.count) && (reached || (s.me.serving c).any (·.2.waiting)) then
        (s.endListing c true true).afterRelease
      else s
    | none => s)

/-- The patches of a firmware image come into the patch RAM and the traps, and those of the image before it go; with no image there are
none. Customer words stay (R370, R386, R387). -/
def Micro.loadPatch (m : Micro) (image : Option Bytes) : Micro :=
  let words {n : Nat} (l : Bytes → List (Nat × BitVec n)) (lo hi : Nat) : List (Nat × BitVec n) :=
    ((image.map l).getD []).filter fun x => decide (lo ≤ x.1) && decide (x.1 < hi)
  let traps (l : Bytes → List (Nat × Nat)) (most rom top : Nat) : List (Nat × Nat) :=
    (((image.map l).getD []).filter fun x => decide (x.1 < rom) && decide (rom ≤ x.2) && decide (x.2 < top)).take most
  { m with micro := words Config.patchMicro 24576 28672 ++ m.micro.filter (28672 ≤ ·.1),
           nano := words Config.patchNano 14336 15360 ++ m.nano.filter (15360 ≤ ·.1),
           taperStores := List.replicate 32 { micro := words Config.patchTaperMicro 7168 8192, nano := words Config.patchTaperNano 1792 2048,
                                              traps := traps Config.patchTaperTraps 16 7168 8192 },
           traps := traps Config.patchTraps 64 24576 28672 }

/-- An uncorrectable RAM word, of the micro store or of the nano store, that the engine fetches where it stands: it is reloaded; a factory or
patch routine restarts, a customer program faults with 03h, or in forerunner mode goes on with the reloaded word until its end (R371, R381). -/
def execMicrocodeWordUncorrectable (u : EngineId) (addr : Nat) (s : State) : Res :=
  let e := s.engine u
  finish s (if !(s.alive && unitExists u && e.running && decide (addr ∈ s.me.ramFetched u e.pc)) then s
    else if e.prog.isNone then s.setEngine u { e with pc := e.start, stack := [], waiting := false }
    else s.fault u 3 id)

/-! ## Loading (R389 to R394) -/

/-- The lowest free place of `n` units between `lo` and `hi` (R392). -/
def firstFit (used : List (Nat × Nat)) (lo hi n : Nat) : Option Nat :=
  let ok (a : Nat) : Bool := decide (lo ≤ a) && decide (a + n ≤ hi) && !used.any fun (b, k) => decide (a < b + k) && decide (b < a + n)
  ((lo :: used.map fun (b, k) => b + k).filter ok).min?

/-- A place for a table; an empty one needs none. -/
def Micro.places (m : Micro) (mic nan tab : Nat) : Option (Nat × Nat × Nat) :=
  match firstFit (m.progs.map fun p => (p.microBase, p.micro.length)) 28672 32768 mic,
        firstFit (m.progs.map fun p => (p.nanoBase, p.nano.length)) 15360 16384 nan,
        firstFit (m.progs.map fun p => (p.tableBase, p.table.length)) 0 131072 tab with
  | some a, some b, some c => some (a, b, c)
  | _, _, _ => none

/-- The words of an image (R389). -/
def imgMicro (b : Bytes) (n : Nat) : List Nat := (List.range n).map fun i => natAt b (64 + 8 * i) 8
def imgNano (b : Bytes) (mic n : Nat) : List (BitVec 128) :=
  (List.range n).map fun i => BitVec.ofNat 128 (natAt b (64 + 8 * mic + 16 * i) 16)

/-- Check 07h of a microword (R391). -/
def microOk (w : BitVec 40) : Bool :=
  decide (mwCond w < 8) && mwTim w == 0 && (mwSeq w != 6 || ((mwCond w == 6 || mwCond w == 7) && !mwInv w))

/-- Check 08h of a nanoword (R391). -/
def nanoOk (w : BitVec 128) : Bool :=
  let dst (i : Nat) : Bool := decide (1 ≤ i) && decide (i ≤ 31)
  decide (fieldAt w 122 6 < 16) && decide (fieldAt w 96 5 < 5) && fieldAt w 64 16 == 0 && decide (fieldAt w 80 4 < 3)
    && (!w.getLsbD 102 || dst (fieldAt w 103 6))
    && (!(fieldAt w 96 5 == 1 || fieldAt w 96 5 == 2 || fieldAt w 96 5 == 4) || dst (fieldAt w 84 6))
    && decide (fieldAt w 116 6 < 40) && decide (fieldAt w 110 6 < 40) && decide (fieldAt w 90 6 < 40)

/-- The key identifier of a customer key (R388). -/
def custKeyId (k : Bytes × Bytes) : Bytes := (sha384 (k.1 ++ k.2)).take 16

/-- The slot whose key signed an image, if both signatures verify (R391 check 01h). -/
def Micro.signedBy (m : Micro) (b : Bytes) : Option Nat :=
  let off := 64 + 8 * natAt b 8 2 + 16 * natAt b 10 2 + natAt b 12 2
  m.keys.findIdx? fun k => k.any fun k => custKeyId k == bytesAt b 24 16
    && Config.hybridVerify (k.1 ++ k.2) (b.take off) (bytesAt b off 96) (bytesAt b (off + 96) 3309)

/-- The first check of R391 that an image fails: its reason, or the program as it is placed. -/
def Micro.judgeImage (m : Micro) (b : Bytes) (now : Nat) : Except Nat Program :=
  let mic := natAt b 8 2
  let nan := natAt b 10 2
  let tab := natAt b 12 2
  let id := natAt b 6 2
  let words := imgMicro b mic
  let ws := words.map (BitVec.ofNat 40)
  let ns := imgNano b mic nan
  let lim := natAt b 16 4
  let bud := natAt b 20 4
  match m.signedBy b with
  | none => .error 1
  | some slot =>
    if natAt b 0 4 ≠ 0x50564B54 ∨ natAt b 4 1 ≠ 1 ∨ natAt b 60 4 ≠ (crc32c (b.take 60)).toNat ∨ 1 < natAt b 5 1
        ∨ !allZero (bytesAt b 44 16) ∨ words.any (fun w => decide (2 ^ 40 ≤ w)) ∨ mic = 0 ∨ 4096 < mic ∨ 1024 < nan ∨ 4096 < tab
        ∨ tab % 8 ≠ 0 ∨ b.length ≠ 64 + 8 * mic + 16 * nan + tab + 96 + 3309 then .error 2
    else if id = 0 ∨ id = 65535 ∨ (m.prog? id).isSome then .error 3
    else if lim < 16 ∨ 65536 < lim ∨ bud < 65536 then .error 4
    else if mic ≤ natAt b 14 2 ∨ ws.any (fun w => decide (1 ≤ mwSeq w) && decide (mwSeq w ≤ 3) && decide (mic ≤ mwTgt w)) then .error 5
    else if ws.any (fun w => decide (nan ≤ mwNptr w)) then .error 6
    else if ws.any (fun w => !microOk w) then .error 7
    else if ns.any (fun w => !nanoOk w) then .error 8
    else
      match m.places mic nan tab with
      | none => .error 9
      | some (a, n, t) =>
        if 32 ≤ m.progs.length then .error 10
        else .ok { id := id, slot := slot, forerunner := (natAt b 5 1) == 1, micro := ws, nano := ns,
                   table := bytesAt b (64 + 8 * mic + 16 * nan) tab, entry := natAt b 14 2, keyLimit := lim, budget := bud,
                   ver := natAt b 40 4, microBase := a, nanoBase := n, tableBase := t, loadTime := now, draining := false, image := b }

/-- A microword as it is placed: MW_TGT and MW_NPTR raised by the placement bases (R392). -/
def placeWord (microBase nanoBase : Nat) (w : BitVec 40) : BitVec 40 :=
  BitVec.ofNat 40 ((mwNptr w + nanoBase) % 16384 * 2 ^ 26 + fieldAt w 15 11 * 2 ^ 15 + (mwTgt w + microBase) % 32768)

/-- Loads a checked program (R392, R394). -/
def Micro.load (m : Micro) (p : Program) : Micro :=
  let ms := p.micro.zipIdx.map fun (w, i) => (p.microBase + i, placeWord p.microBase p.nanoBase w)
  let ns := p.nano.zipIdx.map fun (w, i) => (p.nanoBase + i, w)
  { m with progs := m.progs ++ [p], stored := setAssoc p.id p.image m.stored, customer := m.customer + 1,
           micro := ms ++ m.micro.filter (fun x => !(decide (p.microBase ≤ x.1) && decide (x.1 < p.microBase + ms.length))),
           nano := ns ++ m.nano.filter (fun x => !(decide (p.nanoBase ≤ x.1) && decide (x.1 < p.nanoBase + ns.length))) }

/-- The table of a program stands in HBM3 working memory, as `Micro.tableByte` has it; cached lines of its place go (R112, R392). -/
def Mantle.putTable (m : Mantle) (p : Program) : Mantle :=
  let a := p.tableAt
  let lines := (List.range (p.table.length / 64 + 2)).map (a / 64 + ·)
  let here (l : Nat) : Bool := decide (homeLine l ∈ lines) && !p.table.isEmpty
  { m with lines := m.lines.filter (fun e => !here (lineOf e.1.1 e.2.tag)),
           chimney := m.chimney.filter (fun c => c.pinned || !here c.line) }

/-- A checked program comes into the stores and its table into HBM3 (R392). -/
def State.loadProgram (s : State) (p : Program) : State := (s.modMe fun m => m.load p).modMc fun m => m.putTable p

/-- Programs kept in internal data are verified and loaded again; one that fails stays unloaded, with an event (R394). -/
def State.loadStored (s : State) : State :=
  s.me.stored.foldl (fun s (id, b) =>
    match s.me.judgeImage b s.now with
    | .ok p => s.loadProgram p
    | .error _ => s.eventP 0xE "Stored program not loaded" id 0 0) (s.modMe fun m => { m with progs := [] })

/-- Sanitize unloads every program, each of which MCV_CUSTOMER counts, and removes every stored image; the keys stay (R385, R395). -/
def State.dropPrograms (s : State) : State :=
  s.modMe fun m => { m with progs := [], stored := [], customer := m.customer + BitVec.ofNat 16 m.progs.length,
                            micro := m.micro.filter (·.1 < 28672), nano := m.nano.filter (·.1 < 15360) }

/-! ## Messages (R388, R390) -/

/-- MCV_WICK and MCV_TAPER, in which only MCV_CUSTOMER and MCV_PROGRAMS are 0 (R385). -/
def State.mcvWick (s : State) : Nat :=
  Config.romVersionWick.toNat + 65536 * s.bt.patch + 2 ^ 32 * s.me.customer.toNat + 2 ^ 48 * s.me.progs.length
    + 2 ^ 56 * (s.me.progs.any (·.forerunner)).toNat
def State.mcvTaper (s : State) : Nat :=
  Config.romVersionTaper.toNat + 65536 * s.bt.patch + 2 ^ 56 * (s.me.progs.any (·.forerunner)).toNat

def Program.status (p : Program) : Bytes :=
  leBytes 2 p.id ++ leBytes 1 p.slot ++ leBytes 1 p.forerunner.toNat ++ leBytes 2 p.micro.length ++ leBytes 2 p.nano.length
    ++ leBytes 2 p.table.length ++ leBytes 2 p.microBase ++ leBytes 2 p.nanoBase ++ leBytes 4 p.tableBase ++ leBytes 4 p.ver
    ++ leBytes 8 p.loadTime

def hUcodeStatus : Handler := fun s m =>
  if m.payload ≠ [] then saying s (refuse .length)
  else saying s (answer (leBytes 8 s.mcvWick ++ leBytes 8 s.mcvTaper ++ s.me.progs.flatMap Program.status))

def hUcodeStage : Handler := fun s m =>
  let p := m.payload
  let off := natAt p 0 4
  let len := natAt p 4 4
  if p.length < 8 ∨ p.length ≠ 8 + len then saying s (refuse .length)
  else if s.me.stagingBy.any (· ≠ m.mbox) then saying s (refuse .busy)
  else if 65536 < off + len then saying s (badField 0)
  else
    let new := (p.drop 8).zipIdx.map fun (b, i) => (off + i, b)
    doing (s.modMe fun x => { x with
      stagingBy := some m.mbox,
      staging := x.staging.filter (fun y => !(decide (off ≤ y.1) && decide (y.1 < off + len))) ++ new }) {}

/-- The staged bytes; those not staged read 00h (log 16). -/
def Micro.staged (m : Micro) (n : Nat) : Bytes := (List.range n).map fun i => (m.staging.lookup i).getD 0

def hUcodeCommit : Handler := fun s m =>
  let clear (x : Micro) : Micro := { x with staging := [], stagingBy := none }
  if m.payload.length ≠ 4 then saying s (refuse .length)
  else
    match s.me.judgeImage (s.me.staged (min 65536 (natAt m.payload 0 4))) s.now with
    | .error r => doing (s.modMe clear) { badField 0xFFFF r with body := [leBytes 1 r] }
    | .ok p => doing ((s.modMe clear).loadProgram p) {}

/-- DRAIN is raised for the programs chosen, on the engines that run them (R396). -/
def State.drainPrograms (s : State) (which : Program → Bool) : State :=
  let ids := (s.me.progs.filter which).map (·.id)
  s.modMe fun x => { x with progs := x.progs.map (fun p => if which p then { p with draining := true } else p),
                            wick := x.wick.map fun (n, e) => (n, if e.prog.any (· ∈ ids) then { e with drainReq := true } else e) }

def hUcodeUnload : Handler := fun s m =>
  let id := natAt m.payload 0 2
  if m.payload.length ≠ 2 then saying s (refuse .length)
  else if (s.me.prog? id).isNone then saying s (badField 0)
  else (((s.drainPrograms (·.id == id)).modMe fun x => { x with unloads := x.unloads ++ [(id, m)] }).feedListings.settleUnloads, none)

def hUcodeAbandon : Handler := fun s m =>
  if m.payload ≠ [] then saying s (refuse .length)
  else doing (s.modMe fun x => { x with staging := [], stagingBy := none }) {}

def hCustKeyAdd : Handler := fun s m =>
  let p := m.payload
  let slot := natAt p 0 1
  let k := (bytesAt p 1 97, bytesAt p 98 1952)
  if p.length ≠ 2050 then saying s (refuse .length)
  else if 3 < slot ∨ (s.me.keys.getD slot none).isSome then saying s (badField 0)
  else if !Config.keyDecodes k.1 k.2 then saying s (badField 1)
  else doing ((s.modMe fun x => { x with keys := x.keys.set slot (some k) }).blackBox 7 (srcCode m.mbox m.src) [0, slot, leNat (custKeyId k)]) {}

def hCustKeyRemove : Handler := fun s m =>
  let slot := natAt m.payload 0 1
  if m.payload.length ≠ 1 then saying s (refuse .length)
  else if (s.me.keys.getD slot none).isNone then saying s (badField 0)
  else (((s.drainPrograms (·.slot == slot)).modMe fun x => { x with unloads := x.unloads ++ [(65536 + slot, m)] }).feedListings.settleUnloads, none)

def hCustKeyList : Handler := fun s m =>
  if m.payload ≠ [] then saying s (refuse .length)
  else saying s (answer (s.me.keys.zipIdx.flatMap fun (k, i) =>
    match k with
    | some k => leBytes 1 i ++ custKeyId k
    | none => []))

/-- UCODE.STATUS (R390). -/
def execUcodeStatus (m : MsgReq) (s : State) : Res := finish s (s.message 0x08 0x01 hUcodeStatus m)
/-- UCODE.STAGE (R390). -/
def execUcodeStage (m : MsgReq) (s : State) : Res := finish s (s.message 0x08 0x02 hUcodeStage m)
/-- UCODE.COMMIT (R390, R391). -/
def execUcodeCommit (m : MsgReq) (s : State) : Res := finish s (s.message 0x08 0x03 hUcodeCommit m)
/-- UCODE.UNLOAD (R396). -/
def execUcodeUnload (m : MsgReq) (s : State) : Res := finish s (s.message 0x08 0x04 hUcodeUnload m)
/-- UCODE.ABANDON (R390). -/
def execUcodeAbandon (m : MsgReq) (s : State) : Res := finish s (s.message 0x08 0x05 hUcodeAbandon m)
/-- SECURITY.CUST_KEY_ADD (R388). -/
def execCustKeyAdd (m : MsgReq) (s : State) : Res := finish s (s.message 0x09 0x30 hCustKeyAdd m)
/-- SECURITY.CUST_KEY_REMOVE (R388, R396). -/
def execCustKeyRemove (m : MsgReq) (s : State) : Res := finish s (s.message 0x09 0x31 hCustKeyRemove m)
/-- SECURITY.CUST_KEY_LIST (R388). -/
def execCustKeyList (m : MsgReq) (s : State) : Res := finish s (s.message 0x09 0x32 hCustKeyList m)

end Sys2Proof.Machine
end

