-- ==== Sys2Proof/Machine/Origins.lean ====
section
/-! DEFINITION. Origins as the rest of the drive needs them: the paths to them (R291, R292), which keys they serve (R290), and their errors
(R302). -/

namespace Sys2Proof.Machine

/-- What the subsystem NQN puts before the UUID of the drive (R49). -/
def uuidPrefix : Bytes := textBytes "nqn.2014-08.org.nvmexpress:uuid:"

/-! ## Paths (R292, R293) -/

def Origin.origin? (o : Origin) (i : Nat) : Option OriginRec := o.origins.getD i none

/-- Whether a binding names an origin. -/
def Origin.named (o : Origin) (i : Nat) : Bool := o.bindings.any fun b => b.origin == i || b.fallback == some i

/-- The ports an origin has a path on. -/
def OriginRec.ports (r : OriginRec) : List Nat := (if r.flags.getLsbD 3 then [0] else []) ++ (if r.flags.getLsbD 4 then [1] else [])

/-- A path is opened unless it needs TLS and no PSK is enrolled for the origin's NQN (R292). -/
def State.mayOpen (s : State) (r : OriginRec) : Bool := !r.flags.getLsbD 1 || s.ky.psks.any (·.host == r.nqn)

/-- The host NQN of the drive's own connections to origins (R49, R292). -/
def State.fillNqn (s : State) : Nqn := textBytes "nqn.2019-04.com.haldiaz.tareanto:fill:" ++ s.fe.subsysNqn.drop uuidPrefix.length

/-- What a path to an origin is opened with (R292). -/
def State.originLink (s : State) (r : OriginRec) (port : Nat) : OriginLink :=
  { host := s.fillNqn, nqn := r.nqn, addr := if port = 0 then r.addrA else r.addrB, tcpPort := r.tcpPort, tls := r.flags.getLsbD 1 }

/-- The paths of an origin that a binding names, to be opened, one per flagged port (R292). -/
def State.pathsOf (s : State) (i : Nat) : List OriginPath :=
  match s.og.origin? i with
  | some r => if s.og.named i then r.ports.map fun p => { origin := i, port := p, isOpen := false, retryDelayS := 1, link := s.originLink r p } else []
  | none => []

/-- A path that a fill may take: one to its origin, as the origin was set when the fill began (R291). -/
def State.fillPath (s : State) (f : Fill) (p : OriginPath) : Bool :=
  p.origin == f.origin && match f.record with
    | some r => p.link == s.originLink r p.port
    | none => !p.retired

/-- The fill on its fallback origin (R302). -/
def Fill.fallen (f : Fill) : Option Fill :=
  if f.onFallback then none else f.binding.fallback.map fun i => { f with origin := i, record := f.fallbackRec, onFallback := true }

/-- A path that a fill takes or may yet take (R291, R302). -/
def State.usesPath (s : State) (p : OriginPath) (f : Fill) : Bool := s.fillPath f p || f.fallen.any fun g => s.fillPath g p

/-- Paths that stand only for fills begun before a change go with the last of them (R291, R294). -/
def State.closeOld (s : State) : State :=
  s.modOg fun o => { o with paths := o.paths.filter fun p => !p.retired || o.fills.any (s.usesPath p) }

/-- The paths that stand for the bindings and the origins in force: new ones are opened, and those that no binding names or whose target has
changed go, but for open ones that a fill begun before still needs (R291, R292, R294). -/
def State.ensurePaths (s : State) : State :=
  let want := (List.range 8).flatMap s.pathsOf
  let same (p q : OriginPath) : Bool := p.origin == q.origin && p.port == q.port && p.link == q.link
  let kept := s.og.paths.filter fun p => want.any (same p)
  let new := want.filter fun w => !kept.any (same w)
  let old := (s.og.paths.filter fun p => !want.any (same p) && p.isOpen && s.og.fills.any (s.usesPath p)).map fun p => { p with retired := true }
  let s := s.modOg fun o => { o with paths := kept.map (fun p => { p with retired := false }) ++ new ++ old }
  { s with out := s.out ++ (new.filter fun p => (s.og.origin? p.origin).any s.mayOpen).map fun p => Out.originConnect p.origin p.port p.link }

def State.modPath (s : State) (i port : Nat) (f : OriginPath → OriginPath) : State :=
  s.modOg fun o => { o with paths := o.paths.map fun p => if p.origin == i && p.port == port && !p.retired then f p else p }

def Origin.path? (o : Origin) (i port : Nat) : Option OriginPath := o.paths.find? fun p => p.origin == i && p.port == port

/-- A new miss finds a path to an origin open. -/
def Origin.pathOpen (o : Origin) (i : Nat) : Bool := o.paths.any fun p => p.origin == i && p.isOpen && !p.retired

/-- A fill finds a path to its origin open. -/
def State.fillOpen (s : State) (f : Fill) : Bool := s.og.paths.any fun p => p.isOpen && s.fillPath f p

def Origin.count (o : Origin) (i : Nat) (f : OriginCounts → OriginCounts) : Origin := { o with counts := modAt o.counts i f }

/-- An origin that a key may be fetched from: a key above 16 bytes only from one flagged as a long-key origin (R290). -/
def Origin.serves (o : Origin) (key : Key) (i : Nat) : Bool := decide (key.length ≤ 16) || (o.origin? i).any fun r => r.flags.getLsbD 2

/-! ## Errors (R302) -/

/-- An origin error is recorded: at once, and a run once per minute with its count (R302). -/
def State.noteError (s : State) (i : Nat) : State :=
  let s := s.modOg fun o => o.count i fun k => { k with errors := k.errors + 1 }
  let due := match s.og.errTime.getD i none with
    | some t => decide (t + 60 * Figure.secondNs ≤ s.mono)
    | none => true
  if due then
    (s.modOg fun o => { o with errRun := modAt o.errRun i fun _ => 0, errTime := modAt o.errTime i fun _ => some s.mono }).eventP 9
      "Origin error" i (s.og.errRun.getD i 0 + 1) 0
  else s.modOg fun o => { o with errRun := modAt o.errRun i (· + 1) }

/-- The errors of a run that has not been recorded for a minute (R302). -/
def State.noteRuns (s : State) : State :=
  (List.range 8).foldl (fun s i =>
    match s.og.errTime.getD i none, s.og.errRun.getD i 0 with
    | some t, n + 1 =>
      if t + 60 * Figure.secondNs ≤ s.mono then
        (s.modOg fun o => { o with errRun := modAt o.errRun i fun _ => 0, errTime := modAt o.errTime i fun _ => some s.mono }).eventP 9
          "Origin error" i (n + 1) 0
      else s
    | _, _ => s) s

end Sys2Proof.Machine
end

