-- ==== Sys2Proof/Machine/IoPath.lean ====
section
/-! DEFINITION. The path of an I/O command: its queue and context (R56 to R58, R88), carriers (R97), the checks of R521,
rate classes (R45), and the start of each command (R156, R20, R70, R76, R295); shared by the arrival of a command and by
the events that let a held one start. -/

namespace Sys2Proof.Machine

/-! ## Contexts (R56, R57) -/

/-- A command may take a context: one of its queue's reserve unless an older command of the queue waits for one, or a shared one while
no other command waits; a freed context goes to those that wait, in the order of R57. -/
def State.contextFree (s : State) (c : Cmd) : Bool :=
  let waits (p : Cmd → Bool) : Bool := s.fl.cmds.any fun x => x.phase == .waitContext && x.fetch != c.fetch && p x
  (decide (s.startedOn c.ctrl c.sq < Figure.ioReserve) && !waits fun x => x.ctrl == c.ctrl && x.sq == c.sq && decide (x.fetch < c.fetch))
    || (decide (s.sharedUsed < s.sharedPool) && !waits (fun _ => true) && !s.waitsAdm fun _ => true)

/-! ## Order and carriers (R88, R97) -/

/-- Whether ORD holds a command: it carries ORD and an earlier command of its queue is outstanding, or an earlier ORD
command of its queue is (R88). -/
def State.ordHeld (s : State) (c : Cmd) : Bool :=
  s.fl.cmds.any fun x => x.ctrl == c.ctrl && x.sq == c.sq && decide (x.fetch < c.fetch) && (c.ord || x.ord)

/-- The first waiting carrier that names this queue, for a command without ORD (R97, R98, R173). -/
def State.carrierFor (s : State) (c : Cmd) : Option (Nat × Carrier) :=
  if c.ord then none
  else (s.fl.carriers.zipIdx.find? fun (x, _) => x.queue == some (c.ctrl, c.sq)).map fun (x, i) => (i, x)

/-- The carrier completes with Deferred Error Reported; its record becomes reported; the loss of an unnamed host is
then announced to every controller (R97, R100, R105, R173). -/
def State.carry (s : State) (c : Cmd) (i : Nat) (k : Carrier) : State :=
  let s := s.modFl fun f => { f with carriers := f.carriers.eraseIdx i }
  let s := match k.record with
    | some n => s.setC1 n fun r => { r with state := 2 }
    | none => s
  let s := if k.host.isNone then s.notifyAll .logC1 else s
  s.complete c .deferredErrorReported (k.record.getD 0xFFFFFFFF) 0

/-! ## ANA (R265, R266) -/

/-- The drive holds a role in a pair (R260). -/
def State.paired (s : State) : Bool := s.tw.role != .solo

/-- ANA states: 0 optimized, 1 non-optimized, 2 inaccessible, 3 change, which groups 1 and 2 also pass through in a switchover (R265, R284,
R456). -/
def State.anaState (s : State) (group : Nat) : Nat :=
  if s.fl.curtain then 2
  else if group = 4 then 0
  else match s.tw.role with
    | .solo => 0
    | .primary => if s.tw.fenced then 2 else if group ≠ 3 && s.tw.changing then 3 else 0
    | .secondary => if group = 3 then 2 else if s.tw.candidate || s.tw.changing then 3 else 1
    | .detachedStale => 2

def State.anaRefusal (s : State) (n : Ns) : Option Status :=
  match s.anaState n.group with
  | 2 => some .anaInaccessible
  | 3 => some .anaTransition
  | _ => none

/-- Whether a Secondary forwards a command to the Primary (R267). -/
def State.forwards (s : State) (n : Ns) (k : IoKind) : Bool :=
  s.tw.role == .secondary &&
    ((n.group == 1 && k.writes) || (n.group == 2 && (k.writes || k.isRetrieve || k.isExist || k == .list || k == .filteredList)))

/-! ## The checks of R521 -/

/-- The refusal by namespace type (R13, R30). -/
def typeRefusal (n : Ns) (k : IoKind) : Option Status :=
  if n.type == .mirror && k.writes then some .nsWriteProtected
  else if n.type == .plain && k.isHold then some .invalidField
  else none

/-- Whether the queue of a command runs over RDMA. -/
def State.rdmaQueue (s : State) (c : Cmd) : Bool :=
  match (s.fe.ctrl? c.ctrl).bind fun x => x.queues.find? (·.qid == c.sq) with
  | some q => (s.fe.conn? q.conn).any (·.rdma)
  | none => false

/-- Steps 2 to 7 of R521: the first refusal, or the namespace (none for a Flush of all). -/
def State.check (s : State) (c : Cmd) : Except Status (Option Ns) :=
  let n := s.nsOf c.e.nsid
  let flushAll := c.kind.isFlush && c.e.nsid == 0xFFFFFFFF
  if s.lifecycle == .blank || s.lifecycle == .retired then .error .invalidNamespace
  else if s.fl.curtain then .error .anaInaccessible
  else match (if flushAll then none else n.bind s.anaRefusal) with
  | some st => .error st
  | none =>
    if s.sanitizing then .error .sanitizeInProgress
    else if !flushAll && !(n.any fun x => c.ctrl ∈ x.attached) then .error .invalidNamespace
    else match fieldCheck (s.rdmaQueue c) c.kind c.e with
      | some st => .error st
      | none => match n.bind fun x => typeRefusal x c.kind with
        | some st => .error st
        | none => .ok (if flushAll then none else n)

/-- The host group of a controller's host; a host without assignment belongs to group 0 (R42). -/
def State.groupOf (s : State) (ctrl : Nat) : Nat := ((s.fe.ctrl? ctrl).bind fun c => (s.fe.host? c.host).map (·.group)).getD 0
def State.hostOf (s : State) (ctrl : Nat) : Nqn := ((s.fe.ctrl? ctrl).map (·.host)).getD []

def State.keyOf (s : State) (c : Cmd) : LKey := lookupKey c.kind c.e.nsid c.key (s.groupOf c.ctrl)

/-! ## Rate classes (R45) -/

/-- Whether the class of a command has room: it is class 0, has no ceiling, or its charges fit this second (R45). DESIGN CHOICE
(log 45): ceilings are counted in whole seconds, and a command whose bytes alone exceed the ceiling starts when its class has charged
none in this second. -/
def State.rateRoom (s : State) (c : Cmd) : Bool :=
  let k := actRate c.action
  if k = 0 then true
  else
    let r := s.va.rate.getD k {}
    (r.cps == 0 || decide (r.usedC < r.cps)) && (r.bps == 0 || r.usedB == 0 || decide (r.usedB + chargedBytes c.kind c.e ≤ r.bps))

def State.charge (s : State) (c : Cmd) : State :=
  let k := actRate c.action
  (if k = 0 then s else
    s.modVa fun v => { v with rate := modAt v.rate k fun r => { r with usedC := r.usedC + 1, usedB := r.usedB + chargedBytes c.kind c.e } }).modCmd
    c.fetch fun x => { x with rateCharged := true }

/-! ## Completion of writes -/

/-- Dword 0 and 1 of a store with a leaf (R74). -/
def leafDw0 (l : Option (Nat × Nat)) : Nat := (l.map fun (e, _) => e % 4294967296).getD 0
def leafDw1 (l : Option (Nat × Nat)) : Nat := (l.map fun (e, i) => e / 4294967296 % 256 + 256 * i + 2147483648).getD 0

/-- Completes a write: leaf fields for a store, the tracking slot for a Secure Delete (R73, R74). -/
def State.completeWrite (s : State) (c : Cmd) (leaf : Option (Nat × Nat)) (slot : Nat) : State :=
  if c.kind.isStore then s.complete c .success (leafDw0 leaf) (leafDw1 leaf)
  else if c.kind == .secureDelete then s.complete c .success slot 0
  else s.complete c .success

def kindOf : IoKind → WriteKind
  | .secureDelete => .secdel
  | .holdKeyPlace => .holdKeyPlace
  | .holdKeyRelease => .holdKeyRelease
  | .holdNsPlace => .holdNsPlace
  | .holdNsRelease => .holdNsRelease
  | .delete | .longDelete => .delete
  | _ => .store

/-- The durability level a namespace's write takes (R37, R38): a Mirror fill is Local. -/
def Ns.writeLevel (n : Ns) : Level := if n.type == .mirror then .loc else n.level.getD .loc

/-- Blocks that the journal record of a write takes (R158). -/
def Write.blocks (w : Write) : Nat := ({ type := .store, key := w.key, leaf := if w.leaf then some [] else none } : JRec).blocks

/-- Some commit waits for room in the journal (R161). -/
def State.journalWaits (s : State) : Bool := s.fl.cmds.any fun x => x.phase == .waitJournal

/-- A record finds no room in the journal: the wait is recorded and condensing starts (R161). -/
def State.journalFull (s : State) : State := (s.modWx fun w => { w with condensing := true }).event 4 "Commit waits for journal room"

/-- A commit waits for room in the journal (R161). -/
def State.waitJournal (s : State) (c : Cmd) : State := (s.modCmd c.fetch fun x => { x with phase := .waitJournal, passed := true }).journalFull

/-- Deletions of a namespace that have passed their hold check and have not committed (R34). -/
def State.passedDeletes (s : State) (nsid : Nat) : List Nat :=
  (s.fl.cmds.filter fun x => x.phase == .waitJournal && x.e.nsid == nsid && (x.kind.isDelete || x.kind == .secureDelete)).map (·.fetch)

/-- A write has become visible and completes, except a hold placed on a namespace while deletions that passed their hold check before
it are neither committed nor failed: it waits for them (R34). -/
def State.finishWrite (s : State) (c : Cmd) (leaf : Option (Nat × Nat)) (slot : Nat) (after : List Nat) : State :=
  if c.kind == .holdNsPlace && !after.isEmpty then s.modCmd c.fetch fun x => { x with phase := .waitDeletions, waitSeqs := after, seq := c.seq }
  else s.completeWrite c leaf slot

/-- The places of holds whose deletions have all committed or failed complete (R34). -/
def State.settlePlaces (s : State) : State :=
  let waits := (s.fl.cmds.filter (·.phase == .waitJournal)).map (·.fetch)
  (s.fl.cmds.filter fun c => c.phase == .waitDeletions && !c.waitSeqs.any (· ∈ waits)).foldl (fun s c => s.completeWrite c none 0) s

/-- Commits a checked write of a command and completes it, unless it waits for the twin (R156 steps 5 to 7, R157). A
full journal ring makes it wait, and so does a commit that waits before it (R161); STRICT refuses it without a twin (R269). -/
def State.commitCmd (s : State) (c : Cmd) (w : Write) : State :=
  if s.strictRefuses w.level then s.complete c .twinUnavailable
  else if !s.journalRoom w.blocks || (!c.passed && s.journalWaits) then s.waitJournal c
  else
    let after := s.passedDeletes w.nsid
    let (s, r) := s.commit w c.forwardedFrom
    if r.waits then
      s.modCmd c.fetch fun x => { x with phase := .pendingTwin, seq := some r.seq, leaf := r.leaf, stage := w.slot, waitSeqs := after }
    else s.finishWrite { c with seq := some r.seq } r.leaf w.slot after

/-- A command waits at the bucket of its key, behind those that reached it before (R115, R157). -/
def State.waitBucket (s : State) (c : Cmd) : State :=
  (s.phase c .waitBucket).modFl fun f => { f with bucketQ := if c.fetch ∈ f.bucketQ then f.bucketQ else f.bucketQ ++ [c.fetch] }

/-! ## Starting each command -/

/-- Whether a record of a Mirror namespace has expired (R299). Its age is taken in whole checkpoints, from the newest one before it to the
newest of all, so that it stays fresh for MB_TTL_S to MB_TTL_S + 60 s (DEDUCED, log 25). A record from before the first checkpoint counts
from the start of power-on time while no checkpoint has left the ring (log 25). -/
def State.mirrorExpired (s : State) (r : StoredRec) : Bool :=
  let now := (s.og.ttl.head?.map (·.1)).getD 0
  match s.og.bindings.find? (·.nsid == r.nsid) with
  | some b =>
    b.ttlS != 0 && (match s.og.ttl.find? fun p => decide (p.2 ≤ r.seq) with
      | some (t, _) => decide (b.ttlS < now - t)
      | none => decide (43200 ≤ s.og.ttl.length) || decide (b.ttlS < now))
  | none => false

/-- A live negative entry covers a key (R301). -/
def State.negative (s : State) (nsid : Nat) (key : Key) : Bool :=
  s.og.neg.any fun e => e.nsid == nsid && e.h == s.hash nsid key && decide (s.mono < e.expiry)

/-- Sends a record to a reader: its whole value, or the leading bytes that fit (R20, R73, R87). -/
def State.serve (s : State) (c : Cmd) (r : StoredRec) : State :=
  s.completeRead c (r.value.take (fieldsOf c.kind c.e).bufSize) r.value.length 0

/-- A retrieval of a record at a location: from its valid copy, from staging or from the read cache at once, from NAND through the read
stages; a record in Wax whose error correction or tag check fails is damaged, and one that the twin is asked for makes the retrieval
wait (R87, R113, R155, R164, R166, R188, R216, R542). -/
def State.fetchRecord (s : State) (c : Cmd) (t : Slot) (r : StoredRec) : State :=
  match t.loc with
  | .wax g =>
    if g ∈ s.wx.bad && !s.copyValid g r.granules then
      if s.tw.repairs.any fun q => q.1 == c.e.nsid && q.2.1 == c.key then s.modCmd c.fetch fun x => { x with phase := .waitTwinRepair }
      else s.complete c .unrecoveredReadError
    else s.serve c r
  | .nand g =>
    if g ∈ s.md.readCache then s.serve c r
    else s.modCmd c.fetch fun x => { x with phase := .waitMedia, stage := 0, loc := some t.loc }

/-- The answer of a miss that no origin can fill: the expired record where STALE_OK allows it, or Origin Unreachable
(R302). -/
def State.unreachable (s : State) (c : Cmd) (b : Option Binding) : State :=
  match b, s.find c.e.nsid c.key with
  | some b, some f =>
    if b.staleOk then (s.modOg fun o => o.count b.origin fun k => { k with stale := k.stale + 1 }).fetchRecord c f.slot f.record
    else s.complete c .originUnreachable
  | _, _ => s.complete c .originUnreachable

/-- A miss of a Mirror namespace: bound or not, negative unless it is an expired value, joined, unreachable, or a new fill, which starts at
the primary origin, or where that has no open path, an origin error, at the fallback (R290, R294, R295, R297, R301, R302). -/
def State.miss (s : State) (c : Cmd) (expired : Bool := false) : State :=
  match s.og.bindings.find? (·.nsid == c.e.nsid) with
  | none => s.complete c .originUnreachable
  | some b =>
    let usable := (b.origin :: b.fallback.toList).filter (s.og.serves c.key)
    if usable.isEmpty then s.complete c .keyDoesNotExist
    else if !expired && s.negative c.e.nsid c.key then
      (s.modOg fun o => o.count b.origin fun k => { k with negative := k.negative + 1 }).complete c .keyDoesNotExist
    else if s.og.fills.any (fun f => f.nsid == c.e.nsid && f.key == c.key) then
      (s.modOg fun o => o.count b.origin fun k => { k with coalesced := k.coalesced + 1 }).phase c .waitFill
    else
      let first := usable.headD b.origin
      let s := s.whenB (!s.og.pathOpen first) fun s => s.noteError first
      match usable.find? s.og.pathOpen with
      | none => s.unreachable c (some b)
      | some i =>
        (s.modOg fun o => { o with fills := o.fills ++ [{ nsid := c.e.nsid, key := c.key, origin := i, stage := 0, repeats := 0,
                                                          onFallback := i != b.origin, len := 0, value := [], granule := none,
                                                          granules := 0, hint := actHint c.action, binding := b,
                                                          record := s.og.origin? i, fallbackRec := b.fallback.bind s.og.origin? }] }).phase c .waitFill

/-- A retrieval (R20, R87, R295, R300). -/
def State.runRetrieve (s : State) (c : Cmd) (n : Ns) : State :=
  match s.find c.e.nsid c.key with
  | some f => if n.type == .mirror && s.mirrorExpired f.record then s.miss c true else s.fetchRecord c f.slot f.record
  | none => if n.type == .mirror then s.miss c else s.complete c .keyDoesNotExist

/-- An entry of the KV list format: 2-byte length, the key, padding to a multiple of 4 (R70, log 15). -/
def listEntry (k : Key) : Bytes := padTo ((2 + k.length + 3) / 4 * 4) (leBytes 2 k.length ++ k)

/-- List (R70). -/
def State.runList (s : State) (c : Cmd) : State :=
  let ks := fitEntries listEntry ((fieldsOf c.kind c.e).bufSize - 4) (s.listFrom c.e.nsid c.key 16)
  s.completeRead c (leBytes 4 ks.length ++ ks.flatMap listEntry) ks.length 0

/-- The six certificates: those of the receipt key, the DeviceID and the intermediate, ECDSA first and then ML-DSA (R238). DESIGN CHOICE
(log 4): at most 2,000 and 7,288 bytes long, so that a response keeps within 32,768 bytes (R237). -/
def State.certificates (s : State) : List Bytes :=
  (List.range 6).map fun i => (Config.certificate s.ky.uds i).take (if i < 3 then 2000 else 7288)

/-- Certificates in the form of a chain area: each a 4-byte length and its DER bytes, padded with 00h to a multiple of 4 (R238). -/
def chainEntry (x : Bytes) : Bytes := leBytes 4 x.length ++ padTo ((x.length + 3) / 4 * 4) x

/-- The chain area (R238). -/
def State.chainArea (s : State) : Bytes := s.certificates.flatMap chainEntry

/-- The response of Get Receipt (R237). -/
def State.receipt (s : State) (e : ClosedEpoch) (i : Nat) (l : Leaf) (sig : Bytes × Bytes) : Bytes :=
  let path := treePath 24 (e.leaves.map (·.hash)) i
  let rootOff := 192 + 48 * path.length
  let ecOff := rootOff + 176
  let mlOff := ecOff + 96
  let ceOff := (mlOff + 3309 + 3) / 4 * 4
  let chain := s.chainArea
  [1] ++ leBytes 1 path.length ++ leBytes 1 s.certificates.length ++ [0]
    ++ leBytes 4 (ceOff + chain.length) ++ leBytes 4 rootOff ++ leBytes 4 ecOff ++ leBytes 4 mlOff ++ leBytes 4 ceOff
    ++ List.replicate 40 0 ++ leBytes 4 l.nsid ++ leBytes 1 l.key.length ++ leBytes 1 l.tq.toNat ++ [0, 0] ++ leBytes 4 i
    ++ [0, 0, 0, 0] ++ leBytes 8 l.seq ++ leBytes 8 l.time ++ l.valueHash ++ l.hash ++ path.flatten ++ e.root
    ++ padTo 96 sig.1 ++ padTo (ceOff - mlOff) (padTo 3309 sig.2) ++ chain

/-- Get Receipt from step 3 of R76 on: the epoch and index, the signature, the namespace and key (R235). The leaf of a store that still
waits for the twin shows no sooner than the store does (R86, log 14). -/
def State.runReceipt (s : State) (c : Cmd) : State :=
  let f := fieldsOf c.kind c.e
  match s.ky.store.find? (·.number == f.epoch) with
  | some e =>
    match e.leaves[f.leaf]?, e.sigs with
    | some l, some g =>
      if l.nsid == c.e.nsid && l.key == c.key then
        if s.wx.pend.any (·.seq == l.seq) then s.complete c .receiptNotYetSealed else
        let r := s.receipt e f.leaf l g
        s.completeRead c (r.take f.bufSize) r.length 0
      else s.complete c .invalidField
    | _, _ => s.complete c .invalidField
  | none =>
    match s.ky.waiting.find? (·.number == f.epoch) with
    | some e => s.complete c (if f.leaf < e.leaves.length then .receiptNotYetSealed else .invalidField)
    | none =>
      match s.ky.open_ with
      | some o => s.complete c (if o.number == f.epoch && f.leaf < o.leaves.length then .receiptNotYetSealed else .invalidField)
      | none => s.complete c .invalidField

/-- The pre-check of a store, repeated at the bucket: options and the Ledger rule (R21, R22). -/
def State.storeCheck (s : State) (n : Ns) (key : Key) (ifExists ifAbsent : Bool) : Option Status :=
  let there := s.present n.nsid key
  if n.type == .ledger then
    if there then some .keyExists else if ifExists then some .keyDoesNotExist else none
  else if ifExists && !there then some .keyDoesNotExist
  else if ifAbsent && there then some .keyExists
  else none

/-- Keys of every namespace, with those that committed stores outside the index will add (R127). -/
def State.keyCount (s : State) : Nat :=
  s.ix.keys + ((s.wx.pend ++ s.wx.heldRecs).filter fun p => p.kind == .store && (s.find p.nsid p.key).isNone).length

/-- A new key would pass the limit of keys (R127). -/
def State.keyLimit (s : State) (nsid : Nat) (key : Key) : Bool := (s.find nsid key).isNone && decide (Figure.keysMax ≤ s.keyCount)

/-- The limits of a store at its reservation: keys (R127), live bytes and spare capacity (R181, R202). -/
def State.capacityRefuses (s : State) (nsid : Nat) (key : Key) (bytes : Nat) : Bool :=
  let old := (s.find nsid key).map (·.record.bytes)
  let live := s.md.liveBytes - old.getD 0 + bytes
  s.keyLimit nsid key || (decide (s.md.liveBytes < live) && decide (Figure.exportedBytes < live))
    || (s.md.spareBands == 0 && decide (s.md.liveBytes < live))

/-- Whether a store has a leaf (R39). -/
def leafWanted (n : Ns) (a : ActWord) : Bool := n.type == .ledger || (n.type == .plain && actReceipt a)

/-- The payload of a store of a twin level streams to the twin as it comes in; what the twin sent itself does not (R156 step 3). -/
def State.streamData (s : State) (c : Cmd) (d : Bytes) : State :=
  s.whenB (!d.isEmpty && c.kind.isStore && c.forwardedFrom.isNone && s.tw.role == .primary && !s.twinGone
      && (s.nsOf c.e.nsid).any fun n => n.level == some .sync || n.level == some .async) fun s => s.emit (.twinData c.fetch d)

/-- Data that must come from the host: Ready to Transfer of at most 1 MiB, at most the smaller of MAXR2T + 1 and 4 of
them (R60), or an RDMA Read (R63); in-capsule data is there already (R61), and so is what a forwarded store brought (R284). -/
def State.requestData (s : State) (c : Cmd) : State :=
  let size := c.e.cdw10.toNat
  let conn := ((s.fe.ctrl? c.ctrl).bind fun x => x.queues.find? (·.qid == c.sq)).map (·.conn)
  if c.got != [] && decide (size ≤ c.got.length) then s.streamData c c.got
  else match c.e.sgl, conn with
  | .transport, some k =>
    let most := min (((s.fe.conn? k).map (·.maxr2t)).getD 0 + 1) 4
    let offs := ((List.range ((size + 1048575) / 1048576)).take most).map (· * 1048576)
    { s with out := s.out ++ offs.map fun o => .r2t k c.e.cid o (min 1048576 (size - o)) }
  | .keyed _ _, some k => s.emit (.rdmaRead k c.e.cid size)
  | _, _ => (s.modCmd c.fetch fun x => { x with got := c.e.icd.take size }).streamData c (c.e.icd.take size)

/-- A store that holds its staging takes a hash lane where it has a leaf, and then its data, under the current key of its namespace; it
waits while no lane is free (R156, R216, R225). -/
def State.startIntake (s : State) (c : Cmd) (lane : Bool) : State :=
  if lane && decide (16 ≤ s.hashLanes) then s.modCmd c.fetch fun _ => { c with phase := .waitHash }
  else
    let s := s.modKy fun k => { k with hashBusy := k.hashBusy + lane.toNat }
    let c' := { c with phase := .intake, stage := lane.toNat, keyGen := s.currentGen c.e.nsid }
    (s.modCmd c.fetch fun _ => c').requestData c'

/-- The age of the oldest twin-asynchronous write that the twin has not acknowledged, ms (R417, R419). -/
def State.lagMs (s : State) : Nat :=
  let since (seq : Nat) : Nat :=
    match s.tw.sentAt.lookup seq with
    | some (m, _) => s.mono - m
    | none => ((s.wx.journal.find? (·.seq == seq)).map fun j => s.now - j.time).getD 0
  ((s.wx.unacked.filter fun q => (s.wx.unackedNs.lookup q).any fun n => (s.nsOf n).any (·.level == some .async)).map since).max?.getD 0 / 1000000

/-- The pair is attached and the lag is above its goal (R418). -/
def State.lagging (s : State) : Bool := s.paired && decide (s.mb.goalLag < s.lagMs)

/-- A twin-asynchronous store waits at its staging reservation: while the lag is above its goal such stores are admitted at the rate at which
the twin acknowledges bytes of others (R418; DEDUCED: that is the replication rate, log 39). -/
def State.lagHolds (s : State) (n : Ns) (bytes : Nat) : Bool := n.level == some .async && s.lagging && decide (s.tw.credit < bytes)

/-- Step 3 of a store: staging for the whole record; then a hash lane and the data (R156, R163, R225). Without room it waits before its first transfer, behind the reservations asked for before it. -/
def State.intake (s : State) (c : Cmd) (n : Ns) (granted : Bool) : State :=
  let g := recGranules n.mode c.key.length c.e.cdw10.toNat
  if s.capacityRefuses n.nsid c.key (32 * g) then s.complete c .capacityExceeded
  else
    let bytes := c.key.length + c.e.cdw10.toNat
    let wait := s.lagHolds n bytes || (!granted && !s.wx.waiters.isEmpty)
    let s := s.whenB (!wait && n.level == some .async) fun s => s.modTw fun t => { t with credit := t.credit - bytes }
    match (if wait then (s, none) else s.reserve g granted) with
    | (s, none) =>
      let s := if granted then s else s.modWx fun w => { w with waiters := w.waiters ++ [.store c.fetch] }
      s.modCmd c.fetch fun x => { x with phase := .waitStaging, granules := g }
    | (s, some at_) =>
      s.startIntake { c with granule := some at_, granules := g } (leafWanted n c.action)

/-- A store, steps 2 and 3 of R156. -/
def State.runStore (s : State) (c : Cmd) (n : Ns) : State :=
  let f := fieldsOf c.kind c.e
  if s.isPending n.nsid c.key then s.waitBucket c
  else match s.storeCheck n c.key f.ifExists f.ifAbsent with
    | some st => s.complete c st
    | none => s.intake c n false

/-- Committed places of key-scope holds that the tables do not show yet (R30, R35). -/
def State.pendingPlaces (s : State) : Nat := (s.wx.pend ++ s.wx.heldRecs).countP (·.kind == .holdKeyPlace)

/-- The key-scope hold table has no entry free (R35). -/
def State.holdTableFull (s : State) : Bool := decide (262144 ≤ s.va.keyHolds.length + s.pendingPlaces)

/-- The place of a key-scope hold, decided by the first check of R30 that applies; none: it is placed. -/
def State.holdCheck (s : State) (n : Ns) (c : Cmd) (tag : Nat) : Option Status :=
  match s.find n.nsid c.key with
  | none => some .keyDoesNotExist
  | some f =>
    let mine := s.va.keyHolds.filter fun k => k.nsid == n.nsid && k.seq == f.record.seq
    if mine.any (·.tag == tag) then some .success
    else if 8 ≤ mine.length then some .invalidField
    else if s.holdTableFull then some .capacityExceeded
    else none

/-- Whether a hold command changes anything and, if not, its status (R30, R35). -/
def State.holdDecision (s : State) (n : Ns) (c : Cmd) : Option Status :=
  let tag := (fieldsOf c.kind c.e).tag
  match c.kind with
  | .holdKeyPlace => s.holdCheck n c tag
  | .holdKeyRelease =>
    match s.find n.nsid c.key with
    | some f => if s.va.keyHolds.any fun k => k.nsid == n.nsid && k.tag == tag && k.seq == f.record.seq then none else some .success
    | none => some .success
  | .holdNsPlace => if tag ∈ n.tags then some .success else if 16 ≤ n.tags.length then some .invalidField else none
  | _ => if tag ∈ n.tags then none else some .success

/-- The write a command stands for. -/
def State.writeOf (s : State) (c : Cmd) (n : Ns) : Write :=
  { kind := kindOf c.kind, nsid := n.nsid, key := c.key, action := c.action.setWidth 16 &&& 0x7FF#16,
    ledger := n.type == .ledger, leaf := false, tag := (fieldsOf c.kind c.e).tag,
    cmd := if c.forwardedFrom.isSome then none else some (c.ctrl, c.sq, c.e.cid),
    host := if c.forwardedFrom.isSome then c.fwdHost else s.hostOf c.ctrl, level := n.writeLevel }

/-- A Retention Hold (R30, R33, R34). -/
def State.runHold (s : State) (c : Cmd) (n : Ns) : State :=
  if !c.kind.nsHold && s.isPending n.nsid c.key then s.waitBucket c
  else match s.holdDecision n c with
    | some .capacityExceeded => (s.event 2 "Key-scope hold table full").complete c .capacityExceeded
    | some st => s.complete c st
    | none => s.commitCmd c (s.writeOf c n)

/-- A Delete, Long-Key Delete or Secure Delete: the slots of R102, the key, and in a Ledger namespace the checks of R32. One that has
passed its checks and waited for the journal is not refused for a hold placed since (R34). -/
def State.runDelete (s : State) (c : Cmd) (n : Ns) : State :=
  if c.kind == .secureDelete && !c.passed && decide (s.fl.c1Free < 64) then s.complete c .commandInterrupted
  else if s.isPending n.nsid c.key then s.waitBucket c
  else
    let st := if n.type == .ledger && !c.passed then s.ledgerCheck n.nsid c.key
              else if s.present n.nsid c.key then none else some .keyDoesNotExist
    match st with
    | some st => s.complete c st
    | none =>
      if c.kind == .secureDelete then
        match s.c1Slot with
        | some i => s.commitCmd c { s.writeOf c n with slot := i }
        | none => s.complete c .commandInterrupted
      else s.commitCmd c (s.writeOf c n)

/-- The namespace of a write that the twin has not acknowledged. -/
def State.seqNs (s : State) (seq : Nat) : Option Nat := s.wx.unackedNs.lookup seq

/-- Flush: at once unless a covered twin-asynchronous write waits for the twin; Twin Unavailable where no twin is attached or it is
lost. While this drive sends a resynchronisation the covered writes may include some from before the pair formed, and it waits for its end. A
write that a Secondary has completed is in both drives already (R106, R268, R278). -/
def State.runFlush (s : State) (c : Cmd) : State :=
  let named := s.va.ns.filter fun n => c.e.nsid == 0xFFFFFFFF || n.nsid == c.e.nsid
  let async := named.filter fun n => n.level == some .async
  let waits := s.wx.unacked.filter fun q => !(s.wx.pend.any fun p => p.seq == q) && async.any fun n => s.seqNs q == some n.nsid
  if async.isEmpty then s.complete c .success
  else if s.tw.role == .secondary && s.tw.reached && !s.twinGone then s.complete c .success
  else if s.tw.role != .primary || s.twinGone then s.complete c .twinUnavailable
  else if waits.isEmpty && !s.resyncSends then s.complete c .success
  else s.modCmd c.fetch fun x => { x with phase := .waitFlush, waitSeqs := waits, waitResync := s.resyncSends }

/-- The capsule that forwards a command to the Primary (R267). -/
def State.forwardOf (s : State) (c : Cmd) : FwdCmd :=
  let f := fieldsOf c.kind c.e
  { ctrl := c.ctrl, sq := c.sq, cid := c.e.cid,
    kind := c.kind.opClass + (match c.kind with
      | .holdKeyRelease => 16 | .holdNsPlace => 32 | .holdNsRelease => 48 | _ => 0),
    nsid := c.e.nsid, key := c.key, value := c.got, ifExists := f.ifExists, ifAbsent := f.ifAbsent, tag := f.tag,
    bufLen := f.bufSize, progId := f.progId, arg0 := f.arg0, arg1 := f.arg1, action := c.action, host := s.hostOf c.ctrl }

/-- Forwards a command; one that cannot reach the Primary completes with Twin Unavailable (R267). A store first takes in
its data. -/
def State.forward (s : State) (c : Cmd) : State :=
  if s.twinGone || !s.tw.reached then s.complete c .twinUnavailable
  else if c.kind.isStore && c.got.length < c.e.cdw10.toNat && c.phase != .intake then
    if c.e.sgl == .offset 0 then
      let c' := { c with got := c.e.icd.take c.e.cdw10.toNat, phase := .forwarded }
      (s.modCmd c.fetch fun _ => c').emit (.twinForward (s.forwardOf c'))
    else (s.modCmd c.fetch fun x => { x with phase := .intake }).requestData { c with phase := .intake }
  else (s.phase c .forwarded).emit (.twinForward (s.forwardOf c))

/-- The commands that look a key up in the index (R120). -/
def IoKind.looks (k : IoKind) : Bool := k.isStore || k.isRetrieve || k.isExist || k.isDelete || k == .secureDelete || (k.isHold && !k.nsHold)

/-- A command with its action runs; a lookup of its key leaves its traces (R121, R126, R521 step 9). -/
def State.run (s : State) (c : Cmd) (n : Ns) : State :=
  let s := s.whenB (c.kind.looks && !(c.forwardedFrom.isNone && s.forwards n c.kind)) fun s => s.look n.nsid c.key
  if c.forwardedFrom.isNone && s.forwards n c.kind then s.forward c
  else match c.kind with
    | .flush => s.runFlush c
    | .store | .longStore => s.runStore c n
    | .retrieve | .longRetrieve => s.runRetrieve c n
    | .list => s.runList c
    | .filteredList => s.runFilter c
    | .exist | .longExist => s.complete c (if s.present n.nsid c.key then .success else .keyDoesNotExist)
    | .delete | .longDelete | .secureDelete => s.runDelete c n
    | .getReceipt => s.runReceipt c
    | .holdKeyPlace | .holdKeyRelease | .holdNsPlace | .holdNsRelease => s.runHold c n

/-- A command may start as far as its rate class goes: the class has room, and none of it that was fetched before waits (R45). -/
def State.rateTurn (s : State) (c : Cmd) : Bool :=
  s.rateRoom c && !s.fl.cmds.any fun x => x.phase == .waitRate && actRate x.action == actRate c.action && decide (x.fetch < c.fetch)

/-- A command whose action is known reaches its start: it is the carrier of a loss, or is charged against its rate class and runs; it
waits while its class has no room (R45, R97). -/
def State.admitRate (s : State) (c : Cmd) (n : Ns) : State :=
  if !s.rateTurn c then s.modCmd c.fetch fun _ => { c with phase := .waitRate }
  else match s.carrierFor c with
    | some (i, k) => s.carry c i k
    | none =>
      let s := s.charge c
      s.run { c with rateCharged := true } n

/-- What the policy makes of a command, whose group may have left service while it waited for the chain (R43, R246, R266). -/
def State.judge (s : State) (c : Cmd) (n : Ns) (p : Policy) : State :=
  match s.anaRefusal n with
  | some st => s.complete c st
  | none => match p with
  | .unavailable => s.complete c .policyUnavailable
  | .denied => s.complete c .policyDenied
  | .allowed a =>
    let c := { c with action := a, phase := .running, judged := true }
    (s.modCmd c.fetch fun _ => c).admitRate c n
  | .ask loc =>
    let k := (s.keyOf c).bits
    let c := { c with locWin := loc }
    let s := s.modCmd c.fetch fun _ => c
    let me := (c.ctrl, c.sq, c.e.cid)
    (s.modSk fun x =>
      if x.pending.any (·.key == k) then
        { x with pending := x.pending.map fun g => if g.key == k then { g with cmds := g.cmds ++ [me] } else g }
      else { x with pending := x.pending ++ [{ key := k, gen := x.gen.toNat, epoch := x.epoch.toNat, inFlight := false, cmds := [me] }] }).phase c .waitChain

/-- Every port is in use again (R459). -/
def Ports.ungate (p : Ports) : Ports := { p with a := { p.a with gatedPs4 := false }, b := { p.b with gatedPs4 := false } }

/-- A drive in PS3 or PS4 returns to the last operational state (R462). -/
def State.wake (s : State) : State :=
  if s.pw.psHost < 3 then s
  else s.lpiCheck { s with pw := ({ s.pw with psHost := s.pw.psLastOp }).settle, pt := s.pt.ungate }

/-- What an I/O command wakes: a drive that serves data; in Blank and Retired it does not leave the state (R462 to R464). -/
def State.wakeForIo (s : State) : State :=
  if s.lifecycle == .isSealed && decide (3 ≤ s.pw.psHost) then s.wake.autoEvent 5 "Power state left for I/O" else s

/-- Whether KV commands may start at all: not while an HBM3 rebuild, an activation or an entry to PS3 or PS4 stops them
(R57, R110, R133, R461); writes wait for a switchover too (R284). -/
def State.held (s : State) (c : Cmd) : Bool :=
  s.bt.paused || s.fl.kvStopped || s.fe.jobs.any (·.what == 1)
    || (s.tw.drain != 0 && c.kind.writes && (s.nsOf c.e.nsid).any fun n => n.group == 1 || n.group == 2)
    || (!c.kind.isFlush && s.ix.pages.any fun p =>
          decide (p ∈ (s.ix.chain (s.ix.cand1 (s.hash c.e.nsid c.key)) ++ s.ix.chain (s.ix.cand2 (s.hash c.e.nsid c.key))).map s.ix.page))

/-- A command would wait for its rate class, so that it does not reach its start (R45, R97). -/
def State.rateWaits (s : State) (c : Cmd) : Bool :=
  match s.check c with
  | .ok (some n) =>
    if c.kind.isFlush then false
    else if c.judged then !s.rateTurn c
    else match (s.policy (s.keyOf c) n.stackScope).2 with
      | .allowed a => !s.rateTurn { c with action := a }
      | _ => false
  | _ => false

/-- A command tries to start, when it arrives or once what held it is over; one whose action is known keeps it (R247): what refuses all commands,
ORD, what holds all commands, a context, a carrier, the checks, the policy (R57, R88, R97, R109, R110, R521). -/
def State.tryStart (s : State) (c : Cmd) : State :=
  match (if s.sanitizing || s.fl.curtain then s.check c else .ok none) with
    | .error st => s.complete c st
    | .ok _ =>
      if s.ordHeld c then s.phase c .heldOrd
      else if s.held c then s.phase c .waitService
      else if !(if c.phase == .waitContext then s.contextRoom c.ctrl c.sq else s.contextFree c) then s.phase c .waitContext
      else match (if s.rateWaits c then none else s.carrierFor c) with
      | some (i, k) => s.carry c i k
      | none => match s.check c with
        | .error st => s.complete c st
        | .ok none => s.run c { nsid := 0, type := .plain, mode := .gcm }
        | .ok (some n) =>
          if c.kind.isFlush then s.run c n
          else if c.judged then s.admitRate c n
          else
            let (s, p) := s.policy (s.keyOf c) n.stackScope
            s.judge c n p

/-- An I/O command reaches its queue: its identifier must be free (R58), and it takes its place in fetch order. The drive
takes none while it does not serve, or on a queue that does not exist. -/
def State.arrive (s : State) (k : IoKind) (h : HostCmd) : State :=
  if !s.serving || h.sq = 0 || !s.fe.hasQueue h.ctrl h.sq then s
  else if (s.cmd? h.ctrl h.sq h.e.cid).isSome then (s.fetch h.ctrl h.sq).post h.ctrl h.sq h.e.cid .cidConflict (inv := sglInv h.e.sgl)
  else
    let c : Cmd := { ctrl := h.ctrl, sq := h.sq, fetch := s.fl.nextFetch, kind := k, e := h.e, phase := .heldOrd,
                     key := (fieldsOf k h.e).key, ord := ordOf k h.e, entry := ((s.fe.queue? h.ctrl h.sq).map (·.fetched)).getD 0 }
    let s := (s.wakeForIo.fetch h.ctrl h.sq).modFl fun f => { f with cmds := f.cmds ++ [c], nextFetch := f.nextFetch + 1 }
    s.tryStart c

/-- Commands of a phase, in fetch order. -/
def State.inPhase (s : State) (p : CmdPhase) : List Cmd := s.fl.cmds.filter (·.phase == p)

/-! ## The commit of a store (R156 steps 4 to 7) -/

/-- REC_FLAGS: a Ledger namespace, a receipt leaf, and the key generation modulo 16 (R154). -/
def recFlags (ledger leaf : Bool) (gen : Nat) : BitVec 8 := BitVec.ofNat 8 (ledger.toNat + 2 * leaf.toNat + 4 * (gen % 16))

/-- The stored record of a value that lies whole in staging, under the key generation of its intake (R154, R214, R216, R217). -/
def State.sealRecord (s : State) (c : Cmd) (n : Ns) (g : Nat) : StoredRec :=
  { nsid := n.nsid,
    flags := recFlags (n.type == .ledger) (leafWanted n c.action) c.keyGen,
    seq := 0, key := c.key, value := c.got, keyGen := c.keyGen, mode := n.mode, mediaSeal := false, nonceCounter := s.wx.nonce g }

/-- The final check at the bucket and, if it passes, the commit; the hash lane is free again. A command behind a pending
write of its key waits (R23, R127, R156, R157, R225). -/
def State.storeCommit (s : State) (c : Cmd) (n : Ns) (g : Nat) : State :=
  let f := fieldsOf c.kind c.e
  if s.isPending n.nsid c.key then s.waitBucket c
  else
    let s := s.look n.nsid c.key
    match s.storeCheck n c.key f.ifExists f.ifAbsent with
    | some st => s.complete c st
    | none =>
      if s.keyLimit n.nsid c.key then s.complete c .capacityExceeded
      else
        let leaf := leafWanted n c.action
        let s := s.modKy fun k => { k with hashBusy := if c.stage == 1 then k.hashBusy - 1 else k.hashBusy }
        let c := { c with stage := 0 }
        let w := { s.writeOf c n with srec := some (s.sealRecord c n g), loc := some (.wax g), leaf := leaf }
        (s.modCmd c.fetch fun _ => c).commitCmd c w

/-! ## Started commands that go on -/

/-- A started command that waited goes on where it stood: at the final check of a store, or at its bucket. -/
def State.again (s : State) (fetch : Nat) : State :=
  let s := s.modCmd fetch fun c => { c with phase := .running }
  match s.fl.cmds.find? (·.fetch == fetch) with
  | none => s
  | some c =>
    match s.nsOf c.e.nsid, c.granule with
    | some n, some g => if c.kind.isStore then s.storeCommit c n g else s.run c n
    | some n, none => s.run c n
    | none, _ => s.complete c .invalidNamespace

/-- Commands that wait at a bucket whose key nothing holds any more go on, in the order in which they reached it (R115, R157). -/
def State.bucketsFree (s : State) : State :=
  s.fl.bucketQ.foldl (fun s f => match s.fl.cmds.find? (·.fetch == f) with
    | some c =>
      if c.phase == .waitBucket && !s.isPending c.e.nsid c.key then
        (s.modFl fun x => { x with bucketQ := x.bucketQ.filter (· ≠ f) }).again f
      else s
    | none => s) s

/-- What waited for commands that have now committed or failed goes on (R34, R115). -/
def State.unblock (s : State) : State := s.settlePlaces.bucketsFree

end Sys2Proof.Machine
end

