-- ==== Sys2Proof/Machine/Front.lean ====
section
/-! DEFINITION. The fabrics front end (chapters 02, 03, 12): connections, TLS, Connect, controller reset, queues,
contexts, features, Abort and asynchronous events. -/

namespace Sys2Proof.Machine

/-! ## Names and ports -/

/-- The well-known discovery NQN (R49). -/
def discoveryNqn : Nqn := textBytes "nqn.2014-08.org.nvmexpress.discovery"

/-- The subsystem NQN the drive presents: the pair's, or its own (R49, R261). -/
def State.subsysNqn (s : State) : Nqn := s.tw.pairNqn.getD s.fe.subsysNqn

/-- PC_SERVICES bits: NVMe/TCP, TLS required, RDMA (R351). -/
def State.service (s : State) (port bit : Nat) : Bool := decide (port < 2) && (s.port port).cfg.services.getLsbD bit

/-- Whether the drive listens: serving or in Pilot-light mode, and RDMA only when serving (R427). -/
def State.listens (s : State) : Bool := s.managed && s.fe.listening

/-! ## Controller reset (R107, R413, R436) -/

/-- Commands of a controller that a reset abandons or discards; those a twin forwarded are not its own. -/
def Cmd.ofCtrl (c : Cmd) (id : Nat) : Bool := c.ctrl == id && c.forwardedFrom.isNone

/-- Gives back what an abandoned command holds: its reservation unless it has committed, its hash lane, its engine. -/
def State.abandon (s : State) (c : Cmd) : State :=
  let s := s.dropCmd c.fetch
  let s := match c.granule, c.seq with
    | some g, none => s.unreserve g c.granules
    | _, _ => s
  let s := s.modKy fun k => { k with hashBusy := if c.stage == 1 && c.kind.isStore && c.seq.isNone then k.hashBusy - 1 else k.hashBusy }
  s.releaseAll c

/-- The mailboxes a controller owned: queued messages and replies are discarded, ownership is released, kept replies
stay; a message in progress runs to its end, and none starts beside it (R408, R413). -/
def Mailbox.ownerReset (b : Mailbox) : Mailbox :=
  { b with queue := [], replies := [], inFlight := 0, owner := 0, owned := false, held := false, epoch := b.epoch + 1, orphan := b.working }

/-- A carrier whose queue is gone chooses again (R97). -/
def State.rechoose (s : State) : State :=
  s.modFl fun f => { f with carriers := f.carriers.map fun k =>
    match k.queue with
    | some (c, q) => if s.fe.hasQueue c q then k else { k with queue := s.carrierQueue c q (k.host.getD (s.hostOf c)) }
    | none => k }

/-- The work of a controller ends: commands dropped, started admin commands run on without a completion, held ones are
discarded, the download buffer and a hold of the event log are given up (R107, R413, R436, R498). -/
def State.dropWork (s : State) (id : Nat) : State :=
  let s := (s.fl.cmds.filter fun c => c.ofCtrl id).foldl State.abandon s
  let s := s.modSk fun k => { k with pending := k.pending.map fun g => { g with cmds := g.cmds.filter fun x => x.1 ≠ id } }
  let s := s.modBt fun b => { b with commit := b.commit.map fun (c, k, n) => if c = id then (0, k, n) else (c, k, n),
                                     buffer := if b.bufferOwner = some id then [] else b.buffer,
                                     bufferOwner := if b.bufferOwner = some id then none else b.bufferOwner }
  let s := s.modFe fun f => { f with jobs := (f.jobs.filter fun j => !(j.ctrl == id && j.what == 5)).map fun j => if j.ctrl = id then { j with ctrl := 0 } else j,
                                     heldAdm := f.heldAdm.filter fun h => h.1 ≠ id,
                                     admEntries := f.admEntries.filter (fun e => e.1.1 ≠ id), ctxWait := f.ctxWait.filter (fun w => w.1.1 ≠ id),
                                     miReplies := f.miReplies.filter fun r => r.1 ≠ id }
  let s := s.modMb fun m => { m with boxes := m.boxes.zipIdx.map fun (b, i) =>
    if i < 8 && b.owned && b.owner == id then b.ownerReset else b,
                                     miWait := m.miWait.filter fun w => w.1 != some id }
  let s := s.endTestIf (fun t => !t.extended && t.ctrl == id) 2
  (s.holderGone fun h => decide (h % 16 < 8) && h / 16 == id).afterRelease.unblock

/-- Clearing CC.EN: the I/O queues are deleted with their connections, nothing more is posted, and the controller waits
disabled on its admin connection (R107, R111, log 18). -/
def State.disable (s : State) (id : Nat) : State :=
  let s := s.modFe fun f => { (f.modCtrl id fun c => { c with
    enabled := false, ready := false, queues := c.queues.filter (·.qid == 0), aers := [], raised := [],
    granted := 0 }) with
      conns := f.conns.filter fun k => !(k.ctrl.any fun (c, q) => c == id && 0 < q),
      qpFree := f.qpFree + ((f.ctrl? id).map (·.granted)).getD 0 }
  (s.dropWork id).rechoose

/-- A controller is torn down: its queues and connections go and its pairs return to the pool (R54, R107). -/
def State.tearDown (s : State) (id : Nat) : State :=
  match s.fe.ctrl? id with
  | none => s
  | some c =>
    let gone := (s.fe.conns.filter fun k => k.ctrl.any fun x => x.1 == id).map (·.id)
    let s := s.modFe fun f => { f with ctrls := f.ctrls.filter (·.cntlid ≠ id), gone := (id, c.host) :: dropAssoc id f.gone,
                                       conns := f.conns.filter (·.id ∉ gone),
                                       qpFree := f.qpFree + c.granted }
    (({ s with out := s.out ++ gone.map Out.closed }).dropWork id).rechoose

/-- The controllers and connections of every host end, as at an NVM Subsystem Reset (R108). -/
def State.tearDownAll (s : State) : State :=
  let s := (s.fe.ctrls.map (·.cntlid)).foldl State.tearDown s
  { s with out := s.out ++ s.fe.conns.map fun k => Out.closed k.id, fe := { s.fe with conns := [], hellos := [] } }

/-- A host connection closes: a controller reset if it carries a queue (R59, R107, R330). -/
def State.closeConn (s : State) (id : Nat) : State :=
  match (s.fe.conn? id).bind (·.ctrl) with
  | some (c, _) => s.tearDown c
  | none => ({ s with fe := { s.fe with conns := s.fe.conns.filter (·.id ≠ id), hellos := s.fe.hellos.filter (·.1 ≠ id) } }).emit (.closed id)

/-- A connection closes; in the pause of an activation the controller reset that this is takes effect after the resume (R107, R110). -/
def State.closeLater (s : State) (id : Nat) : State := s.inWindow (.transportConnectionLoss id) 0 noCid fun s => s.closeConn id

/-- A connection that exists closes with an alert or a transport error. -/
def State.closeIf (s : State) (id : Nat) : State := if (s.fe.conn? id).isSome then s.closeConn id else s

/-! ## Connect (R50 to R55, R431) -/

/-- The lowest free identifier of a range, as R50 asks for discovery controllers. DESIGN CHOICE (log 45): of the identifiers 0001h to 0040h an
I/O controller takes the lowest free one too. -/
def Front.freeId (f : Front) (lo n : Nat) : Option Nat := ((List.range n).map (lo + ·)).find? fun i => (f.ctrl? i).isNone

/-- The keep alive timeout in force: rounded up to 100 ms, at least 1,000 ms, 0 replaced by 120,000 ms (R53). -/
def katoInForce (k : Nat) : Nat := if k = 0 then 120000 else max 1000 ((k + 99) / 100 * 100)

/-- The carriers that wait for the first I/O queue of a host (R97, R173). -/
def State.takeCarriers (s : State) (host : Nqn) (id qid : Nat) : State :=
  s.modFl fun f => { f with carriers := f.carriers.map fun k =>
    if k.queue.isNone && (k.host.isNone || k.host == some host) then { k with queue := some (id, qid) } else k }

/-- A hexadecimal digit, and a UUID as text: groups of 4, 2, 2, 2 and 6 bytes, parted by hyphens (log 2). -/
def hexDigit (n : Nat) : Byte := BitVec.ofNat 8 (if n < 10 then 48 + n else 87 + n)
def hexText (b : Bytes) : Bytes := b.flatMap fun x => [hexDigit (x.toNat / 16), hexDigit (x.toNat % 16)]
def uuidText (b : Bytes) : Bytes :=
  hexText (bytesAt b 0 4) ++ [45] ++ hexText (bytesAt b 4 2) ++ [45] ++ hexText (bytesAt b 6 2) ++ [45] ++ hexText (bytesAt b 8 2) ++ [45]
    ++ hexText (bytesAt b 10 6)


/-- The twin service NQN of the drive: the twin prefix and its own UUID (R261). -/
def twinPrefix : Bytes := textBytes "nqn.2019-04.com.haldiaz.tareanto:twin:"
def State.twinNqn (s : State) : Nqn := twinPrefix ++ s.fe.subsysNqn.drop uuidPrefix.length

/-- The twin uses TLS when a PSK for its NQN is enrolled, and not otherwise (R261). -/
def State.twinTls (s : State) (peer : Nqn) : Bool := s.ky.psks.any (·.host == peer)

/-- A Connect comes from the twin: by its own twin service NQN, on TLS when a PSK for it is enrolled and not otherwise. DEDUCED (log 24):
that NQN is the twin's own host NQN, since R283 enrols a PSK for it. DESIGN CHOICE (log 24): until the drives of a recorded attach have met,
any other drive's twin service NQN is taken for the twin's (R261). -/
def State.fromTwin (s : State) (c : ConnectReq) : Bool :=
  let known := if s.tw.twinNqn.isEmpty then s.tw.attachReq.isSome && twinPrefix.isPrefixOf c.host && c.host != s.twinNqn
               else (s.paired || s.tw.attachReq.isSome) && c.host == s.tw.twinNqn
  known && (s.fe.conn? c.conn).any fun k => k.tls == s.twinTls c.host

/-- Whether the paths to the twin use TLS. DESIGN CHOICE (log 24): until the twin's NQN is known they do if a PSK is enrolled for any other
drive's twin service NQN (R261). -/
def State.reachTls (s : State) : Bool :=
  if s.tw.twinNqn.isEmpty then s.ky.psks.any fun k => twinPrefix.isPrefixOf k.host && k.host != s.twinNqn else s.twinTls s.tw.twinNqn

/-- This drive reaches for its twin: a path of 16 queues on each port that is configured (R261). -/
def State.reachTwin (s : State) : State :=
  { s with out := s.out ++ (([0, 1].filter fun p => !(s.port p).ifs.isEmpty).map fun p =>
      .twinConnect p Figure.twinQueues s.reachTls s.twinNqn) }

/-- Whether a port takes NVMe/TCP connections: with the service set it listens to hosts, and in any case to the twin, whose traffic it carries
whatever PC_SERVICES says (R261, R351). -/
def State.takesTcp (s : State) (port : Nat) : Bool :=
  s.service port 0 || (decide (port < 2) && (s.paired || s.tw.attachReq.isSome))

/-- A Connect comes by a port whose service for its transport is off, where no host connection is accepted. DESIGN CHOICE (log 45): it is
refused as of an invalid host (R351). -/
def State.portRefuses (s : State) (c : ConnectReq) : Bool :=
  c.subsys != s.twinNqn && (s.fe.conn? c.conn).any fun k => !s.service k.port (if k.rdma then 2 else 0)

/-- The TCP port a Connect comes by: 8009 for discovery and 4420 otherwise. DEDUCED (log 45): a Connect on the other port is refused (R59). -/
def State.portFits (s : State) (c : ConnectReq) : Bool :=
  (s.fe.conn? c.conn).all fun k => k.rdma || (c.subsys == discoveryNqn) == (k.tcpPort == 8009)

/-- The status a Connect is refused with, or the controller identifier it takes; a
Connect to the twin service NQN may come from the twin alone (R9, R47, R50, R51, R53 to R55, R59, R261, R431, log 24). -/
def State.connectCheck (s : State) (c : ConnectReq) : Except Status Nat :=
  let disc := c.subsys == discoveryNqn
  let f := s.fe
  let pilot := s.pw.phase == .pilot
  if c.reservedSet then .error .invalidField
  else if c.unimplemented || !s.portFits c then .error .connectInvalidParameters
  else if c.subsys == s.twinNqn && !s.fromTwin c then .error .connectInvalidHost
  else if c.subsys == s.twinNqn && decide (Figure.twinQueues ≤ c.qid) then .error .connectInvalidParameters
  else if !disc && c.subsys != s.subsysNqn && c.subsys != s.twinNqn then .error .connectInvalidParameters
  else if c.subsys != s.twinNqn && (f.host? c.host).isNone || s.portRefuses c then .error .connectInvalidHost
  else if c.qid = 0 then
    if c.cntlid ≠ 0xFFFF ∨ c.size < 2 ∨ (if pilot then 32 else 64) < c.size ∨ 600000 < c.kato then .error .connectInvalidParameters
    else if pilot && decide (4 ≤ f.ctrls.length) then .error .connectControllerBusy
    else match (if disc then f.freeId 0x41 16 else f.freeId 1 64) with
      | some id => .ok id
      | none => .error .connectControllerBusy
  else
    match f.ctrl? c.cntlid with
    | none => .error .connectInvalidParameters
    | some x =>
      if pilot ∨ x.discovery ∨ !x.enabled ∨ x.host ≠ c.host ∨ x.granted < c.qid ∨ c.size < 2 ∨ 1024 < c.size
          ∨ x.queues.any (·.qid == c.qid) then .error .connectInvalidParameters
      else .ok x.cntlid

/-- A Connect that passes: a new controller with its admin queue, or an I/O queue. Every notice is enabled (R50 to R55,
R66). PRESUMED (log 45): the Connect is the first entry of its queue. -/
def State.doConnect (s : State) (c : ConnectReq) (id : Nat) : State :=
  let q : Queue := { qid := c.qid, size := c.size, conn := c.conn, fetched := 1 }
  let s := s.modConn c.conn fun k => { k with ctrl := some (id, c.qid) }
  let s := if c.qid = 0 then
      s.modFe fun f => { f with ctrls := f.ctrls ++ [{ cntlid := id, host := c.host, discovery := c.subsys == discoveryNqn,
                                                       kato := katoInForce c.kato, kaStart := s.mono, queues := [q] }] }
    else (s.modCtrl id fun x => { x with queues := x.queues ++ [q] }).takeCarriers c.host id c.qid
  s.emit (.connectRsp c.conn c.cid .success id)

/-- CONNECT: on a connection that is ready and carries no queue yet (R50); in the pause of an activation it waits for the resume (R110). -/
def execConnect (c : ConnectReq) (s : State) : Res :=
  finish s (
    if !s.listens then s
    else match s.fe.conn? c.conn with
      | none => s
      | some k =>
        if !k.ready || k.ctrl.isSome then s
        else s.inWindow (.connect c) 0 noCid fun s => match s.connectCheck c with
          | .error st => s.emit (.connectRsp c.conn c.cid st 0)
          | .ok id => s.doConnect c id)

/-! ## Properties and controller reset (R107, R108, R111) -/

/-- The properties: CAP, VS, CC, CSTS and NSSR; CAP.TO is 2 and MQES 1,023, VS is open (R55, R111, log 3). -/
def State.property (s : State) (c : Ctrl) (offset : Nat) : Option (String × List Int) :=
  match offset with
  | 0x00 => some ("CAP", [1023, 2])
  | 0x08 => some ("VS", [(Config.freeWord 8).toNat])
  | 0x14 => some ("CC", [c.enabled.toNat])
  | 0x1C => some ("CSTS", [c.ready.toNat, s.pw.cfs.toNat])
  | 0x20 => some ("NSSR", [0])
  | _ => none

/-- PROPERTY_GET: a Fabrics command, taken in every state of the controller (R64). -/
def execPropertyGet (a : Adm) (offset : Nat) (s : State) : Res :=
  finish s (
    match s.managed, s.fe.ctrl? a.ctrl with
    | true, some c =>
      s.fabrics (.propertyGet a offset) a fun s => match s.property c offset with
        | some (n, v) => s.admRead a n v
        | none => s.admDone a .invalidField
    | _, _ => s)

/-- CC_EN_CLEAR (R107, R110, R111). -/
def execCcEnClear (a : Adm) (s : State) : Res :=
  finish s (if s.managed && (s.fe.ctrl? a.ctrl).any (·.enabled) then
    s.fabrics (.ccEnClear a) a fun s => s.disable a.ctrl else s)

/-- CC_EN_SET: CSTS.RDY becomes 1 (R111). -/
def execCcEnSet (a : Adm) (s : State) : Res :=
  finish s (if s.managed && (s.fe.ctrl? a.ctrl).isSome then
    s.fabrics (.ccEnSet a) a fun s => (s.modCtrl a.ctrl fun c => { c with enabled := true, ready := true }).admDone a .success else s)

/-- NSSR_WRITE (R108, R110). -/
def execNssrWrite (a : Adm) (s : State) : Res :=
  finish s (if s.managed && (s.fe.ctrl? a.ctrl).isSome then
    s.fabrics (.nssrWrite a) a State.tearDownAll else s)

/-- DISCONNECT of the admin queue (R107). -/
def execDisconnect (a : Adm) (s : State) : Res :=
  finish s (if s.managed then s.fabrics (.disconnect a) a fun s => s.tearDown a.ctrl else s)

/-- TRANSPORT_CONNECTION_LOSS (R107). -/
def execTransportConnectionLoss (conn : Nat) (s : State) : Res :=
  whileUp s (s.inWindow (.transportConnectionLoss conn) 0 noCid fun s => s.closeIf conn)

/-- KEEP_ALIVE restarts the timer (R53). -/
def execKeepAlive (a : Adm) (s : State) : Res :=
  finish s (s.admin (.keepAlive a) a false true true fun s => (s.modCtrl a.ctrl fun c => { c with kaStart := s.mono }).admDone a .success)

/-- KEEP_ALIVE_EXPIRY; the activation window does not count (R53, R110). -/
def execKeepAliveExpiry (ctrl : Nat) (s : State) : Res := whileUp s (if s.bt.paused then s else s.tearDown ctrl)

/-! ## NVMe/TCP, TLS and RDMA connections (R59 to R63, R223, R224) -/

/-- A plain ICReq makes its connection; one on TLS finds it. The drive listens on TCP ports 4420 and 8009 (R59, R62). -/
def State.icReq (s : State) (conn port : Nat) (r : IcReq) : State :=
  let old := s.fe.conn? conn
  if !s.listens || !s.takesTcp port || !(r.tcpPort == 4420 || r.tcpPort == 8009) || old.any (fun k => k.ready || k.rdma) then s
  else if old.isNone && s.service port 1 then s.emit (.closed conn)
  else if r.pfv ≠ 0 then (if old.isNone then s.emit (.closed conn) else s.closeConn conn)
  else
    let k : Conn := { old.getD { id := conn, port := port, rdma := false, mtu := (s.port port).cfg.mtu } with
      ready := true, addr := if old.isSome then (old.map (·.addr)).getD [] else r.addr, hdgst := r.hdgst, ddgst := r.ddgst, maxr2t := r.maxr2t,
      tcpPort := r.tcpPort, mss := r.mss, v6 := r.v6, options := r.options, peer := r.peer, peerPort := r.peerPort, wscale := r.wscale,
      sack := r.sack }
    (s.modFe fun f => { f with conns := (f.conns.filter (·.id ≠ conn)) ++ [k] }).emit (.icResp conn 0 131072)

/-- ICREQ (R59). -/
def execIcReq (conn port : Nat) (r : IcReq) (s : State) : Res := whileUp s (s.icReq conn port r)

/-- The store whose data a connection brings. -/
def State.awaiting (s : State) (conn cid : Nat) : Option Cmd :=
  match (s.fe.conn? conn).bind (·.ctrl) with
  | some (c, q) => (s.cmd? c q cid).filter fun x => x.phase == .intake
  | none => none

/-- Data of a store arrives in order; when a Ready to Transfer is used up the next one goes out. Once the data of a store that a Secondary
forwards is whole it goes to the Primary, or runs here if this drive has become one in the meantime; a drive that has become stale reaches
none (R60, R267, R284). -/
def State.takeData (s : State) (c : Cmd) (conn : Nat) (d : Bytes) : State :=
  let size := c.e.cdw10.toNat
  let c' := { c with got := (c.got ++ d).take size, keyGen := if c.got.isEmpty then s.currentGen c.e.nsid else c.keyGen }
  let s := (s.modCmd c.fetch fun _ => c').streamData c (d.take (size - c.got.length))
  let most := min (((s.fe.conn? conn).map (·.maxr2t)).getD 0 + 1) 4
  let asked := (c.got.length / 1048576 + most) * 1048576
  let s := if c'.got.length / 1048576 ≠ c.got.length / 1048576 && decide (asked < size) && c.e.sgl == .transport then
      s.emit (.r2t conn c.e.cid asked (min 1048576 (size - asked))) else s
  if size ≤ c'.got.length && c'.granule.isNone then
    if s.tw.role == .detachedStale then s.complete c' .twinUnavailable else s.again c.fetch
  else s

/-- H2CDATA: a PDU type not defined for its direction, a PDU above 131,072 bytes, or data that no command awaits at that
offset is a fatal transport error (R59). -/
def execH2cData (conn cid : Nat) (defined : Bool) (offset : Nat) (data : Bytes) (s : State) : Res :=
  whileUp s (
    if (s.fe.conn? conn).isNone then s
    else if !defined || decide (131072 < data.length) then s.closeLater conn
    else match s.awaiting conn cid with
      | some c => if offset = c.got.length && decide (c.got.length + data.length ≤ c.e.cdw10.toNat) then s.takeData c conn data else s.closeLater conn
      | none => s.closeLater conn)

/-- RDMA_READ_RESPONSE brings the data of a store (R63). -/
def execRdmaReadResponse (conn cid : Nat) (data : Bytes) (s : State) : Res :=
  whileUp s (match s.awaiting conn cid with
    | some c => s.takeData c conn (data.take (c.e.cdw10.toNat - c.got.length))
    | none => s)

/-- The connection of a handshake that is complete: the traffic secrets follow from the PSK, the ECDHE with a fresh key of the drive, and the
transcript, whose hash is free since the drive's messages hold fresh values (RFC 8446, log 4). -/
def State.tlsConn (s : State) (conn port : Nat) (h : ClientHello) (psk : Bytes) : Conn :=
  let shared := ecdheSecret (privateKey (leNat (Config.freeBytes s.free 48))) h.share
  let hash := Config.freeBytes (s.free + 1) 48
  { id := conn, port := port, rdma := false, tls := true, tlsHost := h.host, addr := h.addr, mtu := (s.port port).cfg.mtu,
    txSecret := trafficSecret psk shared hash "s ap traffic", rxSecret := trafficSecret psk shared hash "c ap traffic" }

/-- The outcome of a ClientHello whose turn has come: within the limits of R62 and with a PSK of the host, whose binder is right, the handshake
completes; otherwise, and behind the key curtain (R457), a handshake_failure alert and the connection closes. DESIGN CHOICE (log 45): one
that offers early data is outside the limits, so it is not taken on with the early data alone rejected. A wrong binder ends in decrypt_error
(PRESUMED: RFC 8446, log 45). -/
def State.handshake (s : State) (conn port : Nat) (h : ClientHello) : State :=
  let alert (text : String) : State := (s.emit (.tlsAlert conn text)).emit (.closed conn)
  if !(s.ky.kekPresent && h.tls13 && h.aes256Sha384 && h.pskDheSecp384 && !h.earlyData) then alert "handshake_failure"
  else match s.ky.psks.find? fun p => p.host == h.host && p.identity == h.identity with
    | none => alert "handshake_failure"
    | some p =>
      let psk := p.tls s.ky.kek
      if h.binder != pskBinder psk h.truncated then alert "decrypt_error"
      else
        (s.spend.spend.modFe fun f => { f with handshakes := f.handshakes + 1,
                                               conns := f.conns.filter (·.id ≠ conn) ++ [s.tlsConn conn port h psk] }).emit (.tls conn "Finished")

/-- CLIENT_HELLO: beyond 4,000 handshakes in a second it waits in order of arrival (R223). -/
def execClientHello (conn port : Nat) (h : ClientHello) (s : State) : Res :=
  finish s (
    if !s.listens || !s.takesTcp port || (s.fe.conn? conn).isSome || s.fe.hellos.any (·.1 == conn) then s
    else if s.fe.hellos.isEmpty && decide (s.fe.handshakes < 4000) then s.handshake conn port h
    else s.modFe fun f => { f with hellos := f.hellos ++ [(conn, port, h)] })

/-- TLS_RECORD_RECEIVED: a record above the limit of RFC 8446 ends the connection with record_overflow, a tag failure with
bad_record_mac (R223). -/
def execTlsRecordReceived (conn len : Nat) (tagOk : Bool) (s : State) : Res :=
  whileUp s (
    if !((s.fe.conn? conn).any (·.tls)) then s
    else if 16640 < len then (s.emit (.tlsAlert conn "record_overflow")).closeLater conn
    else if !tagOk then (s.emit (.tlsAlert conn "bad_record_mac")).closeLater conn
    else s)

/-- KEY_UPDATE_RECEIVED is honoured, and answered where it asks for an update (R62). -/
def execKeyUpdateReceived (conn : Nat) (requested : Bool) (s : State) : Res :=
  whileUp s (
    if !((s.fe.conn? conn).any (·.tls)) then s
    else
      let s := s.modConn conn fun k => { k with rxGen := k.rxGen + 1, rxSecret := nextTraffic k.rxSecret }
      if requested then (s.modConn conn Conn.update).emit (.tls conn "KeyUpdate update_not_requested")
      else s)

/-- KEY_UPDATE_SEND after 2^24 records, those that carry no data included (R224, log 27). -/
def execKeyUpdateSend (conn : Nat) (s : State) : Res :=
  whileUp s (if (s.fe.conn? conn).any (·.tls) then
      (s.modConn conn Conn.update).emit (.tls conn "KeyUpdate update_requested")
    else s)

/-- RDMA_CONNECT, on port 4420 of the connection manager; in Pilot-light mode RDMA is not opened (R63, R427). -/
def execRdmaConnect (conn port : Nat) (r : CmRequest) (s : State) : Res :=
  finish s (
    if !(s.serving && s.fe.listening) || r.port ≠ 4420 || !s.service port 2 || (s.fe.conn? conn).isSome then s
    else
      let k : Conn := { id := conn, port := port, rdma := true, ready := true, addr := r.addr, peer := r.peer, mtu := (s.port port).cfg.mtu }
      s.modFe fun f => { f with conns := f.conns ++ [k] })

/-- TCP_RETRANSMIT_TIMEOUT; in the pause of an activation the reset waits for the resume (R110, R330). -/
def execTcpRetransmitTimeout (conn : Nat) (s : State) : Res :=
  whileUp s (s.inWindow (.tcpRetransmitTimeout conn) 0 noCid fun s =>
    if (s.fe.conn? conn).any (fun k => !k.rdma) then s.closeConn conn else s)

/-- ROCE_QP_FAILURE; in the pause of an activation the reset waits for the resume (R110, R330). -/
def execRoceQpFailure (conn : Nat) (s : State) : Res :=
  whileUp s (s.inWindow (.roceQpFailure conn) 0 noCid fun s =>
    if (s.fe.conn? conn).any (·.rdma) then s.closeConn conn else s)

/-! ## Waiting commands (R45, R57, R88) -/

/-- Waiting commands try again in the order given. -/
def State.retryAll (s : State) (cs : List Cmd) : State :=
  cs.foldl (fun s c => match s.fl.cmds.find? (·.fetch == c.fetch) with
    | some c => s.tryStart c
    | none => s) s

/-- Contexts a queue may take in one turn: the Arbitration Burst of its controller, 2 to its power, and no limit at 7 (R55, log 45). -/
def Front.burstLeft (f : Front) (q : Nat × Nat) : Bool :=
  let b := ((f.ctrl? q.1).map (·.burst)).getD 0
  b == 7 || decide (f.rrUsed < 2 ^ b)

/-- The queues in round-robin order: the one that was served last while its turn lasts, and then those after it. DEDUCED (log 45): the
Arbitration Burst is honoured where freed contexts are given out (R55, R57). -/
def Front.robin (f : Front) : List (Nat × Nat) :=
  match f.rrLast with
  | none => f.allQueues
  | some q =>
    let here := f.allQueues.filter (· == q)
    let after := ((f.allQueues.dropWhile (· ≠ q)).drop 1) ++ f.allQueues.takeWhile (· ≠ q)
    if f.burstLeft q then here ++ after else after ++ here

/-- A queue takes its turn, or goes on with it. -/
def Front.turn (f : Front) (q : Nat × Nat) : Front :=
  { f with rrLast := some q, rrUsed := if f.rrLast == some q && f.burstLeft q then f.rrUsed + 1 else 1 }

/-- A queue waits for a context and may take one (R56, R57). -/
def State.mayTake (s : State) (q : Nat × Nat) : Bool :=
  if q.2 = 0 then s.adminRoom q.1 && s.waitsAdm (· == q.1)
  else s.contextRoom q.1 q.2 && (s.inPhase .waitContext).any fun c => (c.ctrl, c.sq) == q

/-- The context goes to the first of a list of waiting admin commands that a controller sent. -/
def grantCtx (ctrl : Nat) : List ((Nat × Nat) × Bool) → List ((Nat × Nat) × Bool)
  | [] => []
  | w :: l => if w.1.1 == ctrl && !w.2 then (w.1, true) :: l else w :: grantCtx ctrl l

/-- The oldest waiting command of a queue takes a context: an I/O command starts, an admin command at the next idle step (R57, log 13). -/
def State.giveContext (s : State) (q : Nat × Nat) : State :=
  let s := s.modFe fun f => f.turn q
  if q.2 = 0 then s.modFe fun f => { f with ctxWait := grantCtx q.1 f.ctxWait }
  else s.retryAll (((s.inPhase .waitContext).filter fun c => (c.ctrl, c.sq) == q).take 1)

/-- CONTEXT_FREED: the oldest waiting command of the next queue, of the I/O and admin queues of all controllers, that waits and may take a
context takes it; where none waits, the command toward the twin that waited longest does (R55 to R57). -/
def execContextFreed (s : State) : Res :=
  whileUp s (match s.fe.robin.find? s.mayTake with
    | some q => s.giveContext q
    | none => s.sendWaiting)

/-- ORD_RELEASE: the commands held behind an ORD command start, up to the next one that holds (R88). -/
def execOrdRelease (ctrl sq : Nat) (s : State) : Res :=
  whileUp s (s.retryAll ((s.inPhase .heldOrd).filter fun c => c.ctrl == ctrl && c.sq == sq))

/-- A new second of a class (R45). -/
def RateClass.fresh (r : RateClass) : RateClass := { r with usedC := 0, usedB := 0 }

/-- A class has room again: its commands start in fetch order until one finds none (R45). -/
def State.classRoom (s : State) (cls : Nat) : State :=
  let s := s.modVa fun v => { v with rate := modAt v.rate cls RateClass.fresh }
  s.retryAll ((s.inPhase .waitRate).filter fun c => actRate c.action == cls)

/-- RATE_CLASS_ROOM (R45). -/
def execRateClassRoom (cls : Nat) (s : State) : Res := finish s (if s.serving && !s.bt.paused then s.classRoom cls else s)

/-! ## Abort (R92 to R95) -/

/-- Whether a started command is past its catch point (R94): committed or forwarded. The waiter of a fill is caught until the store is
visible (R298). -/
def Cmd.uncatchable (c : Cmd) : Bool :=
  match c.phase with
  | .pendingTwin | .forwarded | .forwardCommit => true
  | _ => c.seq.isSome

/-- An Abort ends at once unless it names a Filtered List that runs a program, which is caught at its next sample point. -/
def State.abort (s : State) (a : Adm) (sq cid : Nat) : State :=
  let done (s : State) (bit : Nat) : State := s.admDone a .success bit
  if sq = 0 then
    match s.fe.ctrl? a.ctrl with
    | none => s
    | some c =>
      if cid ∈ c.aers then done ((s.modCtrl a.ctrl fun c => { c with aers := c.aers.filter (· ≠ cid) }).post a.ctrl 0 cid .abortRequested) 0
      else if s.fe.heldAdm.any (fun h => h.1 == a.ctrl && h.2.1 == cid) then
        done ((s.modFe fun f => { f with heldAdm := f.heldAdm.filter (fun h => !(h.1 == a.ctrl && h.2.1 == cid)),
                                         admEntries := dropAssoc (a.ctrl, cid) f.admEntries,
                                         ctxWait := dropAssoc (a.ctrl, cid) f.ctxWait }).post a.ctrl 0 cid .abortRequested) 0
      else done s 1
  else
    match s.cmd? a.ctrl sq cid with
    | none => done s 1
    | some c =>
      let us := s.me.wick.filter fun e => e.2.cmd == some (a.ctrl, sq, cid)
      if us.isEmpty then
        if c.uncatchable then done s 1 else done (s.complete c .abortRequested).unblock 0
      else
        (us.foldl (fun s e => s.setEngine (.wick e.1) { e.2 with abortReq := true }) s).modFe fun f =>
          { f with jobs := f.jobs ++ [{ ctrl := a.ctrl, cid := a.cid, what := 5, target := some (a.ctrl, sq, cid) }] }

/-- ABORT: never held behind an admin command that behaves as ORD; a fifth outstanding one is refused (R91, R92), and one without a context
waits (R57). DESIGN CHOICE (log 13): it starts in the pause of an activation too, which R110 and R91 leave open. -/
def execAbort (a : Adm) (sq cid : Nat) (s : State) : Res :=
  finish s (
    match s.managed, s.fe.ctrl? a.ctrl with
    | true, some c =>
      if !c.enabled then s
      else
      let room := s.admRoom a
      let (s, e) := s.admEntry a
      if s.pw.phase == .pilot then s.admDone a .commandSequenceError
      else if s.adminCid a then s.admDone a .cidConflict
      else if !room then s.holdCtx (.abort a sq cid) a e
      else if 4 ≤ s.fe.jobs.countP (fun j => j.ctrl == a.ctrl && j.what == 5) then s.admDone a .abortLimitExceeded
      else if a.reservedSet then s.admDone a .invalidField
      else match s.admSgl a with
        | some st => s.admDone a st
        | none => s.abort a sq cid
    | _, _ => s)

/-! ## Features (R65) and asynchronous events (R64, R66) -/

/-- A notice as a number of a feature value. -/
def EventKind.code : EventKind → Int
  | .smartHealth => 0 | .nsAttribute => 1 | .fwActivation => 2 | .anaChange => 3 | .logC1 => 4 | .logC3 => 5 | .logC4 => 6

/-- The Timestamp feature: the clock in milliseconds, Timestamp Origin and Synch (R65, R368). -/
def State.timestamp (s : State) : List Int := [s.now / 1000000, s.tm.everTraceable.toNat, 0]

/-- Get Features (R53, R54, R65, R463). DESIGN CHOICE (log 45): before any grant Number of Queues reads 0. -/
def State.getFeature (s : State) (a : Adm) (c : Ctrl) (fid sensor : Nat) (under : Bool) : State :=
  match fid with
  | 0x01 => s.admDone a .success c.burst
  | 0x02 => s.admDone a .success s.pw.psHost
  | 0x04 =>
    match (if under then s.pw.underThr else s.pw.overThr)[sensor]? with
    | some v => s.admRead a "Temperature Threshold" [v]
    | none => s.admDone a .invalidField
  | 0x07 => s.admDone a .success (if c.granted = 0 then 0 else (c.granted - 1) * 65537)
  | 0x0B => s.admRead a "Asynchronous Event Configuration" (c.events.map EventKind.code)
  | 0x0C => s.admRead a "Autonomous Power State Transition" [0]
  | 0x0E => s.admRead a "Timestamp" s.timestamp
  | 0x0F => s.admDone a .success c.kato
  | _ => s.admDone a .invalidField

/-- A command that needs its controller. -/
def State.withCtrl (s : State) (a : Adm) (k : State → Ctrl → State) : State :=
  match s.fe.ctrl? a.ctrl with
  | some c => k s c
  | none => s

/-- GET_FEATURES (R65). -/
def execGetFeatures (a : Adm) (fid sensor : Nat) (under : Bool) (s : State) : Res :=
  finish s (s.admin (.getFeatures a fid sensor under) a false true false fun s => s.withCtrl a fun s c => s.getFeature a c fid sensor under)

/-- SET_ARBITRATION: the Arbitration Burst, 3 bits (R55, R65). -/
def execSetArbitration (a : Adm) (burst : Nat) (s : State) : Res :=
  finish s (s.admin (.setArbitration a burst) a false true false fun s =>
    if 7 < burst then s.admDone a .invalidField
    else (s.modCtrl a.ctrl fun c => { c with burst := burst }).admDone a .success)

/-- SET_TEMPERATURE_THRESHOLD, in 0.1 °C (R65, R536). -/
def execSetTemperatureThreshold (a : Adm) (sensor : Nat) (under : Bool) (value : Int) (s : State) : Res :=
  finish s (s.admin (.setTemperatureThreshold a sensor under value) a false true false fun s =>
    if 8 ≤ sensor then s.admDone a .invalidField
    else (s.modPw fun p => if under then { p with underThr := p.underThr.set sensor value } else { p with overThr := p.overThr.set sensor value }).admDone
      a .success)

/-- SET_NUMBER_OF_QUEUES: the smaller of the request and the pairs left in the pool, at most 1,024 (R54). The count of a
grant is reported less one; of an empty grant the manual states no form (log 3). DESIGN CHOICE (log 45): a second grant takes the place of
the first, also below queue identifiers in use. -/
def execSetNumberOfQueues (a : Adm) (request : Nat) (s : State) : Res :=
  finish s (s.admin (.setNumberOfQueues a request) a false true false fun s => s.withCtrl a fun s c =>
    let pool := s.fe.qpFree + c.granted
    let n := min request (min pool 1024)
    let s := (s.modFe fun f => { f with qpFree := pool - n }).modCtrl a.ctrl fun c => { c with granted := n }
    if n = 0 then s.spend.admDone a .success (Config.freeWord s.free).toNat else s.admDone a .success ((n - 1) * 65537))

/-- SET_ASYNC_EVENT_CONFIG enables the notices given and disables the others (R66). -/
def execSetAsyncEventConfig (a : Adm) (kinds : List EventKind) (s : State) : Res :=
  finish s (s.admin (.setAsyncEventConfig a kinds) a false true false fun s =>
    (s.modCtrl a.ctrl fun c => { c with events := kinds }).admDone a .success)

/-- SET_KEEP_ALIVE_TIMER: the range of R53; a KATO above it is refused (R53, R65). -/
def execSetKeepAliveTimer (a : Adm) (kato : Nat) (s : State) : Res :=
  finish s (s.admin (.setKeepAliveTimer a kato) a false true false fun s =>
    if 600000 < kato then s.admDone a .invalidField
    else (s.modCtrl a.ctrl fun c => { c with kato := katoInForce kato, kaStart := s.mono }).admDone a .success)

/-- SET_FEATURES_REFUSED: the features whose Set is refused, and unimplemented ones (R47, R65). -/
def execSetFeaturesRefused (a : Adm) (fid : Nat) (s : State) : Res :=
  finish s (s.admin (.setFeaturesRefused a fid) a false true false fun s => s.admDone a .invalidField)

/-- ASYNCHRONOUS_EVENT_REQUEST: an event that waits completes it; up to 16 are outstanding (R64). -/
def execAsynchronousEventRequest (a : Adm) (s : State) : Res :=
  finish s (s.admin (.asynchronousEventRequest a) a false true false fun s => s.withCtrl a fun s c =>
    match c.raised with
    | k :: rest => (s.modCtrl a.ctrl fun c => { c with raised := rest }).emit (.aen a.ctrl a.cid k)
    | [] => if 16 ≤ c.aers.length then s.admDone a .aerLimitExceeded
            else s.modCtrl a.ctrl fun c => { c with aers := c.aers ++ [a.cid] })

/-- ASYNCHRONOUS_EVENT: the drive raises a notice on a controller (R66). -/
def execAsynchronousEvent (ctrl : Nat) (kind : EventKind) (s : State) : Res :=
  finish s (if s.alive then s.notify kind fun c => c.cntlid == ctrl else s)

end Sys2Proof.Machine
end

