-- ==== Sys2Proof/Machine/Ledger.lean ====
section
/-! DEFINITION. The boot ledger and a failed start (R425, R428, R434). -/

namespace Sys2Proof.Machine

/-! ## The boot ledger (R428) -/

def State.slotOf (s : State) (n : Nat) : StepSlot := ((s.bt.ledger.head?.map (·.steps)).getD []).getD n {}

/-- The slot of a step of the present start is written. -/
def State.writeSlot (s : State) (n : Nat) (f : StepSlot → StepSlot) : State :=
  s.modBt fun b =>
    { b with ledger := match b.ledger with
        | [] => []
        | e :: t => { e with steps := modAt e.steps n f } :: t }

/-- The outcome of the present start is written (R428). -/
def State.writeOutcome (s : State) (o : Nat) : State :=
  s.modBt fun b =>
    { b with ledger := match b.ledger with
        | [] => []
        | e :: t => { e with outcome := o } :: t }

def StartEntry.head (e : StartEntry) : StartHead :=
  { start := e.start, image := e.image, outcome := e.outcome, fails := e.fails, cause := e.cause, time := e.time }

/-- The 16 bytes of a start header (R428). -/
def StartHead.bytes (h : StartHead) : Bytes :=
  leBytes 4 h.start ++ leBytes 1 h.image ++ leBytes 1 h.outcome ++ leBytes 1 h.fails ++ leBytes 1 h.cause ++ leBytes 8 h.time

/-- The 16 bytes of a step slot (R428). -/
def StepSlot.bytes (t : StepSlot) : Bytes :=
  leBytes 1 t.state ++ leBytes 1 t.method ++ leBytes 2 t.detail ++ leBytes 4 t.began ++ leBytes 4 t.ended ++ leBytes 4 t.fault

/-- A black box record of kind 0Ch: the header of the present start, and the slot of a step of it (R504). -/
def State.startFailure (s : State) (step : Nat) : State :=
  let h : StartHead := (s.bt.ledger.head?.map StartEntry.head).getD { start := 0, image := 0, outcome := 0, fails := 0, cause := 0, time := 0 }
  let t := s.slotOf step
  s.blackBox 12 srcDrive
    [h.start, h.image, h.outcome, h.fails, h.cause, h.time, t.state, t.method, t.detail, t.began, t.ended, t.fault]

/-- A finished start header is copied into the start ring (R428, R503). -/
def State.copyHead (s : State) : State :=
  match s.bt.ledger with
  | [] => s
  | e :: _ => s.modBb fun b => { b with starts := keepLast 4096 (b.starts ++ [e.head]), startAdded := b.startAdded + 1 }

/-- BR_TRIAL is cleared, unless an activation is pausing (R434, R441). -/
def Boot.clearTrial (b : Boot) : Boot := if b.paused || b.brTrial.isNone then b else b.setRecord b.brActive none

/-- A failed start: its outcome, the failure count, BR_TRIAL cleared unless an activation was pausing, the black box
(R425, R428, R434, R441, R504). -/
def State.markFailed (s : State) : State :=
  let e := s.bt.ledger.head?
  let s := (s.writeOutcome 2).copyHead
  let step := (e.bind fun x => x.steps.findIdx? fun t => t.state == 1 || t.state == 3).getD 15
  let s := s.startFailure step
  { s with
    bt := { s.bt.clearTrial with fails := min 3 (s.bt.fails + 1), good := false },
    bb := { s.bb with failedStarts := s.bb.failedStarts + 1 } }

end Sys2Proof.Machine
end

