-- ==== Sys2Proof/Machine/Io.lean ====
section
/-! DEFINITION. The I/O commands and the events of the write path: commit of a store, the twin's acknowledgements, and losses
in Wax (chapters 01, 03, 05). -/

namespace Sys2Proof.Machine

/-! ## Commands as they arrive (R68, R71) -/

/-- FLUSH (R106). -/
def execFlush (c : HostCmd) (s : State) : Res := finish s (s.arrive .flush c)
/-- STORE (R156). -/
def execStore (c : HostCmd) (s : State) : Res := finish s (s.arrive .store c)
/-- LONG_KEY_STORE (R72, R156). -/
def execLongKeyStore (c : HostCmd) (s : State) : Res := finish s (s.arrive .longStore c)
/-- RETRIEVE (R20, R87, R295). -/
def execRetrieve (c : HostCmd) (s : State) : Res := finish s (s.arrive .retrieve c)
/-- LONG_KEY_RETRIEVE (R72, R73). -/
def execLongKeyRetrieve (c : HostCmd) (s : State) : Res := finish s (s.arrive .longRetrieve c)
/-- LIST (R70). -/
def execList (c : HostCmd) (s : State) : Res := finish s (s.arrive .list c)
/-- DELETE (R32). -/
def execDelete (c : HostCmd) (s : State) : Res := finish s (s.arrive .delete c)
/-- LONG_KEY_DELETE (R32, R72). -/
def execLongKeyDelete (c : HostCmd) (s : State) : Res := finish s (s.arrive .longDelete c)
/-- EXIST (R68). -/
def execExist (c : HostCmd) (s : State) : Res := finish s (s.arrive .exist c)
/-- LONG_KEY_EXIST (R72). -/
def execLongKeyExist (c : HostCmd) (s : State) : Res := finish s (s.arrive .longExist c)
/-- FILTERED_LIST (R397). -/
def execFilteredList (c : HostCmd) (s : State) : Res := finish s (s.arrive .filteredList c)
/-- GET_RECEIPT (R76). -/
def execGetReceipt (c : HostCmd) (s : State) : Res := finish s (s.arrive .getReceipt c)
/-- SECURE_DELETE (R203). -/
def execSecureDelete (c : HostCmd) (s : State) : Res := finish s (s.arrive .secureDelete c)
/-- RETENTION_HOLD, key scope, place (R30). -/
def execRetentionHoldKeyPlace (c : HostCmd) (s : State) : Res := finish s (s.arrive .holdKeyPlace c)
/-- RETENTION_HOLD, key scope, release (R30). -/
def execRetentionHoldKeyRelease (c : HostCmd) (s : State) : Res := finish s (s.arrive .holdKeyRelease c)
/-- RETENTION_HOLD, namespace scope, place (R34). -/
def execRetentionHoldNsPlace (c : HostCmd) (s : State) : Res := finish s (s.arrive .holdNsPlace c)
/-- RETENTION_HOLD, namespace scope, release (R34). -/
def execRetentionHoldNsRelease (c : HostCmd) (s : State) : Res := finish s (s.arrive .holdNsRelease c)

/-! ## The commit of a store (R156 steps 4 to 7) -/

/-- STORE_COMMIT: all data of the store lies sealed in staging (R156). -/
def execStoreCommit (ctrl sq cid : Nat) (s : State) : Res :=
  finish s (
    match s.cmd? ctrl sq cid with
    | some c =>
      match c.granule, s.nsOf c.e.nsid with
      | some g, some n => if s.alive && c.phase == .intake && c.kind.isStore && c.got.length == c.e.cdw10.toNat then s.storeCommit c n g else s
      | _, _ => s
    | none => s)

/-! ## The twin's acknowledgements (R157 to R159) -/

/-- The slot that a twin-asynchronous write changed loses SLOT_TWIN_PEND, unless the twin has another of its key to acknowledge (R157). -/
def State.clearTwinPend (s : State) (seq : Nat) : State :=
  let left := s.wx.pendKeys.filter (·.1 ≠ seq)
  let of (r : StoredRec) (l : List (Nat × Nat × Key)) : Bool := l.any fun k => k.2.1 == r.nsid && k.2.2 == r.key
  let hit (r : StoredRec) : Bool := r.seq == seq || of r (s.wx.pendKeys.filter (·.1 == seq))
  let still (r : StoredRec) : Bool := decide (r.seq ∈ s.wx.unacked) || of r left
  (s.modWx fun w => { w with pendKeys := left }).index fun x => x.mapSlots fun t =>
    if (s.recAt t.loc).any hit then { t with twinPend := (s.recAt t.loc).any still } else t

/-- TWIN_ACK's value after an acknowledgement: every twin-level write up to it is acknowledged, also where the acknowledgements come
out of order (R158). `next` is the sequence the next commit takes. -/
def Wax.ackedAfter (w : Wax) (seq next : Nat) : Nat :=
  match (w.unacked.filter (· ≠ seq)).min? with
  | some m => max w.acked (m - 1)
  | none => max w.acked (next - 1)

/-- Flushes that wait for nothing any more complete (R106). -/
def State.endFlushes (s : State) : State :=
  ((s.inPhase .waitFlush).filter fun c => c.waitSeqs.isEmpty && !c.waitResync).foldl (fun s c => s.complete c .success) s

/-- Flushes for which this was the last covered write complete (R106). -/
def State.settleFlush (s : State) (seq : Nat) : State :=
  (s.modFl fun f => { f with cmds := f.cmds.map fun c =>
    if c.phase == .waitFlush then { c with waitSeqs := c.waitSeqs.filter (· ≠ seq) } else c }).endFlushes

/-- The resynchronisation has brought every covered write to the twin (R106, R278). -/
def State.resyncFlushed (s : State) : State :=
  (s.modFl fun f => { f with cmds := f.cmds.map fun c => { c with waitResync := false } }).endFlushes

/-- A pending write leaves its table: it is applied, its command completes, and those behind it go on (R34, R157). -/
def State.settlePend (s : State) (p : Pend) : State :=
  let s := s.applyPend p
  let s := match s.fl.cmds.find? fun c => c.phase == .pendingTwin && c.seq == some p.seq with
    | some c => s.finishWrite c c.leaf c.stage (c.waitSeqs.filter (· ∈ s.passedDeletes p.nsid))
    | none => s
  s.unblock

/-- Whether a staged record cannot be read: damaged, with no valid copy in HBM3 (R164, R166). -/
def State.damaged (s : State) : Option Loc → Bool
  | some (.wax g) => decide (g ∈ s.wx.bad) && !s.copyValid g (((s.wx.staged.lookup g).map (·.granules)).getD 0)
  | _ => false

/-- A repair is asked of the twin, once there is a context for it (R56, R287, R542). -/
def State.askTwin (s : State) (nsid : Nat) (key : Key) (why : Nat) : State :=
  if s.tw.repairs.any fun r => r.1 == nsid && r.2.1 == key then s
  else
    let room := s.initiatorRoom && s.tw.unasked.isEmpty
    let s := s.modTw fun t => { t with repairs := t.repairs ++ [(nsid, key, why)], unasked := if room then t.unasked else t.unasked ++ [(nsid, key)] }
    s.whenB room fun s => s.emit (.twinAsk nsid key)

/-- The middle one of a list of numbers. -/
def median (l : List Nat) : Option Nat := (l.mergeSort fun a b => decide (a ≤ b))[l.length / 2]?

/-- TW_RTT_NS, the median round trip of the last second. DESIGN CHOICE (log 24): where there was none, a free value, `free`, since the
manual states none (R289). -/
def Twin.measure (t : Twin) (mono free : Nat) : Twin :=
  let l := t.rtts.filter fun r => decide (mono < r.1 + Figure.secondNs)
  { t with rtts := l, rttNs := (median (l.map (·.2))).getD free }

/-- A replicated write has made its round trip; while the lag is above its goal it admits as many bytes (R289, R418). -/
def State.roundTrip (s : State) (seq : Nat) : State :=
  match s.tw.sentAt.lookup seq with
  | some (m, n) => s.modTw fun t =>
      ({ t with sentAt := dropAssoc seq t.sentAt, rtts := t.rtts ++ [(s.mono, s.mono - m)],
                credit := if s.lagging then t.credit + n else 0 }).measure s.mono 0
  | none => s

/-- TW_RESYNC_PCT while a resynchronisation runs (R288). -/
def Twin.progress (t : Twin) : Twin :=
  { t with resyncGot := t.resyncGot + 1, resyncPct := if t.resyncKeys = 0 then t.resyncPct else min 99 ((t.resyncGot + 1) * 100 / t.resyncKeys) }

/-- The twin acknowledges a record that the resynchronisation sent (R288). -/
def State.walkAck (s : State) : State :=
  s.whenB (s.tw.role == .primary && s.tw.sendForm != 0) fun s => s.modTw Twin.progress

/-- TWIN_ACK_RECEIVED (R157, R158, R282). -/
def State.twinAck (s : State) (seq : Nat) : State :=
  if seq ∉ s.wx.unacked then s.walkAck
  else
    let s := s.roundTrip seq
    let a := s.wx.ackedAfter seq s.va.nextSeq
    let s := ((s.modWx fun w => { w with unacked := w.unacked.filter (· ≠ seq), unackedNs := dropAssoc seq w.unackedNs, acked := a }).modTw fun t => { t with ackedSeq := a }).sentTwin seq
    let s := match s.wx.pend.find? (·.seq == seq) with
      | some p => if s.damaged p.loc then s.askTwin p.nsid p.key 2 else s.settlePend p
      | none => s.clearTwinPend seq
    s.settleFlush seq

/-! ## Losses in Wax (R166, R174, R542) -/

/-- The staged record that covers a granule (R162). -/
def State.stagedAt (s : State) (g : Nat) : Option (Nat × StoredRec) :=
  s.wx.staged.find? fun p => decide (p.1 ≤ g) && decide (g < p.1 + p.2.granules)

/-- A namespace at a twin level (R37). -/
def State.twinLevel (s : State) (nsid : Nat) : Bool := (s.nsOf nsid).any fun n => n.level == some .sync || n.level == some .async

/-- A loss of a record the twin had acknowledged: one received from the twin takes no record and no carrier and asks for a
full resynchronisation; one this drive originated enters the lag log as a delete, which stays until a resynchronisation has sent it (R542, log 24). -/
def State.loseTwin (s : State) (g : Nat) (r : StoredRec) : State :=
  match s.wx.owners.lookup r.seq with
  | none => (s.loseStaged g).modTw fun t => { t with fullResync := true }
  | some _ =>
    (s.loseStaged g).modTw fun t => t.lagAdd { seq := r.seq, nsid := r.nsid, kind := .delete, key := r.key, loss := true,
                                               sync := (s.nsOf r.nsid).any (·.level == some .sync), superseded := false, bytes := 0, tag := 0 }

/-- WAX_UNCORRECTABLE: a record with a valid copy costs only an event, and one that waits for the twin outside the index is damaged
until its acknowledgement (R166, R280, R542). -/
def State.waxUncorrectable (s : State) (g : Nat) : State :=
  let s := (s.countErr 10).event 4 "Wax uncorrectable"
  match s.stagedAt g with
  | none => s
  | some (a, r) =>
    let s := s.modWx fun w => { w with bad := a :: w.bad.filter (· ≠ a) }
    if s.copyValid a r.granules || (s.wx.pend ++ s.wx.heldRecs).any (fun p => p.loc == some (.wax a)) then s
    else if s.twinLevel r.nsid && !(r.seq ∈ s.wx.unacked) && s.tw.role != .solo then
      if s.twinGone || !s.tw.reached then s.loseTwin a r else s.askTwin r.nsid r.key 1
    else s.loseStaged a

def execWaxUncorrectable (granule : Nat) (s : State) : Res := finish s (if s.alive then s.waxUncorrectable granule else s)

/-- A fatal fault of the drive: a start that is not good, or whose activated image is not confirmed, has failed; CSTS.CFS, the black box, and a
restart 1 s later (R174, R421, R425, R441, R504). -/
def State.fatal (s : State) (code : Nat) : State :=
  let s := s.whenB (s.bt.activated.isSome || s.bt.ledger.head?.any fun e => e.outcome == 0) State.markFailed
  let s := (s.recordEvent 1 (codeOf 1 "Fatal fault") 6 code 0 0).endTest 8 0
  { s with pw := { s.pw with cfs := true, phase := .fatal }, bb := { s.bb with fatals := s.bb.fatals + 1 } }

end Sys2Proof.Machine
end

