-- ==== Sys2Proof/Machine/Media.lean ====
section
/-! DEFINITION. Flash media (chapter 06): packing, bands, garbage collection, wear, the read stages, patrol, retirement,
secure delete deadlines, repairs from the twin (chapter 09), the failure of a Wax package, and log C0h. -/

namespace Sys2Proof.Machine

/-! ## Packing (R165, R183) -/

/-- The media seal of a record that moves to NAND or is resealed: under the current key of its namespace, whose generation REC_FLAGS
then tells, with the same sequence (R154, R216, R220). -/
def State.reseal (s : State) (r : StoredRec) : StoredRec :=
  let g := s.currentGen r.nsid
  { r with keyGen := g, flags := (r.flags &&& 0xC3#8) ||| BitVec.ofNat 8 (4 * (g % 16)), mediaSeal := true, nonceCounter := r.seq }

/-- The record is under the previous key of a rotation (R220). -/
def State.previousGen (s : State) (r : StoredRec) : Bool := s.ky.recs.any fun k => k.nsid == r.nsid && k.gen == r.keyGen && k.state == 2

/-- TIER_HINT of a record, from its journal record (R158); 0 once that has been condensed. -/
def State.hintOf (s : State) (seq : Nat) : BitVec 2 :=
  match s.wx.journal.find? fun j => j.type == .store && j.seq == seq with
  | some j => j.action.extractLsb' 9 2
  | none => 0

/-- The stream of a staged record: the one chosen at its index update, or, after a start, the one its hint gives a first store (R183, log
20). -/
def State.packStream (s : State) (g : Nat) (r : StoredRec) : StreamKind :=
  (s.wx.streams.lookup g).getD (s.streamFor (s.hintOf r.seq) r.bytes none)

/-- A staged record that can be read. -/
def State.readable (s : State) (g : Nat) (r : StoredRec) : Bool := !(g ∈ s.wx.bad) || s.copyValid g r.granules

/-- A staged record to pack: a slot points at it, its key is not erased and it can be read (R123, R165, R221). -/
def State.packs (s : State) (g : Nat) (r : StoredRec) : Bool := s.ix.points (.wax g) && s.unseals r && s.readable g r

/-- No record of its stream that is to be packed lies before it in the ring (R165). -/
def State.packTurn (s : State) (g : Nat) (k : StreamKind) : Bool :=
  !((s.wx.ring.takeWhile (·.1 ≠ g)).any fun p => (s.wx.staged.lookup p.1).any fun r => s.packs p.1 r && s.packStream p.1 r == k)

/-- Work that finds no room in the journal waits, and condensing starts (R161). -/
def State.wantsRoom (s : State) : State := s.modWx fun w => { w with condensing := true }

/-- A record has landed on NAND from staging: its PACK record is written, the slot moves, and its granules are free once the tail passes
them (R123, R165). -/
def State.packed (s : State) (k : StreamKind) (g naddr : Nat) (r : StoredRec) : State :=
  let s := (s.journalMove .pack r (.wax g) (some (.nand naddr))).index fun x =>
    x.relocate (.wax g) fun t => { t with loc := .nand naddr, stagedCopy := false, fine := k == .fineInternal }
  (s.modWx fun w => { w.kill g with owners := if r.seq ∈ w.unacked then w.owners else dropAssoc r.seq w.owners }).trimRing.settleVerify

/-- Every page that holds a staged record has passed program status at an address of its stream. Where a store or a delete has won since its
programming began, the copy is garbage in its band and nothing else moves (R123, R162, R165). -/
def State.pack (s : State) (g naddr : Nat) : State :=
  match s.wx.staged.lookup g with
  | none => ((s.wx.dead.lookup g).filter s.unseals).elim s fun r =>
    (s.land (((s.md.bandOf naddr).map (·.kind)).getD (s.packStream g r)) naddr (s.reseal r)).getD s
  | some r =>
    let k := s.packStream g r
    if !s.packs g r || !s.packTurn g k then s
    else if !s.journalRoom 1 then s.wantsRoom
    else match s.land k naddr (s.reseal r) with
      | some t => t.packed k g naddr r
      | none => s

/-- PROGRAM_STATUS_PASSED (R165). -/
def execProgramStatusPassed (granule naddr : Nat) (s : State) : Res :=
  finish s (if s.mediaWork && decide (naddr < 2 ^ 42) then s.pack granule naddr else s)

/-- The rest of a band's unit is padding, with a marker at its first granule (R165, R184). -/
def State.padUnit (s : State) (b : Band) : State :=
  let z := unitUp b.unit b.fill
  if z = b.fill then s
  else ((s.modBand b.number fun x => { x with fill := z, pads := b.pads ++ (laneAddr b.recordLanes b.fill).toList, lastWrite := s.mono }).modMd
    fun m => m.program (32 * (z - b.fill))).logChanged 0

/-- UNIT_PAD_TIMEOUT: the unit of the stream's open band is padded and programmed (R165, R184). -/
def execUnitPadTimeout (kind : StreamKind) (s : State) : Res :=
  finish s (match s.md.openOf kind with
    | some b => if s.mediaWork then s.padUnit b else s
    | none => s)

/-! ## Retirement (R200 to R202) -/

/-- A block set is retired: it leaves service, its live records are due for relocation, the CLOSED band it belongs to is a victim, and
128 of them retire the die (R179, R200, R201). -/
def State.retireSet (s : State) (x : Nat × Nat × Nat) : State :=
  if (s.md.set x).retired then s
  else
    let before := s.md.availableSpare
    let live := s.liveOn (· == x)
    let n := s.md.blockSets - (s.md.dieServes x).toNat
    let s := ((s.countErr 14).modMd fun m =>
      { (m.modSet x fun y => { y with retired := true }).addDue live with
        blockSets := n, inService := n / 16,
        bands := m.bands.map fun b => if b.state == 3 && x ∈ b.members then { b with state := 4 } else b }).settleVictims
    let k := s.md.blocks.countP fun p => p.1.1 == x.1 && p.1.2.1 == x.2.1 && p.2.retired
    let s := if 128 ≤ k && s.md.dieServes x then s.dieLeaves false x.1 x.2.1 else s
    (s.event 5 "Block set retired").spareWatch before

/-! ## Bands through their states (R179, R186, R193) -/

/-- BAND_LAST_ROW_PROGRAMMED: what is left of the band is padding, the rest of its record list is written, and OPEN becomes VERIFY
(R179, R184, R186). -/
def execBandLastRowProgrammed (band : Nat) (s : State) : Res :=
  finish s (match s.md.band? band with
    | some b => if s.mediaWork && b.state == 1 then (s.endBand b).retryInternal.settleVerify else s
    | none => s)

/-- The members that pages `a` to `z` of a run of units lie on. -/
def lanesOn (l : List (Nat × Nat × Nat)) (a z : Nat) : List (Nat × Nat × Nat) :=
  (List.range (min l.length (z / 4 + 1 - a / 4))).filterMap fun k => l[(a / 4 + k) % l.length]?

/-- The members that pages `a` to `z` of a band lie on. -/
def Band.membersOn (b : Band) (a z : Nat) : List (Nat × Nat × Nat) :=
  let n := b.recordPages
  (if a < n then lanesOn b.recordLanes a (min z (n - 1)) else []) ++ (if n ≤ z then lanesOn b.internalLanes (a - n) (z - n) else [])

/-- A page that needs more than a hard decode at the read-back: it is rebuilt from parity, its live records and internal pages are
rewritten elsewhere, and its block set is retired; with a lost member in its row parity does not give it back (R186, R187, R189, R200,
R207). -/
def State.failedPage (s : State) (b : Band) (page : Nat) : State :=
  let live := s.liveOnPages b page page
  let lost := b.rowGone (fun x => s.md.onLost x || b.memberAt page == some x) page
  let s := ((s.countErr 17).modMd fun m => if lost then m.addBad live else m.addDue live).placeInternal (s.md.internalOn b page page)
  (b.membersOn page page).foldl State.retireSet s

/-- The read-back of a band counts its codewords, four to a page, that decoded at hard decision; of a page that failed up to three may have
(R186, R207, log 9). -/
def State.countVerify (s : State) (b : Band) (bad : Nat) : State :=
  (s.countErrs 0 (4 * (b.pageCount - bad))).whenB (bad != 0) fun s => s.spend.countErrs 0 ((Config.freeWord s.free).toNat % (3 * bad + 1))

/-- BAND_VERIFIED: the read-back of a band has ended, with the pages that failed; the band closes once these have been rewritten (R179,
R186). -/
def execBandVerified (v : BandCheck) (s : State) : Res :=
  finish s (match s.md.band? v.band with
    | some b =>
      if !s.mediaWork || b.state != 2 then s
      else
        let bad := v.failed.filter fun p => decide (p < b.pageCount) && !(p ∈ b.failed)
        let s := s.whenB (!b.checked) fun s => s.countVerify b bad.length
        ((bad.foldl (fun s p => s.failedPage b p) s).modBand b.number fun x => { x with checked := true, failed := x.failed ++ bad }).settleVerify
    | none => s)

/-- The CLOSED band with the lowest live fraction, the older of two that are equal (R191). -/
def State.bestVictim (s : State) : Option Band :=
  (s.md.bands.filter (·.state == 3)).foldl (fun acc b => match acc with
    | none => some b
    | some a =>
      let x := s.bandLive b * a.size
      let y := s.bandLive a * b.size
      if x < y ∨ (x = y ∧ b.openSeq < a.openSeq) then some b else some a) none

/-- GC_VICTIM_SELECT, while GC runs; the share of R192 follows the victim's live fraction as it is chosen (R190 to R192). -/
def execGcVictimSelect (s : State) : Res :=
  finish s (
    if !s.mediaWork || s.md.gcMode == 0 then s
    else match s.bestVictim with
      | none => s
      | some b => ((s.modBand b.number fun x => { x with state := 4 }).modMd fun m =>
          { m with victim := some b.number, victimU := some (s.bandLive b, b.size), gcCopied := 0, gcAdmitted := 0 }).settleVictims)

/-- The pass of a rotation has reached a record: it is under the previous key and no other relocation takes it, that of its band as a victim
or one that makes it due (R220, R515). -/
def State.rotates (s : State) (src : Nat) (r : StoredRec) : Bool :=
  s.previousGen r && !(src ∈ s.md.due) && !((s.md.bandOf src).any (·.state == 4))

/-- The stream of a relocation: records that are due, wear moves and the pass of a rotation go to GC_COLD; fine ones to the open fine band;
others by the age of the band they leave (R180, R186, R191, R220). -/
def State.copyStream (s : State) (src : Nat) (fine : Bool) : StreamKind :=
  if src ∈ s.md.due || (s.md.nand.lookup src).any (s.rotates src) then .gcCold
  else if fine then .fineInternal
  else match s.md.bandOf src with
    | some b => if s.now < b.openTime + Figure.dayNs then .gcHot else .gcCold
    | none => .gcCold

/-- What is noted of the record at an address goes with it to another: that no stage corrects it, that the read cache holds it, and that
it is due for relocation (R189, R194, R220). -/
def Media.carryMarks (m : Media) (src dst : Nat) : Media :=
  let f (g : Nat) : Nat := if g = src then dst else g
  { m with badNand := m.badNand.map f, readCache := m.readCache.map f, due := m.due.map f }

/-- The marks of a record that has been relocated: it is no longer due (R189). -/
def Media.moveMarks (m : Media) (src dst : Nat) : Media :=
  let m := m.carryMarks src dst
  { m with due := m.due.filter (· ≠ dst) }

/-- The bytes of a copy count toward the share of foreground GC if it leaves the current victim (R192). -/
def State.gcCount (s : State) (src bytes : Nat) : State :=
  s.whenB ((s.md.bandOf src).any fun b => s.md.victim == some b.number) fun s => s.modMd fun m => { m with gcCopied := m.gcCopied + bytes }

/-- A copied record is committed to the map: a MOVE record and the slot; the copy of a record that has gone is garbage (R123, R193). -/
def State.moved (s : State) (k : StreamKind) (src dst : Nat) (r : StoredRec) : State :=
  let s := s.gcCount src r.bytes
  if s.ix.points (.nand src) then
    (((s.journalMove .move r (.nand src) (some (.nand dst))).index fun x =>
      x.relocate (.nand src) fun y => { y with loc := .nand dst, fine := k == .fineInternal }).modMd fun m => m.moveMarks src dst).settleBands
  else (s.modMd fun m => { m with due := m.due.filter (· ≠ src) }).settleBands

/-- A current page of internal data is copied to the open FINE_INTERNAL band (R191). -/
def State.moveInternal (s : State) (src dst : Nat) (pg : IntPage) : State :=
  let t := (s.gcCount src 4096).placeInternal [pg]
  if t.md.internal.lookup dst == some pg && src ≠ dst then (t.countErr 0).settleBands else s

/-- GC_COPY_VERIFIED: a copy has been programmed and its codewords read back at its destination. GC, wear moves and other relocations copy the
record as stored, and only the pass of a rotation seals it anew (R191, R193, R207, R216, R220, R515). -/
def State.moveRecord (s : State) (src dst : Nat) : State :=
  match s.md.nand.lookup src, s.md.internal.lookup src with
  | some r, _ =>
    if !s.journalRoom 1 then s.wantsRoom
    else
      let k := s.copyStream src ((s.ix.slotFor (.nand src)).any (·.fine))
      match s.land k dst (if s.rotates src r then s.reseal r else r) with
      | some t => (t.countErrs 0 (t.codewords dst r.granules)).moved k src dst r
      | none => s
  | none, some pg => s.moveInternal src dst pg
  | none, none => s

def execGcCopyVerified (src dst : Nat) (s : State) : Res :=
  finish s (if s.mediaWork && decide (dst < 2 ^ 42) && src != dst then s.moveRecord src dst else s)

/-- Progress of the removals that waited for a band; one with a copy that cannot be erased does not end (R203, R204). -/
def State.secdelBand (s : State) (band : Nat) : State :=
  let hit := s.md.secdel.filter fun j => band ∈ j.bands
  let s := s.modMd fun m => { m with secdel := m.secdel.map fun j =>
    if band ∈ j.bands then { j with bands := j.bands.filter (· ≠ band), done := j.done + 1 } else j }
  let s := hit.foldl (fun s j => match j.slot with
    | some i => s.setC1 i fun r => { r with bands := j.total, erased := j.done + 1 }
    | none => s) s
  let s := (s.md.secdel.filter fun j => j.bands.isEmpty && !j.stuck).foldl State.secdelDone s
  s.modMd fun m => { m with overdue := m.secdel.any (·.overdue) }

/-- A page of the record list of a band (R184). -/
def IntPage.listOf (band : Nat) : IntPage → Bool
  | .recordList b _ => b == band
  | _ => false

/-- BAND_ERASE_DONE: every member is erased, the band is FREE and its record list is of no use; a block set that reaches 3,000 erases is retired
(R178, R179, R200, R203). -/
def State.bandErased (s : State) (b : Band) : State :=
  let off (g : Nat) : Bool := !(naMember g ∈ b.members)
  let s := (s.modMd fun m =>
    { b.members.foldl Media.erased m with
      bands := m.bands.filter (·.number ≠ b.number),
      nand := m.nand.filter fun p => off p.1,
      badNand := m.badNand.filter off,
      readCache := m.readCache.filter off,
      due := m.due.filter off,
      internal := m.internal.filter fun p => off p.1 && !p.2.listOf b.number,
      intWaits := m.intWaits.filter fun p => !p.listOf b.number,
      headers := m.headers.filter fun p => p.1 ∉ b.members,
      victim := if m.victim = some b.number then none else m.victim,
      victimU := if m.victim = some b.number then none else m.victimU }).logChanged 0
  let s := (b.members.filter fun x => 3000 ≤ (s.md.set x).erases).foldl State.retireSet s
  s.secdelBand b.number

def execBandEraseDone (band : Nat) (s : State) : Res :=
  finish s (match s.md.band? band with
    | some b => if s.mediaWork && b.state == 5 then s.bandErased b else s
    | none => s)

/-- The member of a band on a channel. -/
def Band.member (b : Band) (ch : Nat) : Option (Nat × Nat × Nat) := b.members.find? (·.1 == ch)

/-- ERASE_FAILURE: the retried erase has failed too; the block set is retired and leaves the band, and a copy that it holds keeps its
Secure Delete open (R200, R204). -/
def State.eraseFails (s : State) (b : Band) (x : Nat × Nat × Nat) : State :=
  let held (j : SecDelJob) : Bool := s.md.nand.any fun p => b.onMember x p.1 p.2.granules && decide (naMember p.1 ∈ b.members) && s.isCopy j.nsid j.key p.2
  (((s.countErr 7).modMd fun m => { m with secdel := m.secdel.map fun j => if held j then { j with stuck := true } else j }).retireSet x).modMd
    fun m => { m.modBand b.number fun b => { b with members := b.members.filter (· ≠ x) } with headers := m.headers.filter (·.1 ≠ x) }

def execEraseFailure (band channel : Nat) (s : State) : Res :=
  finish s (
    match (s.md.band? band).filter (·.state == 5) with
    | none => s
    | some b => match b.member channel with
      | none => s
      | some x => if s.mediaWork then s.eraseFails b x else s)

/-- PROGRAM_FAILURE: the member is replaced on its channel by a block set with a replacement header, its programmed rows are rebuilt from
parity into it, a MOVE record is written for each record that begins in them, and the failed block set is retired; the records of a row in
which another member is lost are lost (R178, R187, R189, R194). -/
def State.replaceMember (s : State) (b : Band) (x : Nat × Nat × Nat) (die block : Nat) : State :=
  let new := (x.1, die, block)
  let there (g : Nat) : Nat := if naMember g = x then naMove g die block else g
  let recs := s.md.nand.filter fun p => naMember p.1 == x
  let lost := (s.md.nand.filter fun p => b.onMember x p.1 p.2.granules && s.md.takenBy (fun y => s.md.onLost y || y == x) p.1 p.2.granules).map (·.1)
  let ms := b.members.map fun z => if z = x then new else z
  let s := (s.countErr 6).modMd fun m => m.addBad lost
  let s := s.modMd fun m =>
    { (m.program (65536 * b.rowsOn x)).modBand b.number fun y => { y with members := ms, pads := y.pads.map there } with
      internal := m.internal.map fun p => (there p.1, p.2),
      headers := (new, { kind := b.kind, replacement := true, band := b.number, ec := (s.md.set new).erases, openSeq := b.openSeq, members := ms,
                         openTime := b.openTime, tq := b.tq }) :: m.headers }
  let s := recs.foldl (fun s (g, r) =>
    let d := naMove g die block
    let s := s.modMd fun m => { m.carryMarks g d with nand := setAssoc d r (dropAssoc g m.nand) }
    if s.ix.points (.nand g) then
      (s.journalMove .move r (.nand g) (some (.nand d))).index fun i => i.relocate (.nand g) fun t => { t with loc := .nand d }
    else s) s
  s.retireSet x

def execProgramFailure (band channel newDie newBlock : Nat) (s : State) : Res :=
  finish s (
    match (s.md.band? band).filter fun b => b.state == 1 || b.state == 2 with
    | none => s
    | some b => match b.member channel with
      | none => s
      | some x =>
        if !(s.mediaWork && decide (newDie < 32) && decide (newBlock < 2048) && s.md.freeSet (channel, newDie, newBlock)) then s
        else if !s.journalRoom (s.md.nand.countP fun p => naMember p.1 == x) then s.wantsRoom
        else s.replaceMember b x newDie newBlock)

/-- GC_MODE_CHANGE: the mode the FREE bands call for; entry to and exit from foreground are recorded (R190, R192). -/
def State.gcModeNow (s : State) : Nat :=
  let n := s.md.inService
  let f := s.md.freeBands
  if f * 100 < 3 * n then 2 else if f * 10 < n then 1 else 0

def execGcModeChange (s : State) : Res :=
  finish s (
    let k := s.gcModeNow
    if !s.mediaWork || k = s.md.gcMode then s
    else
      let t := (s.modMd fun m => { m with gcMode := k }).logChanged 0
      if k = 2 then t.event 5 "Foreground GC entered" else if s.md.gcMode = 2 then t.event 5 "Foreground GC left" else t)

/-! ## Wear (R195 to R198) -/

/-- Block sets in service on the channels that `on` names (R196, R202). -/
def Media.inServiceOn (m : Media) (on : Nat → Bool) : Nat :=
  ((List.range 16).filter on).foldl (fun n c => n + ((List.range 32).map (m.dieSets c)).sum) 0

/-- Spread of the erase counts of the block sets in service on the static channels (R195). -/
def Media.staticSpread (m : Media) : Nat :=
  let es := (m.blocks.filter fun p => !(m.channels.getLsbD p.1.1) && m.inUse p.1).map (·.2.erases)
  let lo := if es.length < m.inServiceOn (fun c => !m.channels.getLsbD c) then 0 else es.min?.getD 0
  es.foldl max 0 - lo

/-- The least-worn CLOSED band that has not been written for 7 days (R195). -/
def State.wearVictim (s : State) : Option Band :=
  let worn (b : Band) : Nat := (((b.members.filter fun x => !s.md.channels.getLsbD x.1).map fun x => (s.md.set x).erases).min?).getD 0
  (s.md.bands.filter fun b => b.state == 3 && decide (b.lastWrite + 7 * Figure.dayNs ≤ s.mono)).foldl (fun acc b => match acc with
    | none => some b
    | some a => if worn b < worn a then some b else some a) none

/-- WEAR_MOVE: moves start at a spread above 200 and stop at 150; each takes its victim's records to GC_COLD (R195). -/
def execWearMove (s : State) : Res :=
  finish s (
    let d := s.md.staticSpread
    let on := if s.md.wearMoves then decide (150 < d) else decide (200 < d)
    let t := s.modMd fun m => { m with wearMoves := on }
    if !s.mediaWork then s
    else if !on then t
    else match s.wearVictim with
      | none => t
      | some b =>
        let live := s.liveOn (· ∈ b.members)
        ((t.modBand b.number fun x => { x with state := 4 }).modMd fun m => m.addDue live).settleVictims)

/-- Erases of the block sets in service, in total (R196). -/
def Media.erasesSum (m : Media) : Nat := ((m.blocks.filter fun p => m.inUse p.1).map (·.2.erases)).sum

/-- WA × 1,000 over the last 30 days (R196). -/
def Media.waNow (m : Media) : Nat :=
  let host := m.winHost + (m.winDays.map (·.1)).sum
  let nand := m.winNand + (m.winDays.map (·.2)).sum
  if host < 1000000000000 then 1500 else max 1000 (min 10000 (nand * 1000 / host))

/-- A in bytes per day, rounded down (R196, R198, log 9). -/
def accrualOf (plan sets erases wa hours : Nat) : Nat :=
  if sets = 0 then 0
  else
    let left := if hours < 105192 then 105192 - hours else 8760
    (plan * sets - erases) * 134217728 * 24 * 1000 / (wa * left)

/-- Accrual up to the present second, within the cap (R197). -/
def Media.accrue (m : Media) (sec : Nat) : Media :=
  { m with bank := min (30 * m.accrual) (m.bank + m.accrual * (sec - m.accruedS) / 86400), accruedS := sec }

/-- ACCRUAL_RECOMPUTE: once a day of power-on time (R196 to R198). -/
def execAccrualRecompute (s : State) : Res :=
  finish s (if !s.alive then s else s.modMd fun m =>
    let m := m.accrue s.pw.powerOnS
    let hours := s.pw.powerOnS / 3600
    let plan := if 105192 ≤ hours then 3000 else 2700
    let wa := m.waNow
    let a := accrualOf plan m.blockSets m.erasesSum wa hours
    { m with waMilli := wa, pPlan := plan, accrual := a, bank := min m.bank (30 * a),
             winDays := ((m.winHost, m.winNand) :: m.winDays).take 29, winHost := 0, winNand := 0 })

/-- BANK_EMPTY (R197). -/
def execBankEmpty (needed : Nat) (s : State) : Res := finish s (if s.alive then s.bankCheck needed else s)

/-- BANK_REFILLED: at 67,109,152 bytes (R197). -/
def execBankRefilled (s : State) : Res :=
  finish s (if s.alive && s.md.bankEmpty && decide (Figure.maxRecordBytes ≤ s.md.bank) then
      (s.modMd fun m => { m with bankEmpty := false }).event 5 "Wear bank refilled"
    else s)

/-! ## Reading (R188, R189) -/

/-- The other live records of the pages that a record lies in (R182, R189). -/
def State.pageOthers (s : State) (g : Nat) : List Nat :=
  match s.md.bandOf g with
  | some b =>
    match b.pagesOf g (((s.md.nand.lookup g).map (·.granules)).getD 1) with
    | some (a, z) => (s.liveOnPages b a z).filter (· ≠ g)
    | none => []
  | none => []

/-- No stage corrects: the retrieval fails, the error is counted and recorded, the page's other records are due (R189). -/
def State.readFails (s : State) (c : Cmd) (g : Nat) : State :=
  let s := ((s.countErr 5).event 5 "NAND uncorrectable").modMd fun m =>
    (m.addDue (s.pageOthers g)).addBad [g]
  (s.complete c .unrecoveredReadError).settleVictims

/-- The stage after one that did not correct: 3 only in an OPEN or VERIFY band whose row parity gives the page back, 4 only for a twin-level record with a twin
attached whose slot is not twin-pending (R188, R287). -/
def State.nextStage (s : State) (c : Cmd) (g : Nat) : Option Nat :=
  let parity := ((s.md.bandOf g).any fun b => b.state == 1 || b.state == 2) && !s.md.taken g (((s.md.nand.lookup g).map (·.granules)).getD 1)
  let twin := s.twinLevel c.e.nsid && s.tw.role != .solo && s.tw.reached && !s.twinGone && !((s.find c.e.nsid c.key).any (·.slot.twinPend))
  if c.stage < 2 then some (c.stage + 1)
  else if c.stage = 2 && parity then some 3
  else if c.stage ≤ 3 && twin then some 4
  else none

/-- A media read returns and decodes, or moves to the next stage. -/
def State.mediaRead (s : State) (c : Cmd) (corrected : Bool) : State :=
  match c.loc, s.find c.e.nsid c.key with
  | some (.nand g), some f =>
    if f.slot.loc ≠ .nand g then s.fetchRecord c f.slot f.record
    else if corrected && !(g ∈ s.md.badNand) then
      (((s.countRead c.stage (s.codewords g f.record.granules)).cacheRecord g).serve c f.record).settleVictims
    else match s.nextStage c g with
      | none => s.readFails c g
      | some 4 => (s.modCmd c.fetch fun x => { x with stage := 4, phase := .waitTwinRepair }).askTwin c.e.nsid c.key 0
      | some n => s.modCmd c.fetch fun x => { x with stage := n }
  | _, some f => s.fetchRecord c f.slot f.record
  | _, none => s.complete c .keyDoesNotExist

/-- MEDIA_READ_DONE (R188). -/
def execMediaReadDone (ctrl sq cid : Nat) (corrected : Bool) (s : State) : Res :=
  finish s (match s.cmd? ctrl sq cid with
    | some c => if s.alive && c.phase == .waitMedia then s.mediaRead c corrected else s
    | none => s)

/-- READ_UNCORRECTABLE (R189). -/
def execReadUncorrectable (ctrl sq cid : Nat) (s : State) : Res :=
  finish s (match s.cmd? ctrl sq cid with
    | some c =>
      match c.loc with
      | some (.nand g) => if s.alive && (c.phase == .waitMedia || c.phase == .waitTwinRepair) then s.readFails c g else s
      | _ => s
    | none => s)

/-! ## Patrol and dies (R199 to R201) -/

/-- A patrol event against a block set; the third within 30 days retires it (R200). -/
def State.patrolEvent (s : State) (b : Nat × Nat × Nat) : State :=
  let s := s.modMd fun m => m.modSet b fun x => { x with patrol := x.patrol ++ [s.mono] }
  if 3 ≤ (s.md.set b).patrol.countP fun t => decide (s.mono < t + 30 * Figure.dayNs) then s.retireSet b else s

/-- A patrol pass ends when every written page of the CLOSED bands has been read (R199). -/
def State.patrolPass (s : State) : State :=
  let closed := s.md.bands.filter (·.state == 3)
  let t := if closed.all fun b => decide (b.pageCount ≤ b.read) then
      s.modMd (·.passDone s.pw.powerOnS)
    else s.modMd fun m => { m with patrolProgress := (closed.map fun b => min b.read b.pageCount).sum * 10000 / (closed.map (·.pageCount)).sum }
  t.logChanged 0

/-- The patrol pass is more than 12 h behind the four days of R199: what it has read, against the time since it began (R463). -/
def State.patrolBehind (s : State) : Bool :=
  s.md.bands.any (·.state == 3) && decide (s.md.patrolProgress * 345600 / 10000 + 43200 < s.pw.powerOnS - s.md.patrolStart)

/-- Work that runs in PS3 and PS4 under PS2 limits: a patrol pass that is behind, and secure deletes past half their deadline (R204, R463). -/
def State.workOverdue (s : State) : Bool := s.md.secdel.any (·.urgent) || s.patrolBehind

/-- The live records with a part in codeword `k` of a page of a band: 4 KiB of records, four to a page (R182). -/
def State.liveOnCodeword (s : State) (b : Band) (page k : Nat) : List Nat :=
  (s.liveOnPages b page page).filter fun g => (lanePos b.recordLanes g).any fun p =>
    let n := ((s.md.nand.lookup g).map (·.granules)).getD 1
    decide (p / fineGranules ≤ 4 * page + k) && decide (4 * page + k ≤ (p + n - 1) / fineGranules)

/-- A codeword that needed a stage above 0 is counted in its class; from stage 2 on the records and internal pages of its page are
relocated and the event is counted against its block set. Of one that no stage corrects (5) the records stay as R189 says, and it is
recorded (R189, R199, R200, R207, log 9). -/
def State.patrolCodeword (s : State) (b : Band) (x : (Nat × Nat) × Nat) : State :=
  let ((page, k), stage) := x
  let lost := if stage = 5 then s.liveOnCodeword b page k else []
  let due := (s.liveOnPages b page page).filter (· ∉ lost)
  let s := s.countErr stage
  if stage < 2 then s
  else
    let s := ((s.countErr 8).modMd fun m => (m.addBad lost).addDue due).placeInternal (s.md.internalOn b page page)
    let s := s.whenB (stage == 5) fun s => s.event 5 "NAND uncorrectable"
    (b.membersOn page page).foldl State.patrolEvent s

/-- PATROL_READ of the pages `a` to `z` of a CLOSED band, in unit order: the codewords decoded at hard decision, four to a page but for
those named, and what the others needed (R199, R207). -/
def State.patrol (s : State) (b : Band) (f : PatrolFound) (a z : Nat) : State :=
  let s := f.codewords.foldl (fun s x => s.patrolCodeword b x) (s.countErrs 0 (4 * (z + 1 - a) - f.codewords.length))
  (s.modBand b.number fun x => { x with read := max x.read (z + 1) }).patrolPass

/-- What a patrol read found names codewords of the pages read, each once. -/
def patrolWithin (f : PatrolFound) (a z : Nat) : Bool :=
  decide ((f.codewords.map (·.1)).Nodup) && f.codewords.all fun c => decide (a ≤ c.1.1) && decide (c.1.1 ≤ z) && decide (c.1.2 < 4) && decide (1 ≤ c.2)
    && decide (c.2 ≤ 5)

/-- The pass after a start begins at the oldest CLOSED bands: no older one has pages that it has not read (R199). -/
def Media.patrolTurn (m : Media) (b : Band) : Bool :=
  !m.patrolFast || !(m.bands.any fun x => x.state == 3 && decide (x.openSeq < b.openSeq) && decide (x.read < x.pageCount))

/-- PATROL_READ: the pages follow those that this pass has read. -/
def execPatrolRead (band : Nat) (found : PatrolFound) (pageStart pageEnd : Nat) (s : State) : Res :=
  finish s (match s.md.band? band with
    | some b =>
      if s.mediaWork && b.state == 3 && decide (pageStart ≤ b.read) && decide (pageStart ≤ pageEnd) && decide (pageEnd < b.pageCount)
          && patrolWithin found pageStart pageEnd && s.md.patrolTurn b then s.patrol b found pageStart pageEnd else s
    | none => s)

/-- DIE_LOST: parity gives back one member of a row of an OPEN or VERIFY band; other records are left to the twin or to R189 (R187,
R201). -/
def execDieLost (channel die : Nat) (s : State) : Res :=
  finish s (if !s.alive || (channel, die) ∈ s.md.diesLost || decide (16 ≤ channel) || decide (32 ≤ die) then s else s.dieLeaves true channel die)

/-! ## Secure delete deadlines (R204) -/

/-- SECURE_DELETE_HALF_DEADLINE: the remaining work takes the foreground share. -/
def execSecureDeleteHalfDeadline (slot : Nat) (s : State) : Res :=
  whileUp s (
    let s := s.modMd fun m => { m with secdel := m.secdel.map fun j => if j.slot == some slot then { j with urgent := true } else j }
    s.modPw fun p => ({ p with overdueWork := s.workOverdue }).settle)

/-- SECURE_DELETE_OVERDUE: an event and HL_FLAGS[5]. -/
def execSecureDeleteOverdue (slot : Nat) (s : State) : Res :=
  whileUp s (if s.md.secdel.any (fun j => j.slot == some slot && !j.overdue) then
      (s.modMd fun m => { m with overdue := true, secdel := m.secdel.map fun j => if j.slot == some slot then { j with overdue := true } else j }).event
        5 "Secure delete overdue"
    else s)

/-! ## Repairs from the twin (R287, R542) -/

/-- Retrievals of a key that wait for its repair. -/
def State.waitingRepair (s : State) (nsid : Nat) (key : Key) : List Cmd :=
  (s.inPhase .waitTwinRepair).filter fun c => c.e.nsid == nsid && c.key == key

/-- The twin's value replaces the damaged record at a new NAND location, sealed anew with its sequence and leaf kept: a MOVE record and
the slot (R123, R216, R287, R542). While the journal has no room for the MOVE record or no band can open it stays where it is. -/
def State.rewriteRecord (s : State) (f : Found) (v : Bytes) : State :=
  let r := s.reseal { f.record with value := v }
  if !s.journalRoom 1 then s.wantsRoom
  else match s.landNext .gcCold r with
    | none => s
    | some (t, d) =>
      let t := ((t.journalMove .move r f.slot.loc (some (.nand d))).index fun x =>
        x.relocate f.slot.loc fun y => { y with loc := .nand d, stagedCopy := false, fine := false, lenClass := BitVec.ofNat 12 (lenClass r.granules) }).modMd
        fun m => { m with liveBytes := m.liveBytes - f.record.bytes + r.bytes }
      match f.slot.loc with
      | .wax g => (t.modWx fun w => w.kill g).trimRing.settleVerify
      | .nand g => (t.modMd fun m => { m with
        badNand := m.badNand.filter (· ≠ g), due := m.due.filter (· ≠ g), readCache := m.readCache.filter (· ≠ g) }).settleBands

/-- The waiting retrievals of a key end with a status. -/
def State.endRepair (s : State) (nsid : Nat) (key : Key) (st : Status) : State :=
  (s.waitingRepair nsid key).foldl (fun s c => s.complete c st) s

/-- Stage 4 has not corrected either: the waiting retrievals of a record on NAND fail as R189 has it, those of a staged one with the same
status (R189, R542). -/
def State.failRepair (s : State) (nsid : Nat) (key : Key) : State :=
  (s.waitingRepair nsid key).foldl (fun s c => match c.loc with
    | some (.nand g) => s.readFails c g
    | _ => s.complete c .unrecoveredReadError) s

/-- A staged record with the value the twin gave. -/
def withValue (g : Nat) (v : Bytes) (p : Nat × StoredRec) : Nat × StoredRec :=
  if p.1 = g then (g, { p.2 with value := v }) else p

/-- A staged record goes to the next place of its stream at once. -/
def State.packNow (s : State) (g : Nat) : State :=
  match s.wx.staged.lookup g with
  | none => s
  | some r =>
    let k := s.packStream g r
    if s.packs g r && !s.journalRoom 1 then s.wantsRoom
    else if s.packs g r then
      match s.landNext k (s.reseal r) with
      | some (t, a) => t.packed k g a r
      | none => s
    else s

/-- A Wax package has failed: the drive packs what it can still read as far as the journal and the bands have room, and once nothing is left
to pack or to report and no repair is awaited the fault is fatal (R174, log 19). -/
def State.failingEnds (s : State) : State :=
  match s.wx.failing with
  | some _ =>
    let s := (s.wx.ring.map (·.1)).foldl State.packNow s
    if s.tw.repairs.any (·.2.2 == 1) || !s.wx.losses.isEmpty || s.wx.staged.any (fun p => s.packs p.1 p.2) then s
    else (s.modWx fun w => { w with failing := none }).fatal 0x174
  | none => s

/-- A repair is no longer awaited. -/
def State.endAsk (s : State) (nsid : Nat) (key : Key) : State :=
  s.modTw fun t =>
    { t with repairs := t.repairs.filter (fun r => !(r.1 == nsid && r.2.1 == key)), unasked := t.unasked.filter (· ≠ (nsid, key)),
             absents := t.absents.filter (· ≠ (nsid, key)) }

/-- The twin holds no record of the key: the slot is cleared by a DELETE record, so that replay does not bring the record back, DESIGN CHOICE
(log 24); without room in the journal it waits (R161, R542). -/
def State.repairAbsent (s : State) (nsid : Nat) (key : Key) : State :=
  let w := Write.removal nsid key
  if s.journalRoom w.blocks then
    (((s.endAsk nsid key).commit w none).1.event 8 "Record absent on the twin").endRepair nsid key .keyDoesNotExist
  else (s.modTw fun t => { t with absents := t.absents.filter (· ≠ (nsid, key)) ++ [(nsid, key)] }).journalFull

/-- The twin's answer (R282, R287, R542): the answer is used only while SLOT_TWIN_PEND is 0. -/
def State.repairAnswer (s : State) (nsid : Nat) (key : Key) (ans : Option Bytes) (why : Nat) : State :=
  if why = 1 && ans.isNone && (s.find nsid key).isSome then s.repairAbsent nsid key else
  let s := s.endAsk nsid key
  if why = 2 then
    match s.wx.pend.find? fun p => p.nsid == nsid && p.key == key, ans with
    | some p, some v =>
      let s := match p.loc with
        | some (.wax g) => s.modWx fun w => { w with staged := w.staged.map (withValue g v), bad := w.bad.filter (· ≠ g) }
        | _ => s
      s.settlePend p
    | some p, none => s.settlePend p
    | none, _ => s
  else
    match s.find nsid key, ans with
    | some f, some v =>
      if f.slot.twinPend then s.failRepair nsid key
      else
        let s := ((s.rewriteRecord f v).countErr 4).event 8 "Record repaired from the twin"
        (s.waitingRepair nsid key).foldl (fun s c => s.serve c { f.record with value := v }) s
    | some _, none => s.failRepair nsid key
    | none, _ => s.endRepair nsid key .keyDoesNotExist

/-- TWIN_REPAIR_REQUEST: the answer to a repair this drive asked for, with the value if the twin holds the record. -/
def execTwinRepairRequest (nsid : Nat) (key : Key) (held : Bool) (value : Bytes) (s : State) : Res :=
  finish s (
    match s.tw.repairs.find? fun r => r.1 == nsid && r.2.1 == key with
    | some (_, _, why) => if s.alive then (s.repairAnswer nsid key (if held then some value else none) why).failingEnds else s
    | none => s)

/-- A repair that did not come: a record lost in Wax becomes a loss; a NAND read stays uncorrectable (R189, R542). -/
def State.repairFails (s : State) (nsid : Nat) (key : Key) (why : Nat) : State :=
  let t := (s.endAsk nsid key).failRepair nsid key
  if why ≠ 1 then t
  else match t.find nsid key with
    | some f => match f.slot.loc with
      | .wax g => t.loseTwin g f.record
      | .nand _ => t
    | none => t

/-- TWIN_REPAIR_TIMEOUT (R542). -/
def execTwinRepairTimeout (nsid : Nat) (key : Key) (s : State) : Res :=
  whileUp s (
    match s.tw.repairs.find? fun r => r.1 == nsid && r.2.1 == key with
    | some (_, _, why) => if (nsid, key) ∈ s.tw.absents then s else (s.repairFails nsid key why).failingEnds
    | none => s)

/-! ## The failure of a Wax package (R174) -/

/-- WAX_PACKAGE_FAILURE while serving: every staged record that can still be read is packed, the rest is reported as R166 has it, which
asks the twin first where it can, and then the fault is fatal; until then the drive goes on (R166, R174, R542, log 19). -/
def execWaxPackageFailure (package : Nat) (s : State) : Res :=
  finish s (
    if !s.alive || decide (8 ≤ package) then s
    else
      let hit := (s.wx.staged.filter fun p => inPackage p.1 p.2.granules package).map (·.1)
      let s := s.modWx fun w => { w with failedPkgs := package :: w.failedPkgs.filter (· ≠ package),
                                         bad := w.bad ++ hit.filter (· ∉ w.bad) }
      let lost := hit.filter fun g => (s.wx.staged.lookup g).any fun r => !s.readable g r
      let kept := s.wx.staged.length - lost.length
      let s := ((s.wx.ring.map (·.1)).foldl State.packNow s).blackBox 10 srcDrive [package, 0, kept, lost.length]
      ((lost.foldl State.waxUncorrectable s).modWx fun w => { w with failing := some package }).failingEnds)

/-! ## Log C0h (R80, R206 to R208) -/

/-- The vendor log header with the page after it (R80). -/
def State.vendorPage (s : State) (page : Nat) (body : Bytes) : Bytes :=
  let n := page - 0xC0
  let (t, q) := s.fe.logTime.getD n (0, 0)
  leBytes 1 page ++ [1, 0, 0] ++ leBytes 4 (64 + body.length) ++ leBytes 8 (s.fe.logGen.getD n 0) ++ leBytes 8 t ++ [q]
    ++ List.replicate 39 0 ++ body

/-- Mean, highest and lowest erase counts of the block sets in service. -/
def Media.ecAvg (m : Media) : Nat := if m.blockSets = 0 then 0 else m.erasesSum / m.blockSets
def Media.ecMax (m : Media) : Nat := ((m.blocks.filter fun p => m.inUse p.1).map (·.2.erases)).foldl max 0
def Media.ecMin (m : Media) : Nat :=
  let es := (m.blocks.filter fun p => m.inUse p.1).map (·.2.erases)
  if es.length < m.blockSets then 0 else es.min?.getD 0

/-- The share of the media write rate that GC leaves to host writes: 1 − u of the victim in foreground GC, 0 while nothing is admitted,
otherwise 100 (R192). -/
def State.gcLeaves (s : State) : Nat :=
  if s.md.freeBands ≤ 64 then 0
  else if s.md.gcMode ≠ 2 then 100
  else match s.md.victimU with
    | some (live, size) => if size = 0 then 0 else (size - live) * 100 / size
    | none => 0

/-- HL_ADMIT_PCT: the share of the media write rate admitted to host writes, after GC and the control loops (R192, R206, R418). -/
def State.admitPct (s : State) : Nat := min s.gcLeaves (100 - s.md.throttle)

def State.logC0 (s : State) : Bytes :=
  let m := s.md
  s.vendorPage 0xC0 (leBytes 4 m.inService ++ leBytes 4 m.freeBands ++ leBytes 4 m.spareBands ++ leBytes 4 s.hlFlags ++ leBytes 1 s.admitPct
    ++ leBytes 1 (min 255 (m.ecAvg * 100 / m.pPlan)) ++ [8, 0] ++ leBytes 2 m.ecAvg ++ leBytes 2 m.ecMax ++ leBytes 2 m.ecMin
    ++ leBytes 2 m.pPlan ++ leBytes 4 m.waMilli ++ leBytes 8 m.accrual ++ leBytes 8 m.bank ++ leBytes 8 (30 * m.accrual)
    ++ leBytes 8 m.hostBytes ++ leBytes 8 m.nandBytes ++ leBytes 8 m.liveBytes ++ leBytes 8 s.ix.resident ++ leBytes 8 s.ix.spill.length
    ++ leBytes 8 m.fgSeconds ++ leBytes 8 m.patrolPasses ++ leBytes 4 m.patrolProgress ++ List.replicate 12 0 ++ m.err.flatMap (leBytes 4 ·)
    ++ List.replicate 224 0 ++ s.pw.tempHist.flatMap fun h => h.flatMap fun sec => leBytes 4 (sec / 3600))

end Sys2Proof.Machine
end

