-- ==== Sys2Proof/Machine/IndexJobs.lean ====
section
/-! DEFINITION. Background work of the Ember index: condensing and checkpoints (R129, R130, R161), un-spilling (R128),
the rebuild of a page (R132) and of the index after the loss of an HBM3 stack (R133, R134). -/

namespace Sys2Proof.Machine

/-! ## What a journal record makes of a key (R123, R158, R171) -/

/-- The location that JR_LOC or JR_AUX spells (R118). -/
def locOfWord (w : Nat) : Loc := if w / 2 ^ 46 % 4 = 1 then .nand (w % 2 ^ 42) else .wax (w % 2 ^ 27)

/-- A journal record concerns a key: it names it, or it carries its H (R158). -/
def JRec.concerns (j : JRec) (h : BitVec 64) (b : BaseKey) : Bool :=
  match j.type with
  | .store | .delete | .secdel | .hold => j.nsid == b.nsid && j.key == b.key
  | .pack | .move | .loss => j.h == h
  | .twinAck => false

/-- The slot of a key after a relocation, if it still holds the location left (R123). -/
def State.relocated (s : State) (j : JRec) (t : Slot) : Slot :=
  match j.loc with
  | some (.nand g) =>
    if t.loc = locOfWord j.aux then
      { t with loc := .nand g, lenClass := j.lenClass, stagedCopy := false, fine := (s.md.bandOf g).any (·.kind == .fineInternal) }
    else t
  | _ => t

/-- What a journal record makes of the slot of a key it concerns, and of its entry of the commit time table (R123, R171, R363). -/
def State.replayRec (s : State) (b : BaseKey) (j : JRec) : BaseKey :=
  match j.type with
  | .store =>
    { b with slot := j.loc.map fun l => { fp := hashFp (s.hash b.nsid b.key), loc := l, lenClass := j.lenClass, stagedCopy := false,
                                          twinPend := false, fine := false, hold := false, long := decide (16 < b.key.length) },
             commit := if (s.nsOf b.nsid).any (·.type == .ledger) then
               some { seq := j.seq, time := j.time, tq := j.tq, cls := (j.action.extractLsb' 2 6).toNat } else none }
  | .delete | .secdel => { b with slot := none, commit := none }
  | .pack | .move => { b with slot := b.slot.map (s.relocated j) }
  | .loss => if b.slot.any (fun t => some t.loc == j.loc) then { b with slot := none, commit := none } else b
  | .hold | .twinAck => b

/-- A run of journal records applied to a key; those that replay passes over are named. -/
def State.replayKey (s : State) (skip : JRec → Bool) (l : List JRec) (b : BaseKey) : BaseKey :=
  (l.filter fun j => j.concerns (s.hash b.nsid b.key) b && !skip j).foldl s.replayRec b

/-- A write that took its place in the journal and was discarded: replay passes over it (R280, R282, R285). -/
def State.passedOver (s : State) (j : JRec) : Bool := j.type != .loss && j.seq != 0 && decide (j.seq ∈ s.wx.discarded)

/-! ## Condensing and checkpoints (R126, R129, R130, R160, R161) -/

/-- A checkpoint writes every index page changed since the previous one, and the dirty pages of the spill page cache; the changed pages of
the erase-count table are copied with it (R126, R129, R130, R180, log 9). -/
def State.checkpoint (s : State) : State :=
  let pages := s.ix.dirtyPages.map IntPage.index ++ ((s.ix.spillCache.filter (·.2)).map fun p => IntPage.spill p.1)
    ++ s.md.ecDirty.map IntPage.eraseCounts
  let s := s.modIx fun x => { x with dirtyPages := [], checkpoint := s.mono, checkpointing := some (s.wx.ctlGen, x.deltas),
                                     spillCache := x.spillCache.map fun p => (p.1, false) }
  ((s.modMd fun m => { m with ecDirty := [] }).placeInternal pages).endCheckpoint.settleVerify

/-- INDEX_CHECKPOINT (R129). -/
def execIndexCheckpoint (s : State) : Res := finish s (if s.serving then s.checkpoint else s)

/-- Journal records whose index effect has been applied, up to the first write that still waits for the twin and the first
whose leaf lies in an epoch not yet signed (R130, R157, R160). -/
def State.condensable (s : State) : List JRec :=
  let unsigned := s.ky.waiting.map (·.number) ++ s.ky.open_.toList.map (·.number)
  s.wx.journal.takeWhile fun r => !((s.wx.pend ++ s.wx.heldRecs).any fun p => r.seq != 0 && p.seq == r.seq)
    && !(r.leaf.isSome && decide (r.aux % 2 ^ 40 ∈ unsigned))

/-- The ring offset and the lap at which the records from the replay start on begin (R160). -/
def Wax.start (w : Wax) : Nat × Nat :=
  let n := w.journalUsed
  if n ≤ w.offset then (w.offset - n, w.lap) else (w.offset + Figure.journalBlocks - n, (w.lap + 255) % 256)

/-- A new copy of the journal control block, in the next of the 1,024 places, with the newest delta segment list there is (R160). -/
def State.writeCtl (s : State) : State :=
  s.modWx fun w =>
    let g := w.ctlGen + 1
    let (o, l) := w.start
    let at_ := s.md.internal.foldl (fun (acc : Option (Nat × Nat)) p => match p.2 with
      | .delta k 0 => if acc.all fun a => decide (a.1 ≤ k) then some (k, p.1) else acc
      | _ => acc) none
    { w with ctlGen := g, ctl := setAssoc (g % 1024) { gen := g, offset := o, lap := l, condensed := w.condensed, deltas := at_.map (·.2) } w.ctl }

/-- Condensing: the delta segments take one entry of 16 bytes for each record, 256 to a page; what the index base holds of the keys
concerned follows; and the replay start passes the records, which lie in the ring until others take their blocks. While no band can take
the segments the start stays, and condensing is still due. At 10^9 entries the next checkpoint starts at once (R130, R160, R161, R179). -/
def State.condense (s : State) : State :=
  let l := s.condensable
  let rest := s.wx.journal.drop l.length
  let base := (s.ix.base.filter fun b => rest.any fun j => j.concerns (s.hash b.nsid b.key) b).map (s.replayKey s.passedOver l)
  let g := s.wx.ctlGen + 1
  let t := s.placeInternal ((List.range ((l.length + 255) / 256)).map fun i => .delta g i)
  if !l.isEmpty && !t.md.intWaits.isEmpty then s.wantsRoom
  else
    let left := (placeRecs s.wx.journal s.wx.start.1 s.wx.start.2).take l.length
    let t := (t.modWx fun w => { w with journal := rest, past := left.reverse ++ w.past, condensing := false,
                                        condensed := (l.map (·.seq)).foldl max w.condensed,
                                        discarded := w.discarded.filter fun q => rest.any (·.seq == q) }).writeCtl
    let t := t.modIx fun x => { x with deltas := x.deltas + l.length, base := base }
    if 1000000000 ≤ t.ix.deltas then t.checkpoint else t.settleVerify

/-- JOURNAL_CONDENSE: once the journal is more than half full, or something waits for room in it (R130, R161). -/
def execJournalCondense (s : State) : Res :=
  finish s (if s.serving && (decide (Figure.journalBlocks < 2 * s.wx.journalUsed) || s.wx.condensing) then s.condense else s)

/-! ## Un-spilling (R128) -/

/-- Spilled keys move back while resident slots are free. DESIGN CHOICE (log 9): oldest first, and all that fit in one command. -/
def Index.unspill (x : Index) : List Spilled → Index
  | [] => x
  | e :: t => if x.resident < x.residentMax then ((x.remove e.h (.spilled e.slot.loc)).insert e.h e.slot).unspill t else x

/-- UNSPILL. -/
def execUnspill (s : State) : Res := finish s (if s.serving then s.index fun x => x.unspill x.spill else s)

/-! ## Rebuilds (R132 to R134) -/

/-- Lines of the index region in force (R113, R133). -/
def Index.regionLines (x : Index) : Nat := if x.half then 0x14000000 else 0x28000000

/-- The stack that reports an error of a line: the surviving one after the loss of the other; of a mirrored region, in which both stacks hold
a line, PRESUMED (log 8), the first for its lower half, in which the first copies lie, and the second for its upper (R112, R133). -/
def State.errorStack (s : State) (line : Nat) : Nat :=
  if !s.mc.twoStacks then s.ix.lost.findIdx (!·)
  else if mirrored line then (decide (mirrorOf line < line)).toNat
  else stackOf line

/-- The address whose CAM copy a line of region 5 holds. DESIGN CHOICE (log 8): the 65,536 records of 64 bytes lie in order from the region's
first line on (R113, R243). -/
def camLine (line : Nat) : Option Nat :=
  let a := homeLine line - 16384 * 48896
  if 16384 * 48896 ≤ line && line < 16384 * 48960 && a < 65536 then some a else none

/-- A line of HBM3 is lost: an index line makes its page due for a rebuild, and no command on its buckets starts. A line of a mirrored region
is read from its other copy while there are two; with one stack left, a CAM copy that lies on it cannot be read (R112, R132, R207, R256). -/
def State.lineLost (s : State) (line : Nat) : State :=
  let s := (s.countErr 12).event 3 "HBM3 uncorrectable line"
  let s := s.modIx fun x => { x with stackErrors := (x.stackErrors.filter fun e => decide (s.mono < e.2 + 60 * Figure.secondNs)) ++ [(s.errorStack line, s.mono)] }
  if mirrored line && s.mc.twoStacks then s
  else
    let s := s.modMc fun m => { m with badLines := line :: m.badLines.filter (· ≠ line) }
    let s := match camLine line with
      | some a => s.modCam fun c => { c with copyBad := a :: c.copyBad.filter (· ≠ a) }
      | none => s
    if line < s.ix.regionLines then
      s.modIx fun x => { x with pages := if line / 64 ∈ x.pages then x.pages else x.pages ++ [line / 64] }
    else s

/-- INDEX_PAGE_REBUILD_DONE: its buckets serve again (R132). -/
def execIndexPageRebuildDone (page : Nat) (s : State) : Res :=
  finish s (
    if !s.alive || !(page ∈ s.ix.pages) then s
    else
      let s := (s.modIx fun x => { x with pages := x.pages.filter (· ≠ page) }).modMc fun m => { m with badLines := m.badLines.filter (· / 64 ≠ page) }
      s.retryAll (s.inPhase .waitService))

/-- What the loss of a stack takes from the Mantle cache: the lines of interleaved regions on that stack and of what no longer exists of
them, dirty ones included, with the accesses that wait for them; the surviving stack takes its new layout (R133 steps 2 and 3). -/
def Mantle.loseStack (m : Mantle) (stack : Nat) : Mantle :=
  let gone (line : Nat) : Bool := !mirrored line && (stackOf line == stack || !hbmHas true line)
  { m with lines := m.lines.filter (fun e => !gone (lineOf e.1.1 e.2.tag)), chimney := m.chimney.filter (fun c => !gone c.line),
           deferredWb := m.deferredWb.filter (fun e => !gone e.1), invTodo := m.invTodo.filter (fun l => !gone l),
           invWb := m.invWb.filter (fun l => !gone l), badLines := m.badLines.filter (fun l => !gone l),
           miss := m.miss.filter (fun r => !gone r.line), waits := m.waits.filter (fun a => !gone a.line),
           invDrop := m.invDrop.filter (fun l => !gone l), rgnWrites := [], rgn := cacheRegions true, twoStacks := false }

/-- Step 3 of R133: the surviving stack is laid out anew, in regions of half the size. DESIGN CHOICE (log 8): the read cache and the staging
copies go with the old layout, and of the negative entries the newest stay (R301). -/
def State.halveRegions (s : State) : State :=
  ((s.modWx fun w => { w with copies := [] }).modMd fun m => { m with readCache := [] }).modOg
    fun o => { o with neg := keepLast 2097152 o.neg }

/-- Steps 4 and 5 of R133. -/
def State.halfIndex (s : State) : State :=
  let s := (s.reinsert true).modIx fun x => { x with rebuilding := false }
  let s := s.modPw fun p => { p with reliability := true }
  (((s.event 3 "HBM3 stack lost").blackBox 9 srcDrive [0, s.ix.lost.idxOf true]).logChanged 0).notify .smartHealth fun _ => true

/-- HBM3_REBUILD_DONE (R133 steps 4 and 5). -/
def execHbm3RebuildDone (s : State) : Res :=
  finish s (
    if !s.alive || !s.ix.rebuilding then s
    else
      let s := s.halfIndex.modFl fun f => { f with kvStopped := false }
      s.retryAll (s.inPhase .waitService))

end Sys2Proof.Machine
end

