-- ==== Sys2Proof/Machine/Keys.lean ====
section
/-! DEFINITION. Keys, epochs and certificates (chapter 07): rotation, crypto-erase, the KEK, pre-shared keys, the signing of
epochs, the receipt store, and the SECURITY messages of R240. -/

namespace Sys2Proof.Machine

/-! ## Key records (R218 to R222) -/

/-- A key enters the on-die cache, whose 2,048 newest stay; any other is unwrapped into a lane key register for its job (R219, log 5). -/
def Keys.hold (k : Keys) (nsid gen : Nat) : Keys :=
  let c := k.cache ++ [(nsid, gen)]
  { k with cache := c.drop (c.length - 2048) }

/-- The record of a new current key, wrapped with the next wrap nonce in the lowest free slot (R215, R219, log 5). -/
def Keys.record (k : Keys) (nsid gen : Nat) (mode : SealMode) (key : Bytes) (time : Nat) (tq : BitVec 8) : KeyRec :=
  { nsid := nsid, gen := gen, state := 1, mode := mode, kekGen := k.kekGen, nonce := 0, wrapped := [], tag := [],
    slot := leastNot (k.recs.map (·.slot)) k.recs.length 0, time := time, tq := tq : KeyRec }.wrap k.kek key k.wrapCounter

/-- A new key of a namespace, drawn afresh, becomes current (R218, R219). -/
def State.newKey (s : State) (nsid : Nat) (mode : SealMode) (gen : Nat) : State :=
  s.spend.modKy fun k =>
    { k.hold nsid gen with recs := k.recs ++ [k.record nsid gen mode (Config.freeBytes s.free 32) s.now s.tq], wrapCounter := k.wrapCounter + 1 }

/-- Records under a condition change, each written to a free slot with the next wrap nonce before the slot it supersedes is zeroed
(R219). -/
def Keys.change (k : Keys) (p : KeyRec → Bool) (f : KeyRec → KeyRec) : Keys :=
  { k with recs := rewrap k.kek k.kek p f k.recs (k.recs.map (·.slot)) k.wrapCounter,
           wrapCounter := k.wrapCounter + (k.recs.filter p).length }

/-- The newest generation of a namespace's key. -/
def Keys.newest (k : Keys) (nsid : Nat) : Nat := ((k.recs.filter (·.nsid == nsid)).map (·.gen)).foldl max 0

/-- A rotation or an erase sweep of the namespace runs (R220, R221). -/
def Keys.busy (k : Keys) (nsid : Nat) : Bool := k.jobs.any (·.nsid == nsid)
def Keys.sweeping (k : Keys) (nsid : Nat) : Bool := k.jobs.any fun j => j.nsid == nsid && j.kind == 1

/-- Records of a namespace under a condition on their key. -/
def State.recordsOf (s : State) (nsid : Nat) (p : StoredRec → Bool) : List (Loc × StoredRec) :=
  (s.ix.all.filterMap fun (_, t) => (s.recAt t.loc).map fun r => (t.loc, r)).filter fun (_, r) => r.nsid == nsid && p r

/-- Step 2 of a rotation: the new key is current and the old one previous. The background pass finds the records on NAND by REC_KEY_GEN
(R220). -/
def State.rotate (s : State) (n : Ns) : State :=
  let s := s.modKy fun k => { k.change (fun r => r.nsid == n.nsid && r.state == 1) (fun r => { r with state := 2 }) with
                                     jobs := k.jobs ++ [{ nsid := n.nsid, kind := 0, pct := 0, started := s.mono }] }
  s.newKey n.nsid n.mode (s.ky.newest n.nsid + 1)

/-- The end of a Secure Delete's removal because its data is erased: state 11h and the log C1h event (R103). -/
def State.secdelErased (s : State) (nsid : Nat) : State :=
  (s.md.secdel.filter (·.nsid == nsid)).foldl State.secdelDone s

/-- Step 2 of a crypto-erase: every generation loses its key bytes, the rotation stops, the sweep begins, the live bytes
fall, and tracking records move on (R221 steps 2, 4 to 6). -/
def State.eraseKeys (s : State) (nsid : Nat) : State :=
  let bytes := ((s.recordsOf nsid s.unseals).map fun p => p.2.bytes).sum
  let s := s.modMd fun m => { m with liveBytes := m.liveBytes - bytes }
  let s := s.modKy fun k =>
    { k with recs := k.recs.map (fun r => if r.nsid == nsid then { r with state := 3, wrapped := List.replicate 32 0, tag := List.replicate 16 0 } else r),
             cache := k.cache.filter (·.1 ≠ nsid),
             jobs := k.jobs.filter (fun j => !(j.nsid == nsid && j.kind == 0)) ++ [{ nsid := nsid, kind := 1, pct := 0, started := s.mono }] }
  s.secdelErased nsid

/-- The slots of the erased generations are cleared and their key slots freed (R221 step 5). -/
def State.sweepErased (s : State) (nsid : Nat) : State :=
  let gone := (s.recordsOf nsid fun r => !s.unseals r)
  let s := gone.foldl (fun s (l, r) =>
    match s.ix.all.find? fun p => p.2.loc == l with
    | some (pl, _) =>
      ((s.index fun x => x.remove (s.hash r.nsid r.key) pl).forget nsid r.seq).dropRecord l 0
    | none => s) s
  s.modKy fun k => { k with recs := k.recs.filter (fun r => !(r.nsid == nsid && r.state == 3)),
                            jobs := k.jobs.filter fun j => !(j.nsid == nsid && j.kind == 1) }

/-- A new KEK: a new salt, every key record and PSK rewrapped under the next generation, the old salt gone (R222). -/
def State.kekRotate (s : State) : State :=
  s.spend.modKy fun k =>
    let g := k.kekGen + 1
    let salt := Config.freeBytes s.free 32
    let old := kekOf k.uds k.kekSalt
    let new := kekOf k.uds salt
    { k with kekGen := g, kekSalt := salt, kek := if k.kekPresent then new else [],
             wrapCounter := k.wrapCounter + k.recs.length + k.psks.length,
             recs := rewrap old new (fun _ => true) (fun r => { r with kekGen := g }) k.recs (k.recs.map (·.slot)) k.wrapCounter,
             psks := k.psks.zipIdx.map fun (p, i) => ({ p with kekGen := g }).wrap new (p.configured old) (k.wrapCounter + k.recs.length + i) }

/-! ## SECURITY messages for keys (R240); payload layouts: log 22. Behind the key curtain those that need a key are refused
(R457) -/

/-- SECURITY.NS_ROTATE (R220). -/
def hNsRotate : Handler := fun s m =>
  let nsid := natAt m.payload 0 4
  if m.payload.length ≠ 4 then saying s (refuse .length)
  else if !s.ky.kekPresent then saying s (refuse .stateRefused)
  else match s.nsOf nsid with
    | none => saying s (badField 0)
    | some n => if s.ky.busy nsid then saying s (refuse .busy) else doing (s.rotate n) {}

/-- SECURITY.NS_ERASE (R36, R221): the namespace stays, empty, with its CAM entries; its fills serve
their waiters and store nothing (R304). DEDUCED (log 22): Retention Active is STATE_REFUSED with C1h as its reason code. -/
def hNsErase : Handler := fun s m =>
  let nsid := natAt m.payload 0 4
  if m.payload.length ≠ 4 then saying s (refuse .length)
  else if !s.ky.kekPresent then saying s (refuse .stateRefused)
  else match s.nsOf nsid with
    | none => saying s (badField 0)
    | some n =>
      if n.type == .ledger && s.ledgerBound nsid then saying s { st := .stateRefused, detail := 0xC10000 }
      else if s.ky.sweeping nsid then saying s (refuse .busy)
      else
        let s := (s.eraseKeys nsid).modOg fun o => { o with fills := o.fills.map fun f => if f.nsid == nsid then { f with abandoned := true } else f }
        doing (s.newKey nsid n.mode (s.ky.newest nsid + 1)) {}

/-- Progress of a rotation in percent: the records already under the current key. How far a sweep has come is a free value, as it ends in
one event; progress with nothing running is not stated (log 22). -/
def State.keyProgress (s : State) (nsid : Nat) : Nat :=
  match s.ky.jobs.find? (·.nsid == nsid) with
  | some j =>
    if j.kind = 0 then
      let all := (s.recordsOf nsid s.unseals).length
      if all = 0 then 100 else (all - (s.recordsOf nsid s.previousGen).length) * 100 / all
    else max j.pct ((Config.freeWord s.free).toNat % 100)
  | none => (Config.freeWord s.free).toNat % 256

/-- SECURITY.NS_KEY_STATUS. -/
def hNsKeyStatus : Handler := fun s m =>
  let nsid := natAt m.payload 0 4
  if m.payload.length ≠ 4 then saying s (refuse .length)
  else match s.nsOf nsid with
    | none => saying s (badField 0)
    | some n =>
      doing s.spend (answer (leBytes 4 (s.currentGen nsid) ++ leBytes 1 n.mode.code ++ leBytes 1 (s.keyProgress nsid)))

/-- SECURITY.KEK_ROTATE (R222). -/
def hKekRotate : Handler := fun s m => 
  if m.payload ≠ [] then saying s (refuse .length) else if !s.ky.kekPresent then saying s (refuse .stateRefused) else doing s.kekRotate {}

/-- The form of a PSK identity: PRESUMED (log 22) from the NVMe/TCP binding, "NVMe", version 0 or 1, R or G, hash 01 or 02, and after
a space the two NQNs with a space between them (R62). -/
def pskIdentityOk (b : Bytes) : Bool :=
  let t := b.drop 9
  b.take 4 == textBytes "NVMe" && (b.getD 4 0 == 0x30 || b.getD 4 0 == 0x31) && (b.getD 5 0 == 0x52 || b.getD 5 0 == 0x47)
    && (bytesAt b 6 2 == textBytes "01" || bytesAt b 6 2 == textBytes "02") && b.getD 8 0 == 0x20
    && t.headD 0x20 != 0x20 && (t.dropWhile (· ≠ 0x20)).length > 1

/-- A pre-shared key as it is enrolled, wrapped with the next wrap nonce (R224). -/
def Keys.newPsk (k : Keys) (host : Nqn) (ident key : Bytes) : Psk :=
  { host := host, identity := ident, kekGen := k.kekGen, nonce := 0, wrapped := [], tag := [] : Psk }.wrap k.kek key k.wrapCounter

/-- SECURITY.PSK_ADD: 224-byte host NQN, identity, 48-byte key (R62, R240). -/
def hPskAdd : Handler := fun s m =>
  let p := m.payload
  let host := trimZero (bytesAt p 0 224)
  let ident := (p.drop 224).take (p.length - 272)
  if p.length < 273 then saying s (refuse .length)
  else if !s.ky.kekPresent then saying s (refuse .stateRefused)
  else if !pskIdentityOk ident then saying s (badField 224)
  else
    let rest := s.ky.psks.filter fun k => !(k.host == host && k.identity == ident)
    if 256 ≤ rest.length then saying s (refuse .stateRefused)
    else doing (s.modKy fun k => { k with psks := rest ++ [k.newPsk host ident (p.drop (p.length - 48))], wrapCounter := k.wrapCounter + 1 }) {}

/-- SECURITY.PSK_REMOVE: connections that stand run on (R240). -/
def hPskRemove : Handler := fun s m =>
  let p := m.payload
  let host := trimZero (bytesAt p 0 224)
  let ident := p.drop 224
  if p.length < 225 then saying s (refuse .length)
  else if s.ky.psks.any fun k => k.host == host && k.identity == ident then
    doing (s.modKy fun k => { k with psks := k.psks.filter fun k => !(k.host == host && k.identity == ident) }) {}
  else saying s (badField 0)

/-- SECURITY.EPOCH_SET: from the next opening (R228). -/
def hEpochSet : Handler := fun s m =>
  let ms := natAt m.payload 0 2
  if m.payload.length ≠ 2 then saying s (refuse .length)
  else if ms = 0 ∨ 1000 < ms then saying s (badField 0)
  else doing ((s.modKy fun k => { k with epochMs := ms }).logChanged 2) {}

/-- SECURITY.EPOCH_CLOSE (R228, R231). -/
def hEpochClose : Handler := fun s m => if m.payload ≠ [] then saying s (refuse .length) else doing (s.closeEpoch 4) {}

/-- SECURITY.CERT_GET (R238). -/
def hCertGet : Handler := fun s m => if m.payload ≠ [] then saying s (refuse .length) else saying s (answerLong s.chainArea)

/-- NS_ROTATE (R220). -/
def execNsRotate (m : MsgReq) (s : State) : Res := finish s (s.message 0x09 0x10 hNsRotate m)
/-- NS_ERASE (R221). -/
def execNsErase (m : MsgReq) (s : State) : Res := finish s (s.message 0x09 0x11 hNsErase m)
/-- NS_KEY_STATUS (R240). -/
def execNsKeyStatus (m : MsgReq) (s : State) : Res := finish s (s.message 0x09 0x12 hNsKeyStatus m)
/-- KEK_ROTATE (R222). -/
def execKekRotate (m : MsgReq) (s : State) : Res := finish s (s.message 0x09 0x13 hKekRotate m)
/-- PSK_ADD (R240). -/
def execPskAdd (m : MsgReq) (s : State) : Res := finish s (s.message 0x09 0x01 hPskAdd m)
/-- PSK_REMOVE (R240). -/
def execPskRemove (m : MsgReq) (s : State) : Res := finish s (s.message 0x09 0x02 hPskRemove m)
/-- EPOCH_SET (R228). -/
def execEpochSet (m : MsgReq) (s : State) : Res := finish s (s.message 0x09 0x20 hEpochSet m)
/-- EPOCH_CLOSE (R228). -/
def execEpochClose (m : MsgReq) (s : State) : Res := finish s (s.message 0x09 0x21 hEpochClose m)
/-- CERT_GET (R238). -/
def execCertGet (m : MsgReq) (s : State) : Res := finish s (s.message 0x09 0x22 hCertGet m)

/-! ## Events -/

/-- A store under way, or a committed write that stands outside the index, is sealed under the previous key of a namespace (R220). -/
def State.sealsPrevious (s : State) (nsid : Nat) : Bool :=
  s.fl.cmds.any (fun c => c.granule.isSome && c.e.nsid == nsid && s.ky.recs.any fun r => r.nsid == nsid && r.state == 2 && r.gen == c.keyGen)
    || (s.wx.pend ++ s.wx.heldRecs).any fun p => p.nsid == nsid && (p.loc.bind s.recAt).any s.previousGen

/-- ROTATION_DONE: once no record is left under the previous key, its slot is zeroed and it leaves the
key cache (R220 step 4). -/
def execRotationDone (nsid : Nat) (s : State) : Res :=
  finish s (
    if !s.mediaWork || !(s.ky.jobs.any fun j => j.nsid == nsid && j.kind == 0) || !(s.recordsOf nsid s.previousGen).isEmpty || s.sealsPrevious nsid then s
    else
      let old := (s.ky.recs.filter fun r => r.nsid == nsid && r.state == 2).map (·.gen)
      s.modKy fun k => { k with recs := k.recs.filter (fun r => !(r.nsid == nsid && r.state == 2)),
                                cache := k.cache.filter (fun c => !(c.1 == nsid && c.2 ∈ old)),
                                jobs := k.jobs.filter fun j => !(j.nsid == nsid && j.kind == 0) })

/-- ERASE_SWEEP_DONE (R221 step 5). -/
def execEraseSweepDone (nsid : Nat) (s : State) : Res :=
  finish s (if s.mediaWork && s.ky.sweeping nsid then s.sweepErased nsid else s)

/-- EPOCH_LENGTH_ELAPSED (R228). -/
def execEpochLengthElapsed (s : State) : Res := finish s (if s.alive then s.closeEpoch 0 else s)

/-! ## The receipt store (R234) -/

/-- The subtree roots of an epoch, over each group of 32 leaves; `f` bounds the groups. -/
def subtreeRoots : Nat → List Bytes → List Bytes
  | 0, _ => []
  | f + 1, d => if d.isEmpty then [] else treeRoot 24 (d.take 32) :: subtreeRoots f (d.drop 32)

def ClosedEpoch.subtrees (e : ClosedEpoch) : List Bytes := subtreeRoots (e.leaves.length / 32 + 1) (e.leaves.map (·.hash))

/-- The 128-byte entry of a leaf: its hash, LM_VALUE_HASH, LM_SEQ, LM_TIME, LM_NSID and LM_TQ, in that order (DESIGN CHOICE, log 5). -/
def Leaf.entry (l : Leaf) : Bytes :=
  padTo 128 (padTo 48 l.hash ++ padTo 48 l.valueHash ++ leBytes 8 l.seq ++ leBytes 8 l.time ++ leBytes 4 l.nsid ++ leBytes 1 l.tq.toNat)

/-- The 4 KiB page of an epoch: the root record and both signatures (DESIGN CHOICE: in that order, log 5). -/
def ClosedEpoch.page (e : ClosedEpoch) : Bytes :=
  let g := e.sigs.getD ([], [])
  padTo 4096 (e.root ++ padTo 96 g.1 ++ padTo 3309 g.2)

/-- Bytes that an epoch takes in the store: its page, 128 bytes for each leaf and 48 for each subtree root. -/
def ClosedEpoch.storeBytes (e : ClosedEpoch) : Nat := 4096 + 128 * e.leaves.length + 48 * ((e.leaves.length + 31) / 32)

/-- Bytes of the receipt store in use, and its size of 128 GiB. -/
def Keys.storeBytes (k : Keys) : Nat := (k.store.map ClosedEpoch.storeBytes).sum
def receiptStoreSize : Nat := 2 ^ 37

/-- The store has no room for the epoch that is signed next, or with none waiting for the least there is. -/
def Keys.storeFull (k : Keys) : Bool :=
  decide (receiptStoreSize < k.storeBytes + ((k.waiting.head?.map ClosedEpoch.storeBytes).getD 4272))

/-- The oldest whole epoch is pruned. -/
def State.pruneEpoch (s : State) : State :=
  match s.ky.store with
  | [] => s
  | _ :: rest => ((s.modKy fun k => { k with store := rest, pruned := k.pruned + 1 }).logChanged 2).event 6 "Epoch pruned"

/-- Epochs are pruned, oldest first, until the next one has room; `f` bounds them. -/
def State.pruneFor : Nat → State → State
  | 0, s => s
  | f + 1, s => if s.ky.storeFull && !s.ky.store.isEmpty then s.pruneEpoch.pruneFor f else s

/-- Both signatures of the oldest waiting epoch are made and it enters the receipt store, and its root the newest 1,024 in the records
region (R226, R232, R234). -/
def State.signEpoch (s : State) : State :=
  match s.ky.waiting with
  | [] => s
  | e :: rest =>
    let g := hybridSign (Config.receiptScalar s.ky.uds) s.ky.uds s.free e.root
    ((s.pruneFor s.ky.store.length).spend.modKy fun k =>
      let roots := k.roots ++ [{ root := e.root, ecdsa := g.1, mldsa := g.2 }]
      { k with waiting := rest, store := k.store ++ [{ e with sigs := some g }], roots := roots.drop (roots.length - 1024),
               lastSigned := e.number }).logChanged 2

/-- EPOCH_SIGNED; there is no receipt key before the first start in Sealed, and the key curtain and a Retired drive stop the signature
engine (R227, R232, R456). -/
def execEpochSigned (s : State) : Res :=
  finish s (if s.alive && s.ky.receiptKey && !s.ky.signOff && s.lifecycle != .retired then s.signEpoch else s)

/-- RECEIPT_STORE_PRUNE: of a full store the oldest whole epoch goes (R234). -/
def execReceiptStorePrune (s : State) : Res := finish s (if s.alive && s.ky.storeFull then s.pruneEpoch else s)

/-- The root records that log C2h lists, newest first: epochs closed and not signed, and the signed ones that the receipt store or the
records region holds (R234, R239). -/
def Keys.listed (k : Keys) : List Bytes :=
  let held := if k.roots.length ≤ k.store.length then k.store.map (·.root) else k.roots.map (·.root)
  ((k.waiting.map (·.root)).reverse ++ held.reverse).take 2978

/-- Log C2h (R239). -/
def State.logC2 (s : State) : Bytes :=
  let k := s.ky
  let pct := k.storeBytes * 100 / receiptStoreSize
  let roots := k.listed
  s.vendorPage 0xC2 (leBytes 2 k.epochMs ++ leBytes 2 ((decide (9 * receiptStoreSize < 10 * k.storeBytes)).toNat
    + 2 * (decide (0 < k.pruned)).toNat + 4 * (decide (100 < k.waiting.length)).toNat)
    ++ leBytes 1 (min 100 pct) ++ [0, 0, 0] ++ leBytes 8 ((k.open_.map (·.number)).getD 0) ++ leBytes 4 ((k.open_.map (·.leaves.length)).getD 0)
    ++ leBytes 4 roots.length ++ leBytes 8 k.lastSigned ++ leBytes 8 ((k.store.head?.map (·.number)).getD 0) ++ leBytes 8 k.pruned
    ++ List.replicate 16 0 ++ roots.flatten)

end Sys2Proof.Machine
end

