-- ==== Sys2Proof/Machine/Namespaces.lean ====
section
/-! DEFINITION. Namespace Management and Namespace Attachment (R64, R67, R253, R263, R264, R543). -/

namespace Sys2Proof.Machine

/-! ## Work of a deletion -/

/-- A command ends with a status; the micro-engines that run it end their routine. -/
def State.endCmd (s : State) (c : Cmd) (st : Status) : State :=
  (s.complete c st).releaseAll c

/-- Commands naming a namespace that have neither committed nor completed are not performed (R543). -/
def State.failUncommitted (s : State) (nsid : Nat) : State :=
  ((s.fl.cmds.filter fun c => c.e.nsid == nsid && c.seq.isNone && c.phase != .forwardCommit).foldl
    (fun s c => s.endCmd c .invalidNamespace) s).afterRelease.unblock

/-- The fills of a namespace are abandoned, and their staging is given back or no longer waited for (R304). -/
def State.abandonFills (s : State) (p : Fill → Bool) : State :=
  let gone := s.og.fills.filter p
  let s := gone.foldl (fun s f => match f.granule with
    | some g => s.unreserve g f.granules
    | none => s) s
  ((s.modOg fun o => { o with fills := o.fills.filter fun f => !p f }).modWx fun w =>
    { w with waiters := w.waiters.filter fun x => !gone.any fun f => x == .fill f.nsid f.key }).closeOld

/-- A change of rules that has not been written and has a record for a namespace that goes fails check 07h (R250, R253). -/
def RuleChange.forget (c : RuleChange) (nsid : Nat) : RuleChange :=
  if c.op = 1 ∧ c.written = false then
    { c with refused := c.refused.or (((camRecords c.req.payload).findIdx? fun r => r.2.exact && r.2.nsid == BitVec.ofNat 32 nsid).map fun i => (i, 7)) }
  else c

/-- The entries that name a namespace exactly are invalidated, as the directory knows them, and a change that would write one is not made
(R253, R256); the other members learn of a global one by SET (R321, log 23). -/
def State.camForget (s : State) (nsid : Nat) : State :=
  let es := s.cam.dir.filter fun (_, d) => d.nsidMask == 0xFFFFFFFF#32 && d.nsid == BitVec.ofNat 32 nsid
  let gl := (es.filter (·.2.isGlobal)).map (·.1)
  let s := (es.map (·.1)).foldl (fun s a => s.camStore a CamEntry.blank) s
  let s := s.modSk fun k => { k with change := k.change.map fun c => c.forget nsid }
  s.whenB (!gl.isEmpty) fun s => s.modSk fun k => { k with outbox := k.outbox ++ s.setMsgs gl }

/-- Namespace notices: every controller the namespace is attached to (R66). -/
def State.nsNotice (s : State) (ids : List Nat) : State := s.notify .nsAttribute fun c => decide (c.cntlid ∈ ids)

/-- The namespace goes: its commands, fills, keys, entries, binding and holds (R221, R253, R294, R304, R543). -/
def State.deleteNs (s : State) (n : Ns) : State :=
  let s := (s.failUncommitted n.nsid).endTestIf (·.nsid == n.nsid) 3
  let s := s.abandonFills (·.nsid == n.nsid)
  let s := (s.eraseKeys n.nsid).camForget n.nsid
  let s := s.modOg fun o => { o with bindings := o.bindings.filter (·.nsid ≠ n.nsid), neg := o.neg.filter (·.nsid ≠ n.nsid) }
  (s.modVa fun v => { v with ns := v.ns.filter (·.nsid ≠ n.nsid) }).ensurePaths.nsNotice n.attached

/-! ## Creation -/

/-- The lowest free identifier (R67). -/
def State.freeNsid (s : State) : Option Nat :=
  ((List.range 1024).map (· + 1)).find? fun i => (s.nsOf i).isNone

def nsTypeOf : Nat → Option NsType
  | 0 => some .plain
  | 1 => some .ledger
  | 2 => some .mirror
  | _ => none

/-- The sealing mode of a code, where the type may have it (R214). -/
def sealModeOf (t : NsType) : Nat → Option SealMode
  | 0 => some .gcm
  | 1 => if t = .ledger then none else some .xts
  | 2 => if t = .plain then some .ctr else none
  | 3 => if t = .plain then some .cbc else none
  | _ => none

/-- A new namespace: a fresh key at generation 1, no entries, attached to no controller (R11, R43, R67, R219). A sweep of
erased keys that its identifier had before ends first, so the generation stays unambiguous (R220, R221, log 23). -/
def State.createNs (s : State) (nsid : Nat) (t : NsType) (m : SealMode) (level : Option Level) : State :=
  ((s.whenB (s.ky.sweeping nsid) fun s => s.sweepErased nsid).modVa fun v =>
    { v with ns := v.ns ++ [{ nsid := nsid, type := t, mode := m, level := level }] }).newKey nsid m 1

/-! ## Twin pairs (R263, R264) -/

/-- How a drive performs Namespace Management: on itself, on both drives, on itself with a full resynchronisation to
follow, or not at all. -/
inductive NsMode where
  | alone | both | later | refused
  deriving DecidableEq, Repr

def State.nsMode (s : State) : NsMode :=
  match s.tw.role with
  | .solo => .alone
  | .primary => if s.tw.fenced then .refused else if s.twinGone || !s.tw.reached then .later else .both
  | .secondary => if s.tw.candidate || s.tw.lost || !s.tw.reached then .refused else .both
  | .detachedStale => if s.tw.lost || !s.tw.reached then .refused else .both

/-- The job of a namespace command that both drives perform: the identifier, 0 until the Primary assigns it, a create or a delete, and the
type and sealing mode (R263). -/
def State.nsJob (s : State) (a : Adm) (nsid : Nat) (create : Bool) (nsType mode : Nat) : State :=
  s.modFe fun f => { f with jobs := f.jobs ++ [{ ctrl := a.ctrl, cid := a.cid, what := 4, target := some (nsid, create.toNat, 4 * nsType + mode) }] }

/-- A namespace command that both drives perform ends (R263). -/
def State.endNsJob (s : State) (j : AdminJob) (st : Status) (nsid : Nat) : State :=
  (s.modFe fun f => { f with jobs := f.jobs.erase j }).admDone { ctrl := j.ctrl, cid := j.cid } st nsid

/-- The jobs of namespace commands of both drives that `p` names, by their target. -/
def Front.nsJobs (f : Front) (p : Nat × Nat × Nat → Bool) : List AdminJob := f.jobs.filter fun j => j.what == 4 && j.target.any p

/-- The first such job ends. -/
def State.endFirstNsJob (s : State) (p : Nat × Nat × Nat → Bool) (st : Status) (nsid : Nat) : State :=
  match (s.fe.nsJobs p).head? with
  | some j => s.endNsJob j st nsid
  | none => s

/-- The drives lose sight of each other while namespace commands of both are under way: the Primary performs its own on itself alone,
and a command that waits for the Primary ends with Twin Unavailable (R263, R264). -/
def State.partNsJobs (s : State) : State :=
  let js := s.fe.nsJobs fun _ => true
  let s := js.foldl (fun s j =>
    if s.tw.role == .primary then s.endNsJob j .success (if (j.target.map (·.2.1)).getD 0 = 1 then (j.target.map (·.1)).getD 0 else 0)
    else s.endNsJob j .twinUnavailable 0) s
  s.whenB (!js.isEmpty && s.tw.role == .primary) fun s => s.modTw fun t => { t with fullResync := true }

/-- The Primary of a pair whose drives reach each other. -/
def State.nsLeads (s : State) : Bool := s.tw.role == .primary && s.nsMode == .both

/-! ## The rows -/

/-- A Primary without its twin asks for a full resynchronisation (R264). -/
def State.needFull (s : State) : State := s.whenB (s.nsMode == .later) fun s => s.modTw fun t => { t with fullResync := true }

/-- NAMESPACE_CREATE; in Blank it is out of sequence. Of a pair whose drives reach each other the Primary assigns the identifier, and the
command ends when both drives have performed it (R67, R214, R263, R264, R444). -/
def State.nsCreate (s : State) (a : Adm) (nsType mode nsze ncap : Nat) : State :=
  match nsTypeOf nsType with
  | none => s.admDone a .invalidField
  | some t =>
    match sealModeOf t mode with
    | none => s.admDone a .invalidField
    | some m =>
      if nsze ≠ 0 ∨ ncap ≠ 0 then s.admDone a .invalidField
      else if s.lifecycle != .isSealed || s.fl.curtain then s.admDone a .commandSequenceError
      else if s.nsMode == .refused then s.admDone a .twinUnavailable
      else if 1024 ≤ s.va.ns.length then s.admDone a .nsIdentifierUnavailable
      else if s.nsMode == .both && !s.nsLeads then (s.emit (.twinNsAsk true 0 nsType mode)).nsJob a 0 true nsType mode
      else match s.freeNsid with
        | none => s.admDone a .nsIdentifierUnavailable
        | some i =>
          let s := s.createNs i t m none
          if s.nsLeads then (s.emit (.twinNs true i nsType mode false)).nsJob a i true nsType mode
          else (s.needFull).admDone a .success i

def execNamespaceCreate (a : Adm) (nsType mode nsze ncap : Nat) (s : State) : Res :=
  finish s (s.admin (.namespaceCreate a nsType mode nsze ncap) a true false false fun s => s.nsCreate a nsType mode nsze ncap)

/-- NAMESPACE_DELETE: refused while a Ledger namespace is bound (R36), without the twin (R264), and while a sweep of the
namespace runs (R221 step 1, log 23); like a create it may take both drives (R263). -/
def State.nsDelete (s : State) (a : Adm) : State :=
  if s.fl.curtain then s.admDone a .commandSequenceError else
  match s.nsOf a.nsid with
  | none => s.admDone a .invalidNamespace
  | some n =>
    if n.type == .ledger && s.ledgerBound n.nsid then s.admDone a .retentionActive
    else if s.nsMode == .refused then s.admDone a .twinUnavailable
    else if s.ky.sweeping n.nsid then s.admDone a .commandInterrupted
    else if s.nsMode == .both && !s.nsLeads then (s.emit (.twinNsAsk false n.nsid 0 0)).nsJob a n.nsid false 0 0
    else
      let s := s.deleteNs n
      if s.nsLeads then (s.emit (.twinNs false n.nsid 0 0 false)).nsJob a n.nsid false 0 0
      else (s.needFull).admDone a .success

def execNamespaceDelete (a : Adm) (s : State) : Res :=
  finish s (s.admin (.namespaceDelete a) a true false false fun s => s.nsDelete a)

/-- The controllers a list names are all I/O controllers. -/
def State.ioCtrls (s : State) (ids : List Nat) : Bool :=
  !ids.isEmpty && ids.all fun i => (s.fe.ctrl? i).any fun c => !c.discovery

/-- NAMESPACE_ATTACH (R64; statuses: the standard's, log 23). -/
def State.nsAttach (s : State) (a : Adm) (ids : List Nat) : State :=
  match s.nsOf a.nsid with
  | none => s.admDone a .invalidNamespace
  | some n =>
    if !s.ioCtrls ids then s.admDone a .controllerListInvalid
    else if ids.any (· ∈ n.attached) then s.admDone a .nsAlreadyAttached
    else ((s.modNs n.nsid fun x => { x with attached := x.attached ++ ids }).nsNotice ids).admDone a .success

def execNamespaceAttach (a : Adm) (ctrls : List Nat) (s : State) : Res :=
  finish s (s.admin (.namespaceAttach a ctrls) a true false false fun s => s.nsAttach a ctrls)

/-- NAMESPACE_DETACH (R64). -/
def State.nsDetach (s : State) (a : Adm) (ids : List Nat) : State :=
  match s.nsOf a.nsid with
  | none => s.admDone a .invalidNamespace
  | some n =>
    if !s.ioCtrls ids then s.admDone a .controllerListInvalid
    else if !(ids.all (· ∈ n.attached)) then s.admDone a .nsNotAttached
    else ((s.modNs n.nsid fun x => { x with attached := x.attached.filter (· ∉ ids) }).nsNotice ids).admDone a .success

def execNamespaceDetach (a : Adm) (ctrls : List Nat) (s : State) : Res :=
  finish s (s.admin (.namespaceDetach a ctrls) a true false false fun s => s.nsDetach a ctrls)

end Sys2Proof.Machine
end

