-- ==== Sys2Proof/Machine/Sildin.lean ====
section
/-! DEFINITION. Stacking and the Sildin chain (chapter 11): participation, elections and the token, chain messages, the
lookup slots and MATCH windows, the distribution of rules, and log C4h. -/

namespace Sys2Proof.Machine

/-! ## Membership (R307, R308, R323) -/

/-- A drive that takes part: joining, a member, or a member without a working chain (R307, R308). -/
def Stack.partakes (k : Stack) : Bool := k.st == 1 || k.st == 2 || k.st == 3

/-- A member whose chain works. -/
def Stack.linked (k : Stack) : Bool := k.st == 2 && k.ringUp && !k.electing

def Stack.isMember (k : Stack) (pos : Nat) : Bool := k.members.getLsbD pos

/-- Replica words and announced disabled entries of the positions that `gone` names are cleared (R312, R314). -/
def Stack.clearPos (k : Stack) (gone : Nat → Bool) : Stack :=
  let l := k.disabledGlobal.filter fun x => !gone x.1
  { k with replica := k.replica.filter fun p => !gone (p.1 / 65536), disabledGlobal := l,
           flags := if l.isEmpty then k.flags &&& 0xF7 else k.flags }

/-- Stores replica words of one position; a word of zero is the word of an address without an entry (R320). -/
def Stack.storeWords (k : Stack) (pos : Nat) (ws : List (Nat × BitVec 64)) : Stack :=
  { k with replica := ws.foldl (fun r (a, w) =>
      if w == 0 then dropAssoc (pos * 65536 + a) r else setAssoc (pos * 65536 + a) w r) k.replica }

/-- The addresses of this drive's valid global entries. -/
def Cam.globals (c : Cam) : List Nat := (c.entries.filter fun p => p.2.valid && p.2.isGlobal).map (·.1)

/-- The drive becomes a relay: it leaves the tables of the stack (R307, R325). -/
def State.toRelay (s : State) (st : Nat) : State :=
  (s.modSk fun k => { ({ k.clearPos fun _ => true with cache := [], wins := [], rows := [], members := 0 }).raiseEpoch with
      st := st, role := 0, beacon := if k.beacon = s.pw.pos then 255 else k.beacon, electing := false, electLaps := 0,
      joining := 0, sent := none, flags := k.flags &&& 0x07, views := [], primarySeen := [] }).logEvent 4 .logC4

/-- A new Beacon: a witness knows of no drive until it has replied, and counts the silence of one from now on (R274). -/
def State.newWatch (s : State) : State := s.modSk fun k => { k with views := [], primarySeen := [], watchFrom := s.mono }

/-- A join starts: JOIN waits for the token (R323 step 1). -/
def State.startJoin (s : State) : State :=
  (s.modSk fun k => { k with
      st := 1, joining := 1, flags := k.flags &&& 0xF9,
      outbox := k.outbox.filter (·.1 ≠ 2) ++ [(2, 0x80, (k.stackId ++ s.driveId).map (·.toNat))] }).logChanged 4

/-- The drive's disabled global entries leave as DISABLE (R257, R314). -/
def State.announceOwn (s : State) : State :=
  (s.cam.dir.filter fun p => p.2.disabled && p.2.isGlobal).foldl (fun s p => s.announceDisabled p.1 p.2) s

/-- Step 4 of a join is due: its FLUSH leaves, or, of a first Beacon that gathers the entries of the others, waits for them (R323). -/
def Stack.joinFlush (k : Stack) : Stack := { k with joining := 3, outbox := if k.gather = 0 then k.outbox ++ [(6, 0x80, [])] else k.outbox }

/-- A first Beacon has gathered every member's entries: the token has gone round with every JOIN there was, and no join is open any more (R323,
log 26). -/
def Stack.gathered (k : Stack) (pos : Nat) : Stack :=
  if k.gather = 1 ∧ k.joining = 3 ∧ (k.rows.all fun r => r.pos == pos || r.replica) = true then
    { k with gather := 0, outbox := k.outbox ++ [(6, 0x80, [])] }
  else { k with gather := if 1 < k.gather then k.gather - 1 else k.gather }

/-- Step 3 of a join: the drive's own global entries leave as SET, and its disabled ones as DISABLE; with none to send, FLUSH follows at once
(R257, R323). -/
def State.joinOwn (s : State) : State :=
  let gl := s.cam.globals
  let s := s.announceOwn
  if gl.isEmpty then s.modSk Stack.joinFlush
  else s.modSk fun k => { k with joining := 2, outbox := k.outbox ++ s.setMsgs gl }

/-- The end of a join: the drive is a member (R323 step 4). -/
def State.joined (s : State) : State :=
  (s.modSk fun k => { k with
      st := 2, member := true, joining := 0, role := if k.role = 1 then 1 else 2,
      members := k.members ||| BitVec.ofNat 16 (2 ^ s.pw.pos),
      rows := k.rows.filter (·.pos ≠ s.pw.pos)
        ++ [{ pos := s.pw.pos, beacon := k.role == 1, replica := true, driveId := s.driveId, joinTime := s.now }] }).logEvent 4 .logC4

/-- A drive that meets another stack identifier at the Beacon, or another drive of lower identifier at its position,
relays from then on (R307). -/
def State.relayByConflict (s : State) (bit : Nat) (name : String) : State :=
  ((s.toRelay 4).modSk fun k => { k with flags := k.flags ||| BitVec.ofNat 8 bit }).event 0xA name

/-- Identifiers compare as numbers, byte 0 most significant (log 26). -/
def idNat (b : Bytes) : Nat := leNat b.reverse

/-! ## Elections and the token (R312, R313) -/

/-- An election starts or restarts at a generation: claimed slots are lost, the cache is no longer used, global lookups
wait for the FLUSH of the next Beacon, a change of rules whose PEND has left has lost the chain, and a message that was under way is to be
sent again, but for those that an election makes anew (R312, R319, R321, R322, R324). -/
def State.startElection (s : State) (gen : Nat) : State :=
  ((s.applyCal 0x500 2).modSk fun k =>
    { k.raiseEpoch with
      electing := true, electLaps := 0, ringUp := false, gen := BitVec.ofNat 32 gen, elections := k.elections + 1,
      beacon := 255, role := 0, st := if k.st = 2 then 3 else k.st, flags := k.flags &&& 0xFE, sent := none, flushDue := true, gather := 0,
      outbox := (k.sent.toList.filter fun m => m.1 ≠ 1 && m.1 ≠ 6) ++ k.outbox.filter fun m => m.1 ≠ 1 && m.1 ≠ 6,
      retries := k.retries + k.pending.countP (·.inFlight),
      pending := k.pending.map fun g => { g with inFlight := false },
      change := k.change.map fun c => { c with failed := c.failed || c.pendSent } }).logChanged 4

/-- SUPERFRAME_TIMEOUT: no valid superframe for 20 µs, or loss of lock, which also takes CHAIN_RDY low (R312, R531). A
participant sends ELECT blocks under the next generation with its own position. How many bad sync headers it has met is free (R326, log 26). -/
def execSuperframeTimeout (s : State) : Res :=
  finish s (
    let s := s.modPw fun p => { p with chainRdy := false }
    if !s.alive then s
    else if !s.sk.partakes then s.modSk fun k => { k with ringUp := false, flags := k.flags &&& 0xFE }
    else
      let s := (s.modSk fun k => { k with linkErrors := k.linkErrors + (Config.freeWord s.free).toNat }).spend.startElection (s.sk.gen.toNat + 1)
      s.emit (.chain 0xFD s.sk.gen.toNat [s.pw.pos]))

/-- The payload of a message. DESIGN CHOICE (log 26): addresses take 2 bytes; a replica word with its address in bits [50:35] and, in REPLICA,
its position in bits [54:51] takes 8, since 512 of them are to fit SC_LEN; a count of HITS takes 8, of which 4 are the count (R313, R314). -/
def chainPayload (type : Nat) (body : List Nat) : Bytes :=
  match type with
  | 4 => body.flatMap (leBytes 2 ·)
  | 5 => pairs body
  | 7 => (body.take 1).flatMap (leBytes 2 ·) ++ (body.drop 1).flatMap (leBytes 4 ·)
  | 8 => counts body
  | 10 => words body
  | _ => body.map (BitVec.ofNat 8 ·)
where
  pairs : List Nat → Bytes
    | a :: w :: t => leBytes 8 (w + a * 2 ^ 35) ++ pairs t
    | _ => []
  counts : List Nat → Bytes
    | p :: a :: n :: t => leBytes 4 n ++ leBytes 2 a ++ leBytes 2 p ++ counts t
    | _ => []
  words : List Nat → Bytes
    | p :: a :: w :: t => leBytes 8 (w + a * 2 ^ 35 + p * 2 ^ 51) ++ words t
    | _ => []

/-- A message as it lies in the message blocks: the header with SC_CRC, and the payload padded to whole blocks (R313). -/
def chainFrame (type src dst seq gen : Nat) (body : List Nat) : Bytes :=
  let p := chainPayload type body
  let head := [BitVec.ofNat 8 type, BitVec.ofNat 8 src, BitVec.ofNat 8 dst, 0] ++ leBytes 2 p.length ++ leBytes 2 seq ++ leBytes 4 gen
  head ++ leBytes 4 (crc32c (head ++ leBytes 4 0 ++ p)).toNat ++ padTo ((p.length + 7) / 8 * 8) p

/-- The message at the head of the outbox leaves; nothing does while an activation runs (R311, R313). -/
def State.sendOne (s : State) : State :=
  match s.sk.outbox with
  | [] => s
  | (t, d, body) :: rest =>
    if s.bt.paused || !(s.sk.partakes || t == 3) then s
    else
      { s with out := s.out ++ [.chainMsg (chainFrame t s.pw.pos d s.sk.seq s.sk.gen.toNat body)],
               sk := { s.sk with outbox := rest, sent := some (t, d, body), seq := (s.sk.seq + 1) % 65536,
                                 change := s.sk.change.map fun c => { c with pendSent := c.pendSent || t == 4 } } }

/-- The token block leaves this drive (R313). -/
def State.passToken (s : State) : State := s.emit (.chain 0xFE s.sk.gen.toNat [s.sk.beacon, s.sk.tokenRot.toNat])

/-- The position a Beacon polls after `p`: the next member in turn (R316). -/
def Stack.nextPoll (k : Stack) (p : Nat) : Nat :=
  ((List.range 16).map fun i => (p + 1 + i) % 16).find? (fun q => k.members.getLsbD q) |>.getD p

/-- The payload of a CENSUS. -/
def censusBody (ms : List (Nat × Bytes)) : List Nat := ms.flatMap fun (p, d) => p :: d.map (·.toNat)

/-- The CENSUS that a Beacon sends, with itself in it (R312). -/
def State.ownCensus (s : State) : Nat × Nat × List Nat := (1, 0x80, censusBody [(s.pw.pos, s.driveId)])

/-- The drive becomes Beacon: it measures the lap, which the manual gives no way to compute (log 3); a ring whose lap
exceeds 8 superframes does not form. It starts superframes, issues a token, and sends CENSUS and then FLUSH, which a first Beacon, a drive
that is itself still joining, sends at the end of its join (R309, R312, R323). -/
def State.becomeBeacon (s : State) : State :=
  let lap := (Config.freeWord s.free).toNat
  let s := s.spend
  if lap = 0 ∨ 8 < lap then
    (s.modSk fun k => { k with electing := false, electLaps := 0 }).event 0xA "chain lap exceeds 8 superframes"
  else
    (s.modSk fun k =>
      { k with electing := false, electLaps := 0, ringUp := true, role := 1, beacon := s.pw.pos, lap := lap,
               st := if k.st = 3 then 2 else k.st, flags := k.flags ||| 1,
               outbox := s.ownCensus :: (if k.st = 1 then [] else [(6, 0x80, [])]) ++ k.outbox.filter (fun m => m.1 ≠ 1 && m.1 ≠ 6) }).newWatch.sendOne.passToken

/-- ELECT_RECEIVED: a participant forwards the lower position and the higher generation; its own position on two
consecutive laps makes it Beacon (R312). A relay forwards the block as it came. -/
def execElectReceived (pos gen : Nat) (s : State) : Res :=
  finish s (
    if !s.alive then s
    else if !s.sk.partakes then s.emit (.chain 0xFD gen [pos])
    else
      let g := max gen s.sk.gen.toNat
      let s := if s.sk.electing && g = s.sk.gen.toNat then s else s.startElection g
      if pos = s.pw.pos ∧ gen = g then
        if s.sk.electLaps = 1 then s.becomeBeacon
        else (s.modSk fun k => { k with electLaps := k.electLaps + 1 }).emit (.chain 0xFD g [pos])
      else (s.modSk fun k => { k with electLaps := 0 }).emit (.chain 0xFD g [min pos s.pw.pos]))

/-- TOKEN_TIMEOUT: the Beacon issues a new token, whose rotation count tells it from the old one, and takes a census, with a FLUSH after it,
because a token pass went missing (R313, R324, log 26). -/
def execTokenTimeout (s : State) : Res :=
  finish s (
    if !s.alive || s.sk.role ≠ 1 || !s.sk.ringUp then s
    else (s.modSk fun k => { k with
        tokenRot := k.tokenRot + 1,
        outbox := if k.outbox.any (·.1 == 1) then k.outbox else k.outbox ++ [s.ownCensus, (6, 0x80, [])] }).passToken)

/-- TOKEN_BLOCK: the drive may send one message and passes the token. The Beacon raises the rotation counter and names its own position; the
others read the counter and pass the block as it came, and one that takes part learns the Beacon and the generation from it. A token of an
older generation is discarded, and so is, by the Beacon, one that another has replaced (R307, R312, R313, log 26). -/
def execTokenBlock (gen : Nat) (tok : Token) (s : State) : Res :=
  finish s (
    if !s.alive then s
    else if gen < s.sk.gen.toNat || s.sk.electing then s
    else if s.sk.role = 1 && tok.rot != s.sk.tokenRot.toNat then s
    else
      let s := if s.sk.role = 1 then s.modSk fun k => ({ k with tokenRot := k.tokenRot + 1 } : Stack).gathered s.pw.pos
               else s.modSk fun k => { k with tokenRot := BitVec.ofNat 16 tok.rot, beacon := if k.partakes then tok.beacon else k.beacon,
                                              gen := if k.partakes then BitVec.ofNat 32 gen else k.gen }
      let beacon := if s.sk.role = 1 then s.pw.pos else tok.beacon
      (s.sendOne).emit (.chain 0xFE gen [beacon, s.sk.tokenRot.toNat]))

/-! ## Messages (R313, R314) -/

/-- Whether a message has come back to the drive that sent it (R313). A relay that sends nothing has no message of its own (R307). -/
def State.returned (s : State) (h : ChainHdr) : Bool := h.src == s.pw.pos && (s.sk.partakes || s.sk.sent.isSome)

/-- A message passes: its sender removes it, and every other drive, a relay too, sends it on as it came. One of an older generation is
discarded wherever it is met (R307, R309, R312, R313). -/
def State.passOn (s : State) (h : ChainHdr) (type : Nat) (body : List Nat) : State :=
  if !s.alive || s.returned h || decide (h.gen < s.sk.gen.toNat) then s else s.emit (.chainPass type h body)

/-- A received message takes effect: its CRC is good, its generation is not older, and it is for this drive. One of this drive that returns
with a wrong CRC is sent again; a member discards and counts any other bad message, which has passed all the same (R309, R312, R314). -/
def State.onChain (s : State) (h : ChainHdr) (f : State → State) : State :=
  if !s.alive then s
  else if h.gen < s.sk.gen.toNat then s
  else if !h.crcOk then
    let s := s.modSk fun k => { k with linkErrors := k.linkErrors + 1 }
    if s.returned h then
      s.modSk fun k => { k with outbox := k.sent.toList ++ k.outbox, sent := none }
    else s
  else if !s.sk.partakes then s.whenB (s.returned h) (·.modSk fun k => { k with sent := none })
  else if !(h.broadcast || h.dst = s.pw.pos || h.src = s.pw.pos) then s
  else
    f (if s.returned h then s.modSk fun k => { k with sent := none } else s)

/-- A message passes and takes effect: the meaning of each row of the chain's messages. -/
def State.chained (s : State) (h : ChainHdr) (type : Nat) (body : List Nat) (f : State → State) : State := (s.passOn h type body).onChain h f

/-- The change of rules that lost the chain goes on at the next Beacon: SET for every address with its present content
(R321). -/
def State.resumeChange (s : State) : State :=
  match s.sk.change with
  | some c => if c.failed then
      s.modSk fun k => { k with change := some { c with setSent := true, failed := false },
                                outbox := k.outbox.filter (fun m => m.1 ≠ 4 && m.1 ≠ 5) ++ s.setMsgs c.addrs }
    else s
  | none => s

/-- Another drive at this drive's position, of lower identifier (R307). -/
def State.censusClash (s : State) (ms : List (Nat × Bytes)) : Bool :=
  ms.any (fun (x : Nat × Bytes) => x.1 == s.pw.pos && x.2 != s.driveId && decide (idNat x.2 < idNat s.driveId))

/-- What a CENSUS carries when it leaves this drive: a participant appends its position and identity to a whole message (R312). -/
def State.censusOn (s : State) (h : ChainHdr) (ms : List (Nat × Bytes)) : List (Nat × Bytes) :=
  if s.sk.partakes && h.crcOk && !s.censusClash ms then ms ++ [(s.pw.pos, s.driveId)] else ms

/-- A census: the members present, the replica words of absent positions cleared, and the end of the election (R312). A member found absent
empties the cache (R322, R324), and a join that an election broke off goes on (R323). Another drive at this drive's position is a conflict
that the higher identifier loses (R307). The lap that a drive other than the Beacon shows is free, 1 to 8 (R326, log 26). -/
def State.takeCensus (s : State) (h : ChainHdr) (ms : List (Nat × Bytes)) : State :=
  if s.censusClash ms then s.relayByConflict 2 "chain position conflict"
  else
    let s := s.whenB (s.sk.beacon != h.src) State.newWatch
    let own := (s.pw.pos, s.driveId)
    let all := own :: ms.filter (·.1 ≠ s.pw.pos)
    let present (p : Nat) : Bool := all.any (·.1 == p)
    let bits := all.foldl (fun (b : BitVec 16) (p, _) => b ||| BitVec.ofNat 16 (2 ^ p)) 0
    let was := s.sk.electing
    let left := (List.range 16).any fun p => s.sk.members.getLsbD p && !present p
    let lap := if h.src = s.pw.pos ∨ (was = false ∧ s.sk.lap ≠ 0) then s.sk.lap else 1 + (Config.freeWord s.free).toNat % 8
    let s := s.spend.modSk fun k =>
      { (if left then (k.clearPos fun p => !present p).raiseEpoch else k.clearPos fun p => !present p) with
        lap := lap, gather := if h.src = s.pw.pos ∧ k.joining ≠ 0 then 2 else k.gather,
        gen := BitVec.ofNat 32 h.gen, electing := false, electLaps := 0, ringUp := true, flags := k.flags ||| 1,
        beacon := h.src, role := if h.src = s.pw.pos then 1 else if k.st = 1 then 0 else 2,
        st := if k.st = 3 then 2 else k.st, members := bits,
        rows := all.map fun (p, d) =>
          match k.rows.find? (fun r => r.pos == p && r.driveId == d) with
          | some r => { r with beacon := p == h.src }
          | none => { pos := p, beacon := p == h.src, replica := decide (p ≠ s.pw.pos), driveId := d, joinTime := s.now } }
    let s := (s.resumeChange).logEvent 4 .logC4
    if s.sk.joining = 0 then s
    else if s.sk.role = 1 || s.sk.joining ≠ 1 then
      s.whenB (was || s.sk.joining == 1) fun s => (s.modSk fun k => { k with outbox := k.outbox.filter (·.1 ≠ 6) }).joinOwn
    else if s.sk.outbox.any (·.1 == 2) then s else s.startJoin

/-- The replica as REPLICA messages for a joining drive: the words that are not zero, the last message shorter than
512 words, if need be an empty one (R323, log 26). -/
def Stack.replicaMsgs (k : Stack) (dst : Nat) : List (Nat × Nat × List Nat) :=
  let body (l : List (Nat × BitVec 64)) : List Nat := l.flatMap fun (i, w) => [i / 65536, i % 65536, w.toNat]
  (chunks512 (k.replica.length / 512) k.replica ++ if k.replica.length % 512 = 0 ∧ k.replica ≠ [] then [[]] else []).map fun l => (10, dst, body l)

/-- A JOIN: the Beacon sends the replica to a drive of its own stack; a drive whose identifier differs from the
Beacon's, or that shares a position with a drive of lower identifier, becomes a relay (R307, R323). The manual does not say how a joiner
learns the Beacon's identifier: the Beacon answers a JOIN of another stack with a JOIN of its own to its sender (DESIGN CHOICE, log 26). Nor
does it say how a joiner learns of entries announced as disabled before it came: every drive that takes part announces its own again (DESIGN
CHOICE, log 26). -/
def State.takeJoin (s : State) (h : ChainHdr) (stackId driveId : Bytes) : State :=
  if s.returned h && driveId == s.driveId then s
  else if s.returned h && decide (idNat driveId < idNat s.driveId) then s.relayByConflict 2 "chain position conflict"
  else if stackId ≠ s.sk.stackId then
    if h.src = s.sk.beacon then s.relayByConflict 4 "stack identifier mismatch"
    else s.modSk fun k => { k with
      flags := k.flags ||| 4,
      outbox := if k.role = 1 then k.outbox ++ [(2, h.src, (k.stackId ++ s.driveId).map (·.toNat))] else k.outbox }
  else
    (s.announceOwn.modSk fun k =>
      { k with rows := k.rows.filter (·.pos ≠ h.src)
                 ++ [{ pos := h.src, beacon := false, replica := false, driveId := driveId, joinTime := s.now }],
               outbox := if k.role = 1 then k.outbox ++ k.replicaMsgs h.src else k.outbox }).logChanged 4

/-- The words a member stores from SET; they clear REP_PENDING and what DISABLE announced (R321). -/
def State.takeSet (s : State) (h : ChainHdr) (ws : List (Nat × BitVec 64)) : State :=
  let s := s.modSk fun k =>
    (ws.foldl (fun (k : Stack) (x : Nat × BitVec 64) => if h.src = s.pw.pos then k else k.undisable h.src x.1) (k.storeWords h.src ws)).raiseEpoch
  if !s.returned h then s
  else
    let last (as : List Nat) : Bool := match as.getLast? with
      | some a => ws.any (·.1 == a)
      | none => true
    let s := match s.sk.change with
      | some c =>
        if c.setSent && last c.addrs then
          (s.modSk fun k => { k with change := none }).reply 0x0D c.op c.req
            (if c.written then {} else (c.refused.map (camRefused c.req.payload)).getD (refuse .busy))
        else s
      | none => s
    if s.sk.joining = 2 && last s.cam.globals then
      s.modSk Stack.joinFlush
    else s

/-- A PEND: the addresses are marked; at its return the change is written and SET follows, before what the change itself
announces. Where the checks of R250 no longer hold it is not made, and SET gives the members the present words (R250, R253, R254, R321). -/
def State.takePend (s : State) (h : ChainHdr) (as : List Nat) : State :=
  let s := s.modSk fun k => k.storeWords h.src (as.map fun a => (a, k.word h.src a ||| 0x200000000#64))
  if !s.returned h then s
  else
    match s.sk.change with
    | some c =>
      if c.written || c.setSent || !(match c.addrs.getLast? with | some a => a ∈ as | none => true) then s
      else match c.refused.or (if c.op = 1 then s.camRefusal c.req.payload else none) with
      | some x => s.modSk fun k => { k with change := some { c with setSent := true, refused := some x }, outbox := k.outbox ++ s.setMsgs c.addrs }
      | none =>
        let t := s.camApply c.op c.req.payload
        t.modSk fun k => { k with change := some { c with written := true, setSent := true },
                                  outbox := s.sk.outbox ++ t.setMsgs c.addrs ++ k.outbox.drop s.sk.outbox.length }
    | none => s

/-- A DISABLE: the entry is no longer valid and covers its namespaces from now on, and the cache epoch rises (R257, R314, R320, R322). -/
def State.takeDisable (s : State) (h : ChainHdr) (a : Nat) (n m : BitVec 32) : State :=
  (s.modSk fun k =>
    ({ (k.storeWords h.src [(a, (k.word h.src a &&& ~~~0x100000000#64) ||| 0x400000000#64)]) with
       disabledGlobal := (k.disabledGlobal.filter fun (x : Nat × Nat × BitVec 32 × BitVec 32) => !(x.1 == h.src && x.2.1 == a)) ++ [(h.src, a, n, m)],
       flags := k.flags ||| 8 }).raiseEpoch).logChanged 4

/-- A member leaves (R314). -/
def State.takeLeave (s : State) (pos : Nat) : State :=
  if pos = s.pw.pos then s
  else
    (s.modSk fun k =>
      { (k.clearPos (· == pos)).raiseEpoch with
        members := k.members &&& ~~~ BitVec.ofNat 16 (2 ^ pos), rows := k.rows.filter (·.pos ≠ pos),
        beacon := if k.beacon = pos then 255 else k.beacon }).logEvent 4 .logC4

/-- A FLUSH: the cache empties; that of the Beacon ends an election, and that of a joining drive makes it a member (R312, R322, R323). -/
def State.takeFlush (s : State) (h : ChainHdr) : State :=
  let s := s.modSk fun k => { k.raiseEpoch with flushDue := k.flushDue && h.src != k.beacon }
  if s.returned h then if s.sk.joining = 3 then s.joined else s
  else if s.sk.rows.any fun r => r.pos == h.src && (!r.replica || !s.sk.isMember h.src) then
    (s.modSk fun k => { k with members := k.members ||| BitVec.ofNat 16 (2 ^ h.src),
                               rows := k.rows.map fun r => if r.pos = h.src then { r with replica := true } else r }).logEvent 4 .logC4
  else s

/-- Words of the replica for a joining drive; the last message, one shorter than 512 words or one that reaches the last
address, ends it (R323, log 26). -/
def State.takeReplica (s : State) (ws : List (Nat × Nat × BitVec 64)) : State :=
  if s.sk.joining ≠ 1 then s
  else
    let s := s.modSk fun k => ws.foldl (fun (k : Stack) (x : Nat × Nat × BitVec 64) => k.storeWords x.1 [(x.2.1, x.2.2)]) k
    if ws.length < 512 || ws.any (fun (x : Nat × Nat × BitVec 64) => x.1 == 15 && x.2.1 == 65535) then s.joinOwn else s

/-- CENSUS (R312). -/
def execCensus (h : ChainHdr) (ms : List (Nat × Bytes)) (s : State) : Res := 
  finish s (s.chained h 1 (censusBody (s.censusOn h ms)) fun s => s.takeCensus h ms)
/-- JOIN (R323). -/
def execJoin (h : ChainHdr) (stackId driveId : Bytes) (s : State) : Res :=
  finish s (s.chained h 2 ((stackId ++ driveId).map (·.toNat)) fun s => s.takeJoin h stackId driveId)
/-- LEAVE (R314). -/
def execLeave (h : ChainHdr) (pos : Nat) (s : State) : Res := finish s (s.chained h 3 [pos] fun s => s.takeLeave pos)
/-- PEND (R321). -/
def execPend (h : ChainHdr) (as : List Nat) (s : State) : Res := finish s (s.chained h 4 as fun s => s.takePend h as)
/-- SET (R321). -/
def execSet (h : ChainHdr) (ws : List (Nat × BitVec 64)) (s : State) : Res := 
  finish s (s.chained h 5 (ws.flatMap fun (a, w) => [a, w.toNat]) fun s => s.takeSet h ws)
/-- FLUSH (R322). -/
def execFlushChain (h : ChainHdr) (s : State) : Res := finish s (s.chained h 6 [] fun s => s.takeFlush h)
/-- DISABLE (R314). -/
def execDisable (h : ChainHdr) (a : Nat) (n m : BitVec 32) (s : State) : Res :=
  finish s (s.chained h 7 [a, n.toNat, m.toNat] fun s => s.takeDisable h a n m)
/-- HITS: a winner adds the counts of its entries, saturating (R318). -/
def execHits (h : ChainHdr) (cs : List (Nat × Nat × Nat)) (s : State) : Res :=
  finish s (s.chained h 8 (cs.flatMap fun (p, a, n) => [p, a, n]) fun s => (cs.filter (·.1 == s.pw.pos)).foldl (fun s (_, a, n) => s.countHit a n) s)
/-- REPLICA (R323). -/
def execReplica (h : ChainHdr) (ws : List (Nat × Nat × BitVec 64)) (s : State) : Res :=
  finish s (s.chained h 10 (ws.flatMap fun (p, a, w) => [p, a, w.toNat]) fun s => s.takeReplica ws)

/-- The counts of global wins, one triple for each entry (R318). -/
def winCounts (l : List (Nat × Nat × Nat)) : List (Nat × Nat × Nat) :=
  ((l.map fun (p, a, _) => (p, a)).eraseDups).map fun (p, a) =>
    (p, a, ((l.filter fun (x : Nat × Nat × Nat) => x.1 == p && x.2.1 == a).map (·.2.2)).sum)

/-- HITS_INTERVAL: once every 10 ms the wins leave in HITS messages (R318). -/
def execHitsInterval (s : State) : Res :=
  finish s (
    if !s.alive || !s.sk.linked || s.sk.wins.isEmpty then s
    else
      let cs := winCounts s.sk.wins
      s.modSk fun k => { k with
        wins := [],
        outbox := k.outbox ++ (chunks512 (cs.length / 512) cs).map fun l => (8, 0x80, l.flatMap fun (p, a, n) => [p, a, n]) })

/-! ## Lookup slots and MATCH windows (R315 to R319) -/

/-- A slot as its 24 bytes, SL_CRC last (R242, R316). -/
def slotBytes (state : Nat) (polled : Bool) (pos : Nat) (key : BitVec 192) : Bytes :=
  let k := lkeyOfBits key
  let b := leBytes 1 (state + 4 * polled.toNat + 16 * pos) ++ [k.op] ++ leBytes 2 k.nsid.toNat ++ (leBytes 16 k.pfx.toNat).reverse ++ leBytes 2 k.hgroup.toNat
  b ++ leBytes 2 (crc16 b).toNat

/-- A slot leaves. Of one that came with a wrong SL_CRC and goes on as it came, the bytes before SL_CRC are those given (R316). -/
def slotOut (state : Nat) (polled : Bool) (pos : Nat) (key : BitVec 192) (crcOk : Bool) : Out := .slot (slotBytes state polled pos key) crcOk

/-- An empty slot leaves. -/
def State.passSlot (s : State) (polled : Bool) (pos : Nat) : State := s.emit (slotOut 0 polled pos 0 true)

/-- A member claims a slot that is not kept for another for its lookup of this key, if one waits; the polled bit is cleared either way
(R316). -/
def State.claimSlot (s : State) (key : BitVec 192) : State :=
  if s.sk.flushDue || !(s.sk.pending.any fun g => g.key == key && !g.inFlight) then s.passSlot false s.pw.pos
  else (s.modSk fun k => { k with pending := k.pending.map fun g =>
      if g.key == key then { g with inFlight := true, gen := k.gen.toNat, epoch := k.epoch.toNat } else g }).emit (slotOut 1 false s.pw.pos key true)

/-- SLOT_CLAIM: an empty slot passes. The Beacon polls it for the next member in turn, which may be itself; a member claims it for a waiting
lookup unless it is polled for another; anything else passes it as it came (R307, R316). -/
def execSlotClaim (polled : Bool) (polledPos : Nat) (key : BitVec 192) (s : State) : Res :=
  finish s (
    if !s.alive then s
    else if !s.sk.linked then s.passSlot polled polledPos
    else if s.sk.role = 1 then
      let p := s.sk.nextPoll s.sk.poll
      let s := s.modSk fun k => { k with poll := p }
      if p = s.pw.pos then s.claimSlot key else s.passSlot true p
    else if polled && polledPos ≠ s.pw.pos then s.passSlot true polledPos
    else s.claimSlot key)

/-- The 40 cells of a bid, most significant first: MW_NONE 0, priority, position, address, guard 111b (R317). -/
def bidCells (prio pos addr : Nat) : BitVec 40 :=
  ((0 : BitVec 1) ++ BitVec.ofNat 16 prio ++ BitVec.ofNat 4 pos ++ BitVec.ofNat 16 addr ++ 7#3).setWidth 40
def noBid : BitVec 40 := 0xFFFFFFFFFF#40

/-- The window from cell `n - 1` (counted from the least significant) down: a contending member sends the AND of the
received cell and its bid, until it receives 0 against its 1; the guard cells pass (R317). -/
def contend : Nat → Bool → BitVec 40 → BitVec 40 → BitVec 40
  | 0, _, w, _ => w
  | n + 1, c, w, bid =>
    if n < 3 then w
    else
      let r := w.getLsbD n
      let b := bid.getLsbD n
      if c && !r && b then w
      else contend n c (if c && !b then w &&& ~~~ BitVec.ofNat 40 (2 ^ n) else w) bid

/-- The guard cells driven to 0 (R317). -/
def voided (w : BitVec 40) : BitVec 40 := w &&& ~~~ 7#40

/-- SLOT_ARRIVAL: a lookup slot, which a drive other than its requester sends on, and its window. A member bids with the winner of its global
entries, but not before the FLUSH that ends an election; the requester drives its own bid; a bad slot CRC or a parity repeat voids the window;
others pass it (R255, R312, R316, R317, R323, R324). -/
def execSlotArrival (requester : Nat) (key : BitVec 192) (crcOk : Bool) (cells : BitVec 40) (s : State) : Res :=
  finish s (
    if !s.alive then s
    else
    let s := if requester = s.pw.pos ∧ s.sk.st = 2 then s else s.emit (slotOut 1 false requester key crcOk)
    if s.sk.st ≠ 2 then s.emit (.cells cells)
    else if !crcOk then (s.modSk fun k => { k with linkErrors := k.linkErrors + 1 }).emit (.cells (voided cells))
    else
      let w := if s.sk.flushDue then none else s.cam.winner true (lkeyOfBits key)
      if w.any fun x => s.cam.hitFails x.1 then
        let (s, _) := s.camLookup s.cam.faults true (lkeyOfBits key)
        s.emit (.cells (voided (if requester = s.pw.pos then noBid else cells)))
      else
        let bid := w.map fun (a, e) => bidCells e.prio.toNat s.pw.pos a
        if requester = s.pw.pos then s.emit (.cells (bid.getD noBid))
        else match bid with
          | some b => s.emit (.cells (contend 40 true cells b))
          | none => s.emit (.cells cells))

/-- What a returned window says: none where it is refused, else the winner or no global match (R317, R318). -/
def Stack.readWindow (k : Stack) (cells : BitVec 40) : Option (Option (Nat × Nat)) :=
  if cells.extractLsb' 0 3 ≠ 7#3 then none
  else if cells.getLsbD 39 then some none
  else
    let prio := (cells.extractLsb' 23 16).toNat
    let pos := (cells.extractLsb' 19 4).toNat
    let addr := (cells.extractLsb' 3 16).toNat
    let w := k.word pos addr
    if repValid w && !repPending w && repPrio w == prio then some (some (pos, addr)) else none

/-- The commands and CAM.LOOKUP messages that wait for a lookup take its result. DEDUCED (log 26): an arbitration that several commands have
joined counts once for its winner, and one for CAM.LOOKUP alone not at all (R248, R257, R258, R315, R318). -/
def State.answerLookup (s : State) (g : GLookup) (w : Option (Nat × Nat)) : State :=
  let s := s.whenB (!g.cmds.isEmpty) fun s => s.countGlobal w
  let s := g.cmds.foldl (fun s (a, b, c) =>
    match s.cmd? a b c with
    | none => s
    | some c => match s.nsOf c.e.nsid with
      | none => s.complete c .invalidNamespace
      | some n =>
        if s.policyDown n.nsid true then s.complete c .policyUnavailable
        else s.judge c n (s.policyChain c.locWin w)) s
  g.msgs.foldl (fun s m =>
    let (s, loc) := s.camLookup s.cam.faults false (lkeyOfBits g.key)
    s.reply 0x0D 0x07 m (lookupReply (pickWinner s.pw.pos loc (w.map fun (p, a) => (p, a, s.sk.word p a))))) s

/-- WINDOW_RETURN: the slot is back, and its requester empties it (R316). An accepted window answers its lookup and enters the cache if the epoch
did not change; any other is retried in a new slot (R318, R319, R322). -/
def execWindowReturn (gen : Nat) (key : BitVec 192) (cells : BitVec 40) (s : State) : Res :=
  finish s (
    if !s.alive || gen ≠ s.sk.gen.toNat then s
    else
      let s := s.passSlot false 0
      match s.sk.pending.find? (fun g => g.key == key && g.inFlight) with
      | none => s
      | some g =>
        match (if g.gen = gen then s.sk.readWindow cells else none) with
        | none =>
          s.modSk fun k => { k with retries := k.retries + 1,
                                    pending := k.pending.map fun x => if x.key == key then { x with inFlight := false } else x }
        | some w =>
          let s := s.modSk fun k => { k with lookups := k.lookups + 1, pending := k.pending.filter (·.key ≠ key) }
          let s := s.whenB (g.epoch == s.sk.epoch.toNat) fun s => s.cacheEnter { key := key, winner := w, epoch := g.epoch }
          s.answerLookup g w)

/-- GLOBAL_LOOKUP_TIMEOUT: a command without a result 50 ms after it started completes with Policy Unavailable (R319). -/
def execGlobalLookupTimeout (ctrl sq cid : Nat) (s : State) : Res :=
  whileUp s (
    match s.cmd? ctrl sq cid with
    | some c =>
      if c.phase ≠ .waitChain then s
      else
        (s.modSk fun k =>
          { k with unavailable := k.unavailable + 1,
                   pending := (k.pending.map fun g => { g with cmds := g.cmds.filter (· ≠ (ctrl, sq, cid)) }).filter
                     fun g => !(g.cmds.isEmpty && g.msgs.isEmpty) }).complete c .policyUnavailable
    | none => s)

/-- CHAIN_RECEIVER_LOCK: CHAIN_RDY is driven high once the receiver has locked, never before B2 has ended (R531). -/
def execChainReceiverLock (s : State) : Res :=
  finish s (
    s.whenB (s.serving || s.pw.phase == .pilot || (s.pw.phase == .starting && decide (2 < s.pw.curStep))) fun s =>
      s.modPw fun p => { p with chainRdy := true })

/-! ## STACK messages and log C4h (R325, R326) -/

/-- A departure is refused while a namespace has stack scope or a valid global entry is held (R325). -/
def State.mayNotLeave (s : State) : Bool := s.va.ns.any (·.stackScope) || !s.cam.globals.isEmpty

/-- The drive leaves: LEAVE waits for the token, and the drive is a relay and a member no more (R308, R325). -/
def State.leaveStack (s : State) : State :=
  let s := s.modSk fun k => { k with member := false }
  if !s.sk.partakes then s
  else (s.toRelay 0).modSk fun k => { k with outbox := [(3, 0x80, [s.pw.pos])] }

/-- STACK.CONFIG. DESIGN CHOICE (log 26): enabling a drive that takes part under the same identifier changes nothing, and under another one
it starts a new join, without a LEAVE (R325). -/
def hStackConfig : Handler := fun s m =>
  let p := m.payload
  if p.length ≠ 17 then saying s (refuse .length)
  else
    match natAt p 0 1 with
    | 0 =>
      if s.mayNotLeave then saying s (badField 0)
      else doing ((s.leaveStack.modSk fun k => { k with enabled := false }).logChanged 4) {}
    | 1 =>
      if s.sk.enabled && s.sk.stackId == bytesAt p 1 16 && s.sk.partakes then saying s {}
      else doing ((s.modSk fun k => { k with enabled := true, stackId := bytesAt p 1 16 }).startJoin) {}
    | _ => saying s (badField 0)

/-- Log C4h, 4 KiB (R326). -/
def State.logC4 (s : State) : Bytes :=
  let k := s.sk
  let row (p : Nat) : Bytes :=
    match k.rows.find? (·.pos == p) with
    | some r => leBytes 1 ((k.isMember p).toNat + 2 * r.beacon.toNat + 4 * r.replica.toNat) ++ List.replicate 7 0
        ++ padTo 16 r.driveId ++ leBytes 8 r.joinTime
    | none => leBytes 1 (k.isMember p).toNat ++ List.replicate 31 0
  s.vendorPage 0xC4 (leBytes 1 k.shown ++ leBytes 1 k.role ++ leBytes 1 s.pw.pos ++ leBytes 1 k.beacon
    ++ leBytes 2 k.members.toNat ++ leBytes 2 k.tokenRot.toNat ++ leBytes 4 k.gen.toNat ++ leBytes 1 k.lap
    ++ leBytes 1 k.flags.toNat ++ [0, 0] ++ padTo 16 k.stackId ++ leBytes 8 k.elections ++ leBytes 8 k.lookups
    ++ leBytes 8 k.retries ++ leBytes 8 k.unavailable ++ leBytes 8 k.cacheHits ++ leBytes 8 k.linkErrors
    ++ leBytes 4 k.epoch.toNat ++ leBytes 4 s.cam.globals.length
    ++ leBytes 4 (k.replica.countP fun p => repValid p.2) ++ List.replicate 4 0 ++ (List.range 16).flatMap row)

def hStackStatus : Handler := fun s m => if m.payload ≠ [] then saying s (refuse .length) else saying s (answerLong s.logC4)

def hStackLeave : Handler := fun s m =>
  if m.payload ≠ [] then saying s (refuse .length)
  else if s.mayNotLeave then saying s (badField 0xFFFF)
  else doing s.leaveStack {}

/-- STACK.CONFIG (R307, R325). -/
def execStackConfig (m : MsgReq) (s : State) : Res := finish s (s.message 0x07 0x01 hStackConfig m)
/-- STACK.STATUS (R325). -/
def execStackStatus (m : MsgReq) (s : State) : Res := finish s (s.message 0x07 0x02 hStackStatus m)
/-- STACK.LEAVE (R325). -/
def execStackLeave (m : MsgReq) (s : State) : Res := finish s (s.message 0x07 0x03 hStackLeave m)

end Sys2Proof.Machine
end

