-- ==== Sys2Proof/Machine/Calendar.lean ====
section
/-! DEFINITION. Calendar time (chapter 13): the servos, the time states, PTP masters, PPS edges, leap seconds, and the
messages TIME.STATUS, TIME.SET_EPOCH and TIME.SPANS. -/

namespace Sys2Proof.Machine

/-! ## The servo bound (R360) -/

/-- The integer square root, rounded down, found bit by bit from bit `n - 1`. -/
def isqrt : Nat → Nat → Nat → Nat
  | 0, _, r => r
  | n + 1, x, r => isqrt n x (if (r + 2 ^ n) * (r + 2 ^ n) ≤ x then r + 2 ^ n else r)

/-- |mean| + 3 × standard deviation of the offsets, rounded up, plus the asymmetry allowance (R360). With n offsets of sum
S and n·Q − S² = D, it is (|S| + √(9·D)) ÷ n. -/
def servoBound (l : List Int) (asym : Nat) : Nat :=
  let n := l.length
  if n = 0 then asym
  else
    let sum := l.foldl (· + ·) 0
    let sq := l.foldl (fun a x => a + (x * x).natAbs) 0
    let d9 := 9 * (n * sq - (sum * sum).natAbs)
    let r := isqrt 96 d9 0
    let up := if r * r < d9 then r + 1 else r
    (sum.natAbs + up + n - 1) / n + asym

/-- One exchange or edge enters the servo: the last 16 offsets, the bound, and the run of bounds within 1,000 ns (R360,
R361). -/
def Servo.enter (v : Servo) (offset phase : Int) (asym : Nat) : Servo :=
  let l := keepLast 16 (v.offsets ++ [offset])
  let b := servoBound l asym
  { v with offsets := l, lastBound := b, phase := phase, run := if b ≤ 1000 then v.run + 1 else 0 }

/-! ## Time states (R354 to R357, R365) -/

/-- The servo of the reference in use or last used. -/
def Time.servo (t : Time) : Servo := if t.ref = 1 then t.pps else t.ptp

/-- The reference to use: the preferred one where both are qualified (R362). -/
def Time.pick (t : Time) : Option Nat :=
  if t.ptp.qualified && t.pps.qualified then some t.prefer
  else if t.ptp.qualified then some 0 else if t.pps.qualified then some 1 else none

/-- A change of the time state is recorded; one out of Traceable raises the SMART/health event (R357). -/
def State.timeState (s : State) (st : TimeState) : State :=
  let was := s.tm.st
  let s := (s.modTm fun t => { t with st := st }).event 0xD "time state changed"
  s.whenB (was == .traceable && st != .traceable) fun s => s.notifyAll .smartHealth

/-- The clock is set to the reference (R354, R357). -/
def Time.stepBy (t : Time) (phase : Int) : Time := { t with clock := ((t.clock : Int) + phase).toNat }

/-- The drive becomes Traceable: open spans close with this moment as their trace point (R365). -/
def State.becomeTraceable (s : State) : State :=
  (s.modTm fun t =>
    { t with slew := none, steer := t.slew.getD 0, everTraceable := true,
             spans := t.spans.map fun p => if p.trace.isNone then { p with trace := some t.clock } else p }).timeState .traceable

/-- The time state after a reference has been qualified or lost (R357). -/
def State.selectRef (s : State) : State :=
  match s.tm.st, s.tm.pick with
  | .untraced, none => s
  | .untraced, some r =>
    (s.modTm fun t => ({ t with ref := r }).stepBy (if r = 1 then t.pps.phase else t.ptp.phase)).becomeTraceable
  | .traceable, none =>
    (s.modTm fun t => { t with b0 := t.servo.lastBound, holdStart := t.mono, steer := 0 }).timeState .holdover
  | .traceable, some r => if r = s.tm.ref then s else (s.modTm fun t => { t with ref := r }).timeState .traceable
  | .holdover, none => s.modTm fun t => { t with slew := none }
  | .holdover, some r =>
    if s.tm.slew.isSome && r == s.tm.ref then s
    else
    let phase := if r = 1 then s.tm.pps.phase else s.tm.ptp.phase
    let b := (({ s.tm with slew := none }).bound).getD 0
    if b < phase.natAbs then
      ((s.modTm fun t => ({ t with ref := r }).stepBy phase).event 0xD "clock stepped from Holdover").becomeTraceable
    else if phase.natAbs ≤ 1000 then (s.modTm fun t => { t with ref := r, slew := some phase }).becomeTraceable
    else s.modTm fun t => { t with ref := r, slew := some phase }

/-- A slew corrects the clock at 100 ppm, but for the inserted second through which the clock holds (R353); it ends, Traceable, once the offset
is within 1,000 ns (R357). -/
def State.slewBy (s : State) (ns : Nat) : State :=
  match (if s.tm.leapNow then none else s.tm.slew) with
  | none => s
  | some o =>
    let d := min (ns / 10000) o.natAbs
    let left : Int := if 0 ≤ o then o - d else o + d
    let s := s.modTm fun t => { t with slew := some left, clock := ((t.clock : Int) + (o - left)).toNat }
    if left.natAbs ≤ 1000 then s.becomeTraceable else s

/-- While Traceable the servo corrects the clock by its frequency alone, by up to 100 ppm toward the reference, but for the inserted second
through which the clock holds; the law by which it does is open (R352 to R354; DESIGN CHOICE: a free part of that bound, log 28). -/
def State.steerBy (s : State) (ns : Nat) : State :=
  if s.tm.st != .traceable || s.tm.leapNow then s
  else
    let d : Int := (Config.freeWord (s.free - 1)).toNat % (min (ns / 10000) s.tm.steer.natAbs + 1)
    let d := if 0 ≤ s.tm.steer then d else -d
    s.modTm fun t => { t with clock := ((t.clock : Int) + d).toNat, steer := t.steer - d }

/-- What the servo of the reference in use is to correct from now on (R352). -/
def Time.aim (t : Time) (ref : Nat) (phase : Int) : Time := if t.st = .traceable ∧ t.ref = ref then { t with steer := phase } else t

/-- HOLDOVER_EXPIRY: 24 h in Holdover (R357). -/
def execHoldoverExpiry (s : State) : Res :=
  whileUp s (
    if s.tm.st != .holdover then s
    else ((s.modTm fun t => { t with slew := none }).timeState .untraced).selectRef)

/-! ## PTP (R358 to R360) -/

def Time.ptpPort (t : Time) (port : Nat) : PtpPort := if port = 0 then t.ptpA else t.ptpB

/-- The first condition of R360. -/
def announceTraces (an : Announce) : Bool := (an.clockClass == 6 || an.clockClass == 7) && an.timeTraceable && an.utcOffsetValid

/-- The order of the best master algorithm: the dataset comparison of IEEE 1588, the lower first, then the sender and
the port (R359, log 28). -/
def ForeignMaster.rank (f : ForeignMaster) : List Nat :=
  [f.an.priority1, f.an.clockClass, f.an.accuracy, f.an.variance, f.an.priority2, f.an.gm.toNat, f.an.stepsRemoved,
   f.an.master, f.port]

def lexLt : List Nat → List Nat → Bool
  | a :: s, b :: t => if a < b then true else if b < a then false else lexLt s t
  | _, _ => false

def bestMaster (l : List ForeignMaster) : Option ForeignMaster :=
  l.foldl (fun acc f => match acc with
    | some g => if lexLt f.rank g.rank then some f else some g
    | none => some f) none

/-- PTP loses qualification (R360). -/
def State.losePtp (s : State) : State := (s.modTm fun t => { t with ptp := { t.ptp with qualified := false } }).selectRef

/-- PTP qualifies once both conditions of R360 hold. -/
def State.qualifyPtp (s : State) : State :=
  match s.tm.master with
  | none => s
  | some (p, m) =>
    if !s.tm.ptp.qualified && decide (16 ≤ s.tm.ptp.run)
        && (s.tm.masters.any fun f => f.port == p && f.an.master == m && announceTraces f.an) then
      (s.modTm fun t => { t with ptp := { t.ptp with qualified := true } }).selectRef
    else s

/-- The best master algorithm runs again; a change of master is a loss and a new qualification: the loss takes its bound
from the servo as it stood (R356), then the servo starts empty (R359). -/
def State.remaster (s : State) : State :=
  let best := bestMaster s.tm.masters
  let now := best.map fun f => (f.port, f.an.master)
  if now = s.tm.master then s
  else s.losePtp.modTm fun t => { t with master := now, gm := (best.map (·.an.gm)).getD 0, ptp := {} }

/-- ANNOUNCE_RECEIVED: within the limits of R358 it updates the master it names; an Announce of the chosen master that
fails the first condition of R360 is a loss at once. -/
def execAnnounceReceived (port : Nat) (an : Announce) (s : State) : Res :=
  finish s (
    let c := s.tm.ptpPort port
    let known := s.tm.masters.any fun f => f.port == port && f.an.master == an.master
    if !s.alive || !s.tm.servoOn || !c.enabled || !c.usable then s
    else if an.domain ≠ s.tm.domain || an.transport ≠ c.transport || an.iface ≠ c.iface || an.logInterval < 0 || 4 < an.logInterval
        || (!known && 8 ≤ s.tm.masters.countP (·.port == port)) then
      s.modTm fun t => { t with ptpIgnored := t.ptpIgnored + 1 }
    else
      let s := (s.modTm fun t =>
        { t with masters := t.masters.filter (fun f => !(f.port == port && f.an.master == an.master)) ++ [⟨port, an⟩] }).remaster
      if s.tm.master ≠ some (port, an.master) then s
      else
        let s := s.modTm fun t =>
          { t with gm := an.gm, leapDay := none, leap := if an.leap61 then 1 else if an.leap59 then 2 else 0 }
        if announceTraces an then s.qualifyPtp else if s.tm.ptp.qualified then s.losePtp else s)

/-- The grandmaster's time less currentUtcOffset, less the drive's clock: `phase` counts the grandmaster's own time scale (R353). -/
def Time.utcPhase (t : Time) (port : Nat) (phase : Int) : Int :=
  phase - (((t.masters.find? fun f => t.master == some (f.port, f.an.master) && f.port == port).map (·.an.utcOffset)).getD 0) * Figure.secondNs

/-- SYNC_EXCHANGE: an exchange with the chosen master enters the servo; one whose Delay_Req timestamp was lost, as the row or the port tells, is
discarded; one outside the limits is ignored and counted (R348, R358, R360). -/
def execSyncExchange (port : Nat) (offset phase logSync : Int) (tsLost : Bool) (s : State) : Res :=
  finish s (
    if !s.alive || !s.tm.servoOn || !(s.tm.master.any (·.1 == port)) then s
    else if logSync < -4 || 1 < logSync then s.modTm fun t => { t with ptpIgnored := t.ptpIgnored + 1 }
    else if tsLost || (s.port port).tsMissed then s.modPort port fun p => { p with tsMissed := false }
    else
      let s := (s.applyCal (0x202 + port) 1).modTm fun t =>
        ({ t with ptp := t.ptp.enter offset (t.utcPhase port phase) t.asym, offset := offset } : Time).aim 0 (t.utcPhase port phase)
      if 1000 < s.tm.ptp.lastBound then (if s.tm.ptp.qualified then s.losePtp else s)
      else s.qualifyPtp)

/-- PTP_MESSAGE_TIMEOUT: the masters of a port have fallen silent; if the chosen one is among them PTP loses its
qualification (R360). -/
def execPtpMessageTimeout (port : Nat) (s : State) : Res :=
  whileUp s ((s.modTm fun t => { t with masters := t.masters.filter (·.port ≠ port) }).remaster)

/-- PTP on a port whose interface has gone is out of use until the next TIME.CONFIG (R540). -/
def State.ptpUnusable (s : State) (port : Nat) : State :=
  (s.modTm fun t =>
    { t with ptpA := if port = 0 then { t.ptpA with usable := false } else t.ptpA,
             ptpB := if port = 0 then t.ptpB else { t.ptpB with usable := false },
             masters := t.masters.filter (·.port ≠ port) }).remaster

/-! ## PPS (R361, R362, R529) -/

/-- PPS loses qualification and its epoch lapses (R361). -/
def State.losePps (s : State) : State :=
  (s.modTm fun t => { t with ppsEpoch := none, pps := { t.pps with qualified := false, run := 0 } }).selectRef

/-- The bound of a servo under another asymmetry allowance (R360). -/
def Servo.rebound (v : Servo) (asym : Nat) : Servo :=
  if v.offsets = [] then v
  else
    let b := servoBound v.offsets asym
    { v with lastBound := b, run := if b ≤ 1000 then v.run else 0 }

/-- A new asymmetry allowance is in the servo bounds at once; a bound beyond 1,000 ns is a loss (R360, R361, R369). -/
def State.rebound (s : State) : State :=
  let s := s.modTm fun t => { t with ptp := t.ptp.rebound t.asym, pps := t.pps.rebound t.asym }
  let s := if s.tm.ptp.qualified && decide (1000 < s.tm.ptp.lastBound) then s.losePtp else s
  if s.tm.pps.qualified && decide (1000 < s.tm.pps.lastBound) then s.losePps else s

/-- Whether the references differ by more than 2,000 ns, second by second; at 16 in a row the conflict is recorded (R362). -/
def State.compareRefs (s : State) : State :=
  if s.tm.ptp.qualified && s.tm.pps.qualified && decide (2000 < (s.tm.pps.phase - s.tm.ptp.phase).natAbs) then
    let n := s.tm.conflictRun + 1
    let s := s.modTm fun t => { t with conflictRun := n }
    s.whenB (n == 16) fun s => (s.modTm fun t => { t with conflict := true }).event 0xD "references differ"
  else s.modTm fun t => { t with conflictRun := 0 }

/-- The PPS input delay in force at the next edge, whole ns (R361, R482). -/
def State.ppsDelay (s : State) : Int := (s.applyCal 0x204 1).ck.inForce 0x204 / 1000

/-- PPS_EDGE: an edge less than 0.5 s after the previous one is ignored and counted; any other enters the servo, corrected by the PPS input
delay, and moves the epoch to the next second (R361, R529). `offset` is the clock less the reference as the pin is timestamped; the phase of
PPS follows from its epoch. -/
def execPpsEdge (offset : Int) (gapMs : Nat) (s : State) : Res :=
  finish s (
    if !s.alive || !s.tm.servoOn || !s.tm.ppsOn then s
    else if s.tm.lastEdge.isSome && decide (gapMs < 500) then s.modTm fun t => { t with ppsIgnored := t.ppsIgnored + 1 }
    else
      let delay := s.ppsDelay
      let s := (s.applyCal 0x204 1).modTm fun t =>
        let phase : Int := match t.ppsEpoch with
          | some e => (e : Int) * Figure.secondNs - t.clock + delay
          | none => 0
        let u : Time := { t with lastEdge := some t.mono, offset := offset - delay, pps := t.pps.enter (offset - delay) phase t.asym,
                                 ppsEpoch := t.ppsEpoch.map (· + 1) }
        if t.ppsEpoch.isSome then u.aim 1 phase else u
      let s :=
        if 1000 < s.tm.pps.lastBound then (if s.tm.pps.qualified then s.losePps else s)
        else if !s.tm.pps.qualified && s.tm.ppsEpoch.isSome && decide (16 ≤ s.tm.pps.run) then
          (s.modTm fun t => { t with pps := { t.pps with qualified := true } }).selectRef
        else s
      s.compareRefs)

/-- PPS_TIMEOUT: 2.5 s without an edge (R361). -/
def execPpsTimeout (s : State) : Res :=
  whileUp s (if s.tm.ppsOn then s.losePps else s)

/-! ## Leap seconds (R353) -/

/-- LEAP_SECOND: at the end of the announced day the clock holds the last nanosecond for the inserted second, or skips
the deleted one; the PPS epoch counts accordingly. Without an announced leap nothing happens (R353). -/
def execLeapSecond (s : State) : Res :=
  whileUp s (
    let day := s.now / Figure.dayNs
    let midnight := (day + 1) * Figure.dayNs
    if s.tm.leapNow || s.tm.leapDay.any (· ≠ day) then s
    else match s.tm.leap with
      | 1 => s.modTm fun t =>
          { t with leapNow := true, leapEnd := t.mono + Figure.secondNs, clock := midnight - 1, leap := 0, leapDay := none,
                   ppsEpoch := t.ppsEpoch.map (· - 1) }
      | 2 => s.modTm fun t =>
          { t with clock := midnight, leap := 0, leapDay := none, ppsEpoch := t.ppsEpoch.map (· + 1) }
      | _ => s)

/-! ## TIME messages (R369) -/

def hTimeStatus : Handler := fun s m =>
  let t := s.tm
  if m.payload ≠ [] then saying s (refuse .length)
  else
    let b := match t.st with
      | .traceable => leBytes 8 t.servo.lastBound
      | .holdover => leBytes 8 (t.bound.getD 0)
      | .untraced => List.replicate 8 0xFF
    saying s (answer ([s.tq] ++ leBytes 1 ((t.master.map (·.1)).getD 255)
      ++ leBytes 2 (t.conflict.toNat + 2 * t.ppsEpoch.isSome.toNat) ++ leBytes 4 t.asym ++ leBytes 8 t.clock ++ b
      ++ intBytes 8 t.offset ++ leBytes 8 t.gm.toNat
      ++ leBytes 4 (if t.st == .holdover then (t.mono - t.holdStart) / Figure.secondNs else 0)
      ++ leBytes 4 (t.spans.any (·.trace.isNone)).toNat))

/-- PPS qualifies once an epoch is set and 16 consecutive edges have had their bound. An epoch that comes after those edges qualifies it at
once: the time at the last edge is the second before the epoch's (R361). -/
def State.qualifyPps (s : State) : State :=
  match s.tm.ppsEpoch, s.tm.lastEdge with
  | some e, some l =>
    if !s.tm.pps.qualified && decide (16 ≤ s.tm.pps.run) then
      (s.modTm fun t => { t with pps := { t.pps with
        qualified := true,
        phase := ((e - 1) * Figure.secondNs + (t.mono - l) : Nat) - (t.clock : Int) + s.ck.inForce 0x204 / 1000 } }).selectRef
    else s
  | _, _ => s

/-- TIME.SET_EPOCH: 8-byte second, 1-byte leap, 3 reserved bytes, 4-byte leap date in days since 1970-01-01 (R361, R369,
log 28). -/
def hTimeSetEpoch : Handler := fun s m =>
  let p := m.payload
  if p.length ≠ 16 then saying s (refuse .length)
  else if !s.tm.ppsOn || !(s.tm.lastEdge.any fun e => decide (s.mono ≤ e + 2 * Figure.secondNs)) then saying s (badField 0xFFFF)
  else if 2 < natAt p 8 1 then saying s (badField 8)
  else if natAt p 9 3 ≠ 0 then saying s (badField 9)
  else
    doing ((s.modTm fun t =>
      { t with ppsEpoch := some (natAt p 0 8), leap := natAt p 8 1,
               leapDay := if natAt p 8 1 = 0 then none else some (natAt p 12 4) }).qualifyPps) {}

/-- TIME.SPANS: first sequence, last sequence and trace point of each span, 8 bytes each, an open span's trace point all
1s (R365, log 28). -/
def hTimeSpans : Handler := fun s m =>
  if m.payload ≠ [] then saying s (refuse .length)
  else saying s (answerLong (s.tm.spans.flatMap fun p => leBytes 8 p.first ++ leBytes 8 p.last
    ++ (match p.trace with | some t => leBytes 8 t | none => List.replicate 8 0xFF)))

/-- TIME.STATUS (R369). -/
def execTimeStatus (m : MsgReq) (s : State) : Res := finish s (s.message 0x0C 0x01 hTimeStatus m)
/-- TIME.SET_EPOCH (R369). -/
def execTimeSetEpoch (m : MsgReq) (s : State) : Res := finish s (s.message 0x0C 0x03 hTimeSetEpoch m)
/-- TIME.SPANS (R365, R369). -/
def execTimeSpans (m : MsgReq) (s : State) : Res := finish s (s.message 0x0C 0x04 hTimeSpans m)

end Sys2Proof.Machine
end

