-- ==== Sys2Proof/Machine/Ether.lean ====
section
/-! DEFINITION. The Ethernet ports (chapter 12): links, received frames, flow control and its watchdogs, transmit queues
and timestamps, Low Power Idle, probes, statistics and port settings. -/

namespace Sys2Proof.Machine

/-! ## Addresses (R333, R334) -/

/-- The hash index of a group address: bits [31:23] of its CRC-32 (R334). -/
def groupIndex (a : BitVec 48) : Nat := ((crcIeee (macBytes a)).extractLsb' 23 9).toNat

/-- The solicited-node group of an address whose last three bytes are given (R334). -/
def solicited (low : Nat) : BitVec 48 := 0x3333FF000000#48 ||| BitVec.ofNat 48 (low % 16777216)

/-- The group of PTP by the transport: UDP/IPv4, UDP/IPv6, L2 (R334, R540). -/
def ptpGroup : Nat → BitVec 48
  | 0 => 0x01005E000181#48
  | 1 => 0x333300000181#48
  | _ => 0x011B19000000#48

/-- The groups a port listens to: LLDP, PTP of the transport in use, and the solicited-node and all-nodes groups of its
interfaces, whose link-local address ends as the MAC address does (R333, R334). -/
def State.groups (s : State) (port : Nat) : List (BitVec 48) :=
  let p := s.port port
  let ptp := if port = 0 then s.tm.ptpA else s.tm.ptpB
  [0x0180C200000E#48]
    ++ (if ptp.enabled then [ptpGroup ptp.transport] else [])
    ++ (if p.ifs.isEmpty then []
        else 0x333300000001#48 :: solicited (Config.macAddress port).toNat
          :: (p.ifs.flatMap fun i => i.ipv6.map fun a => solicited (leNat ((a.drop 13).take 3).reverse)))

/-- Firmware sets the bit of every group the port listens to (R334). -/
def State.refreshGroups (s : State) : State :=
  let bits (l : List (BitVec 48)) : BitVec 512 := l.foldl (fun b a => b ||| BitVec.ofNat 512 (2 ^ groupIndex a)) 0
  (s.modPort 0 fun p => { p with groupHash := bits (s.groups 0) }).modPort 1 fun p => { p with groupHash := bits (s.groups 1) }

/-! ## Links (R328 to R330) -/

def PhyType.code : PhyType → Nat
  | .kr4 => 1
  | .kr2 => 2
  | .kr => 3

/-- The highest common type (R328): bit 0 200GBASE-KR4, bit 1 100GBASE-KR2, bit 2 50GBASE-KR. -/
def commonType (own partner : BitVec 8) : Option PhyType :=
  let c := own &&& partner
  if c.getLsbD 0 then some .kr4 else if c.getLsbD 1 then some .kr2 else if c.getLsbD 2 then some .kr else none

/-- The answer of a probe burst: 16-byte preambles and up to 255 records each (R349). The fractions of the timestamps are
those of the timestamp entries (R347). -/
def probeReply (p : Probe) : List Bytes :=
  let lost := p.results.countP fun r => r.2.isNone
  let record (r : Nat × Option (Nat × Nat)) : Bytes :=
    match r.2 with
    | some (t, frac) => leBytes 6 (t / Figure.secondNs) ++ leBytes 4 (t % Figure.secondNs) ++ leBytes 2 frac ++ leBytes 2 r.1 ++ [0, 0]
    | none => List.replicate 12 0 ++ leBytes 2 r.1 ++ [1, 0]
  let rs := p.results.mergeSort fun a b => a.1 ≤ b.1
  (List.range ((rs.length + 254) / 255)).map fun i =>
    let l := (rs.drop (255 * i)).take 255
    leBytes 2 p.sent ++ leBytes 2 lost ++ leBytes 2 (255 * i) ++ leBytes 2 l.length ++ List.replicate 8 0 ++ l.flatMap record

/-- A burst whose last frame has left and whose timestamps have all been read or lost is answered (R349). -/
def State.settleProbe (s : State) (port : Nat) : State :=
  match (s.port port).probe with
  | none => s
  | some p =>
    if p.results.length < p.count then s
    else
      (s.modPort port fun x => { x with probe := none }).reply 0x0A 0x10 p.req { body := probeReply p }

/-- The link goes down: queued frames are discarded and counted, and what the partner had paused is over; probes that
had not left are lost (R330, R349, log 27). -/
def State.dropLink (s : State) (port : Nat) : State :=
  let p := s.port port
  if p.link.isNone then s
  else
    let queued := p.txq.flatten
    let s := s.modPort port fun x =>
      { x with
        link := none, lpi := false, eee := false, wakeUs := 0, txq := List.replicate 8 [], held := List.replicate 8 false,
        broken := List.replicate 8 false, xoff := List.replicate 8 false, ownBroken := List.replicate 8 false,
        occupancy := List.replicate 8 0,
        probe := x.probe.map fun b => { b with results := b.results ++ (queued.filter (·.probe)).map fun f => (f.tag, none) },
        cnt := { x.cnt with txLinkDownDrop := x.cnt.txLinkDownDrop + queued.length, linkDownEvents := x.cnt.linkDownEvents + 1 } }
    s.settleProbe port

/-- LINK_DOWN (R330). -/
def execLinkDown (port : Nat) (s : State) : Res := whileUp s (s.dropLink port)

/-- The receive wake time that the drive requests, µs (R344). -/
def PhyType.receiveWake : PhyType → Nat
  | .kr4 | .kr2 => 6
  | .kr => 8

/-- LINK_NEGOTIATION: the drive advertises the types of PC_TYPES, EEE, and pause only when PC_FLOW is PAUSE; then the highest common type, EEE
where it is resolved, with the receive wake time that its EEE TLV requests, and the events of R328 and R344. A port that is disabled
negotiates nothing. EEE is advertised whatever PC_SERVICES[3]
says, since PS3 and PS4 use it on every link they keep (DEDUCED, log 27). -/
def execLinkNegotiation (port : Nat) (n : NegResult) (s : State) : Res :=
  finish s (
    let p := s.port port
    if !s.alive || p.startDisabled || p.gatedPs4 || p.cfg.types == 0 || p.link.isSome then s
    else
      let s := s.emit (.advertise port p.cfg.types true (p.cfg.flow == 1))
      let fail (s : State) : State :=
        if p.noCommon.any fun t => decide (s.mono < t + 60 * Figure.secondNs) then s
        else (s.modPort port fun x => { x with noCommon := some s.mono }).event (unitOfPort port) "no common PHY type"
      match n with
      | .noCommonType => fail s
      | .up partner eee wake =>
        match commonType p.cfg.types partner with
        | none => fail s
        | some t =>
          let s := s.modPort port fun x => { x with link := some t, eee := eee, wakeUs := wake, noCommon := none, pllLocked := true }
          let s := s.applyCal (0x400 + 4 * port) 4
          s.whenB eee fun s =>
            (s.whenB (s.wakeTooLong port) fun s => s.event (unitOfPort port) "LPI wake time above the limit").emit (.eeeTlv port (PhyType.receiveWake t)))

/-- FEC_UNCORRECTED_LIMIT: more than 10 uncorrected codewords in a second drop the link; how many more is free (R329,
log 3). -/
def execFecUncorrectedLimit (port : Nat) (s : State) : Res :=
  whileUp s (
    if (s.port port).link.isNone then s
    else
      let n := 11 + (Config.freeWord s.free).toNat
      let s := s.spend.modPort port fun x => { x with cnt := { x.cnt with fecUncorrected := x.cnt.fecUncorrected + n } }
      (s.dropLink port).event (unitOfPort port) "uncorrected FEC codewords")

/-! ## Received frames (R332 to R334, R337, R339, R342) -/

/-- Counters of one priority. -/
def PortCounters.modPrio (c : PortCounters) (q : Nat) (f : PrioCounters → PrioCounters) : PortCounters :=
  { c with prio := modAt c.prio q f }

/-- Whether flow control on priority `q` is in use: PFC for a lossless priority, PAUSE for the port, which counts as
priority 0 (R338, log 27). -/
def PortCfg.paces (c : PortCfg) (q : Nat) : Bool := (c.flow == 1 && q == 0) || (c.flow == 2 && c.lossless.getLsbD q)

/-- The priority whose buffer a frame fills (R337, R339, log 27). -/
def PortCfg.bufferOf (c : PortCfg) (pcp : Nat) : Nat := if c.flow = 1 then 0 else pcp

/-- The bytes the buffer of a priority holds: the reserve of a lossless priority, or the whole port (R339). -/
def PortCfg.reserve (c : PortCfg) : Nat := if c.flow = 1 then 16777216 else 2097152

/-- Why a frame is dropped, or none: size, FCS, VLAN, address (R332 to R334). -/
inductive FrameDrop where
  | oversize | undersize | fcs | vlan | group | address
  deriving DecidableEq, Repr

/-- Bit 0 of the first byte of the address: a group (R334). -/
def isGroup (a : BitVec 48) : Bool := a.getLsbD 40

def State.frameDrop (s : State) (port : Nat) (f : Frame) : Option FrameDrop :=
  let p := s.port port
  if 9216 < f.len then some .oversize
  else if f.len < 64 then some .undersize
  else if !f.fcsOk then some .fcs
  else if f.sTag then some .vlan
  else if f.vlan.any fun v => v ≠ 0 && !(p.ifs.any (·.vlan == v)) then some .vlan
  else if f.dest == Config.macAddress port || f.dest == 0xFFFFFFFFFFFF#48 then none
  else if !isGroup f.dest || !p.groupHash.getLsbD (groupIndex f.dest) then some .address
  else if f.dest ∈ s.groups port then none
  else some .group

/-- A frame that the port accepts: counted, and kept in the buffer while its priority is above XOFF; a full reserve drops it, and so does a
shared space that is full when a frame without flow control arrives, which the frame's row tells (R339, R342, log 27). -/
def Port.take (p : Port) (f : Frame) : Port :=
  let pcp := if f.vlan.isNone then 0 else f.pcp
  let q := p.cfg.bufferOf pcp
  let stays := p.cfg.paces q && (p.xoff.getD q false || p.ownBroken.getD q false)
  let full := (f.full && !p.cfg.paces q) || stays && decide (p.cfg.reserve < p.occupancy.getD q 0 + f.len)
  if full && stays && p.ownBroken.getD q false then { p with cnt := { p.cnt with rxLosslessDrop := p.cnt.rxLosslessDrop + 1 } }
  else if full then { p with cnt := { p.cnt with rxBufferDrop := p.cnt.rxBufferDrop + 1 } }
  else
    { p with
      occupancy := if stays then modAt p.occupancy q (· + f.len) else p.occupancy,
      cnt := ({ p.cnt with rxOctets := p.cnt.rxOctets + f.len, rxFramesOk := p.cnt.rxFramesOk + 1 }).modPrio pcp fun c =>
        { c with rxFrames := c.rxFrames + 1, rxOctets := c.rxOctets + f.len } }

/-- A time on the clock, referred to the card-edge pins by the latency `ps` in ps of a calibration item: nanoseconds and units of 2^-16 ns. The
model's clock counts whole nanoseconds; what it shows of one is free, and the RS-FEC correction, good to 8 ns, leaves no more (R346, R347,
log 27). -/
def State.stamp (s : State) (ps : Int) : Nat × Nat :=
  let t : Int := s.now * 65536 + (Config.freeWord s.free).toNat % 65536 + ps * 65536 / 1000
  (t.toNat / 65536, t.toNat % 65536)

/-- Firmware looks at a frame that the port has accepted: the wake time that the EEE TLV of an LLDP frame resolves to is in force from then
on, and a PTP event message has an ingress timestamp, less the ingress latency (R344, R346). -/
def State.lookAt (s : State) (port : Nat) (f : Frame) : State :=
  let t := match f.eeeTlv.filter fun _ => f.dest == 0x0180C200000E#48 with
    | some w => s.lpiCheck (s.modPort port fun p => { p with wakeUs := w })
    | none => s
  if !f.ptpEvent then t
  else
    let t := t.applyCal (0x202 + port) 1
    t.spend.modPort port fun p => { p with ingress := some (t.stamp (-(t.ck.inForce (0x202 + port)))).1 }

/-- FRAME_RECEIVED (R332 to R334, R337, R344, R346). -/
def execFrameReceived (port : Nat) (f : Frame) (s : State) : Res :=
  whileUp s (
    if (s.port port).link.isNone then s
    else
      let count (g : PortCounters → PortCounters) : State := s.modPort port fun p => { p with cnt := g p.cnt }
      match s.frameDrop port f with
      | some .oversize => count fun c => { c with rxOversize := c.rxOversize + 1 }
      | some .undersize => count fun c => { c with rxUndersize := c.rxUndersize + 1 }
      | some .fcs => count fun c => { c with rxFcsErr := c.rxFcsErr + 1 }
      | some .vlan => count fun c => { c with rxVlanUnknown := c.rxVlanUnknown + 1 }
      | some .group => count fun c => { c with rxGroupUnwanted := c.rxGroupUnwanted + 1 }
      | some .address => s
      | none =>
        let t := s.modPort port fun p => p.take f
        if (t.port port).cnt.rxFramesOk = (s.port port).cnt.rxFramesOk then t else t.lookAt port f)

/-! ## PAUSE and PFC (R338 to R342) -/

def allQueues (b : Bool) : List Bool := List.replicate 8 b

/-- PAUSE_RECEIVED: holds all queues in PAUSE mode unless the watchdog has broken the pause; ignored otherwise (R338,
R341). -/
def execPauseReceived (port quanta : Nat) (s : State) : Res :=
  whileUp s (
    if (s.port port).link.isNone then s
    else s.modPort port fun p =>
      let p := { p with cnt := { p.cnt with pauseRx := p.cnt.pauseRx + 1 } }
      if p.cfg.flow ≠ 1 then { p with cnt := { p.cnt with pauseIgnored := p.cnt.pauseIgnored + 1 } }
      else if p.broken.any id then p
      else { p with held := allQueues (decide (quanta ≠ 0)) })

/-- PFC_RECEIVED: holds each named queue in PFC mode unless the watchdog has broken its pause; always counted (R338,
R341). -/
def execPfcReceived (port : Nat) (enable : BitVec 8) (quanta : List Nat) (s : State) : Res :=
  whileUp s (
    if (s.port port).link.isNone then s
    else s.modPort port fun p =>
      (List.range 8).foldl (fun (p : Port) q =>
        if !enable.getLsbD q then p
        else
          let p := { p with cnt := p.cnt.modPrio q fun c => { c with pfcRx := c.pfcRx + 1 } }
          if p.cfg.flow ≠ 2 || p.broken.getD q false then p
          else { p with held := p.held.set q (decide (quanta.getD q 0 ≠ 0)) }) p)

/-- PAUSE_TIME_EXPIRY: the time a received pause asked for is over (R338, R340). -/
def execPauseTimeExpiry (port prio : Nat) (s : State) : Res :=
  whileUp s (s.modPort port fun p =>
    { p with held := if p.cfg.flow = 1 then allQueues false else p.held.set prio false })

/-- One PAUSE frame, or one PFC frame that names a priority, leaves, which ends Low Power Idle (R338, R340, R345). -/
def State.sendPause (s : State) (port prio quanta : Nat) : State :=
  (s.modPort port fun p =>
    let p := p.rouse
    { p with cnt := if p.cfg.flow = 1 then { p.cnt with pauseTx := p.cnt.pauseTx + 1 }
                    else p.cnt.modPrio prio fun c => { c with pfcTx := c.pfcTx + 1 } }).emit (.pause port prio quanta)

/-- XOFF_THRESHOLD: the occupancy rises to XOFF and a timer of FFFFh leaves, or falls to XON and a timer of 0 leaves; a
pause that the drive's own watchdog stopped is generated again from then on (R339, R340, R342). -/
def execXoffThreshold (port prio : Nat) (s : State) : Res :=
  whileUp s (
    let p := s.port port
    if p.link.isNone || !p.cfg.paces prio then s
    else if p.ownBroken.getD prio false then
      s.modPort port fun x => { x with ownBroken := x.ownBroken.set prio false,
                                       occupancy := x.occupancy.set prio (if x.cfg.flow = 1 then 14680064 else 1048576) }
    else if p.xoff.getD prio false then
      (s.modPort port fun x =>
        { x with xoff := x.xoff.set prio false,
                 occupancy := x.occupancy.set prio (if x.cfg.flow = 1 then 14680064 else 1048576) }).sendPause port prio 0
    else
      (s.modPort port fun x =>
        { x with xoff := x.xoff.set prio true,
                 occupancy := x.occupancy.set prio (if x.cfg.flow = 1 then 15728640 else 1572864) }).sendPause port prio 0xFFFF)

/-- XOFF_REPEAT (R340). -/
def execXoffRepeat (port prio : Nat) (s : State) : Res :=
  whileUp s (s.whenB ((s.port port).link.isSome && (s.port port).cfg.paces prio && (s.port port).xoff.getD prio false) fun s =>
    s.sendPause port prio 0xFFFF)

/-- PAUSE_WATCHDOG: a queue that holds a frame and has been held too long; in PAUSE mode the port (R341). -/
def execPauseWatchdog (port prio : Nat) (s : State) : Res :=
  whileUp s (
    let p := s.port port
    let whole := p.cfg.flow == 1
    let waiting := if whole then p.txq.any (!·.isEmpty) else !(p.txq.getD prio []).isEmpty
    if !(p.held.getD prio false) || !waiting then s
    else
      (s.modPort port fun x =>
        { x with held := if whole then allQueues false else x.held.set prio false,
                 broken := if whole then allQueues true else x.broken.set prio true,
                 cnt := x.cnt.modPrio prio fun c => { c with wdBreaks := c.wdBreaks + 1 } }).event (unitOfPort port)
        "pause broken by the watchdog")

/-- PAUSE_WATCHDOG_RESTORE: pause is honoured again (R341). -/
def execPauseWatchdogRestore (port prio : Nat) (s : State) : Res :=
  whileUp s (
    let p := s.port port
    if !(p.broken.getD prio false) then s
    else (s.modPort port fun x =>
      { x with broken := if x.cfg.flow = 1 then allQueues false else x.broken.set prio false }).event (unitOfPort port)
      "pause honoured again")

/-- OWN_PAUSE_WATCHDOG: the drive stops its own pause of a priority (R342). -/
def execOwnPauseWatchdog (port prio : Nat) (s : State) : Res :=
  whileUp s (
    if !((s.port port).xoff.getD prio false) then s
    else (s.modPort port fun x =>
      { x with xoff := x.xoff.set prio false, ownBroken := x.ownBroken.set prio true,
               cnt := { x.cnt with wdOwnBreaks := x.cnt.wdOwnBreaks + 1 } }).event (unitOfPort port) "own pause stopped")

/-- CE_MARKED_PACKET: one congestion notification packet, at most one in 50 µs (R337). -/
def execCeMarkedPacket (conn : Nat) (s : State) : Res :=
  whileUp s (
    if (s.fe.conn? conn).any fun k => k.rdma && decide (k.cnpSent ≤ s.mono) then
      (s.modConn conn fun k => { k with cnpSent := s.mono + 50000 }).emit (.cnp conn)
    else s)

/-- CNP_RECEIVED: the queue pair's send rate halves, and recovers from now on (R337). -/
def execCnpReceived (conn : Nat) (s : State) : Res :=
  whileUp s (s.modConn conn fun k => if k.rdma then { k with rate := k.rate / 2, slowed := some (s.mono, k.rate / 2) } else k)

/-! ## Low Power Idle, transmission and timestamps (R336, R344 to R348) -/

/-- LPI_ENTRY: the conditions of R344 and R345. -/
def execLpiEntry (port : Nat) (s : State) : Res :=
  whileUp s (
    let p := s.port port
    let ok := p.link.isSome && p.eee && !s.wakeTooLong port && p.txq.all (·.isEmpty)
      && !(p.xoff.any id) && (decide (3 ≤ s.pw.psNow) || p.cfg.services.getLsbD 3)
    if ok && !p.lpi then s.modPort port fun x => { x with lpi := true } else s)

/-- The queues that can send, highest first: a frame, and not paused (R336). -/
def Port.ready (p : Port) : List Nat :=
  [7, 6, 5, 4, 3, 2, 1, 0].filter fun q => !(p.txq.getD q []).isEmpty && !(p.held.getD q false)

/-- The queue that sends next: a queue with a ceiling may have reached it, which the manual's rates leave free here, and
then yields to a lower one (R336, log 27). -/
def Port.nextQueue (p : Port) (free : Nat) : Option Nat :=
  match p.ready.find? fun q => p.cfg.ceiling.getD q 0 = 0 || (Config.freeWord (free + q)).getLsbD 0 with
  | some q => some q
  | none => p.ready.head?

/-- Whether a requesting frame finds room: 56 entries for probes, 64 in all (R347). -/
def Port.tsRoom (p : Port) (probe : Bool) : Bool :=
  decide (p.tsq.length < 64) && (!probe || decide (p.tsq.countP (·.probe) < 56))

/-- The Ethernet header: destination, source, and the tag where there is one, with the PCP of its queue (R333, R336). -/
def TxFrame.etherBytes (f : TxFrame) (port q : Nat) : Bytes :=
  macBytes f.dest ++ macBytes (Config.macAddress port)
    ++ (match f.vlan with
        | some v => beBytes 2 0x8100 ++ beBytes 2 (q * 8192 + v)
        | none => [])

/-- The bytes of a frame without its FCS: a TCP segment after its Ethertype, padded to the least length (R343); a probe's Ethertype 88B5h, its
big-endian index and bytes that count upward from 00h (R349). Of other frames the length is known (log 27). -/
def TxFrame.wire (f : TxFrame) (port q : Nat) : Bytes :=
  match f.seg with
  | some g => padTo (f.len - 4) (f.etherBytes port q ++ beBytes 2 (if g.head.v6 then 0x86DD else 0x0800) ++ g.bytes)
  | none =>
    if !f.probe then []
    else
      let head := f.etherBytes port q ++ beBytes 2 0x88B5 ++ beBytes 4 f.tag
      head ++ (List.range (f.len - 4 - head.length)).map (BitVec.ofNat 8 ·)

/-- FRAME_TRANSMITTED: the next frame leaves; one that requests a timestamp takes an entry, plus the egress latency, or loses it, which its send
completion tells, and of a PTP frame the servo (R336, R345 to R348). -/
def execFrameTransmitted (port : Nat) (s : State) : Res :=
  whileUp s (
    let p := s.port port
    match p.link, p.nextQueue s.free with
    | some _, some q =>
      let s := { s with free := s.free + 8 }
      match p.txq.getD q [] with
      | [] => s
      | f :: rest =>
        let lost := f.wantsTs && !p.tsRoom f.probe
        let s := s.whenB f.wantsTs fun s => s.applyCal (0x200 + port) 1
        let at_ := s.stamp (s.ck.inForce (0x200 + port))
        let s := s.whenB f.wantsTs State.spend
        let s := s.modPort port fun x =>
          let c := { x.cnt with
            txOctets := x.cnt.txOctets + f.len, txFrames := x.cnt.txFrames + 1, lpiWakes := x.cnt.lpiWakes + x.lpi.toNat,
            tsRequests := x.cnt.tsRequests + f.wantsTs.toNat, tsLost := x.cnt.tsLost + lost.toNat,
            tsLostPtp := x.cnt.tsLostPtp + (lost && !f.probe).toNat }
          { x with
            txq := x.txq.set q rest, lpi := false,
            cnt := c.modPrio q fun r => { r with txFrames := r.txFrames + 1, txOctets := r.txOctets + f.len },
            tsq := if f.wantsTs && !lost then x.tsq ++ [{ time := at_.1, frac := at_.2, tag := f.tag, queue := q, probe := f.probe }] else x.tsq,
            tsMissed := if f.wantsTs && !f.probe then lost else x.tsMissed,
            probe := x.probe.map fun b =>
              if f.probe then { b with sent := b.sent + 1, results := if lost then b.results ++ [(f.tag, none)] else b.results } else b }
        let s := s.emit (.frame port q f lost (f.wire port q))
        let s := s.whenB (lost && !f.probe) fun s => s.event 0xD "transmit timestamp of a PTP message lost"
        s.settleProbe port
    | _, _ => s)

/-- TIMESTAMP_READ: the time unit reads and frees the oldest entry; a probe's goes to its burst (R347, R349). -/
def execTimestampRead (port : Nat) (s : State) : Res :=
  whileUp s (
    match (s.port port).tsq with
    | [] => s
    | e :: rest =>
      (s.modPort port fun x =>
        { x with tsq := rest,
                 probe := x.probe.map fun b => if e.probe then { b with results := b.results ++ [(e.tag, some (e.time, e.frac))] } else b }).settleProbe port)

/-- A frame enters the transmit queue of its class; while the link is down it is discarded and counted (R330, R335). -/
def State.enqueue (s : State) (port cls : Nat) (f : TxFrame) : State :=
  s.modPort port fun p => p.enqueue cls f

/-! ## DIAG.LINK_PROBE and statistics (R349, R350) -/

def hLinkProbe : Handler := fun s m =>
  let p := m.payload
  let port := natAt p 0 1
  let ifx := natAt p 1 1
  let n := natAt p 2 2
  let len := natAt p 4 2
  if p.length ≠ 16 then saying s (refuse .length)
  else if 1 < port then saying s (badField 0)
  else if ifx ≠ 255 ∧ !((s.port port).ifs.any (·.index == ifx)) then saying s (badField 1)
  else if n = 0 ∨ 1024 < n then saying s (badField 2)
  else if len < 64 ∨ 9216 < len ∨ (s.port port).cfg.mtu + 22 < len then saying s (badField 4)
  else if !allZero (bytesAt p 12 4) then saying s (badField 12)
  else if (s.port port).link.isNone then saying s (refuse .stateRefused)
  else if (s.port port).probe.isSome then saying s (refuse .busy)
  else
    let s := s.modPort port fun x => { x with probe := some { count := n, len := len, req := m } }
    ((List.range n).foldl (fun s i => s.enqueue port 6
      { len := len, tag := i, wantsTs := true, probe := true, dest := BitVec.ofNat 48 (leNat (bytesAt p 6 6).reverse),
        vlan := (s.port port).tagOf ifx }) s, none)

/-- DIAG.LINK_PROBE (R349). -/
def execLinkProbe (m : MsgReq) (s : State) : Res := finish s (s.message 0x0A 0x10 hLinkProbe m)

/-- The 1,024-byte block of a port in the statistics bank (R350). -/
def PortCounters.block (c : PortCounters) : Bytes :=
  [c.rxOctets, c.rxFramesOk, c.rxFcsErr, c.rxOversize, c.rxUndersize, c.rxVlanUnknown, c.rxGroupUnwanted, c.rxBufferDrop,
   c.txOctets, c.txFrames, c.txLinkDownDrop, c.fecCorrected, c.fecUncorrected, c.linkDownEvents, c.lpiTxUs, c.lpiRxUs,
   c.lpiWakes, c.tsRequests, c.tsLost, c.tsLostPtp, c.pauseRx, c.pauseTx, c.pauseIgnored, c.tsoSegments, c.wdOwnBreaks,
   c.rxLosslessDrop].flatMap (leBytes 8 ·) ++ List.replicate 48 0
  ++ (c.prio.flatMap fun q => [q.txFrames, q.txOctets, q.rxFrames, q.rxOctets, q.pfcRx, q.pfcTx, q.pausedUs, q.wdBreaks].flatMap
       (leBytes 8 ·)) ++ List.replicate 256 0

/-- Growth of the counters whose events no command carries: corrected codewords, uncorrected ones that stay within the limit, and receiver LPI
time (R329, R345, R350, log 27). -/
def PortCounters.grow (c : PortCounters) (i : Nat) : PortCounters :=
  { c with fecCorrected := c.fecCorrected + (Config.freeWord i).toNat, lpiRxUs := c.lpiRxUs + (Config.freeWord (i + 1)).toNat,
           fecUncorrected := c.fecUncorrected + (Config.freeWord (i + 2)).toNat }

/-- The snapshot bank taken now (R350). -/
def State.takeSnapshot (s : State) : State :=
  let s := { (s.modPt fun p => { p with a := { p.a with cnt := p.a.cnt.grow s.free },
                                        b := { p.b with cnt := p.b.cnt.grow (s.free + 3) } }) with free := s.free + 6 }
  let link (p : Port) : Bytes := leBytes 1 ((p.link.map PhyType.code).getD 0)
  s.modPt fun p =>
    { p with snapGen := p.snapGen + 1,
             snap := leBytes 8 (p.snapGen + 1) ++ leBytes 8 s.now ++ [s.tq] ++ link p.a ++ link p.b ++ List.replicate 13 0
               ++ p.a.cnt.block ++ p.b.cnt.block }

def hPortSnapshot : Handler := fun s m =>
  if m.payload ≠ [] then saying s (refuse .length)
  else
    let s := s.takeSnapshot
    doing s (answer s.pt.snap)
def hPortStats : Handler := fun s m => if m.payload ≠ [] then saying s (refuse .length) else saying s (answer s.pt.snap)

/-- HEALTH.PORT_SNAPSHOT (R350). -/
def execPortSnapshot (m : MsgReq) (s : State) : Res := finish s (s.message 0x0E 0x02 hPortSnapshot m)
/-- HEALTH.PORT_STATS (R350). -/
def execPortStats (m : MsgReq) (s : State) : Res := finish s (s.message 0x0E 0x03 hPortStats m)

/-! ## Port settings and interfaces (R333, R351) -/

/-- The record of a port (R351). -/
def PortCfg.bytes (c : PortCfg) (port : Nat) : Bytes :=
  leBytes 1 port ++ [c.types] ++ leBytes 1 c.flow ++ [c.lossless, c.services, 0] ++ leBytes 2 c.mtu ++ leBytes 4 c.watchdogMs
    ++ leBytes 2 c.lpiMaxTw ++ [0, 0] ++ c.classPcp.flatMap (leBytes 1 ·) ++ c.classDscp.flatMap (leBytes 1 ·)
    ++ c.ceiling.flatMap (leBytes 2 ·) ++ List.replicate 16 0

def portCfgOf (p : Bytes) : PortCfg :=
  { types := BitVec.ofNat 8 (natAt p 1 1), flow := natAt p 2 1, lossless := BitVec.ofNat 8 (natAt p 3 1),
    services := BitVec.ofNat 8 (natAt p 4 1), mtu := natAt p 6 2, watchdogMs := natAt p 8 4, lpiMaxTw := natAt p 12 2,
    classPcp := (List.range 8).map fun i => natAt p (16 + i) 1, classDscp := (List.range 8).map fun i => natAt p (24 + i) 1,
    ceiling := (List.range 8).map fun i => natAt p (32 + 2 * i) 2 }

/-- The number of bits set in a byte. -/
def bitCount (b : BitVec 8) : Nat := ((List.range 8).filter fun i => b.getLsbD i).length

/-- The first offset of a port record that fails a check (R351). -/
def portCfgBad (p : Bytes) : Option Nat :=
  let c := portCfgOf p
  if 1 < natAt p 0 1 then some 0
  else if 8 ≤ c.types.toNat then some 1
  else if 2 < c.flow then some 2
  else if 2 < bitCount c.lossless ∨ (c.lossless ≠ 0 ∧ c.flow ≠ 2) then some 3
  else if 16 ≤ c.services.toNat then some 4
  else if natAt p 5 1 ≠ 0 then some 5
  else if c.mtu < 1500 ∨ 9194 < c.mtu then some 6
  else if c.watchdogMs < 1 ∨ 10000 < c.watchdogMs then some 8
  else if c.lpiMaxTw < 5 ∨ 1000 < c.lpiMaxTw then some 12
  else if natAt p 14 2 ≠ 0 then some 14
  else if (c.classPcp.take 7).any (7 < ·) || natAt p 23 1 ≠ 0 then some 16
  else if (c.classDscp.take 7).any (63 < ·) || natAt p 31 1 ≠ 0 then some 24
  else if c.ceiling.any (2000 < ·) then some 32
  else if !allZero (bytesAt p 48 16) then some 48
  else none

/-- A port record is applied: some changes restart negotiation, a change of flow control ends what the old mode held, a priority that is no
longer paced has no XOFF, and Low Power Idle follows its new limit (R338, R344, R351, log 27). -/
def State.applyPort (s : State) (port : Nat) (c : PortCfg) : State :=
  let o := (s.port port).cfg
  let s := s.lpiCheck <| s.modPort port fun p =>
    let p := { p with cfg := c, xoff := p.xoff.zipIdx.map fun x => x.1 && c.paces x.2, ownBroken := p.ownBroken.zipIdx.map fun x => x.1 && c.paces x.2 }
    if o.flow = c.flow then p
    else { p with held := allQueues false, broken := allQueues false, xoff := allQueues false, ownBroken := allQueues false }
  if o.types ≠ c.types ∨ (o.flow ≠ c.flow ∧ (o.flow = 1 ∨ c.flow = 1)) ∨ o.services.getLsbD 3 ≠ c.services.getLsbD 3
  then s.dropLink port else s

def hPortSet : Handler := fun s m =>
  if m.payload.length ≠ 64 then saying s (refuse .length)
  else
    match portCfgBad m.payload with
    | some off => saying s (badField off)
    | none => doing (s.applyPort (natAt m.payload 0 1) (portCfgOf m.payload)) {}

def hPortGet : Handler := fun s m =>
  if m.payload.length ≠ 1 then saying s (refuse .length)
  else if 1 < natAt m.payload 0 1 then saying s (badField 0)
  else saying s (answer ((s.port (natAt m.payload 0 1)).cfg.bytes (natAt m.payload 0 1)))

/-- An interface in the payload form of CONFIG.IF_SET (log 27): port, index, VLAN ID, IPv4 address (0 for none) and prefix
length, the number of IPv6 addresses, 2 reserved bytes, and the IPv6 addresses. -/
def IpIf.bytes (i : IpIf) (port : Nat) : Bytes :=
  leBytes 1 port ++ leBytes 1 i.index ++ leBytes 2 i.vlan ++ padTo 4 ((i.ipv4.map (·.1)).getD []) ++ leBytes 1 ((i.ipv4.map (·.2)).getD 0)
    ++ leBytes 1 i.ipv6.length ++ [0, 0] ++ i.ipv6.flatten

def ipIfOf (p : Bytes) : IpIf :=
  { index := natAt p 1 1, vlan := natAt p 2 2,
    ipv4 := if allZero (bytesAt p 4 4) then none else some (bytesAt p 4 4, natAt p 8 1),
    ipv6 := (List.range (natAt p 9 1)).map fun i => bytesAt p (12 + 16 * i) 16 }

/-- Whether PTP can use an interface: it is defined, and for a UDP transport has an address of that IP version (R540). The
link-local address that every interface has counts (R333, log 28). -/
def State.ptpUsable (s : State) (port transport iface : Nat) : Bool :=
  match (s.port port).ifs.find? (·.index == iface) with
  | none => false
  | some i => transport ≠ 0 || i.ipv4.isSome

/-- An interface is defined in the place of any of its index. Connections that use a
removed address close, each a controller reset (R107, R333). -/
def State.setInterface (s : State) (port : Nat) (i : IpIf) : State :=
  let before := (s.port port).ifs.flatMap fun (i : IpIf) => i.addrs port
  let s := (s.modPort port fun p => { p with ifs := p.ifs.filter (·.index ≠ i.index) ++ [i] }).refreshGroups
  let gone := before.filter fun a => a ∉ (s.port port).ifs.flatMap fun (i : IpIf) => i.addrs port
  let s := ((s.fe.conns.filter fun k => k.port == port && decide (k.addr ∈ gone)).map (·.id)).foldl State.closeIf s
  let c := s.tm.ptpPort port
  if c.enabled && c.usable && !s.ptpUsable port c.transport c.iface then s.ptpUnusable port else s

def hIfSet : Handler := fun s m =>
  let p := m.payload
  let port := natAt p 0 1
  let i := ipIfOf p
  if p.length < 12 ∨ p.length ≠ 12 + 16 * natAt p 9 1 then saying s (refuse .length)
  else if 1 < port then saying s (badField 0)
  else if 15 < i.index then saying s (badField 1)
  else if 4094 < i.vlan ∨ (s.port port).ifs.any (fun x => x.index ≠ i.index && x.vlan == i.vlan) then saying s (badField 2)
  else if 32 < natAt p 8 1 then saying s (badField 8)
  else if 4 < natAt p 9 1 then saying s (badField 9)
  else if natAt p 10 2 ≠ 0 then saying s (badField 10)
  else doing (s.setInterface port i) {}

/-! ## PTP on the ports (R358, R540) -/

/-- A Delay_Req: the Ethernet header with its tag, the IP and UDP headers of a UDP transport, the message of 44 bytes and the FCS, to the group
of the transport (R333, R358). -/
def State.delayReqFrame (s : State) (port : Nat) : TxFrame :=
  let c := s.tm.ptpPort port
  let tag := (s.port port).tagOf c.iface
  { len := 62 + 4 * tag.isSome.toNat + (match c.transport with | 0 => 28 | 1 => 48 | _ => 0), tag := 0, wantsTs := true,
    dest := ptpGroup c.transport, vlan := tag }

/-- DELAY_REQ_INTERVAL: a Delay_Req leaves on the port of the chosen master and requests a timestamp (R346, R358). -/
def execDelayReqInterval (s : State) : Res :=
  finish s (
    match s.tm.master with
    | some (port, _) =>
      if !s.alive || !s.tm.servoOn then s
      else (s.enqueue port 0 (s.delayReqFrame port)).emit (.delayReq port)
    | none => s)

/-- The first offset of a time configuration record that fails a check (R540). -/
def State.timeCfgBad (s : State) (p : Bytes) : Option Nat :=
  let port (i : Nat) : Option Nat :=
    let b := natAt p (2 * i) 1
    if 8 ≤ b ∨ 6 ≤ b then some (2 * i)
    else if 15 < natAt p (2 * i + 1) 1 then some (2 * i + 1)
    else if b % 2 = 1 ∧ !s.ptpUsable i (b / 2) (natAt p (2 * i + 1) 1) then some (2 * i + 1)
    else none
  match port 0, port 1 with
  | some o, _ => some o
  | none, some o => some o
  | none, none =>
    if 127 < natAt p 4 1 then some 4
    else if 1 < natAt p 5 1 then some 5
    else if 1 < natAt p 6 1 then some 6
    else if natAt p 7 1 ≠ 0 then some 7
    else if 10000 < natAt p 8 4 then some 8
    else if natAt p 12 4 ≠ 0 then some 12
    else none

/-- TIME.CONFIG applies at once: masters of a port, interface, domain or transport no longer in use are forgotten, a disabled PPS is
lost, and with every reference disabled Holdover ends; the servo runs from then on where B10 was left out because nothing was enabled (R357,
R359, R369, R422, R540). -/
def hTimeConfig : Handler := fun s m =>
  let p := m.payload
  if p.length ≠ 16 then saying s (refuse .length)
  else
    match s.timeCfgBad p with
    | some off => saying s (badField off)
    | none =>
      let port (i : Nat) : PtpPort := { enabled := natAt p (2 * i) 1 % 2 == 1, transport := natAt p (2 * i) 1 / 2, iface := natAt p (2 * i + 1) 1 }
      let a := port 0
      let b := port 1
      let s := (s.modTm fun t =>
        { t with
          ptpA := a, ptpB := b, domain := natAt p 4 1, ppsOn := natAt p 5 1 == 1, prefer := natAt p 6 1, asym := natAt p 8 4,
          masters := t.masters.filter fun f =>
            f.an.domain == natAt p 4 1 &&
            (if f.port = 0 then a.enabled && a.transport == f.an.transport && a.iface == f.an.iface
             else b.enabled && b.transport == f.an.transport && b.iface == f.an.iface) }).refreshGroups
      let s := s.remaster.rebound
      let s := if s.tm.ppsOn then s.selectRef
               else ((s.modTm fun t => { t with lastEdge := none }).losePps)
      let none_ := !a.enabled && !b.enabled && !s.tm.ppsOn
      let s := s.whenB (!none_ && s.pw.phase == .serving && !(10 ∈ s.bt.deferred)) fun s => s.modTm fun t => { t with servoOn := true }
      doing (if none_ && s.tm.st == .holdover then (s.modTm fun t => { t with slew := none }).timeState .untraced else s) {}

/-- TIME.CONFIG (R369, R540). -/
def execTimeConfig (m : MsgReq) (s : State) : Res := finish s (s.message 0x0C 0x02 hTimeConfig m)

/-- CONFIG.PORT_SET (R351). -/
def execPortSet (m : MsgReq) (s : State) : Res := finish s (s.message 0x01 0x0C hPortSet m)
/-- CONFIG.PORT_GET (R351). -/
def execPortGet (m : MsgReq) (s : State) : Res := finish s (s.message 0x01 0x0D hPortGet m)
/-- CONFIG.IF_SET (R333). -/
def execIfSet (m : MsgReq) (s : State) : Res := finish s (s.message 0x01 0x0B hIfSet m)

end Sys2Proof.Machine
end

