-- ==== Sys2Proof/Machine/Records.lean ====
section
/-! DEFINITION. The event log and the black box (chapter 19): reading, holding and clearing the log, suppression, the
black box slots, and the boot-flash copy. -/

namespace Sys2Proof.Machine

/-! ## Event records (R489 to R492) -/

/-- The 32 bytes of an event record (R489). -/
def EvRec.bytes (r : EvRec) : Bytes :=
  leBytes 2 r.code ++ leBytes 2 (r.unit % 4096 + 4096 * r.sev) ++ leBytes 4 r.seq ++ leBytes 8 r.time ++ leBytes 4 r.p0
    ++ leBytes 4 r.p1 ++ leBytes 4 r.p2 ++ [r.tq, 0, 0, 0xA5]

/-- Sequence numbers compare as serial numbers modulo 2^32 (R492). -/
def seqLater (a b : Nat) : Bool :=
  let d := (BitVec.ofNat 32 a - BitVec.ofNat 32 b).toNat
  decide (1 ≤ d) && decide (d < 2147483648)

/-- The newest record written, and the oldest of the circulating area; 0 where there is none (R496). -/
def newestSeq (kept circ : List EvRec) : Nat :=
  match circ.getLast? with
  | some r => r.seq
  | none => (kept.getLast?.map (·.seq)).getD 0
def oldestSeq (circ : List EvRec) : Nat := (circ.head?.map (·.seq)).getD 0

/-- The two areas as a reader sees them: Wax, or the boot-flash copy where Wax is unusable (R431, R508). -/
def State.logAreas (s : State) : Bool × List EvRec × List EvRec :=
  if s.romOnly then
    match s.bb.flash.getLast? with
    | some c => (true, c.kept, c.circ)
    | none => (true, [], [])
  else (false, s.ev.kept, s.ev.circ)

/-! ## EVLOG messages (R496 to R501) -/

/-- The status record (R501). -/
def State.evStatus (s : State) : Bytes :=
  let (_, kept, circ) := s.logAreas
  let e := s.ev
  leBytes 4 (newestSeq kept circ) ++ leBytes 4 (oldestSeq circ) ++ leBytes 2 kept.length ++ leBytes 1 e.hold.isSome.toNat ++ [0]
    ++ leBytes 2 e.buffer.length ++ leBytes 2 ((e.hold.map (·.1)).getD 0) ++ leBytes 8 e.overflow ++ leBytes 8 e.suppressed
    ++ leBytes 8 e.clears ++ leBytes 8 e.lastClearTime ++ leBytes 4 e.lastClearSeq.toNat ++ List.replicate 12 0

def hEvStatus : Handler := fun s m => if m.payload ≠ [] then saying s (refuse .length) else saying s (answer s.evStatus)

/-- The source of a message, coded as ES_HOLDER (R501, R502). -/
def holderOf (m : MsgReq) : Nat := srcCode m.mbox m.src

/-- EVLOG.READ; a read of the holder moves the idle limit of its hold (R496 to R498). -/
def hEvRead : Handler := fun s m =>
  let p := m.payload
  let area := natAt p 0 1
  let first := natAt p 4 4
  let count := natAt p 8 2
  if p.length ≠ 16 then saying s (refuse .length)
  else if 1 < area then saying s (badField 0)
  else if natAt p 1 3 ≠ 0 then saying s (badField 1)
  else if area = 0 ∧ 4095 < first then saying s (badField 4)
  else if count = 0 ∨ 127 < count then saying s (badField 8)
  else if !allZero (bytesAt p 10 6) then saying s (badField 10)
  else
    let (flash, kept, circ) := s.logAreas
    let newest := newestSeq kept circ
    let oldest := oldestSeq circ
    let skipped := area == 1 && !circ.isEmpty && seqLater oldest first
    let rs := if area = 0 then kept.drop first
              else if seqLater first newest then []
              else circ.filter fun r => !seqLater first r.seq
    let rs := (if skipped then circ else rs).take count
    let t := s.modEv fun e =>
      { e with hold := e.hold.map fun (h, b, r) => (h, b, if h = holderOf m then s.mono else r) }
    doing t (answer (leBytes 4 newest ++ leBytes 4 oldest ++ leBytes 2 rs.length
      ++ leBytes 2 (skipped.toNat + 2 * s.ev.hold.isSome.toNat + 32768 * flash.toNat) ++ leBytes 2 kept.length
      ++ List.replicate 18 0 ++ rs.flatMap EvRec.bytes))

/-- EVLOG.HOLD: one hold at a time; its own record goes to the hold buffer (R498). -/
def hEvHold : Handler := fun s m =>
  if m.payload ≠ [] then saying s (refuse .length)
  else
    match s.ev.hold with
    | some (h, _, _) => if h = holderOf m then saying s (answer s.evStatus) else saying s (refuse .busy)
    | none =>
      let s := (s.modEv fun e => { e with hold := some (holderOf m, s.mono, s.mono) }).unitEvent 0x1202 1 (holderOf m) 0 0
      doing s (answer s.evStatus)

def hEvRelease : Handler := fun s m =>
  if m.payload ≠ [] then saying s (refuse .length)
  else
    match s.ev.hold with
    | some (h, _, _) =>
      if h ≠ holderOf m then saying s (badField 0xFFFF)
      else
        let s := s.endHold 1
        doing s (answer s.evStatus)
    | none => saying s (badField 0xFFFF)

/-- EVLOG.CLEAR empties the circulating area and nothing else (R500). -/
def State.clearLog (s : State) (source : Nat) : State :=
  let n := s.ev.circ.length
  let seq := s.ev.nextSeq
  let s := s.blackBox 4 source [source, n, seq.toNat]
  let s := (s.modEv fun e => { e with circ := [] }).unitEvent 0x1201 1 source n 0
  s.modEv fun e => { e with clears := e.clears + 1, lastClearTime := s.now, lastClearSeq := seq }

def hEvClear : Handler := fun s m =>
  if m.payload ≠ [] then saying s (refuse .length)
  else if s.ev.hold.isSome then saying s (refuse .busy)
  else
    let s := s.clearLog (holderOf m)
    doing s (answer s.evStatus)

/-- Severity of the record unit's own codes (R491). -/
def unitSev : Nat → Option Nat
  | 0x1201 | 0x1202 | 0x1203 => some 1
  | 0x1204 => some 2
  | 0x1205 => some 3
  | _ => none

/-- The 64 bytes of a code's catalogue entry, or none for a code that does not exist: code, unit and severity, and the
texts, which the manual does not give (R491, log 10). -/
def catalogueEntry (code : Nat) : Option Bytes :=
  match unitSev code with
  | some sev => some (leBytes 2 code ++ leBytes 2 (0x12 + 4096 * sev) ++ padTo 60 (Config.catalogueText code))
  | none =>
    if (Config.catalogueText code).isEmpty then none
    else some (leBytes 2 code ++ padTo 62 (Config.catalogueText code))

def hEvCatalog : Handler := fun s m =>
  let p := m.payload
  if p.length ≠ 4 then saying s (refuse .length)
  else if natAt p 2 2 = 0 ∨ 60 < natAt p 2 2 then saying s (badField 2)
  else saying s (answer ((List.range (natAt p 2 2)).flatMap fun i => (catalogueEntry (natAt p 0 2 + i)).getD []))

/-- EVLOG.STATUS (R501). -/
def execEvlogStatus (m : MsgReq) (s : State) : Res := finish s (s.message 0x04 0x01 hEvStatus m)
/-- EVLOG.READ (R496). -/
def execEvlogRead (m : MsgReq) (s : State) : Res := finish s (s.message 0x04 0x02 hEvRead m)
/-- EVLOG.HOLD (R498). -/
def execEvlogHold (m : MsgReq) (s : State) : Res := finish s (s.message 0x04 0x03 hEvHold m)
/-- EVLOG.RELEASE (R498). -/
def execEvlogRelease (m : MsgReq) (s : State) : Res := finish s (s.message 0x04 0x04 hEvRelease m)
/-- EVLOG.CLEAR (R500). -/
def execEvlogClear (m : MsgReq) (s : State) : Res := finish s (s.message 0x04 0x05 hEvClear m)
/-- EVLOG.CATALOG (R491). -/
def execEvlogCatalog (m : MsgReq) (s : State) : Res := finish s (s.message 0x04 0x06 hEvCatalog m)

/-- HOLD_LIMIT_EXPIRY: the limit of 60 s, or of 10 s without a read of the holder (R498). -/
def execHoldLimitExpiry (idle : Bool) (s : State) : Res := whileUp s (s.endHold (if idle then 3 else 2))

/-- SUPPRESSION_SECOND: the end of a second in which records were suppressed (R494). -/
def execSuppressionSecond (s : State) : Res :=
  whileUp s (
    let n := s.ev.supp
    let first := s.ev.suppFirst.toNat
    let s := s.modEv fun e => { e with supp := 0, second := 0 }
    if n = 0 then s else s.unitEvent 0x1204 2 n first 0)

/-! ## Black box slots (R503 to R507) -/

/-- The freeze latch, 32 bytes (R479). -/
def latchBytes (flags lifecycle debug tq ps time start sr : Nat) : Bytes :=
  leBytes 1 flags ++ leBytes 1 lifecycle ++ leBytes 1 debug ++ leBytes 1 tq ++ leBytes 1 ps ++ leBytes 3 0 ++ leBytes 8 time
    ++ leBytes 4 start ++ leBytes 1 sr ++ leBytes 11 0

/-- BB_BODY (R504): the fields of kinds 01h, 03h and 0Ch at the widths the manual gives; of the other kinds each number in 8 bytes
(log 29). -/
def BbRec.body96 (r : BbRec) : Bytes :=
  padTo 96 (match r.kind, r.body with
    | 1, [code, unit, sev, seq, time, p0, p1, p2, tq, pc, cfs, ps, temp, power, volts, hl, tw] =>
      (⟨code, unit, sev, seq, time, p0, p1, p2, BitVec.ofNat 8 tq⟩ : EvRec).bytes ++ leBytes 16 pc
        ++ leBytes 4 (2 * cfs) ++ leBytes 2 ps ++ leBytes 2 temp ++ leBytes 2 power ++ leBytes 6 volts ++ leBytes 4 hl ++ leBytes 4 tw
    | 12, [start, image, outcome, fails, cause, time, st, method, detail, began, ended, fault] =>
      ({ start := start, image := image, outcome := outcome, fails := fails, cause := cause, time := time } : StartHead).bytes
        ++ ({ state := st, method := method, detail := detail, began := began, ended := ended, fault := fault } : StepSlot).bytes
    | 3, [flags, life, debug, tq, ps, time, start, sr] => latchBytes flags life debug tq ps time start sr
    | _, l => l.flatMap (leBytes 8 ·))

/-- The 128 bytes of a black box record (R504). -/
def BbRec.bytes (r : BbRec) : Bytes :=
  let b := leBytes 1 r.kind ++ [r.tq] ++ leBytes 2 r.source ++ leBytes 4 r.start ++ leBytes 8 r.seq ++ leBytes 8 r.time ++ r.body96
  b ++ leBytes 4 (crc32c b).toNat ++ [0, 0, 0, 0xA5]

/-- Lifetime counters in the order of R506. -/
def State.bbCounters (s : State) : List Nat :=
  let b := s.bb
  [s.pw.powerOnS / 3600, s.bt.starts, b.failedStarts, b.pilots, b.powerFails, b.orderly, b.fatals, b.freezes, s.ev.clears,
   b.faults, b.activations, b.fallbacks, s.tw.failovers, b.permRecords, b.debugOpens, s.md.hostBytes, s.md.nandBytes]

/-- The black box as a reader takes it: the copy in Wax now, in the form of a boot-flash copy (R508). -/
def State.bbNow (s : State) : FlashCopy :=
  { gen := s.bb.copyGen, time := s.bb.copyTime, fault := s.bb.fault, starts := s.bb.starts, perm := s.bb.perm, tail := s.bb.tail,
    counters := s.bbCounters, faultAdded := s.bb.faultAdded, startAdded := s.bb.startAdded, permRecords := s.bb.permRecords,
    kept := s.ev.kept, circ := keepLast 4096 s.ev.circ }

/-- Slot `i` of a ring of `n` places whose newest entry, the `added`-th, stands last in the list (R503). -/
def ringAt {α : Type} (l : List α) (added n i : Nat) : Option α :=
  if added ≤ n then l[i]? else l[(i + n - added % n) % n]?

/-- Slot 0: the header; its fields follow one another without gaps (R507, log 29). -/
def FlashCopy.header (c : FlashCopy) : Bytes :=
  let b := padTo 124 (leBytes 4 0x4242584F ++ [1] ++ leBytes 2 (32 + c.faultAdded % 1024) ++ leBytes 2 (c.startAdded % 4096)
    ++ leBytes 4 (if c.permRecords < 30176 then 1568 + c.permRecords else 31744 + (c.permRecords - 30176) % 1024)
    ++ leBytes 8 c.gen ++ leBytes 8 c.time)
  b ++ leBytes 4 (crc32c b).toNat

/-- The 128 bytes of a slot; a slot not yet written reads 00h (R503). -/
def FlashCopy.slot (c : FlashCopy) (n : Nat) : Bytes :=
  let rec' (r : Option BbRec) : Bytes := (r.map BbRec.bytes).getD (List.replicate 128 0)
  if n = 0 then c.header
  else if n < 32 then padTo 128 (((c.counters.drop (16 * (n - 1))).take 16).flatMap (leBytes 8 ·))
  else if n < 1056 then rec' (ringAt c.fault c.faultAdded 1024 (n - 32))
  else if n < 1568 then
    (List.range 8).flatMap fun i =>
      ((ringAt c.starts c.startAdded 4096 (8 * (n - 1056) + i)).map StartHead.bytes).getD (List.replicate 16 0)
  else if n < 31744 then rec' c.perm[n - 1568]?
  else rec' (ringAt c.tail (c.permRecords - 30176) 1024 (n - 31744))

/-- BBOX.STATUS: the header and the counters, slots 0 to 31 (R509). -/
def hBboxStatus : Handler := fun s m =>
  if m.payload ≠ [] then saying s (refuse .length)
  else
    let c := if s.logAreas.1 then s.bb.flash.getLast?.getD s.bbNow else s.bbNow
    saying s (answer ((List.range 32).flatMap c.slot))

/-- BBOX.READ: from Wax, or from the newest valid boot-flash copy; with Wax unusable only the latter (R508, R509). -/
def hBboxRead : Handler := fun s m =>
  let p := m.payload
  let first := natAt p 4 2
  let n := natAt p 6 2
  if p.length ≠ 8 then saying s (refuse .length)
  else if 1 < natAt p 0 1 then saying s (badField 0)
  else if natAt p 1 3 ≠ 0 then saying s (badField 1)
  else if n = 0 ∨ 32 < n ∨ 32768 < first + n then saying s (badField 6)
  else
    let read (c : FlashCopy) : State × Option Answer := saying s (answer ((List.range n).flatMap fun i => c.slot (first + i)))
    if natAt p 0 1 = 1 ∨ s.logAreas.1 then
      match s.bb.flash.getLast? with
      | some c => read c
      | none => saying s (answer (List.replicate (128 * n) 0))
    else read s.bbNow

/-- BBOX.STATUS (R509). -/
def execBboxStatus (m : MsgReq) (s : State) : Res := finish s (s.message 0x05 0x01 hBboxStatus m)
/-- BBOX.READ (R509). -/
def execBboxRead (m : MsgReq) (s : State) : Res := finish s (s.message 0x05 0x02 hBboxRead m)

/-- The oldest boot-flash slot takes the black box and the log of this moment (R508). -/
def State.refreshFlash (s : State) : State :=
  s.modBb fun b =>
    let c := { s.bbNow with gen := b.copyGen + 1, time := s.now }
    { b with flash := keepLast 4 (b.flash ++ [c]), copyGen := b.copyGen + 1, copyTime := s.now }

/-- BOOT_FLASH_REFRESH: every hour of power-on time (R508). -/
def execBootFlashRefresh (s : State) : Res := finish s (if s.alive then s.refreshFlash else s)

end Sys2Proof.Machine
end

