-- ==== Sys2Proof/Machine/Calib.lean ====
section
/-! DEFINITION. Clocks and calibration (chapters 18 and 20): the clock monitor, the gating of clock domains, channel
recalibration and scrub, and the CALIB messages. -/

namespace Sys2Proof.Machine

/-! ## Clocks (R469 to R471) -/

/-- CLOCK_MONITOR_FAULT: a lost root lock or a bad TCXO is fatal; a PHY PLL that loses lock drops its link, and the drive
relocks it (R469). -/
def execClockMonitorFault (f : ClockFault) (s : State) : Res :=
  finish s (
    if !s.alive then s
    else
      match f with
      | .rootLock => (s.modCk fun k => { k with rootLock := false }).fatal 0x469
      | .tcxo => s.fatal 0x469
      | .phyPll port =>
        if 2 ≤ port then s
        else ((s.dropLink port).modPort port fun p => { p with pllLocked := false }).event (unitOfPort port) "PHY PLL lost lock")

/-- Domains gated in PS3, and those gated in PS4 besides (R470). -/
def ps3Gated (d : Nat) : Bool :=
  decide (d < 4) || (decide (5 ≤ d) && decide (d ≤ 8)) || d == 10 || d == 12 || (decide (14 ≤ d) && decide (d ≤ 16)) || d == 20 || d == 21
    || (decide (22 ≤ d) && decide (d ≤ 25))
def ps4Gated (d : Nat) : Bool := ps3Gated d || d == 9 || d == 26 || d == 27

/-- The port whose MAC or PCS a domain clocks (R470). -/
def domainPort (d : Nat) : Option Nat :=
  if d = 17 ∨ d = 38 then some 0 else if d = 18 ∨ d = 39 then some 1 else none

/-- Whether a domain's clock is stopped: by a disabled port, by PS4 for the port that is not kept, by the power state, or
idle; a PCS is never gated for idleness (R470, R471). -/
def State.domainGated (s : State) (d : Nat) : Bool :=
  match domainPort d with
  | some p => (s.port p).cfg.types == 0 || (s.port p).gatedPs4 || (decide (d < 28) && decide (s.pw.psNow < 3) && s.ck.gated.getLsbD d)
  | none =>
    if s.pw.psNow = 3 then ps3Gated d else if s.pw.psNow = 4 then ps4Gated d else s.ck.gated.getLsbD d

/-- DOMAIN_IDLE_GATE: in PS0 to PS2 an idle domain is gated and restarts on the next request (R471). -/
def execDomainIdleGate (domain : Nat) (gate : Bool) (s : State) : Res :=
  finish s (
    if !s.alive || decide (28 ≤ domain) || decide (2 < s.pw.psNow) then s
    else
      let bit := (1 : BitVec 40) <<< domain
      s.modCk fun k => { k with gated := if gate then k.gated ||| bit else k.gated &&& ~~~ bit })

/-- CHANNEL_RECALIBRATION: the timing of one HBM3 or Wax channel; accesses to it only wait (R520). -/
def execChannelRecalibration (channel : Nat) (s : State) : Res :=
  finish s (if !s.alive || decide (64 ≤ channel) then s else s.modCk fun k => { k with recals := k.recals + 1 })

/-- Bit 0 of a free value says whether a block outside the reserve is retired, the bits above it which (R152, log 9). -/
def Wax.retireBlock (w : Wax) (free : Nat) : Wax :=
  let b := free / 2 % (WaxRegion.reserve.base / 4096)
  if free % 2 = 1 && decide (w.remap.length < WaxRegion.reserve.size / 4096) && !(w.remap.any (·.1 == b))
  then { w with remap := w.remap ++ [(b, w.remap.length)] } else w

/-- SCRUB: every line of HBM3 and every burst of Wax is read, and what SEC-DED corrects is corrected and counted; how many errors a
sweep finds is a free value (log 9), and an uncorrectable line is an event of its own (R511, R132, R166, R207). Whether a 4 KiB block of
Wax has had repeated corrected errors is one too: it is retired, and the next block of the reserve replaces it (R152). -/
def execScrub (s : State) : Res :=
  finish s (
    if !s.alive then s
    else ((((s.countErrs 9 (Config.freeWord s.free).toNat).countErrs 11 (Config.freeWord (s.free + 1)).toNat).modCk fun k =>
      { k with scrubs := k.scrubs + 1 }).modWx fun w => w.retireBlock (Config.freeWord (s.free + 2)).toNat).spend.spend.spend)

/-! ## CALIB messages (R486 to R488) -/

/-- The reply of CALIB.GET for one item: code, category, flags, F, U and the effective value, 16 bytes. -/
def calReply (k : Clocks) (i : CalItem) : Bytes :=
  leBytes 2 i.item ++ leBytes 1 i.cat ++ leBytes 1 ((calAdjustable i.cat).toNat + 2 * i.fuse.toNat) ++ intBytes 4 i.value
    ++ intBytes 4 (k.calDelta i) ++ intBytes 4 (k.effective i)

/-- CALIB.GET: the items from a code on, in ascending order (R488). DESIGN CHOICE (log 32): a first item that the factory record does not hold is
an invalid field. -/
def hCalibGet : Handler := fun s m =>
  let p := m.payload
  if p.length ≠ 4 then saying s (refuse .length)
  else
    let first := natAt p 0 2
    let n := natAt p 2 2
    if n = 0 ∨ 256 < n then saying s (badField 2)
    else if !(s.ck.factory.any (·.item == first)) then saying s (badField 0)
    else saying s (answerLong (((s.ck.factory.filter fun i => first ≤ i.item).take n).flatMap (calReply s.ck)))

/-- The reference an item's value belongs to is the one in use (R486). -/
def State.calTouches (s : State) (item : Nat) : Bool :=
  (item == 0x204 && s.tm.ref == 1)
    || (decide (0x200 ≤ item) && decide (item ≤ 0x203) && s.tm.ref == 0 && s.tm.master.any fun (x : Nat × Nat) => x.1 == item % 2)

/-- The user record is written, with its time and time quality (R484). -/
def State.calWrite (s : State) (user : List CalUser) : State :=
  s.modCk fun k => { k with cal := k.cal.set { entries := user, time := s.now, tq := s.tq } }

/-- The user record changes: a new generation with its time and time quality (R484). Timing items that touch the
reference in use take its qualification away, and its servo starts afresh; the clock does not jump (R486). -/
def State.calUserSet (s : State) (user : List CalUser) : State :=
  let old := s.ck
  let s := s.calWrite user
  let hit := old.factory.any fun i => old.effective i != s.ck.effective i && s.calTouches i.item
  if !hit then s
  else if s.tm.ref = 1 then (s.modTm fun t => { t with pps := { t.pps with qualified := false, run := 0, offsets := [] } }).selectRef
  else (s.modTm fun t => { t with ptp := { t.ptp with qualified := false, run := 0, offsets := [] } }).selectRef

/-- One delta joins the user entries, with the clamped flag of this merge (R485). -/
def calMerge (f : List CalItem) (l : List CalUser) (item : Nat) (delta : Int) : List CalUser :=
  let clamped := f.any fun i => i.item == item && i.value + delta != clampItem i delta
  l.filter (·.item ≠ item) ++ [{ item := item, clamped := clamped, delta := delta }]

/-- The first entry of CALIB.SET that fails its checks, as an offset (R482, R486). -/
def calSetBad (s : State) (p : Bytes) (n : Nat) : Option Nat :=
  (List.range n).findSome? fun j =>
    let o := 2 + 8 * j
    if !(s.ck.factory.any fun i => i.item == natAt p o 2 && calAdjustable i.cat) then some o
    else if natAt p (o + 2) 2 ≠ 0 then some (o + 2) else none

/-- CALIB.SET: every entry is checked before any is applied; a sum past a limit is clamped (R485, R486). -/
def hCalibSet : Handler := fun s m =>
  let p := m.payload
  let n := natAt p 0 2
  if p.length < 2 then saying s (refuse .length)
  else if n = 0 ∨ 64 < n then saying s (badField 0)
  else if p.length ≠ 2 + 8 * n then saying s (refuse .length)
  else
    match calSetBad s p n with
    | some o => saying s (badField o)
    | none =>
      let es := (List.range n).map fun j => (natAt p (2 + 8 * j) 2, intAt p (6 + 8 * j) 4)
      let user := es.foldl (fun l (e : Nat × Int) => calMerge s.ck.factory l e.1 e.2) s.ck.user
      let s := s.calUserSet user
      let clamped := user.filter fun u => u.clamped && es.any fun (e : Nat × Int) => e.1 == u.item
      let s := clamped.foldl (fun s u => s.eventP 0x10 "calibration clamped" u.item 0 0) s
      doing s (answer (es.flatMap fun (e : Nat × Int) =>
        leBytes 2 e.1 ++ intBytes 4 (((s.ck.factory.find? (·.item == e.1)).map s.ck.effective).getD 0)
          ++ leBytes 1 ((s.ck.calUser e.1).any (·.clamped)).toNat))

/-- CALIB.CLEAR: every user entry, or those of one category (R487). -/
def hCalibClear : Handler := fun s m =>
  let p := m.payload
  let cat := natAt p 0 1
  if p.length ≠ 1 then saying s (refuse .length)
  else if 7 < cat then saying s (badField 0)
  else
    let keep (u : CalUser) : Bool := cat != 0 && !(s.ck.factory.any fun i => i.item == u.item && i.cat == cat)
    doing (s.calUserSet (s.ck.user.filter keep)) {}

/-- The factory record (R483): header, then the entries in ascending order. -/
def Clocks.factoryRecord (k : Clocks) : Bytes :=
  leBytes 4 0x43414C46 ++ [1, 0] ++ leBytes 2 k.factory.length ++ leBytes 8 k.cfhTime ++ List.replicate 16 0
    ++ k.factory.flatMap fun i =>
      leBytes 2 i.item ++ leBytes 1 i.cat ++ leBytes 1 ((calAdjustable i.cat).toNat + 2 * i.fuse.toNat) ++ intBytes 4 i.value
        ++ intBytes 4 i.min ++ intBytes 4 i.max

/-- CALIB.FACTORY_READ: bytes of the factory record (R488). DESIGN CHOICE (log 32): those past its end are not returned. -/
def hCalibFactoryRead : Handler := fun s m =>
  let p := m.payload
  if p.length ≠ 8 then saying s (refuse .length)
  else if natAt p 4 4 = 0 ∨ 4096 < natAt p 4 4 then saying s (badField 4)
  else saying s (answer (bytesAt s.ck.factoryRecord (natAt p 0 4) (natAt p 4 4)))

def execCalibGet (m : MsgReq) (s : State) : Res := finish s (s.message 0x03 0x01 hCalibGet m)
def execCalibSet (m : MsgReq) (s : State) : Res := finish s (s.message 0x03 0x02 hCalibSet m)
def execCalibClear (m : MsgReq) (s : State) : Res := finish s (s.message 0x03 0x03 hCalibClear m)
def execCalibFactoryRead (m : MsgReq) (s : State) : Res := finish s (s.message 0x03 0x04 hCalibFactoryRead m)

/-- The sum of an entry is clamped at the limits of its item (R485). -/
def CalUser.clamps (f : List CalItem) (u : CalUser) : Bool :=
  f.any fun i => i.item == u.item && calAdjustable i.cat && i.value + u.delta != clampItem i u.delta

/-- B3 brings the user record into force: entries of unknown or non-adjustable items are ignored and recorded, and one that this merge clamps
takes its flag and an event. By the alternative method there is no merge (R422, R485). -/
def State.calStart (s : State) : State :=
  let f := s.ck.factory
  if !s.ck.userApplied then s.applyCal 0 0x1000
  else
    let bad := s.ck.user.filter fun u => !(f.any fun i => i.item == u.item && calAdjustable i.cat)
    let s := bad.foldl (fun s u => s.eventP 0x10 "calibration entry ignored" u.item 0 0) s
    let user := s.ck.user.map fun u => { u with clamped := u.clamps f }
    let s := s.whenB (user != s.ck.user) fun s => s.calWrite user
    let s := (s.ck.user.filter (CalUser.clamps f)).foldl (fun s u => s.eventP 0x10 "calibration clamped" u.item 0 0) s
    s.applyCal 0 0x1000

end Sys2Proof.Machine
end

