-- ==== Sys2Proof/Machine/Sanitize.lean ====
section
/-! DEFINITION. Sanitize (R109, R205, R222, R236, R395, R415): the two kinds, the drain of started commands, and the erase
that sealing and retiring a drive share. -/

namespace Sys2Proof.Machine

/-! ## What an erase of the whole drive does -/

/-- Every waiting epoch is signed, in epoch order; there is no key to sign with before the first start in Sealed (R227, R236). -/
def State.signAll (s : State) : State := if s.ky.receiptKey then s.ky.waiting.foldl (fun s _ => s.signEpoch) s else s

/-- The receipt store and the roots in the records region are emptied; the newest root record stays, signed, so that the numbering
continues (R236). -/
def State.emptyReceipts (s : State) : State :=
  s.modKy fun k => { k with store := [], waiting := [], roots := k.roots.drop (k.roots.length - 1) }

/-- Every namespace goes, with its keys, entries, binding, holds and tracking records (R36, R103, R205, R222, R253, R415). -/
def State.destroyNs (s : State) (n : Ns) : State :=
  let s := ((s.secdelErased n.nsid).camForget n.nsid).nsNotice n.attached
  s.modVa fun v => { v with ns := v.ns.filter (·.nsid ≠ n.nsid) }

/-- The index is cleared, and with it every record in Wax and on NAND; in a block erase the bands too, and the staging,
parity and journal regions are 00h (R205). Erase counts, retirements and the wear bank stay. -/
def State.wipeMedia (s : State) (block : Bool) : State :=
  let s := s.modIx fun x =>
    { x with buckets := [], pool := [], spill := [], resident := 0, dirtyPages := [], deltas := 0, base := [], spillCache := [],
             checkpointing := none }
  let s := s.modWx fun w =>
    { w with staged := [], dead := [], ring := [], copies := [], streams := [], bad := [], losses := [], pend := [], heldRecs := [],
             unacked := [], unackedNs := [], pendKeys := [], discarded := [], owners := [],
             condensed := if block then s.va.nextSeq - 1 else w.condensed,
             journal := if block then [] else w.journal, past := if block then [] else w.past,
             zeroed := if block then [(0, Figure.stagingGranules)] else w.zeroed,
             parityRows := if block then List.replicate 8 0 else w.parityRows }
  let s := s.modMd fun m =>
    { m with nand := [], badNand := [], due := [], readCache := [], liveBytes := 0, victim := none, victimU := none, secdel := [],
             overdue := false, internal := [], intWaits := [], bands := if block then [] else m.bands, headers := if block then [] else m.headers }
  let s := s.modTm fun t => { t with commits := [] }
  (s.modOg fun o => { o with bindings := [], neg := [], deletes := [] }).ensurePaths.modTw fun t =>
    { t with lag := [], repairs := [], unasked := [], sentAt := [], inbound := [], unsent := [], sending := [] }

/-- The data of the drive is destroyed: epochs closed and signed, every namespace and key destroyed, the index cleared,
the KEK rotated, programs removed (R36, R205, R222, R236, R395). -/
def State.destroyAll (s : State) (block : Bool) : State :=
  let s := ((s.closeEpoch 4).signAll).emptyReceipts
  let s := s.va.ns.foldl State.destroyNs s
  let s := s.modVa fun v => { v with keyHolds := [] }
  let s := (s.modKy fun k => { k with recs := [], cache := [], jobs := [] }).wipeMedia block
  s.kekRotate.dropPrograms

/-! ## The command (R109) -/

/-- Started I/O commands remain. -/
def State.ioStarted (s : State) : Bool := s.fl.cmds.any fun c => c.phase.started

/-- Step 4: with nothing started left, the operation begins and the command completes (R109). -/
def State.beginSanitize (s : State) : State :=
  match s.fe.jobs.find? (·.what == 2) with
  | none => s
  | some j =>
    if s.ioStarted then s
    else
      let s := (s.destroyAll (s.fl.sanitize == 2)).modFe fun f => { f with jobs := f.jobs.filter (·.what ≠ 2) }
      (s.event 6 "Sanitize begun").post j.ctrl 0 j.cid .success

/-- Fills are abandoned: their waiters end with a status (R304). -/
def State.abandonAllFills (s : State) (st : Status) : State :=
  (s.inPhase .waitFill).foldl (fun s c => s.complete c st) (s.abandonFills fun _ => true)

/-- Sanitize: R36, then nothing more starts, what has not started is refused, and started commands complete (R109). DESIGN CHOICE (log 33):
the waiters of the fills that it abandons complete with Sanitize In Progress (R304). -/
def State.sanitize (s : State) (a : Adm) (kind : Nat) : State :=
  if s.va.ns.any fun n => n.type == .ledger && s.ledgerBound n.nsid then s.admDone a .retentionActive
  else
    let s := s.modFl fun f => { f with sanitize := kind }
    let s := ((s.fl.cmds.filter fun c => !c.phase.started).foldl (fun s c => s.complete c .sanitizeInProgress) s).unblock
    let s := (s.abandonAllFills .sanitizeInProgress).endTest 9 0
    (s.modFe fun f => { f with jobs := f.jobs ++ [{ ctrl := a.ctrl, cid := a.cid, what := 2 }] }).beginSanitize

def execSanitizeCryptoErase (a : Adm) (s : State) : Res :=
  finish s (s.admin (.sanitizeCryptoErase a) a true false false fun s => s.sanitize a 1)

def execSanitizeBlockErase (a : Adm) (s : State) : Res :=
  finish s (s.admin (.sanitizeBlockErase a) a true false false fun s => s.sanitize a 2)

/-- SANITIZE_DONE: the operation ends and I/O is accepted again (R109, R205). -/
def execSanitizeDone (s : State) : Res :=
  finish s (
    if !s.alive || !s.sanitizing || s.fe.jobs.any (·.what == 2) then s
    else (s.modFl fun f => { f with sanitizeLast := f.sanitize, sanitize := 0 }).event 6 "Sanitize done")

end Sys2Proof.Machine
end

