-- ==== Sys2Proof/Machine/Twin.lean ====
section
/-! DEFINITION. Twin pairing (chapter 09): roles, loss policy, heartbeats and witness, attach, switchover and release,
replicated and forwarded commands, resynchronisation, and the TWIN messages. Readings of corners: log 24. -/

namespace Sys2Proof.Machine

/-! ## Roles (R260, R265, R288) -/

/-- The configuration waiting for the next transition comes into force (R288). -/
def Twin.applyCfg (t : Twin) : Twin :=
  match t.nextCfg with
  | none => t
  | some (m, i, st, r) =>
    { t with witnessMode := m, witnessId := i, strict := st, rate := r, nextCfg := none,
             witnessState := if m = 0 then 0 else if t.witnessState = 1 then 1 else 2 }

/-- A change of role and state: log C3h has changed and its event is raised, with an ANA Change notice where the state of a
group changes (R66, R265, R289). -/
def State.setRole (s : State) (r : TwinRole) (st : Nat) : State :=
  let t := (s.modTw fun t => { t.applyCfg with role := r, st := st, candidate := false, fenced := false, lateJoin := none,
                                               sendForm := if r == .primary then t.sendForm else 0, dropWaits := false, dropped := 0,
                                               inbound := if r == .primary || r == .solo then [] else t.inbound,
                                               degraded := t.degraded && r == .primary }).logEvent 3 .logC3
  t.whenB ([1, 2, 3].any fun g => t.anaState g != s.anaState g) fun t => t.notifyAll .anaChange

/-- Commands that waited for the roles to settle start (R284). -/
def State.resumeHeld (s : State) : State := s.retryAll (s.inPhase .waitService)

/-- Nothing is under way to a twin that is lost or stale: what the drive issued to it holds no context (R56). -/
def State.twinSilent (s : State) : State := s.modTw fun t => { t with sending := [], unsent := [], sentAt := [] }

/-- A committed write that stands outside the index is given up: it takes no effect, its staged record is dead, and replay passes over
it (R280 to R282, R285). -/
def State.giveUpPend (s : State) (p : Pend) : State :=
  let s := (s.undoPend p).sentTwin p.seq
  (s.modWx fun w =>
    let w := match p.loc with
      | some (.wax g) => w.kill g
      | _ => w
    { w with pend := w.pend.filter (·.seq ≠ p.seq), heldRecs := w.heldRecs.filter (·.seq ≠ p.seq), unacked := w.unacked.filter (· ≠ p.seq),
             unackedNs := dropAssoc p.seq w.unackedNs, owners := dropAssoc p.seq w.owners, discarded := p.seq :: w.discarded.filter (· ≠ p.seq) }).trimRing

/-- Held records go, and their staging space is free (R280, R281, R285). -/
def State.discardHeld (s : State) : State := (s.wx.heldRecs.foldl State.giveUpPend s).unblock

/-- Held records are applied, in the order of their commits; one whose record is lost is given up (R280, R282, R288). -/
def State.applyHeld (s : State) : State :=
  (s.wx.heldRecs.foldl (fun s p => if s.damaged p.loc then s.giveUpPend p else s.applyPend p) s).unblock

/-- What a drive that leaves its pair forgets; the NQN it presents stays until TWIN.RELEASE (R261, R285). -/
def Twin.solo (t : Twin) : Twin :=
  { t with pairId := List.replicate 16 0, twinId := List.replicate 16 0, addrs := [], lag := [], lagOver := false,
           fullResync := false, degraded := false, impaired := false, staleConfirmed := false, confirmDue := false, hbStopped := false,
           reached := false, lost := false, missed := 0, localOk := false, resyncing := false, resyncSeen := [], resyncTags := [],
           resyncTo := 0, drain := 0, drainReq := none, changing := false, noAuthority := false, twinNqn := [],
           primaryTerm := 0 }

def State.becomeSolo (s : State) : State := (s.twinSilent.setRole .solo 0).modTw Twin.solo

/-! ## The loss policy (R269, R276, R282) -/

/-- A pending write whose record was lost in Wax before the twin had it is not performed (R282). -/
def State.discardPend (s : State) (p : Pend) : State :=
  let s := s.giveUpPend p
  let s := match s.fl.cmds.find? fun c => c.phase == .pendingTwin && c.seq == some p.seq with
    | some c => s.complete c .internalError 0 0 [] false
    | none => s
  s.unblock

/-- A pending write stays a record held outside the index; its command completes with Twin Unavailable (R269, R275). -/
def State.holdPend (s : State) (p : Pend) : State :=
  let s := s.modWx fun w => { w with pend := w.pend.filter (·.seq ≠ p.seq), heldRecs := w.heldRecs ++ [p] }
  match s.fl.cmds.find? fun c => c.phase == .pendingTwin && c.seq == some p.seq with
  | some c => s.complete c .twinUnavailable
  | none => s

/-- Started writes of twin-level namespaces, pending ones aside (R275). -/
def State.startedTwinWrites (s : State) : List Cmd :=
  s.fl.cmds.filter fun c => c.phase.started && c.phase != .pendingTwin && c.kind.writes && s.twinLevel c.e.nsid

/-- The pending writes whose records were lost before the twin had them are not performed (R282). -/
def State.discardLost (s : State) : State := (s.wx.pend.filter fun p => s.damaged p.loc).foldl State.discardPend s

/-- Flushes that wait for a lost twin end (R106). -/
def State.failFlushes (s : State) : State := (s.inPhase .waitFlush).foldl (fun s c => s.complete c .twinUnavailable) s

/-- The started twin-level writes of a Primary end with Twin Unavailable, pending ones included, and each may have been performed; what it
has committed is kept as held records (R275). -/
def State.stopWrites (s : State) : State :=
  let s := s.startedTwinWrites.foldl (fun s c => s.endCmd c .twinUnavailable) s
  s.discardLost.wx.pend.foldl State.holdPend s.discardLost

/-- Detached-stale. A Primary stops acting as one at once: its started twin-level writes and its Flushes that wait end with Twin
Unavailable, DEDUCED (log 24) from R275 (R272). -/
def State.becomeStale (s : State) : State :=
  let s := if s.tw.role == .primary then s.stopWrites.failFlushes else s
  (s.twinSilent.setRole .detachedStale 8).modTw fun t =>
    { t with drain := 0, drainReq := none, localOk := false, resyncing := false, changing := false }

/-- The lag log entry of a pending write that completes without the twin (R277). -/
def State.pendLag (s : State) (p : Pend) : LagEntry := (s.pendWrite p).lagEntry p.seq

/-- The loss policy acts on the pending writes: STRICT holds them, DEGRADE performs them at the Local level and enters them
in the lag log (R269, R282). -/
def State.applyLoss (s : State) : State :=
  s.wx.pend.foldl (fun s p =>
    if s.damaged p.loc then s.discardPend p
    else if s.tw.strict then (s.holdPend p).unblock
    else (s.modTw fun t => t.lagAdd (s.pendLag p)).settlePend p) s

/-- Under DEGRADE a Primary without its twin says so (R269). -/
def State.degrade (s : State) : State :=
  if s.tw.strict || s.tw.degraded then s else (s.modTw fun t => { t with degraded := true }).logEvent 3 .logC3

/-- Commands forwarded to a Primary that cannot be reached end (R267, R268). -/
def State.failForwards (s : State) : State :=
  (s.fl.cmds.filter fun c => c.phase == .forwarded || c.phase == .forwardCommit).foldl (fun s c => s.complete c .twinUnavailable) s

/-! ## What a resynchronisation sends (R278) -/

/-- The live records of every twin-level namespace (R278). -/
def State.fullWalk (s : State) : List (Nat × Key × Option Bytes) :=
  (s.va.ns.filter fun n => s.twinLevel n.nsid).flatMap fun n =>
    (s.recordsOf n.nsid s.unseals).map fun (_, r) => (r.nsid, r.key, some r.value)

/-- The present state of every key the lag log names, once each, and of the keys whose writes the other drive lost
(R278, R280). -/
def State.deltaWalk (s : State) (lost : List (Nat × Key)) : List (Nat × Key × Option Bytes) :=
  let named := (s.tw.lag.filter fun e => !e.superseded && e.key != []).map fun e => (e.nsid, e.key)
  (named ++ lost.filter fun k => k ∉ named).map fun (n, k) => (n, k, (s.find n k).map (·.record.value))

/-- The holds that go with a walk, each in force or released: those of its keys, and those of the namespaces, all of them
in a full walk and the ones the lag log names in a delta (R277, R278, log 24). -/
def State.holdWalk (s : State) (keys : List (Nat × Key × Option Bytes)) (full : Bool) : List (Nat × Key × Nat × Bool) :=
  let ofKeys := keys.flatMap fun (n, k, _) =>
    match s.find n k with
    | some f => (s.va.keyHolds.filter fun h => h.nsid == n && h.seq == f.record.seq).map fun h => (n, k, h.tag, true)
    | none => []
  let ofNs := if full then
      (s.va.ns.filter fun n => s.twinLevel n.nsid).flatMap fun n => n.tags.map fun t => (n.nsid, [], t, true)
    else (s.tw.lag.filter fun e => e.kind == .holdNsPlace || e.kind == .holdNsRelease).map fun e =>
      (e.nsid, [], e.tag, (s.nsOf e.nsid).any fun n => decide (e.tag ∈ n.tags))
  ofKeys ++ ofNs

/-- The authority sends the walk; what it has committed so far is covered by it (R277, R278). -/
def State.sendResync (s : State) (full : Bool) (lost : List (Nat × Key)) : State :=
  let keys := if full then s.fullWalk else s.deltaWalk lost
  (s.emit (.twinResync full keys (s.holdWalk keys full))).modTw fun t =>
    { t with resyncTo := s.va.nextSeq - 1, resyncPct := 0, resyncKeys := keys.length, resyncGot := 0, sendForm := if full then 3 else 2 }

/-- A full resynchronisation asked for while the pair is up; an impaired twin comes back by it (R278, R282, R288). -/
def State.startResync (s : State) : State :=
  ((s.modTw fun t => { t with impaired := false, staleConfirmed := false, localOk := false, fullResync := true, st := 3 }).sendResync
    true []).logEvent 3 .logC3

/-- The receiver of a resynchronisation that begins while the pair is up (R278, R288). -/
def State.receiveResync (s : State) (full : Bool) (keys : Nat) : State :=
  if s.tw.role == .secondary || s.tw.role == .detachedStale then
    (s.modTw fun t => { t with resyncing := true, resyncSeen := [], resyncTags := [], resyncPct := 0, fullResync := full,
                               resyncKeys := keys, resyncGot := 0,
                               st := if full then 3 else 2 }).logEvent 3 .logC3
  else s

/-- The end of a resynchronisation acknowledges what it covered, writes that still wait for the twin aside (R157, R277). -/
def State.ackThrough (s : State) (upTo : Nat) : State :=
  let done := s.wx.unacked.filter fun q => decide (q ≤ upTo) && !(s.wx.pend.any fun p => p.seq == q)
  let s := done.foldl State.twinAck s
  let a := match s.wx.unacked.min? with
    | some m => min upTo (m - 1)
    | none => upTo
  (s.modWx fun w => { w with acked := max w.acked a }).modTw fun t => { t with ackedSeq := max s.wx.acked a }

/-! ## Heartbeats (R271, R282) -/

/-- HEARTBEAT_SEND: a capsule on each of the two paths (R271). -/
def execHeartbeatSend (s : State) : Res :=
  finish s (
    if !s.alive || !s.paired || s.tw.hbStopped then s
    else
      let stale := s.tw.impaired && s.tw.role == .primary
      let s := (s.emit (.twinHeartbeat 0 s.tw.term stale s.tw.confirmDue)).emit (.twinHeartbeat 1 s.tw.term stale s.tw.confirmDue)
      s.modTw fun t => { t with confirmDue := false })

/-- Commands that were not started when the roles changed resume on the new ones: those that waited here, and those
forwarded to a Primary that had stopped starting them (R284 steps 1 and 4). -/
def State.resumeForwards (s : State) : State := (s.retryAll (s.inPhase .forwarded)).resumeHeld

/-! ## Draining (R284 to R286) -/

/-- A drain ends once every started write has committed, every pending write is acknowledged and the lag log is empty; without a twin
there is nothing to wait for (R284 step 2, log 24). -/
def State.drained (s : State) : Bool := s.twinGone || (s.startedTwinWrites.isEmpty && s.wx.pend.isEmpty && s.tw.lag.isEmpty)

/-- A drain begins (R284). -/
def State.beginDrain (s : State) (what : Nat) (m : Option MsgReq) : State :=
  s.modTw fun t => { t with drain := what, drainReq := m, drainFrom := s.mono }

/-- The term raised by 1 goes to the twin (R272, R284 step 3). -/
def State.handOver (s : State) : State := (s.modTw fun t => { t with term := t.term + 1 }).emit (.twinTerm (s.tw.term + 1))

/-- Groups 1 and 2 leave Change once the first heartbeat of the new term has come, and the waiting commands resume on the new roles
(R284 step 4, log 24). -/
def State.settleRoles (s : State) : State :=
  s.whenB s.tw.changing fun s => ((s.modTw fun t => { t with changing := false }).notifyAll .anaChange).resumeForwards

/-- The end of a Primary's drain: the switchover, or the departure, of which the twin is told; without a twin there is no
switchover. After a switchover groups 1 and 2 are in Change (R284 to R286, log 24). DESIGN CHOICE (log 24): a role is handed over only once
no resynchronisation runs, since until then the pair has no Secondary. -/
def State.settleDrain (s : State) : State :=
  if s.tw.drain = 0 || s.tw.role != .primary || !s.drained then s
  else
    let d := s.tw.drain
    let req := s.tw.drainReq
    let gone := s.twinGone
    if (d == 1 || d == 4) && s.resyncSends && !gone then s
    else
    let s := s.modTw fun t => { t with drain := 0, drainReq := none }
    let s := match d with
      | 1 => if gone then s else (s.handOver.setRole .secondary 4).modTw fun t => { t with changing := true }
      | 2 => (s.emit (.twinDetached false)).becomeStale
      | 3 => (s.emit (.twinDetached true)).failFlushes.becomeSolo
      | _ => if gone then s else s.handOver.becomeStale
    let s := match req with
      | some m => s.reply 0x06 (if d = 1 then 0x03 else 0x02) m (if d = 1 && gone then refuse .stateRefused else {})
      | none => s
    if s.tw.changing then s else s.resumeHeld

/-- A departure that the Secondary was sent, or that its Primary asks for, ends (R285, log 24). -/
def State.departed (s : State) (leaves : Bool) : State :=
  let req := s.tw.drainReq
  let s := s.modTw fun t => { t with drain := 0, drainReq := none }
  let s := if leaves then s.becomeStale else s.becomeSolo
  let s := match req with
    | some m => s.reply 0x06 0x02 m {}
    | none => s
  s.resumeForwards

/-- A departure that the Secondary was sent cannot end without its Primary (R285, log 24). -/
def State.refuseDrain (s : State) : State :=
  match s.tw.drainReq with
  | some m => (s.modTw fun t => { t with drain := 0, drainReq := none }).reply 0x06 0x02 m (refuse .stateRefused)
  | none => s

/-- A Primary whose hand-over before an HBM3 rebuild is not drained after 50 ms leaves: it stops its heartbeats and stays Detached-stale
(R282, R286, log 24). -/
def State.drainLimit (s : State) : State :=
  if s.alive && s.tw.role == .primary && s.tw.drain == 4 && decide (s.tw.drainFrom + 50000000 ≤ s.mono) then
    (s.modTw fun t => { t with hbStopped := true }).becomeStale.resumeHeld
  else s

/-- A Secondary that takes over in a switchover (R284 step 3). -/
def State.takeOver (s : State) (term : Nat) : State :=
  (s.setRole .primary 4).modTw fun t => { t with term := term, primaryTerm := term, changing := true }

/-- The Primary creates a namespace, or deletes one, that its twin asks for, or refuses (R36, R67, R263, R264). -/
def State.createAsked (s : State) (t m : Nat) : State :=
  match (nsTypeOf t).bind fun ty => (sealModeOf ty m).map fun md => (ty, md), s.freeNsid with
  | some (ty, md), some i =>
    if s.nsLeads then (s.createNs i ty md none).emit (.twinNs true i t m true) else s.emit (.twinNsRefused .twinUnavailable)
  | _, _ => s.emit (.twinNsRefused .nsIdentifierUnavailable)

def State.deleteAsked (s : State) (i : Nat) : State :=
  match s.nsOf i with
  | none => s.emit (.twinNsRefused .invalidNamespace)
  | some n =>
    if n.type == .ledger && s.ledgerBound i then s.emit (.twinNsRefused .retentionActive)
    else if !s.nsLeads then s.emit (.twinNsRefused .twinUnavailable)
    else if s.ky.sweeping i then s.emit (.twinNsRefused .commandInterrupted)
    else (s.deleteNs n).emit (.twinNs false i 0 0 true)

/-- A namespace command that the twin performs with this drive, a level that binds both, a resynchronisation asked for or
begun, or a departure asked for or made (R263, R265, R278, R285). -/
def State.hearNews (s : State) : TwinNews → State
  | .created i t m asked =>
    match s.nsOf i, (nsTypeOf t).bind fun ty => (sealModeOf ty m).map fun md => (ty, md) with
    | none, some (ty, md) =>
      let s := (s.createNs i ty md none).emit (.twinNsDone i)
      if asked then s.endFirstNsJob (fun x => x.1 == 0 && x.2.1 == 1 && x.2.2 == 4 * t + m) .success i else s
    | _, _ => s
  | .deleted i asked =>
    match s.nsOf i with
    | some n =>
      let s := (s.deleteNs n).emit (.twinNsDone i)
      if asked then s.endFirstNsJob (fun x => x.1 == i && x.2.1 == 0) .success 0 else s
    | none => s
  | .createAsked t m => s.createAsked t m
  | .deleteAsked i => s.deleteAsked i
  | .nsDone i =>
    match (s.fe.nsJobs fun x => x.1 == i).head? with
    | some j => if s.tw.role == .primary then s.endNsJob j .success (if (j.target.map (·.2.1)).getD 0 = 1 then i else 0) else s
    | none => s
  | .nsRefused st => if s.tw.role == .primary then s else s.endFirstNsJob (fun _ => true) st 0
  | .levelFixed i l => if (s.nsOf i).any (fun n => n.level.isNone && n.type != .mirror) && decide (l < 3) then s.fixLevel i (levelOfCode l) else s
  | .resyncAsked => if s.tw.role == .primary && s.tw.reached then s.startResync else s
  | .resyncBegins full keys => s.receiveResync full keys
  | .detachAsked leaves =>
    if s.tw.role == .primary && s.tw.drain == 0 then (s.beginDrain (if leaves then 2 else 3) none).settleDrain else s
  | .detached leaves => if s.tw.role == .secondary then s.departed leaves else s

/-- HEARTBEAT_RECEIVED: the missed count starts again; a higher term ends a Primary, or hands the role to a Secondary in a switchover; a stale
notice detaches a Secondary, a drive that is Detached-stale already confirms it too, and the confirmation lets the Primary apply its policy
(R271, R272, R282, R284); after a switchover the first heartbeat of the new term settles the roles. -/
def State.heartbeat (s : State) (hb : Heartbeat) : State :=
  let s := hb.news.foldl State.hearNews s
  let s := (s.modTw fun t =>
    ({ t with missed := 0, lastHb := s.mono, lastHbTime := s.now }).measure s.mono ((Config.freeWord s.free).toNat % 2 ^ 32)).spend.logChanged 3
  let s := if hb.term = s.tw.term then s.settleRoles else s
  match s.tw.role with
  | .primary =>
    if s.tw.term < hb.term then s.becomeStale
    else if hb.confirm && s.tw.impaired && !s.tw.staleConfirmed then
      (((s.twinSilent.modTw fun t => { t with staleConfirmed := true, localOk := true }).degrade).applyLoss.failFlushes).settleDrain
    else s
  | .secondary =>
    if hb.term = s.tw.term + 1 && !s.tw.lost then s.takeOver hb.term
    else if hb.staleNotice then s.failForwards.becomeStale.modTw fun t => { t with confirmDue := true }
    else s
  | .detachedStale =>
    if hb.staleNotice then (if s.tw.resyncing then s.becomeStale else s).modTw fun t => { t with confirmDue := true } else s
  | .solo => s

def execHeartbeatReceived (hb : Heartbeat) (s : State) : Res := finish s (if s.alive && s.paired then s.heartbeat hb else s)

/-- TWIN_LOST: 20 heartbeats in a row missed (R271, R276). The commands that wait for both drives end (R263, R264), and so does Change
(R284). -/
def State.twinLost (s : State) : State :=
  let s := s.partNsJobs.settleRoles.twinSilent.modTw fun t => { t with lost := true, reached := false, sendForm := 0, missed := 20, inbound := [], lateJoin := none }
  match s.tw.role with
  | .primary => (((s.discardLost.modTw fun t => { t.applyCfg with st := 5 }).logEvent 3 .logC3).degrade.failFlushes).settleDrain
  | .secondary =>
    let s := s.failForwards.refuseDrain
    if s.tw.witnessMode = 0 then s.becomeStale
    else ((s.modTw fun t => { t.applyCfg with candidate := true, st := 7 }).logEvent 3 .logC3).notifyAll .anaChange
  | .detachedStale =>
    if s.tw.resyncing then (s.modTw fun t => { t with resyncing := false, st := 8 }).logEvent 3 .logC3 else s
  | .solo => s

/-- The window of an activation does not count against the heartbeat (R110). -/
def execTwinLost (s : State) : Res := finish s (if s.alive && s.paired && !s.tw.lost && !s.bt.paused then s.twinLost else s)

/-- PRIMARY_FENCE (R275). -/
def execPrimaryFence (s : State) : Res :=
  finish s (
    if s.alive && s.tw.role == .primary && s.tw.witnessMode != 0 && !s.tw.fenced then
      ((s.stopWrites.modTw fun t => { t.applyCfg with fenced := true, st := 6, sendForm := 0 }).logEvent 3 .logC3).notifyAll .anaChange
    else s)

/-- CANDIDATE_TIMEOUT (R276). -/
def execCandidateTimeout (s : State) : Res := finish s (if s.alive && s.tw.candidate then s.becomeStale else s)

/-- LOCAL_COMPLETION_DELAY: a Primary that keeps its role without its twin now performs its writes at the Local level
(R276). -/
def execLocalCompletionDelay (s : State) : Res :=
  finish s (
    if s.alive && s.tw.role == .primary && s.tw.lost && !s.tw.fenced && (s.tw.witnessMode == 0 || s.tw.witnessState == 1) then
      (s.modTw fun t => { t with localOk := true }).applyLoss
    else s)

/-- TWIN_IMPAIRED: a twin-level write stands unacknowledged for 200 ms (R282). -/
def execTwinImpaired (s : State) : Res :=
  finish s (if s.alive && s.tw.role == .primary && !s.tw.lost && !s.wx.unacked.isEmpty then
    (s.modTw fun t => { t with impaired := true }).logChanged 3 else s)

/-- STALE_CONFIRM_TIMEOUT: the Primary stops its heartbeats (R282). -/
def execStaleConfirmTimeout (s : State) : Res :=
  finish s (if s.alive && s.tw.role == .primary && s.tw.impaired && !s.tw.staleConfirmed then
    s.modTw fun t => { t with hbStopped := true } else s)

/-- WITNESS_UNREACHABLE (R273). -/
def execWitnessUnreachable (s : State) : Res :=
  finish s (if s.alive && s.tw.witnessMode != 0 then (s.modTw fun t => { t with witnessState := 2 }).logEvent 3 .logC3 else s)

/-! ## Acknowledgements and departures (R157, R284 to R286) -/

/-- TWIN_ACK_RECEIVED (R157, R158, R282). -/
def execTwinAckReceived (seq : Nat) (s : State) : Res := finish s (if s.alive then (s.twinAck seq).settleDrain else s)

/-- TWIN_ACK_RECORD: written when its value has advanced; lag log entries it covers leave (R159, R277). -/
def execTwinAckRecord (s : State) : Res :=
  finish s (
    if s.alive && decide (s.wx.ackWritten < s.wx.acked) && s.journalRoom 1 then
      (((s.writeJournal { type := .twinAck, aux := s.wx.acked }).modWx fun w => { w with ackWritten := w.acked }).modTw
        fun t => { t with lag := t.lag.filter fun e => e.loss || decide (s.wx.acked < e.seq) }).settleDrain
    else s)

def Twin.lagBytes (t : Twin) : Nat := (t.lag.map (·.bytes)).sum

/-- TWIN.SWITCHOVER (R284). DESIGN CHOICE (log 24): it is refused while the twin still resynchronises and no Secondary exists. -/
def hTwinSwitchover : Handler := fun s m =>
  if m.payload ≠ [] then saying s (refuse .length)
  else if s.tw.role != .primary || s.tw.fenced || s.twinGone || !s.tw.reached || s.resyncSends then saying s (refuse .stateRefused)
  else if s.tw.drain ≠ 0 ∨ 268435456 < s.tw.lagBytes then saying s (refuse .busy)
  else ((s.beginDrain 1 (some m)).settleDrain, none)

/-- TWIN.DETACH: the 16-byte identifier of the leaving drive; a Secondary asks its Primary, which drains (R285, log 24). -/
def hTwinDetach : Handler := fun s m =>
  if m.payload.length ≠ 16 then saying s (refuse .length)
  else if s.tw.role != .primary && !(s.tw.role == .secondary && s.tw.reached && !s.tw.lost) then saying s (refuse .stateRefused)
  else if s.tw.drain ≠ 0 then saying s (refuse .busy)
  else
    let mine := m.payload == s.driveId
    if !mine && m.payload != s.tw.twinId then saying s (badField 0)
    else
      let s := s.beginDrain (if mine then 2 else 3) (some m)
      (if s.tw.role == .primary then s.settleDrain else s.emit (.twinDetachAsk (!mine)), none)

/-- HBM3_STACK_LOST while serving: a drive of a pair hands over first; KV commands do not start, the cache gives up the
lines of the stack and the index is rebuilt; the loss of the second stack is fatal (R133, R134, R286). -/
def State.stackLost (s : State) (stack : Nat) : State :=
  let s := s.modIx fun x => { x with lost := x.lost.set stack true }
  if s.ix.lost.all id then s.fatal 0x134
  else
    let s := match s.tw.role with
      | .primary => if s.tw.drain = 0 && !s.twinGone && s.tw.reached then (s.beginDrain 4 none).settleDrain else s
      | .secondary => s.failForwards.becomeStale
      | _ => s
    (((s.modFl fun f => { f with kvStopped := true }).modIx fun x => { x with rebuilding := true, pages := [], stackErrors := [] }).modMc
      fun m => m.loseStack stack).halveRegions

def execHbm3StackLost (stack : Nat) (s : State) : Res :=
  finish s (if !s.alive || decide (2 ≤ stack) || s.ix.lost.getD stack false then s else s.stackLost stack)

/-- HBM3_LINE_UNCORRECTABLE: a stack that reports more than 16 of them within 60 s is lost (R132, R133). -/
def execHbm3LineUncorrectable (line : Nat) (s : State) : Res :=
  finish s (
    if !s.alive || !hbmHas (!s.mc.twoStacks) line then s
    else
      let k := s.errorStack line
      let s := s.lineLost line
      if 16 < s.ix.stackErrors.countP (·.1 == k) && !(s.ix.lost.getD k false) then s.stackLost k else s)

/-! ## Replicated writes (R262, R268) -/

/-- The staged record of a replicated store, sealed under this drive's own key (R218, R262). -/
def State.replRecord (s : State) (w : ReplWrite) (n : Ns) (g : Nat) : StoredRec :=
  let gen := s.currentGen n.nsid
  { nsid := n.nsid, flags := recFlags (n.type == .ledger) w.leaf gen, seq := 0, key := w.key, value := w.value, keyGen := gen, mode := n.mode,
    mediaSeal := false, nonceCounter := s.wx.nonce g }

/-- The slot of a replicated Secure Delete's tracking record: taken even below 64 free slots; without one, an event (R262). -/
def State.replSlot (s : State) (w : ReplWrite) : State × Nat :=
  if w.kind ≠ .secdel then (s, Figure.c1Slots)
  else match s.c1Slot with
    | some i => (s, i)
    | none => (s.event 2 "Secure Delete without a record", Figure.c1Slots)

/-- The host command on this Secondary that a replicated write settles (R268). -/
def State.settleForward (s : State) (f : Nat × Nat × Nat) (leaf : Option (Nat × Nat)) (seq slot : Nat) : State :=
  match s.cmd? f.1 f.2.1 f.2.2 with
  | some c =>
    if c.phase == .forwardCommit then s.completeWrite { c with seq := some seq } leaf slot
    else if c.phase == .forwarded then s.modCmd c.fetch fun x => { x with seq := some seq, leaf := leaf, stage := slot }
    else s
  | none => s

/-- A replicated write is journaled and applied as Local, and acknowledged (R262). `at_` is the staging of a store. Its key is searched as
a host's would be (R121). -/
def State.replCommit (s : State) (w : ReplWrite) (n : Ns) (at_ : Option Nat) : State :=
  let (s, slot) := (s.look w.nsid w.key).replSlot w
  let wr : Write := { kind := w.kind, nsid := w.nsid, key := w.key, action := w.action, ledger := w.ledger,
                      srec := at_.map fun a => s.replRecord w n a, loc := at_.map Loc.wax, leaf := w.leaf, tag := w.tag, slot := slot,
                      origin := w.forwarded, host := w.host, fromTwin := true }
  let (s, r) := s.commit wr none
  let s := if !s.tw.resyncing then s
    else if w.kind == .holdNsPlace then s.modTw fun t => { t with resyncTags := t.resyncTags ++ [(w.nsid, w.tag)] }
    else s.modTw fun t => ({ t with resyncSeen := t.resyncSeen ++ [(w.nsid, w.key)] }).progress
  let s := s.emit (.twinAck w.seq)
  match w.forwarded with
  | some f => s.settleForward f r.leaf r.seq slot
  | none => s

/-- A write received from the twin is carried out, or waits: for room in the journal, behind the commits that wait (R161), or for
staging, behind the reservations asked for before it, where `granted` is not its grant (R163, R197). Whether it waits is answered. DESIGN
CHOICE (log 24): a store of a new key at the limit of keys, and the place of a hold that finds the key-scope table full, are refused, as a
write of a namespace that the drive does not hold is (R35, R127). -/
def State.replTry (s : State) (w : ReplWrite) (granted : Bool) : State × Bool :=
  match s.nsOf w.nsid with
  | none => (s.emit (.twinRefuse w.seq), false)
  | some n =>
    let blocks := ({ kind := w.kind, nsid := w.nsid, key := w.key, action := w.action, leaf := w.leaf } : Write).blocks
    if w.kind == .store && s.keyLimit w.nsid w.key then (s.emit (.twinRefuse w.seq), false)
    else if w.kind == .holdKeyPlace && s.holdTableFull then ((s.event 2 "Key-scope hold table full").emit (.twinRefuse w.seq), false)
    else if s.journalWaits || !s.journalRoom blocks then
      (s.journalFull, true)
    else if w.kind ≠ .store then (s.replCommit w n none, false)
    else
      match (if !granted && !s.wx.waiters.isEmpty then (s, none) else s.reserve (recGranules n.mode w.key.length w.value.length) granted) with
      | (s, some g) => (s.replCommit w n (some g), false)
      | (s, none) => (if granted then s else s.modWx fun x => { x with waiters := x.waiters ++ [.twin] }, true)

/-- Writes received from the twin are carried out in order, up to the first that waits (R262). -/
def State.takeInbound (s : State) (granted : Bool) : List ReplWrite → State
  | [] => s.modTw fun t => { t with inbound := [] }
  | w :: rest =>
    match s.replTry w granted with
    | (t, true) => t.modTw fun x => { x with inbound := w :: rest }
    | (t, false) => t.takeInbound false rest

/-- A replicated write takes its place behind those that wait (R262). -/
def State.replicated (s : State) (w : ReplWrite) : State :=
  if s.tw.inbound.isEmpty then s.takeInbound false [w] else s.modTw fun t => { t with inbound := t.inbound ++ [w] }

/-- REPLICATED_WRITE_RECEIVED: taken by a Secondary, or by a Detached-stale drive that resynchronises (R262, R278). -/
def execReplicatedWriteReceived (w : ReplWrite) (s : State) : Res :=
  finish s (if s.alive && (s.tw.role == .secondary || (s.tw.role == .detachedStale && s.tw.resyncing)) then s.replicated w else s)

/-! ## Forwarded commands (R267, R268) -/

/-- The command of a code; classes as in R41, with 16, 32 and 48 for the other forms of a hold (log 24). -/
def kindOfCode (k : Nat) : Option IoKind :=
  match k with
  | 1 => some .longStore | 2 => some .longRetrieve | 3 => some .longDelete | 4 => some .longExist | 5 => some .list
  | 6 => some .filteredList | 7 => some .getReceipt | 8 => some .secureDelete | 9 => some .holdKeyPlace
  | 25 => some .holdKeyRelease | 41 => some .holdNsPlace | 57 => some .holdNsRelease
  | _ => none

/-- The command a capsule carries, as an entry of the Primary's own bucket (R267). -/
def fwdSqe (f : FwdCmd) (k : IoKind) : Sqe :=
  { cid := f.cid, nsid := f.nsid,
    cdw10 := BitVec.ofNat 32 (if k.isStore then f.value.length else if k.isHold then f.tag else f.bufLen),
    cdw11 := BitVec.ofNat 32 (f.key.length % 256 + 256 * f.ifExists.toNat + 512 * f.ifAbsent.toNat),
    cdw12 := BitVec.ofNat 32 (f.progId % 65536), cdw13 := f.arg0, cdw14 := f.arg1, icd := f.value, bufLen := f.bufLen }

/-- FORWARDED_COMMAND_RECEIVED: not looked up again; decided at its bucket. While the Primary drains, it takes no write of a
twin-level namespace, and the command waits on the Secondary (R267, R284 step 1, log 24). -/
def execForwardedCommandReceived (f : FwdCmd) (s : State) : Res :=
  finish s (
    if !s.alive || s.tw.role != .primary || s.tw.fenced || (s.cmd? (65536 + f.ctrl) f.sq f.cid).isSome then s
    else match kindOfCode f.kind, s.nsOf f.nsid with
      | some k, some n =>
        if s.tw.drain != 0 && k.writes && (n.group == 1 || n.group == 2) then s else
        let c : Cmd := { ctrl := 65536 + f.ctrl, sq := f.sq, fetch := s.fl.nextFetch, kind := k, e := fwdSqe f k, phase := .running, key := f.key,
                         action := f.action, forwardedFrom := some (f.ctrl, f.sq, f.cid), fwdHost := f.host }
        (s.modFl fun x => { x with cmds := x.cmds ++ [c], nextFetch := x.nextFetch + 1 }).run c n
      | _, _ => s.emit (.forwardDone f.ctrl f.sq f.cid .invalidNamespace 0 0 []))

/-- A forwarded write that the Primary completed: with the Secondary's own commit at once, or once that is made; a hold that
changes nothing is not replicated (R30, R268). -/
def State.forwardedWrite (s : State) (c : Cmd) : State :=
  let idle := c.kind.isHold && (s.nsOf c.e.nsid).any fun n => s.holdDecision n c == some .success
  match c.seq with
  | some _ => s.completeWrite c c.leaf c.stage
  | none => if idle then s.complete c .success else s.phase c .forwardCommit

/-- FORWARD_COMPLETION: Dwords 0 and 1 of a read are those of the Primary's completion (R73, R77, R267, R268). -/
def execForwardCompletion (ctrl sq cid : Nat) (status : Status) (read : FwdData) (s : State) : Res :=
  finish s (
    match s.cmd? ctrl sq cid with
    | some c =>
      if !s.alive || c.phase != .forwarded then s
      else if status != .success then s.complete c status
      else if c.kind.writes then s.forwardedWrite c
      else if c.kind.isExist then s.complete c .success
      else s.completeRead c (read.data.take (fieldsOf c.kind c.e).bufSize) read.dw0 read.dw1
    | none => s)

/-! ## Resynchronisation (R277 to R280) -/

/-- Whether the resynchronisation is full (R278): lag overflow on the authority, a flag on either drive, or a returning
drive last paired before the term before the authority's. -/
def fullForm (overflow flag : Bool) (authTerm lastTerm : Nat) : Bool := overflow || flag || decide (lastTerm + 1 < authTerm)

/-- A namespace is as the authority has it, but for its level. -/
def Ns.same (n : Ns) (x : Nat × Nat × Nat × Nat) : Bool :=
  n.nsid == x.1 && some n.type == nsTypeOf x.2.1 && some n.mode == sealModeOf n.type x.2.2.1

/-- A namespace this drive lacks is made as the authority has it, one the authority lacks or has with another type or sealing mode goes,
(R264). A level that is fixed stays for the life of its namespace (R38). -/
def State.alignNs (s : State) (p : PeerView) : State :=
  let s := (s.va.ns.filter fun n => !(p.namespaces.any n.same)).foldl
    (fun s n => (s.deleteNs n).event 8 "Namespace deleted to match the twin") s
  p.namespaces.foldl (fun s (i, t, m, l) =>
    let level := if l < 3 then some (levelOfCode l) else none
    match s.nsOf i, (nsTypeOf t).bind fun ty => (sealModeOf ty m).map fun md => (ty, md) with
    | none, some (ty, md) => (s.createNs i ty md level).event 8 "Namespace created to match the twin"
    | _, _ => s) s

/-- Unacknowledged completed writes of the drive that is not the authority: a store or a delete is a deferred error of kind
02h or 03h after its LOSS record, and a lost store leaves its key absent; any other goes to the event log and the black box
(R96, R158, R280, R504). -/
def State.loseUnacked (s : State) (acked : Nat) : State :=
  let lost := s.tw.lag.filter fun e => decide (acked < e.seq)
  let s := lost.foldl (fun s e =>
    let o := (s.wx.owners.lookup e.seq).getD { ctrl := 0, sq := 0, cid := 0, host := [], time := 0, tq := 0 }
    let at? := (s.find e.nsid e.key).filter fun f => f.record.seq == e.seq
    let loss (kind : Nat) : State := s.journalLost e.nsid e.key e.seq (at?.map (·.slot.loc)) kind
    match e.kind with
    | .store =>
      let s := (loss 2).deferredError 2 e.nsid e.key e.seq o
      if at?.isSome then s.removeKey e.nsid e.key else s
    | .delete => (loss 3).deferredError 3 e.nsid e.key e.seq o
    | k => (s.event 8 "Twin write discarded").blackBox 11 srcDrive [writeCode k, e.seq, e.nsid, leNat (e.key.take 16)]) s
  (s.modTw fun t => { t with lag := [], lagOver := false, lostAsync := t.lostAsync + lost.length }).modWx
    fun w => { w with unacked := [], unackedNs := [] }

/-- The held records that can be applied enter the lag log, in the order of their commits, until the twin has acknowledged them (R277, R280). -/
def State.lagHeld (s : State) : State :=
  (s.wx.heldRecs.filter fun p => !s.damaged p.loc).foldl (fun s p => s.modTw fun t => t.lagAdd (s.pendLag p)) s

/-- The authority: its held records are applied and replicated, writes that still wait for the twin are sent again, and it
sends the resynchronisation (R277, R278, R280). -/
def State.asAuthority (s : State) (p : PeerView) : State :=
  let held := s.wx.heldRecs.filter fun p => !s.damaged p.loc
  let s := s.lagHeld.applyHeld
  let s := (held.map (·, false) ++ s.wx.pend.map (·, true)).foldl
    (fun s (q, hosted) => s.sendTwin ((s.pendWrite q).toTwin q.seq none) hosted) s
  let full := fullForm s.tw.lagOver (s.tw.fullResync || p.fullResync) s.tw.term p.lastTerm
  let s := s.sendResync full p.lostKeys
  (s.setRole .primary (if full then 3 else 2)).resumeHeld

/-- The other drive, which stops acting as Primary at once (R272): namespaces are brought into line, held records and writes that still wait
discarded, unacknowledged writes reported, and it receives the resynchronisation as Detached-stale (R264, R278 to R280). It waits for room for
its LOSS records in the journal (R159, R161). -/
def State.asOther (s : State) (p : PeerView) : State :=
  let s := s.whenB (s.tw.role == .primary) State.becomeStale
  if !s.journalRoom s.tw.lag.length then
    (s.modTw fun t => { t with lateJoin := some p }).journalFull
  else
  let full := fullForm p.lagOverflow (s.tw.fullResync || p.fullResync) p.term s.tw.term
  let s := (((s.wx.pend.foldl State.holdPend s.failForwards).discardHeld.loseUnacked p.acked).alignNs p)
  (s.setRole .detachedStale (if full then 3 else 2)).modTw fun t =>
    { t with term := p.term, resyncing := true, resyncSeen := [], resyncTags := [], resyncPct := 0, fullResync := full,
             resyncKeys := p.resyncKeys, resyncGot := 0 }

/-- A level that only the twin has fixed binds this drive too (R263). -/
def State.adoptLevels (s : State) (p : PeerView) : State :=
  p.namespaces.foldl (fun s (i, _, _, l) => s.hearNews (.levelFixed i l)) s

/-- The link forms between two drives of a pair (R271, R280). -/
def State.rejoin (s : State) (p : PeerView) : State :=
  let s := (s.adoptLevels p).modTw fun t =>
    { t with reached := true, lost := false, missed := 0, impaired := false, staleConfirmed := false, hbStopped := false,
             localOk := false, lastHb := s.mono, noAuthority := false, twinNqn := p.twinNqn }
  let mine := s.tw.primaryTerm == s.tw.term
  if p.term < s.tw.term || (p.term == s.tw.term && mine && !p.wasPrimary) then s.asAuthority p
  else if s.tw.term < p.term || (p.term == s.tw.term && !mine && p.wasPrimary) then s.asOther p
  else (s.becomeStale.modTw fun t => { t with noAuthority := true }).event 8 "No authority"

/-! ## Attach (R283) -/

def Ns.levelNum (n : Ns) : Nat := (n.level.map levelCode).getD 3
def NsType.code : NsType → Nat
  | .plain => 0 | .ledger => 1 | .mirror => 2

/-- Same identifiers and types, and no level fixed differently (R283 check 03h). -/
def State.nsMatch (s : State) (p : PeerView) : Bool :=
  s.va.ns.all (fun n => p.namespaces.any fun x => x.1 == n.nsid && x.2.1 == n.type.code && (x.2.2.2 == 3 || n.level.isNone || x.2.2.2 == n.levelNum))
    && p.namespaces.all fun x => (s.nsOf x.1).isSome

def State.syncNs (s : State) : Bool := s.va.ns.any (·.level == some .sync)

/-- A twin-synchronous namespace exists, as this drive or its twin has it (R270). -/
def State.pairSync (s : State) (p : PeerView) : Bool := s.syncNs || p.namespaces.any fun x => x.2.2.2 == levelCode .sync

/-- A namespace at a twin level, as either drive has it (R263, R283). -/
def State.pairTwinLevel (s : State) (p : PeerView) (nsid : Nat) : Bool :=
  s.twinLevel nsid || p.namespaces.any fun x => x.1 == nsid && (x.2.2.2 == levelCode .sync || x.2.2.2 == levelCode .async)

/-- This drive's twin-level Ledger namespaces hold a record (R283 check 05h). -/
def State.ledgerHeld (s : State) (p : PeerView) : Bool :=
  s.va.ns.any fun n => n.type == .ledger && s.pairTwinLevel p n.nsid && !(s.recordsOf n.nsid s.unseals).isEmpty

/-- The checks of R283 for both drives, in order; the first that fails, by its reason code. -/
def State.attachChecks (s : State) (p : PeerView) (pid : Bytes) (role : Nat) : Option Nat :=
  let zero := List.replicate 16 0
  let again := s.tw.pairId == pid
  if s.lifecycle != .isSealed || !p.lifecycleSealed || s.tw.proto != p.protoVer then some 1
  else if (s.tw.pairId != zero && !again) || (p.pairId != zero && p.pairId != pid) then some 2
  else if !again && !s.nsMatch p then some 3
  else if (3 ≤ s.pw.psNow || p.nonOperational) && s.pairSync p then some 4
  else if !again && (if role = 2 then s.ledgerHeld p else p.ledgerHeld) then some 5
  else none

/-- TW_STATE of a drive that is not attaching (R289). -/
def Twin.restState (t : Twin) : Nat :=
  match t.role with
  | .solo => 0
  | .primary => if t.fenced then 6 else if t.lost then 5 else if t.sendForm ≠ 0 then t.sendForm else 4
  | .secondary => if t.candidate then 7 else if t.lost then 5 else 4
  | .detachedStale => if t.resyncing then (if t.fullResync then 3 else 2) else 8

/-- The recorded request ends: refused with a reason, or formed (R283). -/
def State.endAttach (s : State) (m : Option MsgReq) (reason : Nat) : State :=
  let s := (s.modTw fun t => { t with attachReq := none, attachReason := if reason = 0 then t.attachReason else reason,
                                      st := t.restState }).logEvent 3 .logC3
  match m with
  | some r => s.reply 0x06 0x01 r (if reason = 0 then {} else badField 0xFFFF reason)
  | none => s

/-- A first attach: both drives take term 1; the Secondary receives a full resynchronisation and presents
the Primary's NQN (R261, R272, R278, R279, R283). -/
def State.formPair (s : State) (p : PeerView) (pid : Bytes) (role : Nat) : State :=
  let s := (s.adoptLevels p).modTw fun t =>
    { t with pairId := pid, twinId := p.driveId, term := 1, primaryTerm := 0, reached := true, lost := false, missed := 0, lastHb := s.mono,
             fullResync := false, noAuthority := false, twinNqn := p.twinNqn }
  if role = 1 then
    (((s.modTw fun t => { t with primaryTerm := 1 }).sendResync true []).setRole .primary 3).notifyAll .anaChange
  else (s.setRole .detachedStale 3).modTw fun t =>
    { t with resyncing := true, resyncSeen := [], resyncTags := [], fullResync := true, resyncPct := 0, pairNqn := some p.nqn,
             resyncKeys := p.resyncKeys, resyncGot := 0 }

/-- The other drive has recorded the request for the same pair and the other role, or is in that pair already (R283). -/
def State.peerAsks (s : State) (p : PeerView) (pid : Bytes) (role : Nat) : Bool :=
  p.request == some (pid, 3 - role) || (s.tw.pairId == pid && p.pairId == pid)

/-- The link to the twin has formed. DEDUCED (log 24): a drive that has no such request yet is waited for, until the 5 s are over (R280, R283). -/
def State.linkFormed (s : State) (p : PeerView) : State :=
  match s.tw.attachReq with
  | some (pid, role, m) =>
    if !s.peerAsks p pid role && (p.pairId == List.replicate 16 0 || p.pairId == pid) then s
    else match s.attachChecks p pid role with
    | some r => s.endAttach m r
    | none =>
      let again := s.tw.pairId == pid
      let s := s.endAttach m 0
      if again then s.rejoin p else s.formPair p pid role
  | none => if s.paired then s.rejoin p else s

/-- TWIN_LINK_FORMED: a drive whose B11 was skipped tries to rejoin from 60 s after B14 on, and not before (R280, R283, R422). -/
def execTwinLinkFormed (p : PeerView) (s : State) : Res := finish s (if s.alive && !s.bt.offServices.contains 11 then s.linkFormed p else s)

/-- ATTACH_REACH_TIMEOUT: the twin is not reached within 5 s, and either drive discards its recorded request (R283 check 06h). -/
def execAttachReachTimeout (s : State) : Res :=
  finish s (match s.tw.attachReq with
    | some (_, _, m) => if s.alive then s.endAttach m 6 else s
    | none => s)

/-- Keys are removed in turn, each by a DELETE record, DESIGN CHOICE (log 24); whether the journal had room for all is answered (R161, R278). -/
def State.dropKeys (s : State) : List (Nat × Key) → State × Bool
  | [] => (s, true)
  | (n, k) :: rest =>
    let w := Write.removal n k
    if s.journalRoom w.blocks then ((s.commit w none).1.modTw fun t => { t with dropped := t.dropped + 1 }).dropKeys rest else (s, false)

/-- The keys that a full walk did not cover (R278). -/
def State.uncovered (s : State) : List (Nat × Key) :=
  (((s.va.ns.filter fun n => s.twinLevel n.nsid).flatMap fun n => s.recordsOf n.nsid s.unseals).map fun (_, r) => (r.nsid, r.key)).filter
    (· ∉ s.tw.resyncSeen)

/-- Once every key that a full walk did not cover is gone, namespace-scope holds that it did not bring go too, and the count is logged
(R278, log 24). -/
def State.dropUncovered (s : State) : State :=
  let s := (s.va.ns.filter fun n => s.twinLevel n.nsid).foldl (fun s n =>
    s.modNs n.nsid fun x => { x with tags := x.tags.filter fun t => decide ((n.nsid, t) ∈ s.tw.resyncTags) }) s
  (s.eventP 8 "Full resynchronisation removed keys" s.tw.dropped 0 0).modTw fun t => { t with dropped := 0, dropWaits := false }

/-- The receiver of a resynchronisation has it whole and becomes Secondary (R279). -/
def State.resynced (s : State) : State :=
  let s := s.modTw fun t => { t with resyncing := false, resyncSeen := [], resyncTags := [], resyncPct := 100, fullResync := false }
  if s.tw.role == .detachedStale then (s.setRole .secondary 4).resumeHeld
  else (s.modTw fun t => { t with st := 4 }).logEvent 3 .logC3

/-- The end of a resynchronisation: after a full one the uncovered keys go first, and it waits for room in the journal for them (R161, R278). -/
def State.endResync (s : State) : State :=
  if !s.tw.fullResync then s.resynced
  else match s.dropKeys s.uncovered with
    | (t, true) => t.dropUncovered.resynced
    | (t, false) => (t.modTw fun x => { x with dropWaits := true }).journalFull

/-- RESYNC_DONE: the returning drive becomes Secondary; the authority's pair is whole again, and what the resynchronisation
covered is acknowledged (R277, R279). -/
def execResyncDone (s : State) : Res :=
  finish s (
    if !s.alive then s
    else if s.tw.resyncing then s.endResync
    else if s.tw.role == .primary && s.tw.reached then
      let s := (s.modTw fun t =>
        { t with st := 4, sendForm := 0, degraded := false, fullResync := false, resyncPct := 100, lagOver := false, lag := t.lag.filter (!·.loss) }).logEvent 3 .logC3
      (s.ackThrough s.tw.resyncTo).resyncFlushed.settleDrain
    else s)

/-! ## The other TWIN messages (R288) -/

/-- TWIN.ATTACH: pair identifier, role 1 Primary or 2 Secondary, addresses; the drive checks its own side, and a Secondary reaches for the
Primary (R261, R283). -/
def hTwinAttach : Handler := fun s m =>
  let pid := bytesAt m.payload 0 16
  let role := natAt m.payload 16 1
  if m.payload.length < 17 then saying s (refuse .length)
  else if role ≠ 1 ∧ role ≠ 2 then saying s (badField 16)
  else if s.tw.attachReq.isSome then saying s (refuse .busy)
  else
    let bad (r : Nat) : State × Option Answer := doing ((s.modTw fun t => { t with attachReason := r }).logChanged 3) (badField 0xFFFF r)
    if s.lifecycle != .isSealed then bad 1
    else if s.tw.pairId != List.replicate 16 0 && s.tw.pairId != pid then bad 2
    else if decide (3 ≤ s.pw.psNow) && s.syncNs then bad 4
    else
      let t := (s.modTw fun t => { t with attachReq := some (pid, role, if role = 2 then some m else none), addrs := m.payload.drop 17,
                                          st := 1 }).logEvent 3 .logC3
      if role = 1 then doing t {} else (t.reachTwin, none)

/-- TWIN.CONFIG: witness mode, loss policy (0 DEGRADE, 1 STRICT), 2 reserved bytes, rate in MB/s, 16-byte witness
identifier (R269, R273, R279, R288). -/
def hTwinConfig : Handler := fun s m =>
  let p := m.payload
  let rate := natAt p 4 4
  if p.length ≠ 24 then saying s (refuse .length)
  else if 2 < natAt p 0 1 then saying s (badField 0)
  else if 1 < natAt p 1 1 then saying s (badField 1)
  else if natAt p 2 2 ≠ 0 then saying s (badField 2)
  else if rate < 1000 ∨ 25000 < rate then saying s (badField 4)
  else doing (s.modTw fun t => { t with nextCfg := some (natAt p 0 1, natAt p 8 16, natAt p 1 1 == 1, rate) }) {}

/-- Log C3h (R289). -/
def State.logC3 (s : State) : Bytes :=
  let t := s.tw
  let role := match t.role with
    | .solo => 0 | .primary => 1 | .secondary => 2 | .detachedStale => 3
  let held := s.wx.heldRecs.length
  s.vendorPage 0xC3 (padTo 4032 (leBytes 1 role ++ leBytes 1 t.st ++ leBytes 1 t.witnessMode ++ leBytes 1 t.witnessState
    ++ leBytes 4 (t.fullResync.toNat + 2 * t.strict.toNat + 4 * (decide (0 < held)).toNat + 8 * t.degraded.toNat + 16 * t.impaired.toNat)
    ++ leBytes 8 t.term ++ padTo 16 t.pairId ++ padTo 16 t.twinId ++ leBytes 4 t.lag.length ++ leBytes 1 t.attachReason
    ++ leBytes 1 t.resyncPct ++ [0, 0] ++ leBytes 8 t.lagBytes ++ leBytes 4 held ++ leBytes 4 t.rate ++ leBytes 8 t.lastHbTime
    ++ leBytes 8 t.ackedSeq ++ leBytes 8 t.failovers ++ leBytes 8 t.lostAsync ++ leBytes 4 t.rttNs))

def hTwinStatus : Handler := fun s m => if m.payload ≠ [] then saying s (refuse .length) else saying s (answer s.logC3)

/-- The promotion of a candidate (R272, R276). -/
def State.promote (s : State) (term : Nat) : State :=
  (((s.setRole .primary 5).modTw fun t => { t with term := term, primaryTerm := term, failovers := t.failovers + 1, localOk := true }).degrade).resumeHeld

/-- A fenced Primary resumes. The wait of R276 counts from the last heartbeat, so it may be over already; then it performs its writes at the
Local level (R269, R275, R276). -/
def State.resumePrimary (s : State) : State :=
  let s := s.setRole .primary (if s.tw.lost then 5 else 4)
  if !s.tw.lost then s
  else s.degrade.modTw fun t => { t with localOk := decide (t.lastHb + 30000000 ≤ s.mono) }

/-- What an accepted poll does with its term and verdict: a grant that is not this candidate's changes nothing, another poll's
higher term ends a Primary (R272, R275, R276, log 24). -/
def State.verdict (s : State) (term v : Nat) : State :=
  if v = 1 then
    if s.tw.candidate && term == s.tw.term + 1 then s.promote term else s.event 8 "Grant ignored"
  else if v = 2 && s.tw.candidate then s.becomeStale
  else if s.tw.role == .primary && decide (s.tw.term < term) then s.becomeStale
  else if v = 0 && s.tw.fenced && term == s.tw.term then s.resumePrimary.resumeHeld
  else s

/-- TWIN.WITNESS_POLL: 16-byte witness identifier, 8-byte term, verdict 0 none, 1 grant, 2 deny (R273, R276, R288). -/
def hTwinWitnessPoll : Handler := fun s m =>
  let p := m.payload
  let path := if s.tw.witnessMode = 1 then m.mbox == 12 else decide (m.mbox ≤ 11)
  if p.length ≠ 25 then saying s (refuse .length)
  else if s.tw.witnessMode = 0 || !path then saying s (refuse .stateRefused)
  else if natAt p 0 16 ≠ s.tw.witnessId then saying s (badField 0)
  else if 2 < natAt p 24 1 then saying s (badField 24)
  else
    let s := (s.modTw fun t => { t with lastPoll := some s.mono, witnessState := 1 }).verdict (natAt p 16 8) (natAt p 24 1)
    let role := match s.tw.role with
      | .solo => 0 | .primary => 1 | .secondary => 2 | .detachedStale => 3
    doing s (answer (leBytes 1 role ++ leBytes 8 s.tw.term ++ leBytes 1 s.tw.candidate.toNat ++ leBytes 4 ((s.mono - s.tw.lastHb) / 1000000)))

/-- TWIN.RELEASE: from Detached-stale only (R281, R285). -/
def hTwinRelease : Handler := fun s m =>
  if m.payload ≠ [] then saying s (refuse .length)
  else if s.tw.role != .detachedStale then saying s (refuse .stateRefused)
  else doing (s.discardHeld.becomeSolo.modTw fun t => { t with pairNqn := none }) {}

/-- TWIN.FORCE_PRIMARY: with the twin lost, or where the drives have met without an authority, which DEDUCED (log 24) from R280 is the
other case in which it is accepted. The held records it applies enter the lag log, and until the link forms again the twin counts as lost
(R277, R280, R281, R288). -/
def hTwinForcePrimary : Handler := fun s m =>
  if m.payload.length ≠ 16 then saying s (refuse .length)
  else if m.payload != s.tw.pairId then saying s (badField 0)
  else if !((s.tw.role == .secondary || s.tw.role == .detachedStale) && (s.tw.lost || s.tw.noAuthority)) then saying s (refuse .stateRefused)
  else
    let old := s.tw.term
    let s := s.lagHeld.applyHeld
    let s := (s.setRole .primary 5).modTw fun t => { t with lost := true, reached := false, noAuthority := false,
                                                            term := old + 1, primaryTerm := old + 1, failovers := t.failovers + 1,
                                                            localOk := true, resyncing := false, resyncSeen := [], resyncTags := [] }
    doing ((s.degrade.blackBox 8 (srcCode m.mbox m.src) [leNat m.payload, old, old + 1]).resumeHeld) {}

/-- TWIN.RESYNC: the work runs in the background; a drive that is not Primary asks the Primary for it (R278, R288, log 24). -/
def hTwinResync : Handler := fun s m =>
  if m.payload ≠ [] then saying s (refuse .length)
  else if s.tw.role == .solo || !s.tw.reached then saying s (refuse .stateRefused)
  else
    doing (if s.tw.role == .primary then s.startResync
           else ((s.modTw fun t => { t with fullResync := true, resyncPct := 0 }).logChanged 3).emit .twinResyncAsk) {}

/-- TWIN_ATTACH (R283). -/
def execTwinAttach (m : MsgReq) (s : State) : Res := finish s (s.message 0x06 0x01 hTwinAttach m)
/-- TWIN_DETACH (R285). -/
def execTwinDetach (m : MsgReq) (s : State) : Res := finish s (s.message 0x06 0x02 hTwinDetach m)
/-- TWIN_SWITCHOVER (R284). -/
def execTwinSwitchover (m : MsgReq) (s : State) : Res := finish s (s.message 0x06 0x03 hTwinSwitchover m)
/-- TWIN_CONFIG (R288). -/
def execTwinConfig (m : MsgReq) (s : State) : Res := finish s (s.message 0x06 0x04 hTwinConfig m)
/-- TWIN_STATUS (R288). -/
def execTwinStatus (m : MsgReq) (s : State) : Res := finish s (s.message 0x06 0x05 hTwinStatus m)
/-- TWIN_WITNESS_POLL (R288). -/
def execTwinWitnessPoll (m : MsgReq) (s : State) : Res := finish s (s.message 0x06 0x06 hTwinWitnessPoll m)
/-- TWIN_RELEASE (R285). -/
def execTwinRelease (m : MsgReq) (s : State) : Res := finish s (s.message 0x06 0x07 hTwinRelease m)
/-- TWIN_FORCE_PRIMARY (R288). -/
def execTwinForcePrimary (m : MsgReq) (s : State) : Res := finish s (s.message 0x06 0x08 hTwinForcePrimary m)
/-- TWIN_RESYNC (R278). -/
def execTwinResync (m : MsgReq) (s : State) : Res := finish s (s.message 0x06 0x09 hTwinResync m)

end Sys2Proof.Machine
end

