-- ==== Sys2Proof/Machine/Replay.lean ====
section
/-! DEFINITION. The replay of the journal at a start: reading it at B4 (R170, R173) and applying it at B7 (R171). Readings of
corners: log 30. -/

namespace Sys2Proof.Machine

/-! ## The journal as it is read (R158, R170) -/

/-- A block that stripe parity does not give back: it is bad, and so is another of its stripe (R158, R170). -/
def blockLost (bad : List (Nat × Nat)) (b : Nat) : Bool :=
  let (stripe, pkg) := journalBlockAt b
  decide ((stripe, pkg) ∈ bad) && bad.any fun x => x.1 == stripe && x.2 != pkg

/-- A record that is invalid: one of its blocks is lost. -/
def recLost (bad : List (Nat × Nat)) (x : JRec × Nat × Nat) : Bool :=
  (List.range x.1.blocks).any fun i => blockLost bad ((x.2.1 + i) % Figure.journalBlocks)

/-- The journal up to its end, the first invalid record that no valid record of its lap follows, each record with whether it is
invalid (R170 step 3, R173). -/
def readJournal (bad : List (Nat × Nat)) : List (JRec × Nat × Nat) → List (JRec × Bool)
  | [] => []
  | x :: rest =>
    if recLost bad x && !(rest.any fun y => y.2.2 == x.2.2 && !recLost bad y) then [] else (x.1, recLost bad x) :: readJournal bad rest

/-- What stands in the place of a record that cannot be read: nothing takes effect from it. -/
def JRec.blank (r : JRec) : JRec := { type := .loss, key := r.key, h := r.h, leaf := r.leaf }

/-- A record of a write. -/
def JRec.isWrite (j : JRec) : Bool := j.type == .store || j.type == .delete || j.type == .secdel || j.type == .hold

/-- The write a HOLD record stands for: a place or a release, of key or namespace scope (R158). -/
def JRec.holdKind (j : JRec) : WriteKind :=
  match j.aux.testBit 32, j.aux.testBit 33 with
  | false, false => .holdKeyPlace
  | false, true => .holdKeyRelease
  | true, false => .holdNsPlace
  | true, true => .holdNsRelease

def JRec.kind (j : JRec) : WriteKind :=
  match j.type with
  | .delete => .delete
  | .secdel => .secdel
  | .hold => j.holdKind
  | _ => .store

/-- A hold whose record is not applied leaves no trace in the tag tables (R169, R171). -/
def State.undoHold (s : State) (j : JRec) : State :=
  let tag := j.aux % 2 ^ 32
  let seq := (s.find j.nsid j.key).map (·.record.seq)
  if j.type != .hold then s
  else match j.holdKind with
    | .holdNsPlace => s.modNs j.nsid fun n => { n with tags := n.tags.filter (· ≠ tag) }
    | .holdNsRelease => s.modNs j.nsid fun n => { n with tags := if tag ∈ n.tags then n.tags else n.tags ++ [tag] }
    | .holdKeyPlace =>
      s.modVa fun v => { v with keyHolds := v.keyHolds.filter fun k => !(k.nsid == j.nsid && k.tag == tag && some k.seq == seq) }
    | _ =>
      match seq with
      | some q =>
        let k : KeyHold := { nsid := j.nsid, tag := tag, seq := q }
        s.modVa fun v => { v with keyHolds := if k ∈ v.keyHolds then v.keyHolds else v.keyHolds ++ [k] }
      | none => s

/-- The leaf of a record that cannot be read is lost: its hash is free, and it names no key (R172, log 3). -/
def State.loseLeaf (s : State) (seq : Nat) : State :=
  let f (l : Leaf) : Leaf := if l.seq == seq then { l with hash := Config.freeBytes s.free 48, key := [] } else l
  (s.modKy fun k => { k with open_ := k.open_.map fun o => { o with leaves := o.leaves.map f },
                             waiting := k.waiting.map fun e => { e with leaves := e.leaves.map f } }).spend

/-- A journal record that is lost while later ones are valid: DEL_OVERFLOW, the event, the black box, and the carrier without a host
(R173). -/
def State.loseJournal (s : State) (seq : Nat) : State :=
  let s := s.whenB (seq != 0) fun s => s.loseLeaf seq
  let s := s.modFl fun f => { f with overflow := f.overflow + 1, carriers := f.carriers ++ [{ queue := none, host := none, record := none }] }
  ((s.event 4 "Journal record lost").blackBox 9 srcDrive [3, seq]).logChanged 1

/-- The epochs without the leaves of writes that were not performed, which end the commit order. The first epoch not yet signed that
loses some is the open one again, and those after it go with their numbers; one that keeps no leaf was never opened (R172, R228). -/
def Keys.cutLeaves (k : Keys) (out : Nat → Bool) (mono : Nat) : Keys :=
  let whole := k.waiting.takeWhile fun e => !e.leaves.any fun l => out l.seq
  let again : Option OpenEpoch := match k.waiting.drop whole.length with
    | e :: _ => some { number := e.number, lengthMs := k.epochMs, openMono := mono, openTime := natAt e.root 32 8,
                       debug := (natAt e.root 1 1).testBit 3, leaves := e.leaves }
    | [] => k.open_
  match again with
  | none => k
  | some o =>
    let ls := o.leaves.filter fun l => !out l.seq
    { k with waiting := whole, open_ := if ls.isEmpty then none else some { o with leaves := ls },
             nextEpoch := if ls.isEmpty then o.number else o.number + 1,
             lastRoot := if whole.length = k.waiting.length then k.lastRoot
                         else (whole.getLast?.map (·.root)).or (k.roots.getLast?.map (·.root)) }

/-- A Secure Delete that was not performed: its removal and its log C1h record go (R169). -/
def State.undoSecdel (s : State) (j : JRec) : State :=
  if j.type != .secdel then s
  else
    let s := s.modMd fun m => { m with secdel := m.secdel.filter (·.seq ≠ j.seq) }
    s.whenB (s.fl.c1[j.aux]?.any fun r => r.kind == 4 && r.seq == j.seq) fun s => s.setC1 j.aux fun _ => {}

/-- Writes behind the end of the journal were not performed: their holds, removals, leaves, commit times and lag log entries go, and their
sequences are taken again (R158, R169). -/
def State.cutJournal (s : State) (gone : List JRec) : State :=
  let s := (gone.filter (·.isWrite)).reverse.foldl (fun s j => (s.undoHold j).undoSecdel j) s
  let out (q : Nat) : Bool := gone.any fun j => j.isWrite && j.seq == q
  ((((s.modKy fun k => k.cutLeaves out s.mono).modTm fun t => { t with commits := t.commits.filter fun c => !out c.seq }).modTw
    fun t => { t with lag := t.lag.filter fun e => !out e.seq }).modWx
    fun w => { w with unacked := w.unacked.filter fun q => !out q, unackedNs := w.unackedNs.filter fun q => !out q.1, owners := w.owners.filter fun o => !out o.1,
                      heldRecs := w.heldRecs.filter fun p => !out p.seq, pendKeys := w.pendKeys.filter fun p => !out p.1 })

/-- The control-block copy that a start takes: of the valid ones, the one with the highest generation (R170 step 1). -/
def Wax.bestCtl (w : Wax) (bad : List Nat) : Option CtlBlock :=
  (w.ctl.filter fun p => p.1 ∉ bad).foldl (fun acc p => match acc with
    | some c => if c.gen < p.2.gen then some p.2 else acc
    | none => some p.2) none

/-- The records from the replay start of a copy on that lie before the newest one's: an older copy makes the start read them again
(R160, R170). -/
def Wax.before (w : Wax) (c : CtlBlock) : List (JRec × Nat × Nat) :=
  w.past.reverse.dropWhile fun x => !(x.2.1 == c.offset && x.2.2 == c.lap)

/-- The highest TWIN_ACK in the journal; one that has been condensed covers nothing that is still there. -/
def ackIn (l : List JRec) : Nat := ((l.filter (·.type == .twinAck)).map (·.aux)).foldl max 0

/-- Steps 1 to 3 of R170: the control block, the records up to the journal's end, the losses in it, the place at which writing goes on, and
the next commit sequence. -/
def State.readWax (s : State) (env : BootEnv) : State :=
  let copy := s.wx.bestCtl env.ctlBad
  let older := (copy.map s.wx.before).getD []
  let all := older ++ placeRecs s.wx.journal s.wx.start.1 s.wx.start.2
  let (o, l) := (all.head?.map (·.2)).getD s.wx.start
  let read := readJournal env.journalBad all
  let gone := (all.drop read.length).map (·.1)
  let kept := read.map fun (r, bad) => if bad then r.blank else r
  let n := o + (kept.map JRec.blocks).sum
  let hurt := gone ++ (read.filter (·.2)).map (·.1)
  let acked := if hurt.any fun j => j.type == .twinAck && j.aux == s.wx.ackWritten then ackIn kept else s.wx.ackWritten
  let s := s.cutJournal gone
  let s := s.modWx fun w =>
    { w with journal := kept, past := w.past.drop older.length, condensed := (copy.map (·.condensed)).getD w.condensed,
             offset := n % Figure.journalBlocks, lap := if Figure.journalBlocks ≤ n then (l + 1) % 256 else l,
             ctlGen := (copy.map (·.gen)).getD w.ctlGen, acked := acked, ackWritten := acked }
  let s := s.modVa fun v => { v with nextSeq := max s.wx.condensed ((kept.map (·.seq)).foldl max 0) + 1 }
  (read.filter (·.2)).foldl (fun s x => s.loseJournal (if x.1.isWrite then x.1.seq else 0)) s

/-! ## B7 (R171) -/

/-- A later record of the same key: it proves that the twin acknowledged the earlier one (R171). A PACK proves it of the write whose
record it moves, and one of an older record proves nothing, as relocations do not wait (DEDUCED, log 30). -/
def State.laterThan (s : State) (j k : JRec) : Bool :=
  !j.key.isEmpty && (k.isWrite || (k.type == .pack && (j.loc.map Loc.word) == some k.aux))
    && k.concerns (s.hash j.nsid j.key) { nsid := j.nsid, key := j.key, slot := none, commit := none }

/-- Twin-synchronous writes that are held: no TWIN_ACK covers them and no later record of their key follows. One that the loss policy has
performed stands in the lag log and is not held (R171, R269, log 30). -/
def State.heldWrites (s : State) : List JRec → List JRec
  | [] => []
  | j :: rest =>
    if j.isWrite && j.twinSync && s.tw.role != .solo && decide (s.wx.ackWritten < j.seq) && !s.passedOver j
        && !(s.tw.lag.any fun e => e.seq == j.seq) && !(rest.any (s.laterThan j)) then j :: s.heldWrites rest
    else s.heldWrites rest

/-- The held record that a journal record gives (R169, R171). -/
def State.heldOf (s : State) (j : JRec) : Pend :=
  { seq := j.seq, kind := j.kind, nsid := j.nsid, key := j.key, loc := j.loc, flags := 0,
    value := ((j.loc.bind s.recAt).map (·.value)).getD [], tag := if j.type == .hold then j.aux % 2 ^ 32 else 0, action := j.action,
    time := j.time, tq := j.tq, cmd := none, host := ((s.wx.owners.lookup j.seq).map (·.host)).getD [],
    slot := if j.type == .secdel then j.aux else Figure.c1Slots }

/-- How far a granule lies behind the head: the oldest of the ring comes first (R162). -/
def Wax.age (w : Wax) (g : Nat) : Nat := (g + Figure.stagingGranules - w.head) % Figure.stagingGranules

/-- A dead staged record that no reservation has overwritten stands again, in its place of the ring (R162). -/
def Wax.revive (w : Wax) (g : Nat) : Wax :=
  let older (p : Nat × Nat) : Bool := decide (w.age p.1 < w.age g)
  match w.dead.lookup g with
  | some r =>
    { w with staged := setAssoc g r w.staged, dead := dropAssoc g w.dead, zeroed := w.zeroed.filter (· ≠ (g, r.granules)),
             ring := if w.ring.any (·.1 == g) then w.ring else w.ring.takeWhile older ++ (g, r.granules) :: w.ring.dropWhile older }
  | none => w

/-- A key takes the slot that the base and the journal give it, and its entry of the commit time table (R123, R171, R363). -/
def State.restore (s : State) (seqs : List Nat) (b : BaseKey) : State :=
  let h := s.hash b.nsid b.key
  let now := s.find b.nsid b.key
  let s := match b.slot with
    | some t =>
      if now.any fun (f : Found) => f.slot.loc == t.loc then s
      else
        let s := s.modWx fun w => match t.loc with
          | .wax g => w.revive g
          | .nand _ => w
        if s.confirms b.nsid b.key t then
          match now with
          | some f => s.index fun x => x.setSlot h t f.place
          | none => s.index fun x => x.insert h t
        else match now with
          | some f => s.index fun x => x.remove h f.place
          | none => s
    | none => match now with
      | some f => s.index fun x => x.remove h f.place
      | none => s
  s.modTm fun t => { t with commits := t.commits.filter (fun (c : CommitTime) => c.seq ∉ seqs) ++ (if (s.find b.nsid b.key).isSome then b.commit.toList else []) }

/-- The sequences of a key in the journal and of its base. -/
def State.seqsOf (s : State) (b : BaseKey) : List Nat :=
  (s.wx.journal.filter fun j => j.isWrite && j.concerns (s.hash b.nsid b.key) b).map (·.seq) ++ b.commit.toList.map (·.seq)

/-- The flags of every slot follow: no HBM3 copy, the holds of its record, and whether the twin's acknowledgement of it, or of a hold of its
key, is still to come (R117, R169, R171). -/
def State.slotFlags (s : State) (waiting : List Nat) : State :=
  s.index fun x => x.mapSlots fun t => match s.recAt t.loc with
    | some r => { t with stagedCopy := false, hold := s.va.keyHolds.any (fun k => k.nsid == r.nsid && k.seq == r.seq),
                         twinPend := decide (r.seq ∈ waiting) || s.wx.pendKeys.any fun p => p.1 ∈ waiting && p.2 == (r.nsid, r.key) }
    | none => { t with stagedCopy := false }

/-- Staged records that no slot points at and that are not held are dead; the tail and the live bytes are recomputed (R162, R171,
R181). -/
def State.settleRing (s : State) : State :=
  let keep (g : Nat) : Bool := s.ix.points (.wax g) || s.wx.heldRecs.any fun p => p.loc == some (.wax g)
  let s := ((s.wx.staged.map (·.1)).filter fun g => !keep g).foldl (fun s g => s.modWx fun w => w.kill g) s
  let live := (((s.ix.all.filterMap fun p => s.recAt p.2.loc).filter s.unseals).map (·.bytes)).sum
  (s.trimRing.modMd fun m => { m with liveBytes := live }).settleVictims

/-- Twin-level writes of the journal above the last TWIN_ACK, and those of them condensed before, are unacknowledged (R158, R171). -/
def State.stillUnacked (s : State) : List Nat :=
  if s.tw.role == .solo then []
  else
    let js := (s.wx.journal.filter fun j => j.isWrite && j.twinLevel && !s.passedOver j).map (·.seq)
    ((s.wx.unacked ++ js.filter fun q => q ∉ s.wx.unacked).filter fun q => decide (s.wx.ackWritten < q)).mergeSort fun a b => decide (a ≤ b)

/-- Twin-asynchronous writes above the last TWIN_ACK enter the lag log again (R171, R277). -/
def State.reenter (s : State) (waiting : List Nat) : State :=
  (s.wx.journal.filter fun j => j.isWrite && j.twinLevel && decide (j.seq ∈ waiting) && !(s.tw.lag.any fun e => e.seq == j.seq)).foldl
    (fun s j => s.modTw fun t => t.lagAdd { (s.pendWrite (s.heldOf j)).lagEntry j.seq with sync := j.twinSync }) s

/-- The journal is applied to the index base in ring order (R171). -/
def State.applyJournal (s : State) : State :=
  let held := s.heldWrites s.wx.journal
  let out (q : Nat) : Bool := held.any fun j => j.seq == q
  let s := held.reverse.foldl State.undoHold s
  let s := s.modWx fun w => { w with pend := [], heldRecs := held.map s.heldOf }
  let skip (j : JRec) : Bool := s.passedOver j || (j.isWrite && out j.seq)
  let s := s.ix.base.foldl (fun s b => s.restore (s.seqsOf b) (s.replayKey skip s.wx.journal b)) s
  let un := s.stillUnacked
  let waiting := un.filter fun q => !out q
  let named := s.wx.unackedNs ++ (s.wx.journal.filter (·.isWrite)).map fun j => (j.seq, j.nsid)
  let holds := (s.wx.journal.filter fun j => j.type == .hold && !j.aux.testBit 32 && decide (j.seq ∈ waiting)).map fun j => (j.seq, j.nsid, j.key)
  let s := (s.modWx fun w => { w with unacked := un, unackedNs := named.filter (·.1 ∈ un),
                                      pendKeys := w.pendKeys.filter (· ∉ holds) ++ holds }).modTw fun t => { t with ackedSeq := s.wx.ackWritten }
  ((s.reenter waiting).slotFlags waiting).settleRing

end Sys2Proof.Machine
end

