-- ==== Sys2Proof/Machine/Boot.lean ====
section
/-! DEFINITION. Resets and starts (chapters 05, 16, 21): what a reset loses, the power-fail sequence and the orderly
shutdown, the boot steps B0 to B14 with their ledger, Pilot-light mode, and log C5h. -/

namespace Sys2Proof.Machine

/-! ## What a reset loses (R168 to R171, R413, R422, R450, log 30) -/

/-- Front end and flight: controllers, connections, commands and waiting work go; carriers and log C1h stay (R104). -/
def State.loseFront (s : State) : State :=
  { s with
    fe := { s.fe with ctrls := [], conns := [], qpFree := Figure.queuePairs, rrLast := none, rrUsed := 0, hellos := [], handshakes := 0,
                      listening := false, jobs := [], heldAdm := [], admEntries := [], ctxWait := [], miReplies := [] },
    fl := { s.fl with cmds := [], bucketQ := [], carriers := s.fl.carriers.map fun (k : Carrier) => { k with queue := none }, kvStopped := false,
                      curtain := false, sanitize := if s.fe.jobs.any (·.what == 2) then 0 else s.fl.sanitize },
    va := { s.va with rate := s.va.rate.map RateClass.fresh } }

/-- Reservations that never committed give their bytes back to the wear bank (R169, R197). -/
def State.loseReservations (s : State) : State :=
  let gs := (s.fl.cmds.filter fun c => c.granule.isSome && c.seq.isNone).map (·.granules) ++ (s.og.fills.filter (·.granule.isSome)).map (·.granules)
  gs.foldl (fun s n => s.modMd fun m => m.refund (32 * n)) s

/-- HBM3 and the caches go. The index is as it stood until B7 applies the journal to what its base holds of the keys in it (R131, R171,
log 30). Records committed and waiting for the twin are held; reservations that never committed are free (R169, R171). -/
def State.loseStores (s : State) : State :=
  { s with
    ix := { s.ix with lost := [false, false], rebuilding := false, pages := [], stackErrors := [], present := false, spillCache := [] },
    mc := {},
    wx := { s.wx with waiters := [], copies := [], streams := [], failing := none, heldRecs := s.wx.heldRecs ++ s.wx.pend, pend := [], condensing := false,
                      ring := s.wx.ring.filter fun (g : Nat × Nat) => s.wx.staged.any fun (p : Nat × StoredRec) => p.1 == g.1 },
    md := { s.md with readCache := [], gcMode := 0, victim := none, victimU := none, gcCopied := 0, gcAdmitted := 0, patrolFast := true,
                      patrolProgress := 0,
                      bands := s.md.bands.map fun (b : Band) =>
                        { b with read := 0,
                                 state := if b.state = 4 && !(s.md.secdel.any fun j => b.number ∈ j.bands) then 3 else b.state } },
    ky := { s.ky with cache := [], kek := [], kekPresent := false, signOff := false, hashBusy := 0 },
    cam := { s.cam with entries := [], copy := [], dir := [], counters := [], parityBad := [], actErr := [], copyBad := [], fromCopy := 0,
                        toCopy := 0, parityHits := 0, lastSweep := 0, cacheHits := 0, loaded := false } }

/-- The links to the twin, to origins, to the chain and to the network go (R273, R292, R306, R474). -/
def State.loseLinks (s : State) : State :=
  { s with
    tw := { s.tw with reached := false, lost := false, missed := 0, lastPoll := none, candidate := false, fenced := false,
                      localOk := false, drain := 0, drainReq := none, impaired := false, staleConfirmed := false,
                      confirmDue := false, hbStopped := false, repairs := [], unasked := [], absents := [], sendForm := 0, dropWaits := false, dropped := 0,
                      resyncing := false, resyncSeen := [],
                      resyncTags := [], inbound := [], sending := [], unsent := [], sentAt := [], rtts := [], lateJoin := none, changing := false,
                      st := ({ s.tw with sendForm := 0, resyncing := false, fenced := false, candidate := false, lost := false } : Twin).restState,
                      witnessState := if s.tw.witnessMode = 0 then 0 else 2,
                      attachReq := s.tw.attachReq.map fun (x : Bytes × Nat × Option MsgReq) => (x.1, x.2.1, none) },
    og := { s.og with fills := [], neg := [], deletes := [],
                      paths := (s.og.paths.filter (!·.retired)).map fun (p : OriginPath) => { p with isOpen := false, retryDelayS := 1 } },
    sk := { s.sk with st := 0, role := 0, beacon := 255, members := 0, tokenRot := 0, lap := 0, flags := 0, replica := [],
                      disabledGlobal := [], cache := [], pending := [], outbox := [], sent := none, rows := [], wins := [],
                      electing := false, electLaps := 0, ringUp := false, change := none, joining := 0, views := [], primarySeen := [], flushDue := false, gather := 0 },
    pt := { s.pt with a := { cfg := s.pt.a.cfg, ifs := s.pt.a.ifs, cnt := s.pt.a.cnt }, b := { cfg := s.pt.b.cfg, ifs := s.pt.b.ifs, cnt := s.pt.b.cnt } } }

/-- Every start begins Untraced with the servos empty; a change of the time state that this is waits to be recorded (R357, R421). -/
def Time.restart (t : Time) : Time :=
  { t with st := .untraced, restarted := t.restarted || t.st != .untraced, steer := 0, leapNow := false, leap := 0, leapDay := none, slew := none, b0 := 0, holdStart := 0, ptp := {},
           pps := {}, ppsEpoch := none, lastEdge := none, ppsIgnored := 0, ptpIgnored := 0, masters := [], master := none,
           gm := 0, conflict := false, conflictRun := 0, offset := 0, everTraceable := false, servoOn := false }

/-- Engines, mailboxes, the download buffer and the power state go; goals, keys and stored images stay, and what mailboxes and
loops count in the drive's life (R395, R402, R415, R419, R421). -/
def State.loseUnits (s : State) : State :=
  { s with
    tm := s.tm.restart,
    me := { s.me with wick := [], taper := [], micro := [], nano := [], taperStores := List.replicate 32 {}, traps := [],
                      customer := 0, progs := [], staging := [], stagingBy := none, unloads := [] },
    mb := { s.mb with boxes := s.mb.boxes.map fun (b : Mailbox) => { msgs := b.msgs }, miWait := none,
                      loops := s.mb.loops.map fun (l : Loop) => { l with state := 0, limitBy := 0 } },
    ck := { s.ck with gated := 0, rootLock := false, dumpHbm := none, applied := [], userApplied := true },
    bt := { s.bt with commit := none, buffer := [], bufferOwner := none, deferred := [] },
    pw := { s.pw with psHost := 0, psNow := 0, psLastOp := 0, critical := false, overdueWork := false, chainRdy := false,
                      uptimeS := 0, curStep := 0 } }

/-- A ledger kept in Lamplighter SRAM goes, and what Wax holds of it stands (R428). -/
def Boot.loseLedger (b : Boot) : Boot := { b with ledger := b.ledgerWax.getD b.ledger, ledgerWax := none }

/-- All that is lost when the drive is reset or loses its power; a running self-test ends with result 8h (R518). -/
def State.loseVolatile (s : State) : State := (((((s.endTest 8 0).loseReservations).loseFront).loseStores.loseLinks).loseUnits).modBt Boot.loseLedger

/-! ## Power-fail and orderly shutdown (R167, R168) -/

/-- The power-fail record, and write protection; the trip time, the writes drained and the supply are free (R167, R504,
log 3). -/
def State.failRecord (s : State) (orderly : Bool) : State :=
  let w (i : Nat) : Nat := (Config.freeWord (s.free + i)).toNat
  let s := (s.blackBox 2 srcDrive [w 0, orderly.toNat, w 1, w 2]).modWx fun x => { x with protectedW := true }
  { s with free := s.free + 3 }

/-- The power-fail sequence: the record, and everything volatile is gone (R167). -/
def State.lastWrites (s : State) : State := (s.failRecord false).loseVolatile

/-- The sequence at a trip of 12 V, which BC_POWER_FAILS counts (R167, R506). -/
def State.powerFail (s : State) : State := s.lastWrites.modBb fun b => { b with powerFails := b.powerFails + 1 }

/-- The orderly shutdown: the open epoch closes, the boot-flash copy is written, then the same sequence (R168, R228, R508). -/
def State.orderly (s : State) : State :=
  let s := (s.whenB s.ky.kekPresent fun s => s.closeEpoch 4).refreshFlash
  ((s.failRecord true).loseVolatile.modBb fun b => { b with orderly := b.orderly + 1 }).modBt fun b => { b with orderlyEnd := true }

/-- The supplies allow a start (R421, R534, R537). -/
def Power.ready (p : Power) : Bool := p.p12v && p.aux && p.load && p.hotSwap && !p.pwrDis && !p.junctionHold && !p.thermalHold

/-- A start falls due with its cause, where the supplies allow one (R421). -/
def State.startDue (s : State) (cause : Nat) : State :=
  if s.pw.ready then { s with pw := { s.pw with phase := .ready }, bt := { s.bt with cause := cause } }
  else { s with pw := { s.pw with phase := .off } }

/-- The trip of 12 V: event records that waited for B4 are lost (R493); the sequence runs, except during a freeze, whose latch is
lost with the power; the drive then waits in reset (R167, R168, R474, R477). -/
def State.trip (s : State) : State :=
  let up := s.pw.phase != .off && s.pw.phase != .tripped && s.pw.phase != .frozen
  let s := if up then s.powerFail else s.loseVolatile.modCk fun k => { k with fzCause := 0 }
  (s.modEv fun e => { e with early := [] }).modPw fun p => { p with p12v := false, cfs := false, phase := .tripped }

/-- The always-on rail follows its supplies; without them the endpoint does not answer and holds no EID (R409, R420, R533,
log 38). -/
def State.rail (s : State) : State :=
  if s.pw.aux || s.pw.p12v || !s.pw.hotSwap then s.modMb fun m => { m with endpoint := true }
  else s.modMb fun m => { m with endpoint := false, eid := none, mtu := 64 }

/-- POWER_FAIL_TRIP. -/
def execPowerFailTrip (s : State) : Res := finishReset s s.trip.rail

/-- POWER_GOOD: 12 V above 11.4 V for 100 ms; the start at B0 falls due once the auxiliary supply is in range too (R168,
R421). -/
def execPowerGood (s : State) : Res :=
  finish s (
    let s := (s.modPw fun p => { p with p12v := true }).rail
    if s.pw.phase == .tripped || s.pw.phase == .off then s.startDue 1 else s)

/-! ## The steps of a start and their slots (R422, R423, R428) -/

/-- Maximum time of each step in µs (R422). -/
def stepMaxUs : List Nat :=
  [200000, 500000, 20000, 50000, 1000000, 3000000, 1000000, 20000000, 500000, 100000, 100000, 10000000, 1000000, 500000, 100000]

/-- Maximum time of a step by its method: the alternatives of B6 and B7 have their own, 100 ms for each of the 512 dies and 3,600 s (R422). -/
def stepMax (n method : Nat) : Nat :=
  if method = 0 then stepMaxUs.getD n 0 else if n = 6 then 100000 * 512 else if n = 7 then 3600000000 else stepMaxUs.getD n 0

def stepRequired (n : Nat) : Bool := decide (n < 10) || n == 14
def stepHasAlternative (n : Nat) : Bool := decide (1 ≤ n) && decide (n ≤ 13)

/-- The method of a step: forced on the start that DIAG.BOOT_RESTART asks for, alternative after a normal one that did not end or failed,
otherwise normal (R423, R433). -/
def State.methodFor (s : State) (n : Nat) : Nat :=
  let p := (((s.bt.ledger.drop 1).head?.map (·.steps)).getD []).getD n {}
  if !stepHasAlternative n then 0
  else if s.bt.force.getLsbD n then 2
  else if (p.state == 1 || p.state == 3) && p.method == 0 then 1 else 0

/-- A step begins: its slot is written first; the times are free within the step's maximum (R428, log 3). -/
def State.beginStep (s : State) (n method : Nat) : State :=
  let t := ((s.bt.ledger.head?.map fun e => (e.steps.map (·.ended)).foldl max 0)).getD 0
  let s := s.modPw fun p => { p with curStep := n }
  let s := s.writeSlot n fun x => { x with state := 1, method := method, began := t }
  s.whenB (method != 0) fun s => s.modBt fun b => { b with alternative := true }

def State.endStep (s : State) (n detail : Nat) : State :=
  let d := (Config.freeWord s.free).toNat % (stepMax n (s.slotOf n).method + 1)
  s.spend.writeSlot n fun x => { x with state := 2, detail := detail, ended := x.began + d }

/-- A step fails, with the event code of the failure; one that passes its maximum time ends there (R425, R428). -/
def State.failStep (s : State) (n unit : Nat) (name : String) (late : Bool := false) : State :=
  let m := stepMax n (s.slotOf n).method
  let d := if late then m else (Config.freeWord s.free).toNat % (m + 1)
  s.spend.writeSlot n fun x => { x with state := 3, fault := codeOf unit name, ended := x.began + d }

/-- A step that is left out: by its alternative method, by request, or by rule (R422, R423, R433). -/
def State.skipStep (s : State) (n method : Nat) : State :=
  let s := (s.modPw fun p => { p with curStep := n }).writeSlot n fun x => { x with state := 4, method := method }
  s.whenB (method == 1 || method == 2) fun s => s.modBt fun b => { b with alternative := true }

/-- The start fails at the present step: it holds in reset after B0, and otherwise starts again 1 s later (R425, R426). -/
def State.failStart (s : State) (name : String) (late : Bool := false) : State :=
  let n := s.pw.curStep
  let s := s.failStep n 1 name late
  let s := (s.eventP 1 name n 0 0).markFailed.loseVolatile
  s.modPw fun p => { p with phase := if n = 0 then .b0Failed else .failedStart }

/-! ## The steps (R422 to R427) -/

/-- The latest time the ROM can read at B0 (R354). -/
def State.romTime (s : State) : Nat :=
  let newest := s.bb.flash.foldl (fun (a : Option FlashCopy) f => if a.any fun g => decide (f.gen ≤ g.gen) then a else some f) none
  let copy := newest.toList.flatMap fun f =>
    f.time :: ((f.fault ++ f.perm ++ f.tail).map (·.time) ++ f.starts.map (·.time) ++ f.kept.map (·.time))
  ((s.bt.ledger.map (·.time)) ++ ((s.bb.fault ++ s.bb.perm ++ s.bb.tail).map (·.time)) ++ s.bb.starts.map (·.time) ++ copy).foldl max s.ck.cfhTime

/-- The latest time in the rest of the Wax records: the event log and the epoch roots (R354). -/
def State.waxTime (s : State) : Nat :=
  let roots := (s.ky.waiting ++ s.ky.store).map (·.root) ++ s.ky.roots.map (·.root) ++ s.ky.lastRoot.toList
  ((s.ev.kept ++ s.ev.circ ++ s.ev.buffer).map (·.time) ++ roots.map fun r => natAt r 40 8).foldl max 0

/-- A held freeze latch becomes a freeze record, an event record and a count (R477, R504, R506). -/
def State.saveLatch (s : State) : State :=
  let k := s.ck
  if k.fzCause = 0 then s
  else
    let s := s.blackBox 3 srcDrive
      [1 + 2 * k.fzCause, k.fzLifecycle, k.fzDebug, k.fzTq.toNat, k.fzPs, k.fzTime, k.fzStart, k.fzHbmSr]
    let s := s.eventP 0x11 "Freeze record" k.fzCause k.fzStart 0
    { s with ck := { s.ck with fzCause := 0 }, bb := { s.bb with freezes := s.bb.freezes + 1 } }

/-- Debug ends at a start: Debug-open becomes Sealed, and an open level closes, with their records (R443, R454, R458). -/
def State.endDebug (s : State) : State :=
  let s := s.whenB (s.lifecycle == .debugOpen) fun s => (s.blackBox 5 srcDrive [2, 1, 0, srcDrive]).eventP 0x11 "Lifecycle changed" 2 1 0
  let s := s.whenB (s.li.level != 0) fun s => s.blackBox 6 srcDrive [2, s.li.level]
  s.modLi fun l => { l with debugOpen := false, level := 0, d1End := none, nonce := none, refusals := 0, waitUntil := 0,
                            curtainReq := none, halted := false }

/-- Pilot-light mode is entered: BLP_PILOT, the count and the record (R430, R506). -/
def State.enterPilot (s : State) (why : Nat) : State :=
  if s.bt.pilot ≠ 0 then s
  else
    let s := (s.modBt fun b => { b with pilot := why }).startFailure s.pw.curStep
    (s.modBb fun b => { b with pilots := b.pilots + 1 }).eventP 1 "Pilot-light mode entered" why 0 0

/-- B0: the straps, the ledger, the start that died, the latch and the clock; a ledger that cannot be written leaves its cause in the boot-flash
copy of the black box (R354, R426, R428, R477, R530). -/
def State.stepB0 (s : State) (env : BootEnv) : State :=
  let s := s.saveLatch
  if env.ledgerWritable then s
  else ((s.blackBox 13 srcDrive [1]).enterPilot 4).refreshFlash


/-- A slot's image passes B1: it checks, and its security version is at or above the floor (R437). -/
def Boot.passes (b : Boot) (i : Nat) : Bool := (b.slotImage i).any fun g => decide (b.floor ≤ g.svn)

/-- The image that the last start used, where it reached B1 and was not under ROM recovery. -/
def Boot.lastImage (b : Boot) : Option Nat :=
  ((b.ledger.drop 1).head?.filter fun e => (e.steps.getD 1 {}).state != 0 && decide (e.image < 2)).map (·.image)

/-- The image B1 takes: BR_TRIAL or BR_ACTIVE; the one that the last start did not use after two failed starts, and by the alternative method;
by force the other of the two (R422 to R424, R433, R434). The other image of the alternative method is other than the one that has just
failed (DEDUCED, log 31). -/
def Boot.chosen (b : Boot) (method : Nat) : Nat :=
  let want := b.brTrial.getD b.brActive
  match b.lastImage with
  | some i => if 2 ≤ b.fails || method == 1 then 1 - i else if method = 0 then want else 1 - want
  | none => if method = 0 then want else 1 - want

/-- The image of this start stands in its header and in the slot of B1, before the work of B1 begins (R424, R428). -/
def State.noteImage (s : State) (i : Nat) : State :=
  (s.modBt fun b =>
    { b with ledger := match b.ledger with
        | [] => []
        | e :: t => { e with image := i } :: t }).writeSlot 1 fun x => { x with detail := i }

/-- The secrets a drive draws on its first start in Blank: UDS, subsystem UUID, hash seed and KEK salt (R49, R114, R218,
R444, log 2). -/
def State.drawSecrets (s : State) : State :=
  if s.ky.uds ≠ [] then s
  else
    let uuid := uuidText (Config.freeBytes (s.free + 1) 16)
    { s with
      ky := { s.ky with uds := Config.freeBytes s.free 32, kekSalt := Config.freeBytes (s.free + 3) 32 },
      fe := { s.fe with subsysNqn := uuidPrefix ++ uuid },
      ix := { s.ix with seed := Config.freeBytes (s.free + 2) 16 }, free := s.free + 4 }

/-- B1: image selection with the image's patches, and the KEK; with no image that passes the start goes on under ROM recovery (R218, R387,
R422, R426, R434 to R437). None: the chosen image does not pass. -/
def State.stepB1 (s : State) (method : Nat) : Option (State × Nat) :=
  let s := (s.drawSecrets).modKy fun k => { k with kek := kekOf k.uds k.kekSalt, kekPresent := true }
  let i := s.bt.chosen method
  let run (s : State) (i : Nat) : State := (s.noteImage i).modBt fun b => { b with running := i }
  if !s.bt.passes 0 && !s.bt.passes 1 then some (((((run s 2).modBt fun b => { b with patch := 0 }).modMe fun m => m.loadPatch none).enterPilot 2), 2)
  else if !s.bt.passes i then none
  else
    let g := s.bt.slotImage i
    some ((((run s i).modBt fun b => { b with patch := ((g.map (·.patchVer)).getD 0) }).modMe fun m => m.loadPatch (g.map (·.hash))).modTw
      fun t => { t with proto := (g.map (·.twinProto)).getD t.proto }, i)

/-- B3: the calibration merge, with the first copy of the factory record whose digest matches, and by the alternative method with factory values
only (R422, R483 to R485). None: neither copy matches. -/
def State.stepB3 (s : State) (env : BootEnv) (method : Nat) : Option State :=
  if env.factoryBad.contains 0 && env.factoryBad.contains 1 then none
  else some (s.modCk fun k => { k with userApplied := method == 0, cal := k.cal.spoil env.userBad }).calStart

/-- B4: Wax, the event records that waited, the clock and the journal (R170, R173, R217, R354, R493, R498). -/
def State.stepB4 (s : State) (env : BootEnv) (method : Nat) : State :=
  let s := s.endHold (if s.bt.cause = 1 then 5 else 4)
  let before := ((s.bt.ledger.drop 1).head?.map fun e => (e.steps.getD 4 {}).state != 2).getD false
  let s := s.whenB (before && s.bt.cause == 1) fun s => s.unitEvent 0x1205 3 0 0 0
  let s := { s with
    ev := s.ev.writeEarly,
    wx := { s.wx with protectedW := false, failedPkgs := [],
                      head := (s.wx.head / Figure.segmentGranules + 1) * Figure.segmentGranules % Figure.stagingGranules },
    tm := { s.tm with clock := max s.tm.clock (max env.waxTime s.waxTime) },
    bt := { s.bt with waxSlow := method != 0 } }
  s.readWax env

/-- The training values of a start: free where HBM3 is trained, and by the alternative method those of the last good start; without any it is
trained (R422 B5, R425, log 3). -/
def State.train (s : State) (method : Nat) : State :=
  match method, s.bt.trainStored with
  | _ + 1, some v => s.modBt fun b => { b with train := v }
  | _, _ => s.spend.modBt fun b => { b with train := (Config.freeWord s.free).toNat }

/-- B5: HBM3 training; a stack that fails is lost, and firmware then turns the cache on (R133, R149, R422). None: no stack
trained. -/
def State.stepB5 (s : State) (env : BootEnv) (method : Nat) : Option (State × Nat) :=
  if !env.stack0 && !env.stack1 then none
  else
    let half := !env.stack0 || !env.stack1
    some (((s.train method).modIx fun x => { x with lost := [!env.stack0, !env.stack1] }).modMc fun m =>
      { m with enable := true, rgn := cacheRegions half, twoStacks := !half }, env.stack0.toNat + 2 * env.stack1.toNat)

/-- A block set whose header is torn or whose erase was cut short is erased again: nothing stands on it, and at 3,000 erases it is retired
(R178, R200). -/
def State.eraseTorn (s : State) (x : Nat × Nat × Nat) : State :=
  let off (g : Nat) : Bool := naMember g != x
  let s := s.modMd fun m =>
    { m.erased x with
      headers := m.headers.filter (·.1 ≠ x), nand := m.nand.filter fun p => off p.1, internal := m.internal.filter fun p => off p.1,
      badNand := m.badNand.filter off, due := m.due.filter off }
  s.whenB (decide (3000 ≤ (s.md.set x).erases)) fun s => s.retireSet x

/-- The band table as the headers give it. A band that has lost a member while it was open ends, and one without a member left is free, a
Secure Delete that waited for it too (R178, R184, R203, log 30). -/
def State.readHeaders (s : State) : State :=
  let found (b : Band) : List (Nat × Nat × Nat) := censusMembers s.md.headers b.number b.openSeq
  let s := (s.md.bands.filter fun b => b.state == 1 && found b != b.members).foldl (fun s b => s.endBand b) s
  let gone := (s.md.bands.filter fun b => (found b).isEmpty).map (·.number)
  let s := s.modMd fun m => { m with bands := (m.bands.map fun b => { b with members := found b }).filter (fun b => !b.members.isEmpty),
                                     internal := m.internal.filter fun p => !(gone.any p.2.listOf),
                                     intWaits := m.intWaits.filter fun p => !(gone.any p.listOf) }
  (gone.foldl State.secdelBand s).retryInternal.settleVerify

/-- B6: the census: block sets to erase again, the band table, the dies that do not answer, and at the first one the spare bands that log
02h measures against (R178, R201, R202). -/
def State.stepB6 (s : State) (env : BootEnv) : State × Nat :=
  let new := env.diesLost.filter fun d => d ∉ s.md.diesLost
  let s := (env.torn.foldl State.eraseTorn s).readHeaders
  let s := new.foldl (fun s (d : Nat × Nat) => s.dieLeaves true d.1 d.2) s
  (s.modMd fun m => if m.censused then m else { m with spareFirst := m.spareBands, censused := true }, new.length)

/-- A base page that fails its check gives back what the record heads of the CLOSED bands show: a slot of it whose record no longer reads there
is gone. What lies in Wax and in bands still open the deltas and the journal give back (R422 B7; DEDUCED, log 30). -/
def State.rebuildPages (s : State) (pages : List Nat) : State :=
  let onPage (p : Place) : Bool := match p with
    | .slot r _ => decide (s.ix.page r ∈ pages)
    | .spilled _ => false
  let headless (t : Slot) : Bool := match t.loc with
    | .wax _ => false
    | .nand g => decide (g ∈ s.md.badNand) && (s.md.bandOf g).any fun b => b.state == 3
  (s.ix.all.filter fun p => onPage p.1 && headless p.2).foldl
    (fun s p => match s.recAt p.2.loc with
      | some r => (s.removeKey r.nsid r.key).forget r.nsid r.seq
      | none => s) s

/-- B7: Ember recovery, by the alternative method with every base page checked, the journal, and the geometry the stacks allow (R131, R133,
R171, R422). -/
def State.stepB7 (s : State) (env : BootEnv) (method : Nat) : State :=
  let s := s.modIx fun x => { x with present := true }
  let s := (s.whenB (method != 0) fun s => s.rebuildPages env.pagesBad).applyJournal
  if s.ix.lost.any id then s.halfIndex else if s.ix.half then s.reinsert false else s

/-- B8: the CAM, the action table and the copies from the rule image; a record whose CE_CRC fails, or by the alternative method one of the
checks, is loaded disabled, and the rule image says so (R251, R257, R422). One that its directory gives VALID = 0 is never disabled: a blank
record takes its place (DEDUCED from R256, log 42). A disabled global entry is announced as the drive joins. -/
def State.stepB8 (s : State) (method : Nat) : State :=
  let load (s : State) (x : Nat × CamEntry × CamDir) : State :=
    let (a, e, d) := x
    let ok := e.crc == e.computed && (method == 0 || (camCheck s [] e).isNone)
    let s := s.modCam fun c => { c with entries := setAssoc a e c.entries, copy := setAssoc a e c.copy, dir := setAssoc a d c.dir }
    if !d.disabled && !ok && !d.valid then
      (s.modCam fun c => { c.store a CamEntry.blank CamEntry.blank.dir 0 with fromCopy := c.fromCopy + 1 }).event 7 "CAM entry repaired from its copy"
    else if d.disabled || !ok then
      let s := (s.modCam fun c => c.disable a).whenB (!d.disabled) fun s => s.event 7 "CAM entry disabled"
      s.whenB d.isGlobal fun s => s.modSk fun k =>
        { k with disabledGlobal := k.disabledGlobal ++ [(s.pw.pos, a, d.nsid, d.nsidMask)], flags := k.flags ||| 8 }
    else s
  (s.cam.image.foldl load s).modCam fun c => { c with loaded := true }

/-- B9: MAC, PCS and negotiation start on the enabled ports; by the alternative method, a port whose start did not end in
100 ms stays disabled for this start (R328, R422). -/
def State.stepB9 (s : State) (env : BootEnv) (method : Nat) : State :=
  let late (n : Nat) : Bool := method != 0 && env.portsLate.contains n
  (s.modPt fun p => { p with a := { p.a with pllLocked := true, startDisabled := late 0 },
                             b := { p.b with pllLocked := true, startDisabled := late 1 } }).refreshGroups

/-- B11: the twin link forms and records are resolved, or the drive goes on as one whose twin is lost (R280, R281, R422). -/
def State.stepB11 (s : State) (env : BootEnv) : State × Nat :=
  let s := s.whenB s.paired State.reachTwin
  match env.twin with
  | some p => (s.linkFormed p, 0)
  | none => (s.twinLost, 1)

/-- B12: the stack join; without one the drive is a relay (R323, R422). -/
def State.stepB12 (s : State) (env : BootEnv) : State × Nat :=
  if env.stackJoined then (s.startJoin, 0) else (s.modBt fun b => { b with offServices := 12 :: b.offServices }, 1)

/-- What the first Sealed start does: the receipt key pair, and the wear bank filled (R197, R227, R445). -/
def State.firstSealed (s : State) : State :=
  if s.lifecycle != .isSealed then s
  else
    { s with
      ky := { s.ky with receiptKey := true },
      li := { s.li with sealedStarts := s.li.sealedStarts + 1 },
      md := { s.md with bank := if s.md.bankFilled then s.md.bank else 30 * s.md.accrual, bankFilled := true } }

/-- B14: the epoch that was open is closed, and service opens (R172, R422, R427). -/
def State.stepB14 (s : State) : State :=
  let s := ((s.closeEpoch 2).firstSealed).modMd fun m => { m with patrolStart := s.pw.powerOnS }
  s.modFe fun f => { f with listening := true }

/-- A step that its rule leaves out of this start (R422). -/
def State.skipByRule (s : State) (n : Nat) : Bool :=
  match n with
  | 10 => !s.tm.ptpA.enabled && !s.tm.ptpB.enabled && !s.tm.ppsOn
  | 11 => s.tw.role == .solo
  | 12 => !s.sk.enabled
  | 13 => s.me.stored.isEmpty
  | _ => false

/-- The services of a skipped step stay off; the servo, the twin and the stack are tried 60 s after B14 (R422). -/
def State.defer (s : State) (n : Nat) : State :=
  let s := if n = 11 then s.twinLost else s
  if n = 13 then s else s.modBt fun b => { b with deferred := b.deferred ++ [n], offServices := n :: b.offServices }

/-- The work of a step; none is a failure. The number is BL_DETAIL. -/
def State.work (s : State) (env : BootEnv) (method : Nat) : Nat → Option (State × Nat)
  | 0 => some (s.stepB0 env, 0)
  | 1 => s.stepB1 method
  | 2 => some (s.modCk fun k => { k with rootLock := true, wideBand := method != 0 }, 0)
  | 3 => (s.stepB3 env method).map fun t => (t, 0)
  | 4 => some (s.stepB4 env method, 0)
  | 5 => s.stepB5 env method
  | 6 => some (s.stepB6 env)
  | 7 => some (s.stepB7 env method, 0)
  | 8 => some (s.stepB8 method, 0)
  | 9 => some (s.stepB9 env method, 0)
  | 10 => some (s.modTm fun t => { t with servoOn := true }, 0)
  | 11 => some (s.stepB11 env)
  | 12 => some (s.stepB12 env)
  | 13 =>
    let s := s.loadStored
    some (s, s.me.progs.length)
  | _ => some (s.stepB14, 0)

/-- A Wax package fails training at B4: Pilot-light mode at once, the data untouched, and records read from boot flash (R174, R426, R430,
R504, log 29). -/
def State.waxFails (s : State) (package : Nat) : State :=
  let s := (s.failStep 4 4 "Wax package failed training").modBt fun b => { b with waxFailed := true }
  let s := (s.modWx fun w => { w with failedPkgs := [package] }).blackBox 10 srcDrive [package, 0, 0, 0]
  ((s.blackBox 13 srcDrive [2]).event 4 "Wax package failed training").enterPilot 3

/-- One step of a start; the flag says that the start goes on (R422 to R426, R431). -/
def State.bootStep (env : BootEnv) (x : State × Bool) (n : Nat) : State × Bool :=
  let (s, go) := x
  let m := s.methodFor n
  let pilotSkips := s.bt.pilot != 0 && !(n ∈ [0, 1, 2, 3, 4, 9])
  if !go then (s, false)
  else if pilotSkips || s.skipByRule n then (s.skipStep n 3, true)
  else if 10 ≤ n && n ≤ 13 && (s.bt.skip.getLsbD n || m != 0) then
    ((s.skipStep n (if s.bt.skip.getLsbD n then 3 else m)).defer n, true)
  else
    let s := s.beginStep n m
    let s := s.whenB (n == 1) fun s => s.noteImage (s.bt.chosen m)
    if env.hangAt = some n then (s, false)
    else if n = 4 && env.waxFailed.isSome then (s.waxFails (env.waxFailed.getD 0), true)
    else if env.failAt = some n then
      if stepRequired n then (s.failStart "Boot step failed", false)
      else (((s.failStep n 1 "Boot step failed").event 1 "Boot step failed").defer n, true)
    else
      match s.work env m n with
      | some (t, d) => (t.endStep n d, true)
      | none => (s.failStart "Boot step failed", false)

/-- The beginning of a start: the volatile state is gone, the start that died is marked failed, debug ends, the clock
starts, and a new ledger entry stands (R354, R421, R428, R430, R433). -/
def State.openStart (s : State) (env : BootEnv) (cause : Nat) : State :=
  let s := s.loseVolatile
  let died := s.bt.ledger.head?.any fun e => e.outcome == 0
  let s := s.modPw fun p => { p with phase := .starting, cfs := false, pos := env.pos % 16 }
  let s := (s.whenB env.flashTorn fun s => s.modBb fun b => { b with flash := b.flash.dropLast }).modTm fun t => { t with clock := s.romTime }
  let s := s.whenB (died && !s.bt.orderlyEnd) State.markFailed
  let s := (s.whenB s.tm.restarted fun s => s.event 0xD "time state changed").modTm fun t => { t with restarted := false }
  let s := s.endDebug
  let e : StartEntry := { start := s.bt.starts + 1, image := 0, outcome := 0, fails := s.bt.fails, cause := cause, time := s.now,
                          steps := List.replicate 15 {} }
  let s := s.modBt fun b =>
    { b with ledger := (e :: b.ledger).take 63, starts := b.starts + 1, good := false, alternative := false, paused := false,
             activated := none, orderlyEnd := false, offServices := [], cause := cause, waxSlow := false, waxFailed := false,
             ledgerWax := if env.ledgerWritable then none else some b.ledger,
             force := if cause = 4 then b.force else 0, skip := if cause = 4 then b.skip else 0,
             br := b.br.spoil env.recordBad }
  s.whenB (s.bt.fails == 3) fun s => s.enterPilot 1

/-- The end of a start that reached B14: service, or Pilot-light mode, which serves in band only with a firmware image and
Wax (R427, R431). -/
def State.closeStart (s : State) : State :=
  let s := (s.modBt fun b => { b with force := 0, skip := 0 }).logChanged 5
  if s.bt.pilot = 0 then s.modPw fun p => { p with phase := .serving, uptimeS := 0 }
  else
    let s := ((s.writeOutcome 3).copyHead).modPw fun p => { p with phase := .pilot, uptimeS := 0 }
    s.modFe fun f => { f with listening := s.bt.running != 2 && !s.bt.waxFailed }

/-- A whole start, as far as its environment lets it come (R422). -/
def State.startUp (s : State) (env : BootEnv) (cause : Nat) : State :=
  let (t, done) := (List.range 15).foldl (State.bootStep env) (s.openStart env cause, true)
  if done then t.closeStart else t

/-- START: the start that is due, once the supplies allow it, or the restart 1 s after a fatal fault, with cause 02h, which the power-fail
sequence goes before (R421, R422). -/
def execStart (env : BootEnv) (s : State) : Res :=
  finishReset s (
    if s.pw.phase == .ready && s.pw.ready then s.startUp env s.bt.cause
    else if s.pw.phase == .fatal && s.pw.ready then s.lastWrites.startUp env 2 else s)

/-- BOOT_STEP_TIMEOUT: the step in progress has passed its maximum time (R425). -/
def execBootStepTimeout (s : State) : Res :=
  finishReset s (if s.pw.phase == .starting then s.failStart "Boot step timeout" true else s)

/-- HARDWARE_WATCHDOG: the Lamplighter is reset and a start with cause 05h falls due; a drive that has started runs the power-fail sequence
first (DEDUCED: one that still starts is not running, log 30); a probe that holds it halted suspends
the watchdog (R421, R425, R450). -/
def execHardwareWatchdog (s : State) : Res :=
  finishReset s (
    if s.alive && !s.li.halted then ((if s.pw.phase == .starting then s.loseVolatile else s.lastWrites).modPw fun p => { p with cfs := false }).startDue 5 else s)

/-- FATAL_FAULT: CSTS.CFS, the record, and a failed start unless this one is good and confirmed (R421, R425, R441). -/
def execFatalFault (code : Nat) (s : State) : Res := finish s (if s.alive then s.fatal code else s)

/-- FAILED_START_RESTART: 1 s after a failed start, with cause 03h (R425). -/
def execFailedStartRestart (env : BootEnv) (s : State) : Res :=
  finishReset s (if s.pw.phase == .failedStart && s.pw.ready then s.startUp env 3 else s)

/-- START_GOOD: 10 min of service (R425, R428, R434). -/
def execStartGood (s : State) : Res :=
  finish s (
    if !s.serving || s.bt.good then s
    else
      let s := (s.writeOutcome 1).copyHead
      (s.modBt fun b =>
        let took := b.brTrial == some b.running
        { (if took then b.setRecord b.running none else b) with
          good := true, fails := 0, trainStored := some b.train, activeSince := if took then s.pw.powerOnS else b.activeSince }).logChanged 5)

/-- DEFERRED_BOOT_STEP: 60 s after B14 the servo, the rejoin or the join of a skipped step starts (R422). -/
def execDeferredBootStep (stepNo : Nat) (s : State) : Res :=
  finish s (
    if !s.serving || !(stepNo ∈ s.bt.deferred) then s
    else
      let s := s.modBt fun b => { b with deferred := b.deferred.filter (· ≠ stepNo), offServices := b.offServices.filter (· ≠ stepNo) }
      match stepNo with
      | 10 => s.modTm fun t => { t with servoOn := true }
      | 11 => s.whenB s.paired State.reachTwin
      | 12 => s.whenB s.sk.enabled State.startJoin
      | _ => s)

/-! ## DIAG.BOOT_RESTART and the floor (R433, R438) -/

/-- The first field of DIAG.BOOT_RESTART that fails: a forced step without an alternative, a skipped required step, a
reserved byte (R433). -/
def bootMapsBad (p : Bytes) : Option Nat :=
  let force := natAt p 0 2
  let skip := natAt p 2 2
  if (List.range 16).any fun n => force.testBit n && !stepHasAlternative n then some 0
  else if (List.range 16).any fun n => skip.testBit n && (stepRequired n || decide (14 < n)) then some 2
  else if !allZero (bytesAt p 4 4) then some 4 else none

/-- DIAG.BOOT_RESTART: the reply leaves before the shutdown (R168, R432, R433, log 30). -/
def hBootRestart : Handler := fun s m =>
  let p := m.payload
  if p.length ≠ 8 then saying s (refuse .length)
  else
    match bootMapsBad p with
    | some o => saying s (badField o)
    | none =>
      if s.tw.role == .primary then saying s (refuse .stateRefused)
      else
        let s := (s.reply 0x0A 0x40 m {}).orderly
        let s := s.modBt fun b =>
          { b with fails := 0, pilot := 0, force := BitVec.ofNat 16 (natAt p 0 2), skip := BitVec.ofNat 16 (natAt p 2 2) }
        (s.startDue 4, none)

def execDiagBootRestart (m : MsgReq) (s : State) : Res := finishReset s (s.message 0x0A 0x40 hBootRestart m)

/-- FLOOR_RAISE: fuse bits are blown up to the FW_FLOOR of an image that has been BR_ACTIVE for 24 h of power-on time, where both slots are at
or above it (R438). -/
def execFloorRaise (s : State) : Res :=
  finish s (
    match s.bt.slotImage s.bt.running with
    | none => s
    | some g =>
      let both := [0, 1].all fun i => (s.bt.slotImage i).any fun x => decide (g.floor ≤ x.svn)
      if !s.serving || s.bt.running ≠ s.bt.brActive || !both || decide (s.pw.powerOnS < s.bt.activeSince + 86400) || decide (g.floor ≤ s.bt.floor) then s
      else
        let old := s.bt.floor
        let s := (s.modBt fun b => { b with floor := g.floor }).blackBox 7 srcDrive [2, old, g.floor]
        ((s.blackBox 14 srcDrive [1, old, g.floor]).eventP 1 "Security version floor raised" old g.floor 0).logChanged 5)

/-! ## Log C5h (R428, R429) -/

def StartEntry.bytes (e : StartEntry) : Bytes := e.head.bytes ++ e.steps.flatMap StepSlot.bytes

def State.logC5 (s : State) : Bytes :=
  let b := s.bt
  let svn (i : Nat) : Nat := ((b.slotImage i).map (·.svn)).getD 255
  s.vendorPage 0xC5 (leBytes 1 b.fails ++ leBytes 1 b.running ++ leBytes 1 (b.brTrial.getD 255) ++ leBytes 1 b.floor
    ++ leBytes 1 (svn 0) ++ leBytes 1 (svn 1) ++ leBytes 2 b.ledger.length ++ leBytes 8 b.starts ++ leBytes 1 b.pilot
    ++ List.replicate 47 0 ++ b.ledger.flatMap StartEntry.bytes)

end Sys2Proof.Machine
end

