-- ==== Sys2Proof/Machine/Firmware.lean ====
section
/-! DEFINITION. Firmware (R110, R384, R413, R434 to R441): the download buffer, Firmware Commit, and activation without
reset. -/

namespace Sys2Proof.Machine

/-- Size of the download buffer and of the largest image (R435, R436). -/
def fwMax : Nat := 25165824

/-- A Firmware Commit runs (R436). -/
def Boot.committing (b : Boot) : Bool := b.commit.isSome

/-- Under ROM recovery or with Wax failed, a download goes straight into slot 2 (R436). -/
def Boot.inPlace (b : Boot) : Bool := b.running == 2 || b.waxFailed

/-- Firmware Image Download: the buffer belongs to the controller whose download carried offset 0; offsets and lengths are
multiples of 4 KiB (R64, R436, log 31). -/
def State.download (s : State) (a : Adm) (offset : Nat) (data : Bytes) : State :=
  if s.bt.committing then s.admDone a .commandSequenceError
  else if s.bt.bufferOwner.any (· ≠ a.ctrl) ∨ (s.bt.bufferOwner = none ∧ offset ≠ 0) then s.admDone a .commandSequenceError
  else if fwMax < offset + data.length ∨ offset % 4096 ≠ 0 ∨ data.length % 4096 ≠ 0 then s.admDone a .invalidField
  else (s.modBt fun b => { b with buffer := setAssoc offset data b.buffer, bufferOwner := some a.ctrl,
                                  imageB := if b.inPlace then none else b.imageB }).admDone a .success

def execFirmwareImageDownload (a : Adm) (offset : Nat) (data : Bytes) (s : State) : Res :=
  finish s (s.admin (.firmwareImageDownload a offset data) a false false true fun s => s.download a offset data)

/-- The bytes of the buffer, where its pieces leave no gap. -/
def Boot.assembled (b : Boot) : Option Bytes :=
  (b.buffer.mergeSort fun x y => x.1 ≤ y.1).foldl
    (fun (acc : Option Bytes) (p : Nat × Bytes) => acc.bind fun l =>
      if p.1 ≤ l.length then some (l.take p.1 ++ p.2 ++ l.drop (p.1 + p.2.length)) else none) (some [])

/-- An image whose header, CRC and signatures check (R435). -/
def fwCheck (b : Bytes) : Option FwImage :=
  let n := b.length
  let ok := natAt b 0 4 == 0x46574B54 && natAt b 4 1 == 1 && decide (natAt b 5 1 ≤ 64) && decide (natAt b 6 1 ≤ natAt b 5 1)
    && natAt b 7 1 == 0 && natAt b 16 4 == n && n % 4096 == 0 && decide (4096 ≤ n) && decide (n ≤ fwMax)
    && allZero (bytesAt b 36 24) && natAt b 60 4 == (crc32c (b.take 60)).toNat
    && Config.hybridVerify Config.firmwareKey (b.take (n - 3405)) (bytesAt b (n - 3405) 96) (bytesAt b (n - 3309) 3309)
  if ok then some { svn := natAt b 5 1, floor := natAt b 6 1, rev := bytesAt b 8 8, len := n, hoFormat := natAt b 28 2, hoMin := natAt b 30 2,
                    twinProto := natAt b 32 2, patchVer := natAt b 34 2, hash := sha384 b }
  else none

/-- The image slot an action names: slot 0 is the one not running; with a download in place only slot 2 can be named (R434,
R436). -/
def Boot.slotIndex (b : Boot) (slot : Nat) : Option Nat :=
  if b.inPlace then (if slot = 0 ∨ slot = 2 then some 1 else none) else
  if slot = 0 then some (if b.running = 0 then 1 else 0) else if slot ≤ 2 then some (slot - 1) else none

/-- An image speaks its own twin protocol version and the one before; the pair's version and the one before it are what the
twin speaks (R435, R436). -/
def speaks (g : FwImage) (pair : Nat) : Bool := g.twinProto == pair || g.twinProto == pair + 1 || g.twinProto + 1 == pair

/-- The checks of actions 000b, 001b and 011b in order: the slot and the image, or the first status that applies (R436). -/
def State.commitCheck (s : State) (slot : Nat) (activate : Bool) : Except Status (Nat × FwImage) :=
  let b := s.bt
  match b.slotIndex slot with
  | none => .error .invalidFirmwareSlot
  | some i =>
    if i = b.running then .error .invalidFirmwareSlot
    else match b.assembled.bind fwCheck with
      | none => .error .invalidFirmwareImage
      | some g =>
        if g.svn < b.floor || (activate && ((s.paired && !speaks g s.tw.proto) || s.sanitizing)) then .error .fwActivationProhibited
        else if activate && decide (((b.slotImage b.running).map (·.hoFormat)).getD 0 < g.hoMin) then .error .fwNeedsConventionalReset
        else .ok (i, g)

/-- The image is written to its slot, and the download buffer is free (R436). -/
def Boot.writeSlotImage (b : Boot) (i : Nat) (g : FwImage) : Boot :=
  { b with imageA := if i = 0 then some g else b.imageA, imageB := if i = 0 then b.imageB else some g, buffer := [], bufferOwner := none }

/-- Actions 000b and 001b. -/
def State.commitReplace (s : State) (a : Adm) (slot : Nat) (trial : Bool) : State :=
  if s.bt.committing then s.admDone a .fwActivationProhibited
  else match s.commitCheck slot false with
    | .error st => s.admDone a st
    | .ok (i, g) =>
      (((s.modBt fun b =>
        let b := b.writeSlotImage i g; if trial then b.setRecord b.brActive (some i) else b).logChanged 5)).admDone a .success

def execFirmwareCommitReplace (a : Adm) (slot : Nat) (s : State) : Res :=
  finish s (s.admin (.firmwareCommitReplace a slot) a true false true fun s => s.commitReplace a slot false)

def execFirmwareCommitReplaceTrial (a : Adm) (slot : Nat) (s : State) : Res :=
  finish s (s.admin (.firmwareCommitReplaceTrial a slot) a true false true fun s => s.commitReplace a slot true)

/-- Action 010b: BR_TRIAL is set to a slot with a valid image, or cleared by the running slot (R436). -/
def State.commitTrial (s : State) (a : Adm) (slot : Nat) : State :=
  if s.bt.committing then s.admDone a .fwActivationProhibited
  else match s.bt.slotIndex slot with
    | none => s.admDone a .invalidFirmwareSlot
    | some i =>
      let set (s : State) (t : Option Nat) : State :=
        ((s.modBt fun b => { b.setRecord b.brActive t with buffer := [], bufferOwner := none }).logChanged 5).admDone a .success
      if i = s.bt.running then set s none
      else if (s.bt.slotImage i).isNone then s.admDone a .invalidFirmwareImage
      else if !s.bt.passes i then s.admDone a .fwActivationProhibited
      else set s (some i)

def execFirmwareCommitSetTrial (a : Adm) (slot : Nat) (s : State) : Res :=
  finish s (s.admin (.firmwareCommitSetTrial a slot) a true false true fun s => s.commitTrial a slot)

/-! ## Activation without reset (R110, R439 to R441) -/

/-- Action 011b: the checks, the slot written, and Firmware Activation Starting; a drive in PS3 or PS4 wakes first. It is not
offered in Pilot-light mode (R110, R431, R436, R439, R462). -/
def State.commitActivate (s : State) (a : Adm) (slot : Nat) : State :=
  if s.pw.phase == .pilot then s.admDone a .invalidField
  else if s.bt.committing then s.admDone a .fwActivationProhibited
  else match s.commitCheck slot true with
    | .error st => s.admDone a st
    | .ok (i, g) =>
      ((s.wake.modBt fun b => { b.writeSlotImage i g with commit := some (a.ctrl, a.cid, i) }).logChanged 5).notifyAll .fwActivation

def execFirmwareCommitActivate (a : Adm) (slot : Nat) (s : State) : Res :=
  finish s (s.admin (.firmwareCommitActivate a slot) a true true true fun s => s.commitActivate a slot)

/-- Every running engine is asked to stop at its next sample point (R383). -/
def suspendAll (l : List (Nat × Engine)) : List (Nat × Engine) :=
  l.map fun (n, e) => (n, if e.running then { e with suspendReq := true } else e)

/-- ACTIVATION_PAUSE, P, once the messages in progress have completed: nothing starts, engines are asked to suspend, mailboxes are held, the self-test suspends, and
BR_TRIAL is set to the new slot (R413, R439, R518). -/
def execActivationPause (s : State) : Res :=
  finish s (
    match s.bt.commit with
    | none => s
    | some (_, _, i) =>
      if !s.serving || s.bt.paused || s.mb.boxes.any Mailbox.working then s
      else
        { s with
          bt := { s.bt.setRecord s.bt.brActive (some i) with paused := true, oldImage := s.bt.running },
          me := { s.me with wick := suspendAll s.me.wick, taper := suspendAll s.me.taper }.attend,
          mb := { s.mb with boxes := s.mb.boxes.map fun (b : Mailbox) => { b with held := !b.queue.isEmpty } },
          stt := { s.stt with running := s.stt.running.map fun (t : SelfTest) => { t with suspended := true } } })

/-- Suspended routines go on: a customer program at its own address, other code where the new image's resume map has it
(R383, R384). -/
def resumeAll (map : Nat → Nat) (l : List (Nat × Engine)) : List (Nat × Engine) :=
  l.map fun (n, e) =>
    (n, { e with suspendReq := false, suspended := false, running := e.running || e.suspended,
                 pc := if e.suspended && e.prog.isNone then map e.pc else e.pc })

/-- The identifier of a command that NVMe-MI tunnels; no host's identifier is as high (log 41). -/
def miCid : Nat := 65536

/-- The response of a tunnelled command: the completion entry and the data (log 41). -/
def State.miRespond (s : State) (w : Option Nat × Nat) (body : Bytes) : State :=
  match w.1 with
  | some c => s.modFe fun f => { f with miReplies := f.miReplies ++ [(c, 0 :: body)] }
  | none => s.emit (.mi w.2 "Success" body)

/-- A tunnelled command that ended in a later step than it began is answered now (R410). -/
def State.miLate (s : State) (ctrl cid : Nat) (st : Status) : State :=
  match s.mb.miWait with
  | some w =>
    if ctrl = 0 ∧ cid = miCid then
      (s.modMb fun m => { m with miWait := none }).miRespond w (cqeBytes 0 0 st (statusDnr st) 0 0 0)
    else s
  | none => s

/-- Service resumes after the pause; the Firmware Commit completes with a status (R110, R439). -/
def State.resume (s : State) (ctrl cid : Nat) (map : Nat → Nat) (st : Status) : State :=
  let s := { s with
    bt := { s.bt with paused := false, commit := none },
    me := { s.me with wick := resumeAll map s.me.wick, taper := resumeAll map s.me.taper },
    mb := { s.mb with boxes := s.mb.boxes.map fun (b : Mailbox) => { b with held := false } },
    stt := { s.stt with running := s.stt.running.map fun (t : SelfTest) => { t with suspended := false } } }
  let s := ((s.post ctrl 0 cid st).miLate ctrl cid st).feedListings
  s.retryAll (s.inPhase .waitService)

/-- ACTIVATION_READY, once every routine is suspended or has ended: the new image runs, its patches are loaded, and service resumes (R384,
R387, R439, R447). -/
def execActivationReady (s : State) : Res :=
  finish s (
    match s.bt.commit with
    | none => s
    | some (c, k, i) =>
      if !s.serving || !s.bt.paused || s.me.anyRuns then s
      else
        match s.bt.slotImage i with
        | none => s
        | some g =>
          let s := s.modBt fun b => { b with running := i, activated := some i, patch := g.patchVer }
          let s := s.modMe fun m => m.loadPatch (some g.hash)
          let s := (s.modTw fun t => { t with proto := g.twinProto }).modBb fun b => { b with activations := b.activations + 1 }
          (((s.event 1 "Firmware activated").logChanged 5)).resume c k (fun a => (Config.resumeAddr g.hash a).getD a) .success)

/-- ACTIVATION_FALLBACK: the old image resumes; BR_TRIAL is cleared (R440). -/
def execActivationFallback (s : State) : Res :=
  finish s (
    match s.bt.commit with
    | none => s
    | some (c, k, _) =>
      if !s.serving || !s.bt.paused then s
      else
        let s := s.modBt fun b => { b.setRecord b.brActive none with running := b.oldImage }
        let s := s.modBb fun b => { b with fallbacks := b.fallbacks + 1 }
        (((s.event 1 "Firmware activation fell back").logChanged 5)).resume c k id .invalidFirmwareImage)

/-- ACTIVATION_CONFIRM: 10 min of service make the activated image BR_ACTIVE (R441). -/
def execActivationConfirm (s : State) : Res :=
  finish s (
    match s.bt.activated with
    | none => s
    | some i =>
      if !s.serving then s
      else (s.modBt fun b => { b.setRecord i none with activated := none, activeSince := s.pw.powerOnS }).logChanged 5)

end Sys2Proof.Machine
end

