-- ==== Sys2Proof/Machine/Life.lean ====
section
/-! DEFINITION. Lifecycle, debug and power states (chapter 17): sealing and retiring, attestation, debug tokens, the key
curtain, and the power states the host sets. -/

namespace Sys2Proof.Machine

/-! ## Codes and records (R442, R443, R504) -/

/-- HS_LIFECYCLE (R442). -/
def Lifecycle.code : Lifecycle → Nat
  | .blank => 0 | .isSealed => 1 | .debugOpen => 2 | .retired => 3

/-- HS_BOOT (R416). -/
def State.hsBoot (s : State) : Nat := if s.pw.phase == .pilot then 2 else s.bt.alternative.toNat

/-- A change of the lifecycle state: black box and event log (R443, R504). -/
def State.lifeRecord (s : State) (old new msg src : Nat) : State :=
  (s.blackBox 5 src [old, new, msg, src]).eventP 0x11 "Lifecycle changed" old new 0

/-- A debug record: what 1 open, 2 close, 3 refusal with its reason, 4 enrolment, 5 removal; the level; the key (R451, R453,
R454, R504). -/
def State.debugRecord (s : State) (what level : Nat) (key : Bytes) (src : Nat) : State :=
  s.blackBox 6 src [what, level, leNat key]

/-! ## Sealing and retiring (R445, R446) -/

/-- The configuration as shipped: what CONFIG, POLICY.GOAL_SET, TIME.CONFIG, TWIN.CONFIG and STACK.CONFIG set, and the CAM rule
image (R415, R445, log 34). -/
def State.clearConfig (s : State) : State :=
  { s with
    fe := { s.fe with hosts := [] },
    va := { s.va with retention := some 0 :: List.replicate 63 none, rate := List.replicate 16 {} },
    md := { s.md with channels := 0xC000, secdelHours := 24 },
    og := { s.og with origins := List.replicate 8 none, bindings := [], paths := [] },
    pt := { s.pt with a := { s.pt.a with cfg := {}, ifs := [] }, b := { s.pt.b with cfg := {}, ifs := [] } },
    mb := { s.mb with goalPower := 70, goalTemp := 75, goalRead := 0, goalLag := 1000 },
    tm := { s.tm with ptpA := {}, ptpB := {}, domain := 0, ppsOn := false, prefer := 0, asym := 100 },
    sk := { s.sk with enabled := false, stackId := List.replicate 16 0 },
    tw := { s.tw with nextCfg := none, witnessMode := 0, witnessId := 0, strict := false, rate := 10000 },
    cam := { s.cam with image := [] } }

/-- The event log is emptied whole, and its sequence starts again at 1 (R492, R495). -/
def State.emptyLog (s : State) : State :=
  s.modEv fun e => { e with kept := [], circ := [], hold := none, buffer := [], discarded := 0, nextSeq := 1 }

/-- The restart with cause 04h that ends SEAL and RETIRE; the reply leaves before it (R433, R445, R446, log 30). -/
def State.restartBy (s : State) (op : Nat) (m : MsgReq) : State := ((s.reply 0x09 op m {}).orderly).startDue 4

/-- SECURITY.SEAL (R445). -/
def hSeal : Handler := fun s m =>
  let src := srcCode m.mbox m.src
  if m.payload ≠ [] then saying s (refuse .length)
  else if s.lifecycle != .blank || s.li.level == 1 || s.li.level == 2 then saying s (refuse .stateRefused)
  else
    let s := ((s.modKy fun k => { k with recs := [], cache := [], jobs := [] }).wipeMedia true).clearConfig.emptyLog
    let s := s.whenB (s.li.level == 3) fun s => s.debugRecord 2 3 [] src
    let s := s.modLi fun l => { l with sealedFuse := true, level := 0, d1End := none }
    let s := (s.lifeRecord 0 1 0x50 src).blackBox 14 srcDrive [2, 0, 1]
    (s.restartBy 0x50 m, none)

def execSeal (m : MsgReq) (s : State) : Res := finishReset s (s.message 0x09 0x50 hSeal m)

/-- SECURITY.RETIRE (R446). -/
def hRetire : Handler := fun s m =>
  let src := srcCode m.mbox m.src
  if m.payload.length ≠ 16 then saying s (refuse .length)
  else if m.payload ≠ s.driveId then saying s (badField 0)
  else if s.lifecycle != .isSealed || s.va.ns.any (fun n => n.type == .ledger && s.ledgerBound n.nsid) || s.paired || s.sk.joinedNow then
    saying s (refuse .stateRefused)
  else
    let s := (s.va.ns.foldl State.deleteNs s).destroyAll true
    let s := s.modLi fun l => { l with retiredFuse := true }
    let s := (s.lifeRecord 1 3 0x51 src).blackBox 14 srcDrive [3, 0, 1]
    (s.restartBy 0x51 m, none)

def execRetire (m : MsgReq) (s : State) : Res := finishReset s (s.message 0x09 0x51 hRetire m)

/-! ## Attestation (R447, R448) -/

/-- Bytes 0 to 207 of the attestation record. -/
def State.attestation (s : State) (nonce : Bytes) : Bytes :=
  let g := s.bt.slotImage s.bt.running
  let key (k : Option (Bytes × Bytes)) : Bytes := (k.map custKeyId).getD (List.replicate 16 0)
  leBytes 1 1 ++ leBytes 1 s.lifecycle.code ++ leBytes 1 s.li.level ++ leBytes 1 s.hsBoot ++ leBytes 1 ((g.map (·.svn)).getD 0)
    ++ leBytes 1 s.bt.floor ++ leBytes 2 0 ++ padTo 8 ((g.map (·.rev)).getD []) ++ padTo 32 nonce ++ padTo 48 ((g.map (·.hash)).getD [])
    ++ leBytes 8 s.mcvWick ++ leBytes 8 s.mcvTaper ++ padTo 64 (s.me.keys.flatMap key) ++ padTo 16 s.driveId ++ leBytes 8 s.now
    ++ leBytes 1 s.tq.toNat ++ leBytes 7 0

/-- The Alias keys follow from the UDS and the running image (R447). -/
def State.aliasKey (s : State) : Bytes := s.ky.uds ++ ((s.bt.slotImage s.bt.running).map (·.hash)).getD []

/-- SECURITY.ATTEST: the record with both signatures, then the two Alias certificates in the form of R238 (R448); behind the
key curtain the signature engine refuses it (R456, R457). The engine signs the epochs that wait before it (R226). -/
def hAttest : Handler := fun s m =>
  if m.payload.length ≠ 32 then saying s (refuse .length)
  else if s.ky.signOff then saying s (refuse .stateRefused)
  else
    let r := s.attestation m.payload
    let cert (i : Nat) : Bytes := chainEntry (Config.aliasCertificate s.aliasKey i)
    let t := s.signAll
    let sigs := hybridSign (Config.aliasScalar s.aliasKey) s.aliasKey t.free r
    doing t.spend { body := [r ++ sigs.1 ++ sigs.2, cert 0, cert 1] }

def execAttest (m : MsgReq) (s : State) : Res := finish s (s.message 0x09 0x48 hAttest m)

/-! ## Debug levels (R449 to R454) -/

/-- SECURITY.DEBUG_CHALLENGE: a fresh nonce replaces the old one (R452, R453). -/
def hDebugChallenge : Handler := fun s m =>
  if m.payload ≠ [] then saying s (refuse .length)
  else if s.mono < s.li.waitUntil then saying s (refuse .stateRefused)
  else
    let n := Config.freeBytes s.free 32
    doing (s.spend.modLi fun l => { l with nonce := some (n, s.mono) }) (answer (padTo 32 n))

def execDebugChallenge (m : MsgReq) (s : State) : Res := finish s (s.message 0x09 0x40 hDebugChallenge m)

/-- The key a token names: an enrolled owner key, or in Blank the factory key (R451, R453). -/
def State.debugKey (s : State) (id : Bytes) : Option Bytes :=
  if s.lifecycle == .blank then (if id = Config.factoryDebugKeyId then some Config.factoryDebugKey else none)
  else (s.li.keys.filterMap fun k => k).findSome? fun k => if custKeyId k = id then some (k.1 ++ k.2) else none

/-- Whether a level is allowed in a lifecycle state (R449). -/
def levelAllowed (c : Lifecycle) (level : Nat) : Bool :=
  match level with
  | 1 => c != .debugOpen
  | 2 => true
  | 3 => c == .blank
  | _ => false

/-- The first field of a token that the second check rejects: magic, version, reserved bytes, duration (R452, R453). -/
def tokenFormBad (p : Bytes) : Option Nat :=
  let level := natAt p 5 1
  let dur := natAt p 56 4
  if natAt p 0 4 ≠ 0x44424754 then some 0
  else if natAt p 4 1 ≠ 1 then some 4
  else if !allZero (bytesAt p 6 2) then some 6
  else if (level = 1 ∧ (dur < 60 ∨ 86400 < dur)) ∨ ((level = 2 ∨ level = 3) ∧ dur ≠ 0) then some 56
  else if !allZero (bytesAt p 76 4) then some 76 else none

/-- The checks of a token in order: reason and field of the first that fails (R453). -/
def State.tokenCheck (s : State) (p : Bytes) : Option (Nat × Nat) :=
  let fresh := s.li.nonce.any fun (n, t) => padTo 32 n == bytesAt p 24 32 && decide (s.mono < t + 60 * Figure.secondNs)
  if !fresh then some (1, 24)
  else match tokenFormBad p with
  | some o => some (2, o)
  | none =>
    if bytesAt p 8 16 ≠ s.driveId then some (3, 8)
    else match s.debugKey (bytesAt p 60 16) with
    | none => some (4, 60)
    | some k =>
      if !Config.hybridVerify k (p.take 80) (bytesAt p 80 96) (bytesAt p 176 3309) then some (5, 80)
      else if !levelAllowed s.lifecycle (natAt p 5 1) || decide (natAt p 5 1 ≤ s.li.level) then some (6, 5) else none

/-- How long challenges are refused after n refusals in a row, in seconds (R453). -/
def refusalWait (n : Nat) : Nat := if n < 3 then 0 else min 3600 (60 * 2 ^ (n - 3))

/-- A refused token: the challenge is used up, the refusal counts and is recorded (R453). -/
def State.refuseToken (s : State) (m : MsgReq) (reason : Nat) : State :=
  let s := s.modLi fun l =>
    { l with nonce := none, refusals := l.refusals + 1, waitUntil := s.mono + refusalWait (l.refusals + 1) * Figure.secondNs }
  (s.debugRecord (3 + 256 * reason) (natAt m.payload 5 1) (bytesAt m.payload 60 16) (srcCode m.mbox m.src)).eventP 0x11 "Debug open refused" reason 0 0

/-- A level opens: the open epoch had it open, the opening is counted and recorded (R453, R454, R506). -/
def State.openLevel (s : State) (m : MsgReq) (level : Nat) : State :=
  let p := m.payload
  let s := s.modLi fun l =>
    { l with level := level, nonce := none, refusals := 0, waitUntil := 0,
             d1End := if level = 1 then some (s.mono + natAt p 56 4 * Figure.secondNs) else none }
  let s := s.modKy fun k => { k with open_ := k.open_.map fun o => { o with debug := true } }
  (s.debugRecord 1 level (bytesAt p 60 16) (srcCode m.mbox m.src)).modBb fun b => { b with debugOpens := b.debugOpens + 1 }

/-- A paired Secondary leaves the pair before the curtain: the stale notice, then Detached-stale (R282, R455). -/
def State.leavePair (s : State) : State :=
  if s.tw.role != .secondary then s
  else ((s.emit (.twinHeartbeat 0 s.tw.term true false)).emit (.twinHeartbeat 1 s.tw.term true false)).failForwards.becomeStale

/-- The curtain is drawn: no I/O starts, every ANA group is Inaccessible, what has not started ends, a self-test ends (R455,
R456, R518). -/
def State.drawCurtain (s : State) (m : MsgReq) : State :=
  let s := s.wake.leavePair
  let s := s.modLi fun l => { l with nonce := none, refusals := 0, waitUntil := 0, curtainReq := some m }
  let s := (s.modFl fun f => { f with curtain := true }).notifyAll .anaChange
  let s := (s.fl.cmds.filter fun c => !c.phase.started).foldl (fun s c => s.complete c .anaInaccessible) s
  s.endTest 8 0

/-- SECURITY.DEBUG_OPEN: R455 before the token at D2 on a Sealed drive, then the checks of R453; opening D2 leaves PS3 and PS4 (R462). -/
def hDebugOpen : Handler := fun s m =>
  let level := natAt m.payload 5 1
  let curtains := level == 2 && s.lifecycle == .isSealed
  if m.payload.length ≠ 3485 then saying s (refuse .length)
  else if s.li.curtainReq.isSome then saying s (refuse .busy)
  else if curtains && (s.tw.role == .primary || s.bt.committing || s.sanitizing) then saying s (refuse .stateRefused)
  else
    match s.tokenCheck m.payload with
    | some (r, o) => doing (s.refuseToken m r) (badField o r)
    | none => if curtains then (s.drawCurtain m, none) else doing ((s.whenB (level == 2) State.wake).openLevel m level) {}

def execDebugOpen (m : MsgReq) (s : State) : Res := finish s (s.message 0x09 0x41 hDebugOpen m)

/-- KEY_CURTAIN_DEADLINE: what still runs ends, fills are abandoned, the epoch closes and is signed, keys are zeroed, and D2
opens (R456). -/
def State.curtainFalls (s : State) (m : MsgReq) : State :=
  let s := (s.fl.cmds.foldl (fun s c => s.endCmd c .anaInaccessible) s).afterRelease
  let s := ((s.abandonAllFills .anaInaccessible).closeEpoch 32).signAll
  let s := s.modKy fun k => { k with cache := [], kek := [], kekPresent := false, signOff := true }
  let s := s.modLi fun l => { l with debugOpen := true, curtainReq := none }
  let s := (s.openLevel m 2).lifeRecord 1 2 0x41 (srcCode m.mbox m.src)
  s.reply 0x09 0x41 m {}

def execKeyCurtainDeadline (s : State) : Res :=
  finish s (
    match s.li.curtainReq with
    | some m => if s.serving then s.curtainFalls m else s
    | none => s)

/-- A D1 session ends (R454). -/
def State.closeD1 (s : State) (src : Nat) : State :=
  (s.modLi fun l => { l with level := 0, d1End := none }).debugRecord 2 1 [] src

/-- SECURITY.DEBUG_CLOSE: only D1 (R454). With no level open there is nothing to close (log 34). -/
def hDebugClose : Handler := fun s m =>
  if m.payload ≠ [] then saying s (refuse .length)
  else if s.li.level = 1 then doing (s.closeD1 (srcCode m.mbox m.src)) {}
  else saying s (refuse .stateRefused)

def execDebugClose (m : MsgReq) (s : State) : Res := finish s (s.message 0x09 0x42 hDebugClose m)

/-- DEBUG_SESSION_EXPIRY: the end of DT_DURATION_S (R454). -/
def execDebugSessionExpiry (s : State) : Res :=
  finish s (if s.alive && s.li.level == 1 then s.closeD1 srcDrive else s)

/-- SECURITY.DEBUG_KEY_SET: a free slot and keys that decode (R388, R451, R465, log 34). -/
def hDebugKeySet : Handler := fun s m =>
  let p := m.payload
  let slot := natAt p 0 1
  let k := (bytesAt p 1 97, bytesAt p 98 1952)
  if p.length ≠ 2050 then saying s (refuse .length)
  else if 2 ≤ slot ∨ (s.li.keys.getD slot none).isSome then saying s (badField 0)
  else if !Config.keyDecodes k.1 k.2 then saying s (badField 1)
  else doing ((s.modLi fun l => { l with keys := l.keys.set slot (some k) }).debugRecord 4 slot (custKeyId k) (srcCode m.mbox m.src)) {}

def execDebugKeySet (m : MsgReq) (s : State) : Res := finish s (s.message 0x09 0x43 hDebugKeySet m)

/-- SECURITY.DEBUG_KEY_REMOVE: an open D1 session runs on (R451, R465). An empty slot is an inconsistent field (log 34). -/
def hDebugKeyRemove : Handler := fun s m =>
  let slot := natAt m.payload 0 1
  if m.payload.length ≠ 1 then saying s (refuse .length)
  else match s.li.keys.getD slot none with
    | none => saying s (badField 0)
    | some k => doing ((s.modLi fun l => { l with keys := l.keys.set slot none }).debugRecord 5 slot (custKeyId k) (srcCode m.mbox m.src)) {}

def execDebugKeyRemove (m : MsgReq) (s : State) : Res := finish s (s.message 0x09 0x44 hDebugKeyRemove m)

/-- Whole seconds up to a monotonic time, rounded up. -/
def secondsTo (now t : Nat) : Nat := (t - now + 999999999) / Figure.secondNs

/-- SECURITY.DEBUG_STATUS: level, D1 seconds left, the key identifiers, the refusal wait (R465); packing: log 34. -/
def State.debugStatus (s : State) : Bytes :=
  let key (k : Option (Bytes × Bytes)) : Bytes := (k.map custKeyId).getD (List.replicate 16 0)
  leBytes 1 s.li.level ++ leBytes 4 ((s.li.d1End.map (secondsTo s.mono)).getD 0) ++ padTo 32 (s.li.keys.flatMap key)
    ++ leBytes 4 (secondsTo s.mono s.li.waitUntil)

def hDebugStatus : Handler := fun s m => if m.payload ≠ [] then saying s (refuse .length) else saying s (answer s.debugStatus)

def execDebugStatus (m : MsgReq) (s : State) : Res := finish s (s.message 0x09 0x45 hDebugStatus m)

/-! ## Power states (R459 to R462) -/

/-- The first refusal of a Set Features Power Management (R65, R270, R460). -/
def State.psRefused (s : State) (ps : Nat) : Bool :=
  decide (4 < ps) || (decide (3 ≤ ps) && (s.paired || s.lifecycle == .debugOpen || s.fl.curtain))
    || (ps == 4 && s.sk.joinedNow && !s.cam.globals.isEmpty)

/-- PS4 keeps the link of Port A if it is up, and of Port B otherwise (R459). -/
def State.keepOnePort (s : State) : State :=
  let other := if (s.port 0).link.isSome then 1 else 0
  (s.dropLink other).modPort other fun p => { p with gatedPs4 := true }

/-- Entry to PS3 or PS4 with nothing started left: the epoch closes and is signed, and units are gated (R461). -/
def State.enterLow (s : State) (ps : Nat) : State :=
  let s := (s.closeEpoch 16).signAll
  let s := { s with pw := ({ s.pw with psHost := ps }).settle, pt := s.pt.ungate }
  s.whenB (ps == 4) State.keepOnePort

/-- The entry that waits ends once no started I/O remains; commands that came meanwhile wake the drive again (R461, R462). -/
def State.endEntry (s : State) : State :=
  match s.fe.jobs.find? (·.what == 1) with
  | none => s
  | some j =>
    if s.ioStarted then s
    else
      let s := s.modFe fun f => { f with jobs := f.jobs.filter (·.what ≠ 1) }
      let s := (s.enterLow ((j.target.map (·.1)).getD 3)).post j.ctrl 0 j.cid .success
      s.whenB (!s.fl.cmds.isEmpty) fun s => s.wakeForIo.retryAll (s.inPhase .waitService)

/-- Set Features Power Management (R460, R461). -/
def State.setPs (s : State) (a : Adm) (ps : Nat) : State :=
  if s.psRefused ps then s.admDone a .invalidField
  else if 3 ≤ ps then
    (s.modFe fun f => { f with jobs := f.jobs ++ [{ ctrl := a.ctrl, cid := a.cid, what := 1, target := some (ps, 0, 0) }] }).endEntry
  else (s.lpiCheck { s with pw := ({ s.pw with psHost := ps, psLastOp := ps }).settle, pt := s.pt.ungate }).admDone a .success

/-- SET_POWER_MANAGEMENT: while an earlier entry runs, it waits for its end (R461, log 34). -/
def execSetPowerManagement (a : Adm) (ps : Nat) (s : State) : Res :=
  finish s (s.admin (.setPowerManagement a ps) a false true false (fun s => s.setPs a ps) (s.fe.jobs.any (·.what == 1)))

/-- NON_OPERATIONAL_WAKE (R462). -/
def execNonOperationalWake (s : State) : Res := finish s (if s.serving then s.wakeForIo else s)

end Sys2Proof.Machine
end

