-- ==== Sys2Proof/Machine/Logs.lean ====
section
/-! DEFINITION. Log pages and Identify (R79 to R84, R99, R100, R209, R265, R459): the standard pages and structures at the
offsets of the NVMe standards over free bytes (log 36), the vendor pages at the manual's. -/

namespace Sys2Proof.Machine

/-! ## Standard log pages (R52, R79) -/

/-- Bytes laid over others at an offset. -/
def overlay (b : Bytes) (off : Nat) (v : Bytes) : Bytes := b.take off ++ v ++ b.drop (off + v.length)

/-- Bytes whose values the manual does not state (log 3). -/
def State.freeArea (s : State) (n : Nat) : Bytes := padTo n (Config.freeBytes s.free n)

/-- A standard page or structure of `n` bytes: the runs of bytes, as (offset, length), whose values the manual does not state are free, and
every other byte, reserved in the standard, reads 0 until a field is laid over it (R9, log 36). -/
def State.openPage (s : State) (n : Nat) (runs : List (Nat × Nat)) : Bytes :=
  runs.foldl (fun b r => overlay b r.1 (bytesAt (s.freeArea n) r.1 r.2)) (List.replicate n 0)

/-- Log 01h: 64 entries, newest first, those of one controller, or of all for controller 0 (log 17). -/
def State.logErrors (s : State) (ctrl : Nat) : Bytes :=
  let es := (s.fe.errorLog.filter fun e => ctrl == 0 || e.1 == ctrl).reverse
  padTo 4096 ((es.zipIdx).flatMap fun (e, i) =>
    overlay ({ s with free := s.free + i }.openPage 64 [(0, 8), (12, 18), (32, 10), (63, 1)]) 8 (leBytes 2 e.2.1 ++ leBytes 2 e.2.2))

/-- Log 02h (R202, R209, R416): the critical warning, the hottest sensor in kelvins, spare and its threshold, percentage used,
data units of 512,000 bytes, power-on hours, and the sensors. -/
def State.logSmart (s : State) : Bytes :=
  let kelvin (t : Int) : Bytes := leBytes 2 ((t + 2732) / 10).toNat
  let b := overlay (s.openPage 512 [(6, 1), (32, 160), (192, 40)]) 0 (leBytes 1 s.smartWarn ++ kelvin s.pw.hottest ++ leBytes 1 s.md.availableSpare ++ leBytes 1 10
    ++ leBytes 1 (min 255 (s.md.ecAvg * 100 / 3000)))
  let b := overlay b 48 (leBytes 16 ((s.md.hostBytes + 511999) / 512000))
  overlay (overlay b 128 (leBytes 16 (s.pw.powerOnS / 3600))) 200 (s.pw.sensors.flatMap kelvin)

/-- Log 03h (R434, R435): the active slot, the slot of BR_TRIAL, and the revision of each image. -/
def State.logFirmware (s : State) : Bytes :=
  let rev (i : Nat) : Bytes := padTo 8 (((s.bt.slotImage i).map (·.rev)).getD [])
  let afi := (if s.bt.running ≤ 1 then s.bt.running + 1 else 0) + 16 * ((s.bt.brTrial.map (· + 1)).getD 0)
  padTo 512 (leBytes 8 afi ++ rev 0 ++ rev 1)

/-- The admin and I/O opcodes of chapter 02 (R64, R68, R71). -/
def adminOpcodes : List Nat := [0x02, 0x06, 0x08, 0x09, 0x0A, 0x0C, 0x0D, 0x10, 0x11, 0x14, 0x15, 0x18, 0x1D, 0x1E, 0x7F, 0x84, 0xC0, 0xC1]
def ioOpcodes : List Nat := [0x00, 0x01, 0x02, 0x06, 0x10, 0x14, 0x90, 0x91, 0x92, 0x93, 0x94, 0x95, 0x96, 0x97]

/-- Log 05h lists every command of the chapter; their other effects are open (R79, log 36). -/
def logEffects : Bytes :=
  let ent (io : Bool) (ops : List Nat) (op : Nat) : Bytes :=
    leBytes 4 (if op ∈ ops then (Config.commandEffects io op ||| 1#32).toNat else 0)
  padTo 4096 ((List.range 256).flatMap (ent false adminOpcodes) ++ (List.range 256).flatMap (ent true ioOpcodes))

/-- Log 06h: the running test, and the last 20 results (R79, R516, R518). -/
def State.logSelfTest (s : State) : Bytes :=
  let now := match s.stt.running with
    | none => 0
    | some t => if t.extended then 2 else 1
  let res (r : Nat × Nat × Nat × Bool × Nat) : Bytes :=
    leBytes 1 (r.1 + 16 * (if r.2.2.2.1 then 2 else 1)) ++ leBytes 1 r.2.2.1 ++ [1, 0] ++ leBytes 8 r.2.2.2.2 ++ leBytes 4 r.2.1 ++ List.replicate 12 0
  let none' : Bytes := 15 :: List.replicate 27 0
  let rs := s.stt.results.map res ++ List.replicate (20 - s.stt.results.length) none'
  leBytes 1 now ++ (if now = 0 then [0] else [(Config.freeWord s.free).setWidth 8]) ++ [0, 0] ++ rs.flatten

/-- The standard code of an ANA state (R265). -/
def anaCode : Nat → Nat
  | 0 => 1 | 1 => 2 | 2 => 3 | _ => 15

/-- Log 0Ch: the four groups, their states and namespaces; the change counts are open (R265, log 36). -/
def State.logAna (s : State) : Bytes :=
  let group (g : Nat) : Bytes :=
    let ids := (s.va.ns.filter (·.group == g)).map (·.nsid)
    leBytes 4 g ++ leBytes 4 ids.length ++ padTo 8 (Config.freeBytes (s.free + g) 8) ++ leBytes 1 (anaCode (s.anaState g)) ++ List.replicate 15 0
      ++ ids.flatMap (leBytes 4 ·)
  s.freeArea 8 ++ leBytes 2 4 ++ List.replicate 6 0 ++ [1, 2, 3, 4].flatMap group

/-- A Sanitize as its action code: crypto erase 100b, block erase 010b. -/
def sanitizeAction (n : Nat) : Nat := if n = 1 then 4 else if n = 2 then 2 else 0

/-- Log 81h (R79, R109). -/
def State.logSanitize (s : State) : Bytes :=
  let run := s.sanitizing
  let prog := if run then (Config.freeWord s.free).toNat % 65535 else 65535
  let stat := if run then 2 else if s.fl.sanitizeLast = 0 then 0 else 1
  overlay (s.openPage 512 [(8, 24)]) 0 (leBytes 2 prog ++ leBytes 2 stat ++ leBytes 4 (sanitizeAction (if run then s.fl.sanitize else s.fl.sanitizeLast)))

/-- An entry of log 70h: NVMe/TCP or RDMA on a port, with TREQ as the port requires TLS; SQ flow control cannot be disabled (R52). -/
def State.discoveryRow (s : State) (free port : Nat) (rdma required : Bool) : Bytes :=
  let tls := if rdma then 0 else if required then 1 else 2
  let b := overlay ({ s with free := free }.openPage 1024 [(1, 1), (8, 4), (512, 256), (768, if rdma then 10 else 1)]) 0 [if rdma then 1 else 3]
  let b := overlay b 2 (leBytes 1 2 ++ leBytes 1 tls ++ leBytes 2 port ++ leBytes 2 65535)
  overlay (overlay b 32 (padTo 32 (textBytes "4420"))) 256 (padTo 256 s.subsysNqn)

def State.discoveryEntry (s : State) (free port : Nat) (rdma : Bool) : Bytes := s.discoveryRow free port rdma (s.service port 1)

/-- Log 70h: the drive's own entries, and in a pair the twin's, one for each pair of port and transport; which of them the twin has
enabled and whether it requires TLS, the drive's state does not hold (R52, log 36). -/
def State.logDiscovery (s : State) : Bytes :=
  let own := (if s.service 0 0 then [s.discoveryEntry s.free 0 false] else []) ++ (if s.service 1 0 then [s.discoveryEntry s.free 1 false] else [])
    ++ (if s.service 0 2 then [s.discoveryEntry s.free 0 true] else []) ++ (if s.service 1 2 then [s.discoveryEntry s.free 1 true] else [])
  let twin := if s.paired then
      let w := Config.freeWord s.free
      ([(0, false), (1, false), (0, true), (1, true)].zipIdx.filter fun (_, i) => w.getLsbD i).map fun ((p, r), i) =>
        s.discoveryRow (s.free + i) p r (w.getLsbD (4 + p))
    else []
  s.freeArea 8 ++ leBytes 8 (own ++ twin).length ++ List.replicate 1008 0 ++ (own ++ twin).flatten

/-! ## Log C1h (R99, R100) -/

/-- DE_PROGRESS: percent of the bands concerned that are erased, for kind 04h (R99). -/
def DeRec.progress (r : DeRec) : Nat :=
  if r.kind ≠ 4 then 0 else if r.state ≠ 0x10 then (if r.state = 0 then 0 else 100) else if r.bands = 0 then 0 else r.erased * 100 / r.bands

/-- A record of log C1h (R99). -/
def DeRec.bytes (r : DeRec) : Bytes :=
  if r.state = 0 then List.replicate 64 0
  else leBytes 1 r.kind ++ leBytes 1 r.state ++ leBytes 2 r.cntlid ++ leBytes 2 r.sqid ++ leBytes 2 r.cid ++ leBytes 4 r.nsid
    ++ leBytes 1 r.key.length ++ [r.tq] ++ leBytes 1 r.progress ++ [0] ++ leBytes 8 r.seq ++ leBytes 8 r.time ++ leBytes 8 r.eventTime
    ++ padTo 16 r.key ++ (sha384 r.key).take 8

def State.logC1 (s : State) : Bytes :=
  s.vendorPage 0xC1 (leBytes 4 Figure.c1Slots ++ leBytes 4 (s.fl.c1.countP (·.state == 0)) ++ leBytes 8 s.fl.overflow ++ List.replicate 48 0
    ++ s.fl.c1.flatMap DeRec.bytes)

/-- A record that a read with Retain Asynchronous Event cleared returns: reported and finished ones close (R100). -/
def DeRec.closed (r : DeRec) : DeRec := if r.state = 2 then { r with state := 3 } else if r.state = 0x11 then { r with state := 0x13 } else r

/-- The records wholly within the bytes a read returns close; a change raises the generation (R80, R100). -/
def State.closeC1 (s : State) (offset len : Nat) : State :=
  let c1 := (s.fl.c1.zipIdx).map fun (r, i) => if offset ≤ 128 + 64 * i && 192 + 64 * i ≤ offset + len then r.closed else r
  if c1 = s.fl.c1 then s else (s.modFl fun f => { f with c1 := c1 }).logChanged 1

/-! ## Get Log Page (R79 to R81) -/

/-- The bytes of a page; none for one the drive does not return (R79). Log 70h only on a discovery controller. -/
def State.logPage (s : State) (ctrl : Nat) (disc : Bool) (page : Nat) : Option Bytes :=
  match page with
  | 0x01 => some (s.logErrors ctrl)
  | 0x02 => some s.logSmart
  | 0x03 => some s.logFirmware
  | 0x05 => some logEffects
  | 0x06 => some s.logSelfTest
  | 0x0C => some s.logAna
  | 0x70 => if disc then some s.logDiscovery else none
  | 0x81 => some s.logSanitize
  | 0xC0 => some s.logC0
  | 0xC1 => some s.logC1
  | 0xC2 => some s.logC2
  | 0xC3 => some s.logC3
  | 0xC4 => some s.logC4
  | 0xC5 => some s.logC5
  | _ => none

/-- The pages Pilot-light mode returns (R431). -/
def pilotPages : List Nat := [0x01, 0x03, 0x05, 0xC5]

/-- The vendor event a page unmasks (R66). -/
def pageEvent : Nat → Option EventKind
  | 0xC1 => some .logC1
  | 0xC3 => some .logC3
  | 0xC4 => some .logC4
  | _ => none

/-- A read with Retain Asynchronous Event cleared: the event of the page is no longer masked for the controller, and the
records of log C1h that it returns close (R66, R100). -/
def State.unmask (s : State) (ctrl page offset len : Nat) : State :=
  let s := match pageEvent page with
    | some k => s.modCtrl ctrl fun c => { c with masked := c.masked.filter (· ≠ k) }
    | none => s
  if page = 0xC1 then s.closeC1 offset len else s

/-- The bytes Get Log Page returns, or its status (R47, R64, R79, R431). DESIGN CHOICE (log 36): page 02h with another namespace identifier
than 0 and FFFFFFFFh, and an offset beyond the end of a page, are Invalid Field. -/
def State.readLog (s : State) (ctrl nsid page offset len : Nat) : Except Status Bytes :=
  let disc := (s.fe.ctrl? ctrl).any (·.discovery)
  if s.pw.phase == .pilot && page ∉ pilotPages then .error .commandSequenceError
  else if offset % 4 ≠ 0 then .error .invalidField
  else if page = 0x02 ∧ nsid ≠ 0 ∧ nsid ≠ 0xFFFFFFFF then .error .invalidField
  else match s.logPage ctrl disc page with
    | none => .error .invalidField
    | some p => if p.length < offset then .error .invalidField else .ok (bytesAt p offset len)

/-- Get Log Page on a controller. -/
def State.getLog (s : State) (a : Adm) (page : Nat) (rae : Bool) (offset len : Nat) : State :=
  match s.readLog a.ctrl a.nsid page offset len with
  | .error st => s.admDone a st
  | .ok d =>
    let t := s.spend.sendData a.ctrl 0 a.cid d
    (if rae then t else t.unmask a.ctrl page offset d.length).admDone a .success

/-- GET_LOG_PAGE. -/
def execGetLogPage (a : Adm) (page : Nat) (rae : Bool) (offset len : Nat) (s : State) : Res :=
  finish s (s.admin (.getLogPage a page rae offset len) a false true true fun s => s.getLog a page rae offset len)

/-! ## Identify (R82 to R84, R265, R459) -/

/-- A power state descriptor (R459): maximum power in 0.01 W, NOPS, latencies and the relative figures. -/
def powerDescriptor (watts : Nat) (nop : Bool) (en ex rr rw : Nat) : Bytes :=
  padTo 32 (leBytes 2 (100 * watts) ++ [0] ++ leBytes 1 (2 * nop.toNat) ++ leBytes 4 en ++ leBytes 4 ex ++ leBytes 1 rr ++ leBytes 1 rr
    ++ leBytes 1 rw ++ leBytes 1 rw)

/-- The descriptors of PS0 to PS4 (R459). -/
def powerDescriptors : Bytes :=
  powerDescriptor 70 false 0 0 0 0 ++ powerDescriptor 55 false 1000 1000 0 1 ++ powerDescriptor 40 false 10000 10000 1 2
    ++ powerDescriptor 9 true 50000 5000 3 3 ++ powerDescriptor 5 true 100000 20000 4 4

/-- IDV_FEATURES (R83). -/
def State.features (s : State) : Nat :=
  (s.service 0 1 || s.service 1 1).toNat + 2 * (s.service 0 2 || s.service 1 2).toNat + 4 * s.paired.toNat + 8 * s.sk.joinedNow.toNat
    + 16 * (s.va.ns.any (·.type == .mirror)).toNat + 32 * (!s.me.progs.isEmpty).toNat

/-- IDV_TWIN_ROLE (R83, R260). -/
def TwinRole.code : TwinRole → Nat
  | .solo => 0 | .primary => 1 | .secondary => 2 | .detachedStale => 3

/-- The vendor area of Identify Controller from byte 3,072 (R83, R84). -/
def State.vendorArea (s : State) : Bytes :=
  padTo 1024 (leBytes 2 1 ++ leBytes 1 240 ++ [0] ++ leBytes 4 Figure.keysMax ++ leBytes 4 s.ix.residentMax ++ leBytes 2 Figure.queuePairs
    ++ leBytes 2 s.fe.qpFree ++ leBytes 4 Figure.contexts ++ leBytes 4 s.sharedPool ++ leBytes 4 Figure.camEntries ++ leBytes 2 s.ky.epochMs
    ++ leBytes 2 256 ++ leBytes 8 s.features ++ leBytes 1 s.pw.pos ++ leBytes 1 s.tw.role.code)

/-- The Identify Controller fields the manual sets, by offset (R82, R265, R459, R517). -/
def State.controllerFields (s : State) (ctrl : Nat) (disc : Bool) : List (Nat × Bytes) :=
  [(77, leBytes 1 14 ++ leBytes 2 ctrl), (111, [if disc then 2 else 1]), (258, [3]), (259, [15, 0x14]), (263, [4]), (316, leBytes 2 815), (320, leBytes 2 1),
   (328, leBytes 4 3), (342, [1]), (344, leBytes 4 4), (514, leBytes 2 1024), (516, leBytes 4 1024), (525, [0]), (540, leBytes 4 1024),
   (768, padTo 256 s.subsysNqn), (1792, leBytes 4 20), (1796, leBytes 4 1), (1800, leBytes 2 0), (1803, [16]), (2048, powerDescriptors),
   (3072, s.vendorArea)]

/-- The fields NVMe Base gives Identify Controller (PRESUMED: NVMe Base, log 36): what the manual does not set of them is open. -/
def controllerRuns : List (Nat × Nat) :=
  [(0, 102), (111, 23), (253, 105), (368, 16), (512, 52), (768, 256), (1792, 14), (2048, 1024)]

/-- Identify Controller (R82 to R84). -/
def State.identifyController (s : State) (ctrl : Nat) : Bytes :=
  (s.controllerFields ctrl ((s.fe.ctrl? ctrl).any (·.discovery))).foldl (fun b f => overlay b f.1 f.2) (s.openPage 4096 controllerRuns)

/-- The active namespaces of a controller above an identifier, as a list of 1,024. -/
def State.nsidList (s : State) (ctrl nsid : Nat) : Bytes :=
  let ids := ((s.va.ns.filter fun n => ctrl ∈ n.attached && decide (nsid < n.nsid)).map (·.nsid)).mergeSort (· ≤ ·)
  padTo 4096 (ids.flatMap (leBytes 4 ·))

/-- The KV Identify Namespace structure: one format of key 16, value 67,108,864 and 4,000,000,000 keys (R83, log 36). -/
def State.identifyKv (s : State) (n : Ns) : Bytes :=
  let b := overlay (overlay (s.openPage 4096 [(16, 13), (32, 8), (43, 29), (3840, 256)]) 0 (leBytes 8 0)) 25 [0]
  overlay (overlay b 36 (leBytes 4 n.group)) 72 (leBytes 2 16 ++ [0, 0] ++ leBytes 4 Figure.maxValue ++ leBytes 4 Figure.keysMax ++ leBytes 4 0)

/-- A structure of one namespace: an identifier that is not allocated is invalid, one not attached to the controller reads as
zeros (log 36). -/
def State.identifyNs (s : State) (ctrl nsid : Nat) (f : Ns → Bytes) : Except Status Bytes :=
  match s.nsOf nsid with
  | none => .error .invalidNamespace
  | some n => .ok (if ctrl ∈ n.attached then f n else List.replicate 4096 0)

/-- What Identify returns: the CNS values of R64, with CSI 01h for KV and CSI 00h for the controller data structure alone. -/
def State.identifyData (s : State) (ctrl nsid cns csi : Nat) : Except Status Bytes :=
  match cns with
  | 0x00 => s.identifyNs ctrl nsid fun n => overlay (overlay (s.openPage 4096 [(16, 65), (92, 4), (99, 285), (384, 3712)]) 0 (List.replicate 16 0)) 92 (leBytes 4 n.group)
  | 0x01 => .ok (s.identifyController ctrl)
  | 0x02 => if 0xFFFFFFFE ≤ nsid then .error .invalidNamespace else .ok (s.nsidList ctrl nsid)
  | 0x03 => s.identifyNs ctrl nsid fun _ => overlay (s.freeArea 4096) 0 [4, 1, 0, 0, 1]
  | 0x05 => if csi ≠ 1 then .error .invalidField else s.identifyNs ctrl nsid s.identifyKv
  | 0x06 => if 1 < csi then .error .invalidField else .ok (s.openPage 4096 (if csi = 0 then [(0, 16)] else []))
  | 0x07 => if csi ≠ 1 then .error .invalidField else if 0xFFFFFFFE ≤ nsid then .error .invalidNamespace else .ok (s.nsidList ctrl nsid)
  | 0x08 => s.identifyNs ctrl nsid fun n => overlay (s.openPage 4096 [(0, 4), (8, 1), (10, 5)]) 4 (leBytes 4 n.group)
  | 0x1C => .ok (padTo 4096 (leBytes 8 2))
  | _ => .error .invalidField

/-- Identify on a controller. -/
def State.identify (s : State) (a : Adm) (cns csi : Nat) : State :=
  match s.identifyData a.ctrl a.nsid cns csi with
  | .error st => s.admDone a st
  | .ok d => (s.spend.sendData a.ctrl 0 a.cid d).admDone a .success

/-- IDENTIFY; the I/O command set structure is the same for every controller it may name. -/
def execIdentify (a : Adm) (cns csi cntid : Nat) (s : State) : Res :=
  finish s (s.admin (.identify a cns csi cntid) a false true true fun s => s.identify a cns csi)

/-! ## HEALTH.LOG_READ (R416) -/

/-- HEALTH.LOG_READ: the bytes of a page, read at once and leaving events masked (R416). A page the drive does not return is
an inconsistent field. -/
def hHealthLogRead : Handler := fun s m =>
  let p := m.payload
  let off := natAt p 4 4
  let len := natAt p 8 4
  if p.length ≠ 12 then saying s (refuse .length)
  else if natAt p 1 3 ≠ 0 then saying s (badField 1)
  else if off % 4 ≠ 0 then saying s (badField 4)
  else if len < 4 ∨ 4096 < len then saying s (badField 8)
  else match s.logPage 0 false (natAt p 0 1) with
    | none => saying s (badField 0)
    | some d => if d.length < off then saying s (badField 4) else doing s.spend (answer (bytesAt d off len))

def execHealthLogRead (m : MsgReq) (s : State) : Res := finish s (s.message 0x0E 0x05 hHealthLogRead m)

end Sys2Proof.Machine
end

