-- ==== Sys2Proof/Machine/Diagnostics.lean ====
section
/-! DEFINITION. Device Self-test (R516 to R518). -/

namespace Sys2Proof.Machine

/-- Device Self-test, short or extended: it tests the whole drive and returns it to operation first; one that runs refuses
(R516 to R518). -/
def State.selfTest (s : State) (a : Adm) (extended : Bool) : State :=
  if s.stt.running.isSome then s.admDone a .selfTestInProgress
  else
    (s.wake.modStt fun x =>
      { x with running := some { extended := extended, ctrl := a.ctrl, nsid := a.nsid, suspended := false } }).admDone a .success

/-- Action Fh: a running test ends with result 1h (R518). -/
def State.selfTestAbort (s : State) (a : Adm) : State := (s.endTest 1 0).admDone a .success

/-- DEVICE_SELF_TEST_SHORT. -/
def execDeviceSelfTestShort (a : Adm) (s : State) : Res :=
  finish s (s.admin (.deviceSelfTestShort a) a false false false fun s => s.selfTest a false)

/-- DEVICE_SELF_TEST_EXTENDED. -/
def execDeviceSelfTestExtended (a : Adm) (s : State) : Res :=
  finish s (s.admin (.deviceSelfTestExtended a) a false false false fun s => s.selfTest a true)

/-- DEVICE_SELF_TEST_ABORT. -/
def execDeviceSelfTestAbort (a : Adm) (s : State) : Res :=
  finish s (s.admin (.deviceSelfTestAbort a) a false false false fun s => s.selfTestAbort a)

/-- SELF_TEST_DONE: result 0h without a failure, 7h with the first segment that failed; segment 6 completes in an extended
test that did not fail there, since a failed segment does not end the test (R79, R517, log 37). -/
def execSelfTestDone (failed : Option Nat) (s : State) : Res :=
  whileUp s (
    match s.stt.running with
    | none => s
    | some t =>
      if t.suspended then s
      else
        let s := if t.extended && failed != some 6 then s.modMd (·.passDone s.pw.powerOnS) else s
        s.endTest (if failed.isSome then 7 else 0) (failed.getD 0))

end Sys2Proof.Machine
end

