-- ==== Sys2Proof/Machine/Seal.lean ====
section
/-! DEFINITION. How a record is sealed: lane jobs and the four modes (R210, R211, R214, R215), and the stored record's bytes (R154)
under a staging seal and under a media seal (R216). -/

namespace Sys2Proof.Machine

/-- The next tweak of a data unit: the block as a little-endian number, times x (IEEE 1619). -/
def tweakNext (t : BitVec 128) : BitVec 128 :=
  let x := leNat (blockBytes t)
  let y := if 2 ^ 127 ≤ x then (BitVec.ofNat 128 (2 * x)) ^^^ 0x87#128 else BitVec.ofNat 128 (2 * x)
  blockOf (leBytes 16 y.toNat)

/-- A data unit of at least 16 bytes: a partial final block takes the end of the ciphertext before it (IEEE 1619). -/
def xtsUnit (key : Bytes) : Nat → BitVec 128 → Bytes → Bytes
  | 0, _, _ => []
  | fuel + 1, t, m =>
    let enc (t : BitVec 128) (b : Bytes) : Bytes := blockBytes (aes256 key (blockOf b ^^^ t) ^^^ t)
    let c := enc t (m.take 16)
    if m.length ≤ 16 then c
    else if m.length < 32 then
      let r := m.length - 16
      enc (tweakNext t) (m.drop 16 ++ c.drop r) ++ c.take r
    else c ++ xtsUnit key fuel (tweakNext t) (m.drop 16)

/-- Data units of 4,096 bytes; a final remainder of fewer than 16 bytes joins the unit before it (R215). -/
def dataUnits : Nat → Bytes → List Bytes
  | 0, _ => []
  | fuel + 1, m => if m.length < 4112 then [m] else m.take 4096 :: dataUnits fuel (m.drop 4096)

/-! ## Lane jobs (R210, R211) -/

/-- A job of a lane: up to 4 KiB of one message, by their length in bytes (R211); for XTS the data unit they lie in and their first block
in it. -/
structure LaneJob where
  offset : Nat
  unit : Nat := 0
  block : Nat := 0
  bytes : Bytes
  deriving DecidableEq, Repr

/-- The jobs of a data unit: one, or where a remainder has joined it, one of 255 blocks and one of the rest (R210, R215). -/
def unitJobs (u : Bytes) (j : Nat) : List LaneJob :=
  if u.length ≤ 4096 then [{ offset := 4096 * j, unit := j, bytes := u }]
  else [{ offset := 4096 * j, unit := j, bytes := u.take 4080 }, { offset := 4096 * j + 4080, unit := j, block := 255, bytes := u.drop 4080 }]

/-- The jobs of a message, of up to 4 KiB each (R210). A body shorter than a block is padded with 00h for XTS, and the end of one to a
whole block for CBC (R214, R215). -/
def laneJobs (mode : SealMode) (m : Bytes) : List LaneJob :=
  let cuts (m : Bytes) : List LaneJob := ((cut 4096 (m.length / 4096 + 1) m).zipIdx).map fun (u, j) => { offset := 4096 * j, bytes := u }
  match mode with
  | .xts => let m := padTo (max 16 m.length) m
            ((dataUnits (m.length / 4096 + 1) m).zipIdx).flatMap fun (u, j) => unitJobs u j
  | .cbc => let pad := 16 - m.length % 16
            cuts (m ++ List.replicate pad (BitVec.ofNat 8 pad))
  | _ => cuts m

/-- The tweak after `n` blocks. -/
def tweakAfter (t : BitVec 128) (n : Nat) : BitVec 128 := (List.range n).foldl (fun t _ => tweakNext t) t

/-- A job of XTS: the tweak of data unit `j` is N followed by `j` as a 32-bit little-endian number, under the key with the label xts-tweak,
the data under the one with the label xts-data (R215, R218). -/
def xtsJob (key n : Bytes) (j : LaneJob) : Bytes :=
  let label (l : String) : Bytes := hkdf384 [] key (textBytes l) 32
  xtsUnit (label "xts-data") (j.bytes.length / 16 + 1) (tweakAfter (aes256 (label "xts-tweak") (blockOf (n ++ leBytes 4 j.unit))) j.block) j.bytes

/-- A job of CBC from the block before it on; its bytes and its last block (R214). -/
def cbcJob (key : Bytes) (last : BitVec 128) (j : LaneJob) : Bytes × BitVec 128 :=
  (cut 16 (j.bytes.length / 16) j.bytes).foldl
    (fun (a : Bytes × BitVec 128) b => let c := aes256 key (a.2 ^^^ blockOf b); (a.1 ++ blockBytes c, c)) ([], last)

/-- The jobs of a CBC encryption run on one lane from its first block to its last (R210). -/
def cbcJobs (key : Bytes) : BitVec 128 → List LaneJob → Bytes
  | _, [] => []
  | last, j :: l => let r := cbcJob key last j; r.1 ++ cbcJobs key r.2 l

/-- The body of a record: key and value as one message, sealed job by job (R154, R211, R214, R215). GCM's first block of key stream is for
the tag, so that its body begins at the second; CBC's IV is the block of N followed by 00000000h. -/
def sealBody (mode : SealMode) (key n m : Bytes) : Bytes :=
  let jobs := laneJobs mode m
  match mode with
  | .gcm => jobs.flatMap fun j => ctrFrom key n (2 + j.offset / 16) j.bytes
  | .ctr => jobs.flatMap fun j => ctrFrom key n (j.offset / 16) j.bytes
  | .cbc => cbcJobs key (aes256 key (counterBlock n 0)) jobs
  | .xts => jobs.flatMap (xtsJob key n)

/-! ## The stored record (R154, R216) -/

/-- The 16 bytes of the header, with a given REC_SEQ. -/
def StoredRec.header (r : StoredRec) (seq : Nat) : Bytes :=
  leBytes 1 r.key.length ++ [r.flags] ++ leBytes 2 r.nsid ++ leBytes 4 r.value.length ++ leBytes 8 seq

/-- N of a record: the media seal counts by REC_SEQ, the staging seal by the staging seal counter (R215 to R217). -/
def StoredRec.nonceBytes (r : StoredRec) : Bytes := sealNonce (if r.mediaSeal then .media else .staging) r.nonceCounter

/-- A stored record's bytes under a key: header, sealed body, tag under GCM, and 00h to a multiple of 32 bytes. In a staging seal
REC_SEQ counts as 0 in the AAD (R154, R215). -/
def StoredRec.sealedUnder (r : StoredRec) (key : Bytes) : Bytes :=
  let body := sealBody r.mode key r.nonceBytes (r.key ++ r.value)
  let tag := if r.mode = .gcm then gcmTag key r.nonceBytes (r.header (if r.mediaSeal then r.seq else 0)) body else []
  padTo r.bytes (r.header r.seq ++ body ++ tag)

/-- Byte `i` of a record as it lies in Wax, in HBM3 or on NAND: sealed under its key; the body and tag under a key that is gone are those that
it left (R212, R221, log 5). -/
def State.recByte (s : State) (r : StoredRec) (i : Nat) : Byte :=
  match (s.ky.recs.find? fun k => k.nsid == r.nsid && k.gen == r.keyGen).bind (·.dataKey (kekOf s.ky.uds s.ky.kekSalt)) with
  | some key => (r.sealedUnder key).getD i 0
  | none => if i < 16 then (r.header r.seq).getD i 0 else Config.lostSeal r.nsid r.keyGen r.nonceCounter i

end Sys2Proof.Machine
end

