-- ==== Sys2Proof/Machine/Images.lean ====
section
/-! DEFINITION. What lies byte by byte in HBM3, in Wax and on NAND: index buckets (R116 to R118), stored records in sealed form (R154,
R212), the journal with its parity (R158), its control block (R160), record lists (R184) and open-band parity (R185). -/

namespace Sys2Proof.Machine

/-! ## The index (R116 to R118) -/

/-- A slot as a 96-bit word; an empty one reads as 0 (R117, log 5). -/
def slotWord : Option Slot → Nat
  | none => 0
  | some t => 1 + 2 * t.long.toNat + 4 * t.hold.toNat + 8 * t.fine.toNat + 16 * t.twinPend.toNat + 32 * t.stagedCopy.toNat
      + 2 ^ 12 * t.lenClass.toNat + 2 ^ 24 * t.loc.word + 2 ^ 72 * t.fp.toNat

/-- BKT_OVF (R116). -/
def Ovf.word : Ovf → Nat
  | .none => 0
  | .bucket n => 2 ^ 30 + n % 2 ^ 30
  | .spillMark n => 2 ^ 31 + min n (2 ^ 30 - 1)

/-- The 64 bytes of a bucket. -/
def Bucket.bytes (b : Bucket) : Bytes := b.slots.flatMap (fun t => leBytes 12 (slotWord t)) ++ leBytes 4 b.ovf.word

/-- The bucket in a line of the index region: the primary buckets, then the overflow pool (R113, R116). -/
def Index.lineBucket (x : Index) (line : Nat) : Bucket := x.get (if line < 64 * x.rows then .prim line else .pool (line - 64 * x.rows))

/-- A 4 KiB page of the index region, and one of the spill table, whose buckets hold their keys in the order in which they came (R126,
log 9). -/
def Index.pageBytes (x : Index) (page : Nat) : Bytes := (List.range 64).flatMap fun i => (x.lineBucket (64 * page + i)).bytes
def Index.spillPage (x : Index) (page : Nat) : Bytes :=
  (List.range 64).flatMap fun i =>
    ((Bucket.mk none none none none none .none).withSlots ((x.spill.filter (·.bucket == 64 * page + i)).map fun e => some e.slot)).bytes

/-! ## HBM3 (R113, R164) -/

/-- A byte of the staging copy region: that of the newest copy that is valid and covers the place (R164). -/
def State.copyByte (s : State) (off : Nat) : Option Byte :=
  let size := 32 * s.copyGranules
  s.wx.copies.findSome? fun g =>
    match s.wx.staged.lookup g with
    | some r =>
      let i := (off + size - 32 * g % size) % size
      if i < r.bytes && s.copyValid g r.granules then some (s.recByte r i) else none
    | none => none

/-- What the drive's units keep at an address of HBM3, where the manual gives it a layout: the index, the copies of staged records, and the
constant tables of programs (R113, R392). -/
def State.unitByte (s : State) (a : Nat) : Option Byte :=
  let line := a / 64
  if line < 64 * s.ix.rows + 64 * s.ix.poolPart then ((s.ix.lineBucket line).bytes)[a % 64]?
  else if 64 * 0x2C000000 ≤ a && a < 64 * 0x2C000000 + 32 * s.copyGranules then s.copyByte (a - 64 * 0x2C000000)
  else s.me.tableByte a

/-! ## The journal (R158, R160) -/

def JrType.code : JrType → Nat
  | .store => 0x01 | .delete => 0x02 | .secdel => 0x03 | .hold => 0x04
  | .pack => 0x10 | .move => 0x11 | .twinAck => 0x20 | .loss => 0x21

/-- A journal record written at a lap, JR_CRC over all its blocks with the field as 0 (R158). -/
def JRec.bytes (r : JRec) (lap : Nat) : Bytes :=
  let head := leBytes 1 r.type.code ++ leBytes 1 (r.twinLevel.toNat + 2 * r.twinSync.toNat + 4 * r.leaf.isSome.toNat) ++ leBytes 1 r.blocks
    ++ leBytes 1 r.key.length ++ leBytes 4 r.nsid ++ leBytes 8 r.seq ++ leBytes 8 r.time ++ leBytes 8 r.h.toNat
    ++ leBytes 8 ((if r.type == .loss then 0 else (r.loc.map Loc.word).getD 0) + 2 ^ 48 * r.lenClass.toNat) ++ leBytes 8 r.aux ++ leBytes 2 r.action.toNat ++ [r.tq]
    ++ leBytes 1 lap
  let tail := padTo 8 r.key ++ padTo (64 * ((r.key.length - 8 + 63) / 64)) (r.key.drop 8)
    ++ (match r.leaf with | some h => padTo 64 h | none => [])
  head ++ leBytes 4 (crc32c (head ++ leBytes 4 0 ++ tail)).toNat ++ tail

/-- The 64 bytes of a usable block of the ring: of the newest journal record that was written into it, before the replay start too, or 00h
where none was (R158, R160). -/
def Wax.blockBytes (w : Wax) (b : Nat) : Bytes :=
  (((placeRecs w.journal w.start.1 w.start.2 ++ w.past).findSome? fun (r, o, l) =>
    let i := (b + Figure.journalBlocks - o) % Figure.journalBlocks
    if i < r.blocks then some (bytesAt (r.bytes l) (64 * i) 64) else none)).getD (List.replicate 64 0)

/-- Byte `i` of the block of a stripe in a package: of one of the seven that carry records, or of their XOR, which is rewritten with each
record of a partly filled stripe (R158). -/
def Wax.stripeByte (w : Wax) (stripe pkg i : Nat) : Byte :=
  let data (k : Nat) : Byte := (w.blockBytes (7 * stripe + k)).getD i 0
  let p := stripeParityPackage stripe
  if pkg = p then (List.range 7).foldl (fun a k => a ^^^ data k) 0 else data (if pkg < p then pkg else pkg - 1)

/-- The 64 bytes of the journal control block, the location of the newest delta segment list as a granule address; the places of its
fields and the bytes under CRC32C are the model's (R160, log 30). -/
def CtlBlock.bytes (c : CtlBlock) : Bytes :=
  let b := leBytes 8 c.gen ++ leBytes 8 c.offset ++ leBytes 8 c.lap ++ leBytes 8 c.condensed ++ leBytes 8 (c.deltas.getD 0) ++ leBytes 20 0
  b ++ leBytes 4 (crc32c b).toNat

/-! ## NAND (R180 to R184) -/

/-- A list page: 16 bytes of header and up to 510 values of H; CRC32C over the page with the field as 0 (R184, log 9). -/
def listPageBytes (band first : Nat) (hs : List (BitVec 64)) : Bytes :=
  let es := (hs.drop first).take 510
  let head := leBytes 2 band ++ [0, 0] ++ leBytes 4 first ++ leBytes 4 es.length
  let tail := padTo 4080 (es.flatMap fun h => leBytes 8 h.toNat)
  head ++ leBytes 4 (crc32c (head ++ leBytes 4 0 ++ tail)).toNat ++ tail

/-- A page of internal data, where the manual gives it a layout and what it was written from has not changed since (R129, R130, R184). -/
def State.internalBytes (s : State) : IntPage → Option Bytes
  | .index p => if p ∈ s.ix.dirtyPages then none else some (s.ix.pageBytes p)
  | .spill p => if s.ix.spillCache.any (fun c => c.1 == p && c.2) then none else some (s.ix.spillPage p)
  | .recordList b first => (s.md.band? b).map fun x => listPageBytes b first x.hashes
  | .delta _ _ | .eraseCounts _ => none

/-- Where byte `i` of granule `g` stands in its band's unit order, from the start of a record at `g0`: a record spans units in unit order,
not in address order (R182). -/
def Band.offsetIn (b : Band) (g0 g i : Nat) : Option Nat :=
  match lanePos b.recordLanes g0, lanePos b.recordLanes g with
  | some p, some q => if p ≤ q then some (32 * (q - p) + i) else none
  | _, _ => none

/-- Byte `i` of a granule of NAND: of the record that covers it, of a padding marker, whose key length is 0, or of a page of internal
data (R182, R184). -/
def State.granuleByte (s : State) (g i : Nat) : Option Byte :=
  match s.md.bands.find? fun b => naMember g ∈ b.members with
  | none => none
  | some b =>
    if g ∈ b.pads && i = 0 then some 0
    else
      (s.md.nand.findSome? fun (g0, r) =>
        (b.offsetIn g0 g i).bind fun o => if o < r.bytes && naMember g0 ∈ b.members then some (s.recByte r o) else none).or
      (s.md.internal.findSome? fun (g0, p) =>
        if g0 ≤ g && g < g0 + fineGranules then (s.internalBytes p).bind fun x => x[32 * (g - g0) + i]? else none)

def State.nandByte (s : State) (a : Nat) : Byte := (s.granuleByte (a / 32) (a % 32)).getD (Config.mediaByte 1 a)

/-! ## Open-band parity (R185) -/

/-- Byte `off` of a row's parity: the XOR of the units of every member present; none of a row that no member has been programmed in. -/
def State.parityByte (s : State) (b : Band) (row off : Nat) : Option Byte :=
  let there := b.members.filter fun x => decide (row < b.rowsOn x)
  if there.isEmpty then none
  else some (there.foldl (fun a x => a ^^^ s.nandByte (32 * unitAddr x row (off / 32) + off % 32)) 0)

/-! ## Wax (R152) -/

/-- A byte of a record of staging, live or dead, or of granules overwritten with 00h (R203, R205). -/
def State.stagingByte (s : State) (a : Nat) : Option Byte :=
  if s.wx.zeroed.any fun r => decide (32 * r.1 ≤ a) && decide (a < 32 * (r.1 + r.2)) then some 0
  else (s.wx.staged ++ s.wx.dead).findSome? fun (g, r) =>
    if stagingAddr g ≤ a && a < stagingAddr g + r.bytes then some (s.recByte r (a - stagingAddr g)) else none

/-- The image of a copy of the user calibration record; one whose check fails holds what nobody knows (R484). -/
def Copy.image (c : Copy UserCal) : Bytes :=
  let r (crc : Nat) : Bytes :=
    leBytes 8 c.gen ++ leBytes 2 c.data.entries.length ++ List.replicate 6 0 ++ leBytes 8 c.data.time ++ leBytes 1 c.data.tq.toNat
      ++ List.replicate 3 0 ++ leBytes 4 crc
      ++ c.data.entries.flatMap fun u => leBytes 2 u.item ++ [if u.clamped then 1 else 0, 0] ++ intBytes 4 u.delta
  if c.ok then r (crc32c (r 0)).toNat else []

/-- The records region as the model lays it out, by offset: the 1,024 copies of the control block, the two copies of the key table, those of the
user calibration record, the newest
signed roots in pages of 4 KiB, and the entries of the twin lag log one after another (R152, R160, R219, R234, R277, R484; DESIGN CHOICE, log 30).
The layout of the rest is not given. -/
def State.recordsByte (s : State) (o : Nat) : Option Byte :=
  let key (i : Nat) : Bytes := ((s.ky.recs.find? (·.slot == i / 128)).map (·.bytes)).getD (List.replicate 128 0)
  let cal (o : Nat) : Option Byte := (if o < 0x1000 then s.ck.cal.a else s.ck.cal.b).image[o % 0x1000]?
  if o < 0x10000 then (s.wx.ctl.lookup (o / 64)).bind fun c => c.bytes[o % 64]?
  else if 0x100000 ≤ o && o < 0x200000 then (key (o % 0x80000))[o % 128]?
  else if 0x200000 ≤ o && o < 0x202000 then cal (o - 0x200000)
  else if 0x400000 ≤ o && o < 0x800000 then
    (s.ky.roots[(o - 0x400000) / 4096]?).bind fun r => (padTo 4096 (r.root ++ r.ecdsa ++ r.mldsa))[o % 4096]?
  else if 0x1000000 ≤ o && o < 0x2000000 then (s.tw.lag.flatMap LagEntry.image)[o - 0x1000000]?
  else none

/-- What a place of the Wax address space outside the reserve holds; stripes follow one another in the journal's region, block by block
(R152, R158, log 30). -/
def State.waxKnown (s : State) (a : Nat) : Option Byte :=
  match waxRegion a with
  | some .staging => s.stagingByte a
  | some .journal =>
    let o := a - WaxRegion.journal.base
    some (s.wx.stripeByte (o / 512) (o / 64 % 8) (o % 64))
  | some .parity =>
    let o := a - WaxRegion.parity.base
    let row := o % 0x8000000 / 0x10000
    ((s.md.bands.find? fun b => b.slot == some (o / 0x8000000)).bind fun b => s.parityByte b row (o % 0x10000)).or
      (if s.wx.parityRows.getD (o / 0x8000000) 2048 ≤ row then some 0 else none)
  | some .records => s.recordsByte (a - WaxRegion.records.base)
  | _ => none

/-- A byte of the Wax address space: a block of the reserve holds what the block it replaces would (R152). -/
def State.waxByte (s : State) (a : Nat) : Byte :=
  let known : Option Byte :=
    if waxRegion a == some .reserve then
      (s.wx.remap.find? fun p => p.2 == (a - WaxRegion.reserve.base) / 4096).bind fun p => s.waxKnown (4096 * p.1 + a % 4096)
    else s.waxKnown a
  known.getD (Config.mediaByte 0 a)

end Sys2Proof.Machine
end

