-- ==== Sys2Proof/Machine/Freeze.lean ====
section
/-! DEFINITION. The indicators (R535), the freeze and its read-out (R472 to R481): the request, the latch, the dump sections, HBM3 lines, and the reset
that ends it. -/

namespace Sys2Proof.Machine

/-! ## Indicators (R535) -/

/-- LED_ACT_N and LED_FAULT_N outside a freeze: the earliest row of the table that applies. -/
def State.ledsNow (s : State) : Led × Led :=
  let fault : Led := if s.smartWarn != 0 || s.ix.lost.any id || s.md.spareBands == 0 || !s.md.diesLost.isEmpty then .on else .off
  let act : Led := if s.fl.cmds.any (fun c => c.phase.started) then .activity else .on
  if !s.pw.p12v || !s.pw.load then (.off, .off)
  else match s.pw.phase with
    | .b0Failed => (.off, .on)
    | .fatal => (.off, .blink4Hz)
    | .pilot => (.blink1Hz, .blink1Hz)
    | .starting | .ready | .failedStart | .off | .tripped => (.blink1Hz, .off)
    | _ =>
      if s.lifecycle == .debugOpen then (.on, .blink1Hz)
      else if 3 ≤ s.pw.psNow then (.slow, fault)
      else (act, fault)

/-- The indicators; during a freeze they keep what they had at T0 (R473, R535). -/
def State.leds (s : State) : Led × Led := if s.pw.phase == .frozen then s.ck.fzLeds else s.ledsNow

/-! ## The freeze (R472 to R474, R479) -/

/-- A request is honoured at D2 and D3 on a drive whose clocks run (R464, R472). -/
def State.snuffs (s : State) : Bool := (s.alive || s.pw.phase == .fatal) && decide (2 ≤ s.li.level)

/-- T0: the latch, the clocks stop, both links drop, and the chain is bypassed (R473, R479, R531). Nothing else changes: engines,
caches and queues stand as they were. -/
def State.freeze (s : State) (cause : Nat) : State :=
  let sr (i : Nat) : Nat := (s.ix.present && !(s.ix.lost.getD i false)).toNat
  { s with
    pw := { s.pw with phase := .frozen, chainRdy := false },
    ck := { s.ck with fzCause := cause, fzLifecycle := s.lifecycle.code, fzDebug := s.li.level, fzTq := s.tq, fzPs := s.pw.psNow,
                      fzTime := s.now, fzStart := s.bt.starts, fzHbmSr := sr 0 + 2 * sr 1, fzLeds := s.ledsNow, dumpSection := 0, dumpOffset := 0, dumpHbm := none },
    pt := { s.pt with a := { s.pt.a with link := none }, b := { s.pt.b with link := none } } }

/-- An ignored request is recorded (R472). -/
def State.snuffIgnored (s : State) (cause : Nat) : State := s.eventP 0x11 "Freeze request ignored" cause s.li.level 0

/-- SNUF_N_FALL: a falling edge held low long enough (R472). -/
def execSnufNFall (s : State) : Res :=
  finish s (
    let s := s.modPw fun p => { p with snufLow := true }
    if s.snuffs then s.freeze 1 else if s.alive then s.snuffIgnored 1 else s)

/-- FREEZE.NOW: no reply follows a freeze (R472, R481). -/
def hFreezeNow : Handler := fun s m =>
  if m.payload ≠ [] then saying s (refuse .length)
  else if s.snuffs then (s.freeze 2, none)
  else doing (s.snuffIgnored 2) (refuse .stateRefused)

def execFreezeNow (m : MsgReq) (s : State) : Res := finish s (s.message 0x0B 0x01 hFreezeNow m)

/-- FREEZE.STATUS: whether the Snuffer is honoured, and the newest freeze record if there is one (R481, log 35). -/
def hFreezeStatus : Handler := fun s m =>
  if m.payload ≠ [] then saying s (refuse .length)
  else saying s (answer (leBytes 1 s.snuffs.toNat ++ ((s.bb.fault.reverse.find? (·.kind == 3)).map BbRec.bytes).getD []))

def execFreezeStatus (m : MsgReq) (s : State) : Res := finish s (s.message 0x0B 0x02 hFreezeStatus m)

/-! ## The dump sections (R151, R478 to R480, log 35) -/

/-- The freeze instructions of the debug TAP are accepted: the drive is frozen, and D2 or D3 was latched (R478). -/
def State.tapReads (s : State) : Bool := s.pw.phase == .frozen && decide (2 ≤ s.ck.fzDebug)

/-- Byte `i` of a number. -/
def wordByte (v i : Nat) : Byte := BitVec.ofNat 8 (v / 256 ^ i)

/-- A byte whose content the manual does not give, or that stale cells hold. -/
def State.openByte (s : State) (sec off : Nat) : Byte := Config.dumpByte s.bt.starts sec off

/-- The latch as it is shifted out (R479). -/
def State.latch (s : State) : Bytes :=
  let k := s.ck
  latchBytes (1 + 2 * k.fzCause) k.fzLifecycle k.fzDebug k.fzTq.toNat k.fzPs k.fzTime k.fzStart k.fzHbmSr

/-- Line tag words, 16 ways of 65,536 sets (R151): a way that holds no line has LS_VALID clear. -/
def State.tagByte (s : State) (off : Nat) : Byte :=
  match s.mc.lines.lookup (off / 32, off / 2 % 16) with
  | some w => wordByte (w.tag + 16384 + 32768 * w.dirty.toNat) (off % 2)
  | none => if off % 2 = 1 then s.openByte 8 off &&& 0xBF#8 else s.openByte 8 off

/-- A miss register (R151). -/
def Miss.word (r : Miss) : Nat :=
  r.line + 2 ^ 30 * r.drop.toNat + 2 ^ 31 * (!r.arrived).toNat + 2 ^ 32 * r.secondary + 2 ^ 36 * (!r.merged.isEmpty).toNat

/-- A Chimney tag (R151). -/
def Chim.word (c : Chim) : Nat := c.line + 2 ^ 30 * c.dirty.toNat + 2 ^ 31 * c.valid.toNat + 2 ^ 32 * c.pending.toNat

/-- MCH_STATUS: CHIMNEY_FULL says that all 32 entries are pinned, and MISS_ACTIVE counts the miss registers whose fill has not arrived
(R144, R150, R151). -/
def Mantle.status (m : Mantle) : Nat :=
  m.enable.toNat + 2 * m.invBusy.toNat + 4 * (!m.chimRoom).toNat + 8 * m.miss.countP (fun r => !r.arrived) + 1024 * m.invReject.toNat

/-- The register block, 112 bytes (R150). -/
def Mantle.registers (m : Mantle) : Bytes :=
  leBytes 4 (m.enable.toNat + 2 * m.noalloc.toNat) ++ leBytes 4 m.status ++ leBytes 8 (64 * m.invBase.toNat) ++ leBytes 8 (64 * m.invLimit.toNat)
    ++ leBytes 8 0 ++ m.rgn.flatMap (fun r => leBytes 8 r.toNat) ++ leBytes 8 m.hits ++ leBytes 8 m.misses

/-- Section 08h: tags, pseudo-LRU bits, miss registers, Chimney tags and data, registers. Free registers and entries read as
not active and not valid, and their reserved bits as 0 (R9, R151). -/
def State.cacheByte (s : State) (off : Nat) : Byte :=
  let o := s.openByte 8 off
  if off < 2097152 then s.tagByte off
  else if off < 2228224 then
    let k := off - 2097152
    wordByte (((s.mc.plru.lookup (k / 2)).getD 0).toNat) (k % 2)
  else if off < 2228736 then
    let k := off - 2228224
    match s.mc.miss[k / 8]? with
    | some r => wordByte r.word (k % 8)
    | none => if k % 8 = 3 then o &&& 0x7F#8 else if k % 8 = 4 then o &&& 0x1F#8 else if 4 < k % 8 then 0 else o
  else if off < 2228992 then
    let k := off - 2228736
    match s.mc.chimney[k / 8]? with
    | some c => wordByte c.word (k % 8)
    | none => if k % 8 = 3 then o &&& 0x3F#8 else if k % 8 = 4 then 0 else if 4 < k % 8 then 0 else o
  else if off < 2231040 then
    let k := off - 2228992
    match s.mc.chimney[k / 64]? with
    | some c => c.data.getD (k % 64) o
    | none => o
  else s.mc.registers.getD (off - 2231040) o

/-- Section 0Ah: 65,536 entry records, then their actions (R243, R249). -/
def State.camByte (s : State) (off : Nat) : Byte :=
  if off < 4194304 then ((s.cam.entry (off / 64)).bytes (s.cam.dirAt (off / 64)).disabled).getD (off % 64) 0
  else wordByte (s.cam.entry ((off - 4194304) / 8)).action.toNat (off % 8)

/-- MBX_STATUS (R402). -/
def Mailbox.status (b : Mailbox) : Nat :=
  b.inFlight + 16 * (!b.replies.isEmpty).toNat + 32 * b.owned.toNat + 64 * b.held.toNat + 128 * b.overrun.toNat

/-- A mailbox register block, 64 bytes; MBX_HDR is the head reply's header while there is one (R402). -/
def Mailbox.registers (b : Mailbox) : Bytes :=
  let head := (b.replies.head?.map Reply.bytes).getD []
  leBytes 4 0 ++ leBytes 4 b.status ++ leBytes 2 b.owner ++ [0, 0] ++ leBytes 4 head.length ++ leBytes 8 b.msgs ++ leBytes 8 b.rejects
    ++ (if head.isEmpty then leBytes 32 b.hdr.toNat else head.take 32)

/-- Section 0Bh: 16 register blocks, then the data windows, with the payload of the head reply, or of the request posted last (R402). -/
def State.mailByte (s : State) (off : Nat) : Byte :=
  if off < 1024 then (s.box (off / 64)).registers.getD (off % 64) 0
  else
    let k := off - 1024
    (((s.box (k / 4096)).replies.head?.map (·.payload)).getD (s.box (k / 4096)).window).getD (k % 4096) (s.openByte 11 off)

/-- Section 06h: of each of the four groups, whose content is one, the micro store in words of 8 bytes, as images hold them, the nano store
in words of 16, and the 64 patch traps (R370, R386, R389). DEDUCED (log 35) from the section's length; the form of a trap is open. -/
def State.wickStoreByte (s : State) (off : Nat) : Byte :=
  let k := off % 524800
  if k < 262144 then
    let a := k / 8
    wordByte (if a < 24576 then (Config.romMicro a).toNat else ((s.me.micro.lookup a).getD 0).toNat) (k % 8)
  else if k < 524288 then wordByte (s.me.nanoWord ((k - 262144) / 16)).toNat (k % 16)
  else s.openByte 6 off

/-- Section 07h: of each of the 32 sequencers the micro store, the nano store as raw 128-bit words, 1 KiB of state, whose form is open, and
the 16 traps (R370, R379, R386). DEDUCED (log 35) as for section 06h. -/
def State.taperStoreByte (s : State) (off : Nat) : Byte :=
  let n := off / 99456
  let k := off % 99456
  if k < 65536 then
    let a := k / 8
    wordByte (if a < 7168 then (Config.romTaperMicro a).toNat else (((s.me.taperStores.getD n {}).micro.lookup a).getD 0).toNat) (k % 8)
  else if k < 98304 then wordByte (s.me.taperNanoWord n ((k - 65536) / 16)).toNat (k % 16)
  else s.openByte 7 off

/-- A byte of a section. DESIGN CHOICE (log 35): MCV_WICK and MCV_TAPER, which a read-out shows, come first among the Lamplighter registers
(R385). Sections 0Dh and 0Eh read as zero where SEALED or RETIRED is blown (R480). -/
def State.sectionByte (s : State) (sec off : Nat) : Byte :=
  match sec with
  | 0x01 => s.latch.getD off (s.openByte sec off)
  | 0x03 => (leBytes 8 s.mcvWick ++ leBytes 8 s.mcvTaper).getD off (s.openByte sec off)
  | 0x06 => s.wickStoreByte off
  | 0x07 => s.taperStoreByte off
  | 0x08 => s.cacheByte off
  | 0x09 =>
    match s.mc.lines.lookup (off / 1024, off / 64 % 16) with
    | some w => w.data.getD (off % 64) (s.openByte sec off)
    | none => s.openByte sec off
  | 0x0A => s.camByte off
  | 0x0B => s.mailByte off
  | 0x0D | 0x0E => if s.li.sealedFuse || s.li.retiredFuse then 0 else s.openByte sec off
  | _ => s.openByte sec off

/-! ## HBM3 lines (R112, R113, R478) -/

/-- The address-space line of a line of a stack, where placement is interleaved in 4 KiB blocks; in half geometry the remaining
stack's lines follow one another (log 35). -/
def State.stackLine (s : State) (stack line : Nat) : Nat :=
  if s.ix.half then line else line / 64 * 128 + 64 * stack + line % 64

/-- A byte of HBM3: what the cache commands have written there, or else what the drive's units keep (R113, log 8). -/
def State.spaceByte (s : State) (a : Nat) : Byte :=
  match s.mc.hbm.find? (·.1 == a) with
  | some c => c.2
  | none => (s.unitByte a).getD (Memory.read s.mc.hbm a)

/-- A byte of a line of a stack: a line that cannot be corrected reads as all 1s; a mirrored region, whose placement within a stack the
manual does not give, a lost stack and a line beyond the stack hold what the model does not know (R113, log 35). -/
def State.hbmByte (s : State) (stack line i : Nat) : Byte :=
  let g := s.stackLine stack line
  if s.ix.lost.getD stack false || mirrored g || decide (0x30000000 ≤ g) then s.openByte (0x33 + 256 * stack) (64 * line + i)
  else if g ∈ s.mc.badLines then 0xFF
  else s.spaceByte (64 * g + i)

/-- Bits 36 and above of `dumpHbm` hold the stack. -/
def State.tapByte (s : State) (off : Nat) : Byte :=
  match s.ck.dumpHbm with
  | some (first, n) =>
    if off < 64 * n then s.hbmByte (first / 2 ^ 36) (first % 2 ^ 36 + off / 64) (off % 64) else s.openByte 0x33 off
  | none => s.sectionByte s.ck.dumpSection (s.ck.dumpOffset + off)

/-! ## TAP instructions (R477, R478) -/

/-- FRZ_STATUS shifts out the latch. -/
def execFrzStatus (s : State) : Res := finish s (if s.tapReads then s.emit (.tap s.latch) else s)

/-- DUMP_SEL selects a section and an offset in it. -/
def execDumpSel (value : BitVec 64) (s : State) : Res :=
  finish s (if s.tapReads then
    s.modCk fun k => { k with dumpSection := value.toNat % 256, dumpOffset := value.toNat / 256, dumpHbm := none } else s)

/-- DUMP_DATA shifts out bytes from the selected offset onward. -/
def execDumpData (count : Nat) (s : State) : Res :=
  finish s (if s.tapReads then s.emit (.tap ((List.range count).map s.tapByte)) else s)

/-- FRZ_HBM: DUMP_DATA then serves lines of a stack. -/
def execFrzHbm (value : BitVec 72) (s : State) : Res :=
  finish s (if s.tapReads then
    s.modCk fun k => { k with dumpHbm := some (value.toNat % 2 * 2 ^ 36 + value.toNat / 2 % 2 ^ 36, value.toNat / 2 ^ 37) } else s)

/-- FRZ_RESET: a start with cause 04h as after DIAG.BOOT_RESTART with empty maps, without the orderly shutdown (R433, R477). -/
def execFrzReset (s : State) : Res :=
  finishReset s (if s.tapReads then
    (s.loseVolatile.modBt fun b => { b with fails := 0, pilot := 0, force := 0, skip := 0 }).startDue 4 else s)

end Sys2Proof.Machine
end

