-- ==== Sys2Proof/Machine/Module.lean ====
section
/-! DEFINITION. Module hardware (chapter 21, R208, R417 to R420, R463): supplies and power disable, temperature sensors and what
they cause, and the control loops. -/

namespace Sys2Proof.Machine

/-! ## Supplies (R420, R533, R534, R537) -/

/-- The load goes off before B4, or after the orderly power-down; a freeze loses its latch with the power (R477, R534). -/
def State.loadOff (s : State) : State :=
  let early := s.pw.phase == .starting && decide (s.pw.curStep ≤ 4)
  let s :=
    if s.alive && !early || s.pw.phase == .fatal then s.orderly
    else if s.pw.phase == .frozen then s.loseVolatile.modCk fun k => { k with fzCause := 0 }
    else s.loseVolatile
  s.modPw fun p => { p with load := false, cfs := false, phase := .off }

/-- PWR_DIS_RISE (R534). -/
def execPwrDisRise (s : State) : Res :=
  finishReset s (if s.pw.pwrDis then s else (if s.pw.load then s.loadOff else s).modPw fun p => { p with pwrDis := true })

/-- PWR_DIS_FALL: the load is on again, unless a shutdown temperature holds it off, and a start falls due (R534, R537). -/
def execPwrDisFall (s : State) : Res :=
  finish s (
    if !s.pw.pwrDis then s
    else
      let s := s.modPw fun p => { p with pwrDis := false, load := !p.thermalHold }
      if s.pw.load then s.startDue 1 else s)

/-- HOT_SWAP_OVERCURRENT: the power-fail sequence and a fault context; the stage tries again, and 12 V above 11.4 V then starts the
drive (R167, R533, log 38). -/
def execHotSwapOvercurrent (s : State) : Res :=
  finishReset s (
    if !s.pw.p12v then s
    else
      let p (i : Nat) : Nat := Config.eventParam "Hot-swap overcurrent" i s.free
      let s := s.whenB (s.pw.phase != .frozen) fun s =>
        s.recordEvent 0x10 (codeOf 0x10 "Hot-swap overcurrent") (max 4 (sevOf "Hot-swap overcurrent")) (p 0) (p 1) (p 2)
      s.trip)

/-- AUX_SUPPLY_LOSS: recorded by a running drive, whose service goes on (R533). -/
def execAuxSupplyLoss (s : State) : Res :=
  finish s (
    let s := (s.modPw fun p => { p with aux := false }).rail
    if s.alive then s.event 0x10 "Auxiliary supply lost" else s)

/-- AUX_SUPPLY_GOOD: the endpoint answers, and a drive whose 12 V is good starts (R420, R421). -/
def execAuxSupplyGood (s : State) : Res :=
  finish s (
    let s := (s.modPw fun p => { p with aux := true }).rail
    if s.pw.phase == .off || s.pw.phase == .tripped then s.startDue 1 else s)

/-- JUNCTION_COMPARATOR_TRIP switches the hot-swap stage off, and the trip of R167 follows, except during a freeze (R474, R537). -/
def execJunctionComparatorTrip (s : State) : Res :=
  finishReset s (
    let s := s.modPw fun p => { p with hotSwap := false, junctionHold := true }
    if s.pw.p12v then s.trip else s)

/-- JUNCTION_COMPARATOR_CLEAR: the stage may switch on again (R537). -/
def execJunctionComparatorClear (s : State) : Res := finish s (s.modPw fun p => { p with hotSwap := true, junctionHold := false })

/-! ## Temperatures (R208, R463, R536, R537) -/

/-- Critical and shutdown limits of the sensors in 0.1 °C (R536). -/
def criticalLimits : List Int := [950, 900, 900, 750, 750, 850, 1050, 500]
def shutdownLimits : List Int := [1050, 1000, 1000, 820, 820, 950, 1200, 600]

/-- Whether any reading is at or above its limit. -/
def atLimit (readings limits : List Int) : Bool := (readings.zip limits).any fun (r : Int × Int) => decide (r.2 ≤ r.1)

/-- The bin of a reading: 5 °C each from −40 °C, the first and the last taking what lies beyond (R208). -/
def tempBin (t : Int) : Nat := min 32 ((t + 400).toNat / 50)

/-- One more second in the bin of each sensor (R208). -/
def Power.history (p : Power) : Power :=
  { p with tempHist := (p.tempHist.zip p.sensors).map fun (h : List Nat × Int) => modAt h.1 (tempBin h.2) (· + 1) }

/-- Readings with the offsets of the calibration in force, items 0300h + n (R482, R536). -/
def State.calibrated (s : State) (raw : List Int) : List Int := (raw.zipIdx).map fun (r : Int × Nat) => r.1 + s.ck.inForce (0x300 + r.2)

/-- Sensors beyond a Temperature Threshold (R65, R536). -/
def Power.beyond (p : Power) : List Bool :=
  ((p.sensors.zip p.overThr).zip p.underThr).map fun (x : (Int × Int) × Int) => decide (x.1.2 ≤ x.1.1) || decide (x.1.1 ≤ x.2)

/-- New readings; a sensor that passes one of its thresholds raises the SMART/health event (R65, R66, log 38). -/
def State.sense (s : State) (raw : List Int) : State :=
  let old := s.pw.beyond
  let s := s.modPw fun p => { p with sensors := if raw.length = 8 then s.calibrated raw else p.sensors }
  s.whenB ((old.zip s.pw.beyond).any fun (x : Bool × Bool) => !x.1 && x.2) fun s => s.notifyAll .smartHealth

/-- A shutdown temperature: the orderly power-down, and the load off until the drive has cooled (R463, R537). -/
def State.shutdownHot (s : State) : State :=
  ((s.autoEvent 2 "Shutdown temperature").orderly).modPw fun p =>
    { p with thermalHold := true, load := false, cfs := false, phase := .off }

/-- A critical temperature: PS2 limits and the SMART temperature warning (R463, R537). -/
def State.limitHot (s : State) : State :=
  if s.pw.critical then s
  else ((s.modPw fun p => ({ p with critical := true, tempWarning := true }).settle).autoEvent 1 "Critical temperature").notifyAll .smartHealth

/-! ## Control loops (R417 to R419) -/

/-- The input power limit of a power state, in watts (R459). -/
def psLimit : Nat → Nat
  | 0 => 70 | 1 => 55 | 2 => 40 | 3 => 9 | _ => 5

/-- The applied cap of the power loop, 0.1 W: the lower of PG_POWER_W and the power-state limit (R418). -/
def State.powerCap (s : State) : Nat := 10 * min s.mb.goalPower (psLimit s.pw.psNow)

/-- Whether a loop meets its goal; the 99th percentile of retrieval latency, which the model does not hold, is open (log 39). -/
def State.loopMet (s : State) (n w : Nat) : Bool :=
  match n with
  | 0 => decide (s.pw.inputPower ≤ s.powerCap)
  | 1 => decide (s.pw.hottest < 10 * s.mb.goalTemp)
  | 3 | 4 | 7 => s.mb.goalRead == 0 || w % 2 == 0
  | 8 => !s.lagging
  | _ => true

/-- Whether a loop that misses its goal has nothing left to give (state 02h). The power and thermal loops then withhold the whole media write
rate; of the others it is open (R419, log 39). -/
def State.loopSpent (s : State) (n w : Nat) : Bool := if n ≤ 1 then decide (100 ≤ s.md.throttle) else w % 2 == 1

/-- The rules of R418 by which a loop may be limited: of the power and thermal loops the power-fail sequence, the power-state and thermal
limits, of the others the wear governor, foreground GC, the patrol period and the guaranteed shares; which one is open (log 39). -/
def loopLimits (n : Nat) : List Nat := if n ≤ 1 then [167, 459, 463, 537] else [190, 196, 197, 199, 513]

/-- The patrol's pace, MB/s: what it reads of CLOSED bands in 4 days, twice that in the first pass of a start (R199). -/
def State.patrolRate (s : State) : Nat :=
  let bytes := ((s.md.bands.filter (·.state == 3)).map fun b => 32 * (b.fill + b.fillInt)).sum
  bytes * (if s.md.patrolFast then 2 else 1) / 345600 / 1000000

/-- The setting of a loop: the applied cap, the throttle, the accrual in GB per day, the share of the media write rate that GC takes, the
patrol's rate, the equalisation adjustments made, the table generation, the MiB of region 3 lent to the read cache, and the admitted
twin-asynchronous rate, which is open (R113, R190, R199, R329, R418, R419, log 39). -/
def State.loopSetting (s : State) (n w : Nat) : Nat :=
  match n with
  | 0 => s.powerCap
  | 1 => s.md.throttle
  | 2 => s.md.accrual / 1000000000
  | 3 => 100 - s.gcLeaves
  | 4 => s.patrolRate
  | 5 => s.pt.a.equal + s.pt.b.equal
  | 6 => s.md.retryGen
  | 7 => if s.ix.spill.isEmpty then 1024 / (if s.ix.half then 2 else 1) else 0
  | _ => w % 4294967296

/-- An event of a loop that is recorded at most once in a time. -/
def stale (s : State) (last : Option Nat) (seconds : Nat) : Bool :=
  !(last.any fun t => decide (s.mono < t + seconds * Figure.secondNs))

/-- One loop decides: its state, its setting with the count of changes, and their events (R419). -/
def State.decide1 (s : State) (n : Nat) : State :=
  let l := s.mb.loops.getD n {}
  let w (i : Nat) : Nat := (Config.freeWord (s.free + i)).toNat
  let st := if s.loopMet n (w 0) then 0 else if s.loopSpent n (w 1) then 2 else 1
  let set := s.loopSetting n (w 2)
  let changed := set != l.setting
  let sayChange := changed && stale s l.changeEvent 60
  let sayLimit := st == 2 && l.state != 2 && stale s l.limitEvent 3600
  let l' : Loop := { l with
    state := st, limitBy := if st = 2 then (loopLimits n).getD (w 3 % (loopLimits n).length) 0 else 0, setting := set, changes := l.changes + changed.toNat,
    lastTime := if changed then s.now else l.lastTime,
    changeEvent := if sayChange then some s.mono else l.changeEvent, limitEvent := if sayLimit then some s.mono else l.limitEvent }
  let s := { s with mb := { s.mb with loops := s.mb.loops.set n l' }, free := s.free + 4 }
  let s := s.whenB sayChange fun s => s.eventP 1 "Control loop setting changed" n l.setting set
  s.whenB sayLimit fun s => s.eventP 1 "Control loop limited" n l'.limitBy 0

/-- The power and thermal loops withhold more of the media write rate from stores while one of them misses its goal, and less while both meet
them; the steps are the drive's choice (R418, log 39). -/
def State.throttleStores (s : State) : State :=
  let step := 1 + (Config.freeWord s.free).toNat % 100
  s.spend.modMd fun m =>
    { m with throttle := if s.loopMet 0 0 && s.loopMet 1 0 then m.throttle - step else min 100 (m.throttle + step) }

/-- The link tuning of a port: the corrected codewords of the second are counted, and where their rate has risen since it was last adjusted
transmit equalisation is adjusted once more, which is recorded (R329; DESIGN CHOICE: when it is adjusted, log 39). -/
def State.tuneLink (s : State) (port : Nat) : State :=
  let p := s.port port
  if p.link.isNone then s.modPort port fun x => { x with fecRate := 0 }
  else
    let rate := (Config.freeWord s.free).toNat
    let s := s.spend.modPort port fun x =>
      { x with fecRate := rate, equal := x.equal + (decide (x.fecRate < rate)).toNat,
               cnt := { x.cnt with fecCorrected := x.cnt.fecCorrected + rate } }
    s.whenB (decide (p.fecRate < rate)) fun s => s.event (unitOfPort port) "Transmit equalisation adjusted"

/-- The loops run once a second: the input power of that second is what the supplies gave, and the retry tables may take a new
generation (R416 to R419). -/
def State.runLoops (s : State) : State :=
  let w := Config.freeWord s.free
  let s := { s with pw := { s.pw with inputPower := w.toNat % 65536 }, md := { s.md with retryGen := s.md.retryGen + w.toNat / 65536 % 2 },
                    free := s.free + 1 }
  let s := (s.throttleStores.tuneLink 0).tuneLink 1
  let s := s.whenB (decide (10 * s.mb.goalTemp ≤ s.pw.hottest)) fun s => s.autoEvent 0 "Thermal loop limits"
  (List.range 9).foldl State.decide1 s

/-- SENSOR_SAMPLE: once per second (R208, R417, R463, R537). -/
def execSensorSample (readings : List Int) (s : State) : Res :=
  finishReset s (
    if s.pw.phase == .frozen || !s.mb.endpoint then s
    else
      let s := s.sense readings
      if !s.alive then s
      else
        let s := s.modPw Power.history
        if atLimit s.pw.sensors shutdownLimits then s.shutdownHot
        else (s.whenB (atLimit s.pw.sensors criticalLimits) State.limitHot).runLoops)

/-- CRITICAL_CLEARED: 60 s below every critical limit end the PS2 limits and the warning, or, after a shutdown, the load is on and
a start falls due (R463, R537). -/
def execCriticalCleared (s : State) : Res :=
  finish s (
    if atLimit s.pw.sensors criticalLimits || s.pw.phase == .frozen then s
    else if s.pw.thermalHold then
      let s := s.modPw fun p => { p with thermalHold := false, tempWarning := false, load := !p.pwrDis }
      if s.pw.load then s.startDue 1 else s
    else if s.pw.critical then
      (s.modPw fun p => ({ p with critical := false, tempWarning := false }).settle).autoEvent 1 "Critical temperature ended"
    else s)

end Sys2Proof.Machine
end

