-- ==== Sys2Proof/Machine/OriginFill.lean ====
section
/-! DEFINITION. Origin fill (chapter 10): origins, paths, bindings, fills, expiry and negative entries. Readings of
corners: log 25. -/

namespace Sys2Proof.Machine

/-! ## Fills -/

def Origin.fill? (o : Origin) (nsid : Nat) (key : Key) : Option Fill := o.fills.find? fun f => f.nsid == nsid && f.key == key
def State.modFill (s : State) (f : Fill) (g : Fill → Fill) : State :=
  s.modOg fun o => { o with fills := o.fills.map fun x => if x.nsid == f.nsid && x.key == f.key then g x else x }

/-- The commands that wait for a fill, in fetch order (R297). -/
def State.fillWaiters (s : State) (f : Fill) : List Cmd := (s.inPhase .waitFill).filter fun c => c.e.nsid == f.nsid && c.key == f.key

def State.bindingOf (s : State) (nsid : Nat) : Option Binding := s.og.bindings.find? (·.nsid == nsid)

/-- The fill's reservation is given back, or no longer waited for. -/
def State.freeFill (s : State) (f : Fill) : State :=
  match f.granule with
  | some g => (s.unreserve g f.granules).modFill f fun x => { x with granule := none }
  | none => s.modWx fun w => { w with waiters := w.waiters.filter fun x => x != .fill f.nsid f.key }

def State.dropFill (s : State) (f : Fill) : State :=
  ((s.freeFill f).modOg fun o => { o with fills := o.fills.filter fun x => !(x.nsid == f.nsid && x.key == f.key) }).closeOld

/-- The open path of a fill whose turn it is (R293). -/
def State.nextPath (s : State) (f : Fill) : Option Nat :=
  let ps := (s.og.paths.filter fun p => p.isOpen && s.fillPath f p).map (·.port)
  ps[(s.og.turn.getD f.origin 0) % ps.length]?

/-- Sends the Retrieve of a fill on the next path: 02h, or 91h for a key above 16 bytes (R290, R293, R296). -/
def State.sendFetch (s : State) (f : Fill) (stage len : Nat) : State :=
  match s.nextPath f with
  | some p =>
    ((s.modFill f fun x => { x with stage := stage, sent := true, port := p }).modOg fun o => { o with turn := modAt o.turn f.origin (· + 1) }).emit
      (.originRetrieve f.origin p f.binding.originNsid f.key len (if f.key.length ≤ 16 then 0x02 else 0x91))
  | none => s

/-- The origin of a fill, as it was set when the fill began, takes one more fetch (R291, R293). -/
def State.originRoom (s : State) (f : Fill) : Bool :=
  (f.record.orElse fun _ => s.og.origin? f.origin).any fun r => decide (s.og.fills.countP (fun x => x.origin == f.origin && x.sent) < r.maxFills)

/-- Room for one more fetch: 2,048 contexts of fills, the contexts of the drive as an initiator, and the origin's own limit (R56, R293). -/
def State.fillRoom (s : State) (f : Fill) : Bool :=
  decide (s.og.fills.countP (·.sent) < Figure.fillMax) && s.initiatorRoom && s.originRoom f

/-- No earlier miss waits for the room that the fill would take: none of its origin, and none of another that its own origin's limit does
not hold back (R293). -/
def State.fillFirst (s : State) (f : Fill) : Bool :=
  (s.og.fills.find? fun x => x.stage == 0 && (x.origin == f.origin || s.originRoom x)).any fun x => x.nsid == f.nsid && x.key == f.key

/-- Sends the Retrieve of a fill that holds its staging, once there is room for the fetch (R293). -/
def State.fetchOrWait (s : State) (f : Fill) (stage len : Nat) : State :=
  if s.fillRoom f then s.sendFetch f stage len else s.modFill f fun x => { x with stage := stage, sent := false }

/-- Reserves staging for a value of `len` bytes, and sends the Retrieve once it is held; without room the fill waits like a
store (R163, R296, R303). -/
def State.reserveFetch (s : State) (f : Fill) (n : Ns) (stage len : Nat) : State :=
  let g := recGranules n.mode f.key.length len
  match (if s.wx.waiters.isEmpty then s.reserve g false else (s, none)) with
  | (s, some at_) => (s.modFill f fun x => { x with granule := some at_, granules := g }).fetchOrWait f stage len
  | (s, none) =>
    (s.modFill f fun x => { x with stage := stage, sent := false, granules := g }).modWx fun w =>
      { w with waiters := w.waiters ++ [.fill f.nsid f.key] }

/-- An origin error: the fill repeats once on an open fallback, or its waiters are answered and it ends (R302). -/
def State.originError (s : State) (f : Fill) : State :=
  let s := (s.noteError f.origin).freeFill f
  match f.fallen.filter fun g => s.fillOpen g && s.og.serves f.key g.origin with
  | some g => s.modFill f fun x => { x with origin := g.origin, record := g.record, onFallback := true, stage := 0, repeats := 0, len := 0,
                                            sent := false, granule := none }
  | none => (s.fillWaiters f).foldl (fun s c => s.unreachable c (some f.binding)) (s.dropFill f)

/-- FILL_START: the oldest waiting fill of its origin starts, or one that waited for staging or for room and has it now sends its
Retrieve (R293, R296). -/
def execFillStart (nsid : Nat) (key : Key) (s : State) : Res :=
  finish s (
    match s.og.fill? nsid key, s.nsOf nsid with
    | some f, some n =>
      if !s.alive || f.sent || f.stage == 3 then s
      else if !s.fillOpen f then s.originError f
      else if !s.fillRoom f || (f.stage == 0 && !s.fillFirst f) then s
      else if f.granule.isSome then s.sendFetch f (max 1 f.stage) (if f.stage ≤ 1 then 65536 else f.len)
      else if f.stage = 0 then s.reserveFetch f n 1 65536
      else s
    | _, _ => s)

/-- Step 3 of a fill: the full-length Retrieve (R296). -/
def State.fullFetch (s : State) (f : Fill) (len repeats : Nat) : State :=
  match s.nsOf f.nsid with
  | some n =>
    let s := (s.freeFill f).modFill f fun x => { x with len := len, repeats := repeats, sent := false, granule := none }
    s.reserveFetch { f with granule := none } n 2 len
  | none => s

/-- A write that the drive makes of its own finds room in the journal: enough blocks, and no commit waits before it (R161). -/
def State.ownRoom (s : State) (w : Write) : Bool := s.journalRoom w.blocks && !s.journalWaits

/-- A deletion the drive itself originates: a DELETE record (R300). Without room for it in the journal it waits (R161). -/
def State.driveDelete (s : State) (nsid : Nat) (key : Key) : State :=
  let w : Write := { kind := .delete, nsid := nsid, key := key, action := 0 }
  if s.ownRoom w then ((s.look nsid key).commit w none).1
  else if (nsid, key) ∈ s.og.deletes then s
  else (s.modOg fun o => { o with deletes := o.deletes ++ [(nsid, key)] }).journalFull

/-- A negative entry; the oldest makes room in a full region (R301). -/
def State.addNegative (s : State) (nsid : Nat) (key : Key) (ttl : Nat) : State :=
  let most := if s.ix.half || s.ix.lost.any id then 2097152 else 4194304
  s.modOg fun o => { o with neg := keepLast most (o.neg ++ [{ nsid := nsid, h := s.hash nsid key, expiry := s.mono + ttl * Figure.secondNs }]) }

/-- The origin has no such key (R300, R301). DESIGN CHOICE (log 25): an expired record goes where STALE_OK is 1 too, as R300 says of a fill
that ends as absent, though it then says that such a record leaves by replacement, crypto-erase and namespace deletion only. -/
def State.fillAbsent (s : State) (f : Fill) : State :=
  let s := s.modOg fun o => o.count f.origin fun k => { k with absent := k.absent + 1 }
  let s := s.whenB ((s.find f.nsid f.key).any fun x => s.mirrorExpired x.record) fun s => s.driveDelete f.nsid f.key
  let ttl := f.binding.negTtlS
  let s := if ttl = 0 then s else s.addNegative f.nsid f.key ttl
  (s.fillWaiters f).foldl (fun s c => s.complete c .keyDoesNotExist) (s.dropFill f)

/-- A fetched value waits for its commit (R296 step 4). -/
def State.fetched (s : State) (f : Fill) (len : Nat) (data : Bytes) : State :=
  s.modFill f fun x => { x with stage := 3, sent := false, len := len, value := data.take len }

/-- Bytes that a Retrieve of a fill brings of a value of `len` bytes: what its buffer takes (R296, R305). -/
def Fill.arrives (f : Fill) (len : Nat) : Nat := min len (if f.stage = 1 then 65536 else f.len)

/-- FILL_RETRIEVE_COMPLETE; the bytes of every Retrieve count (R296, R301, R302, R305). -/
def State.fetchDone (s : State) (f : Fill) (r : FillReply) : State :=
  match r with
  | .error => s.originError f
  | .absent => s.fillAbsent f
  | .value len data =>
    let s := s.modOg fun o => o.count f.origin fun k => { k with bytes := k.bytes + f.arrives len }
    if Figure.maxValue < len then s.originError f
    else if f.stage = 1 then (if len ≤ 65536 then s.fetched f len data else s.fullFetch f len 0)
    else if len = f.len then s.fetched f len data
    else if f.repeats < 2 then s.fullFetch f len (f.repeats + 1)
    else s.originError f

def execFillRetrieveComplete (nsid : Nat) (key : Key) (r : FillReply) (s : State) : Res :=
  finish s (
    match s.og.fill? nsid key with
    | some f => if s.alive && f.sent then s.fetchDone f r else s
    | none => s)

/-- FILL_TIMEOUT; the pause of an activation does not count (R302, R304). -/
def execFillTimeout (nsid : Nat) (key : Key) (s : State) : Res :=
  finish s (
    match s.og.fill? nsid key with
    | some f => if s.alive && !s.bt.paused && f.sent then s.originError f else s
    | none => s)

/-- The record of a fill (R39, R296 step 4). -/
def State.fillRecord (s : State) (f : Fill) (n : Ns) (g : Nat) : StoredRec :=
  let gen := s.currentGen f.nsid
  { nsid := f.nsid, flags := recFlags false false gen, seq := 0, key := f.key, value := f.value, keyGen := gen, mode := n.mode,
    mediaSeal := false, nonceCounter := s.wx.nonce g }

/-- The commit of a fill: a Local store without a receipt, with the hint of the first miss; every waiter is served then. A value
that cannot be stored is served all the same. Without room in the journal the commit waits (R161, R296, R298, R303, R304). -/
def State.fillCommit (s : State) (f : Fill) (n : Ns) (g : Nat) : State :=
  let r := s.fillRecord f n g
  let ws := s.fillWaiters f
  if f.abandoned || s.capacityRefuses f.nsid f.key r.bytes then ws.foldl (fun s c => s.serve c r) (s.dropFill f)
  else
    let w : Write := { kind := .store, nsid := f.nsid, key := f.key, action := f.hint.setWidth 16 <<< 9, srec := some r, loc := some (.wax g) }
    if !s.ownRoom w then (s.modFill f fun x => { x with waitsJournal := true }).journalFull else
    let s := ((s.look f.nsid f.key).commit w none).1
    let s := (s.modOg fun o => { (o.count f.origin fun k => { k with completed := k.completed + 1 }) with
      fills := o.fills.filter fun x => !(x.nsid == f.nsid && x.key == f.key) }).closeOld
    ws.foldl (fun s c => s.serve c r) s

/-- FILL_COMMIT (R296). -/
def execFillCommit (nsid : Nat) (key : Key) (s : State) : Res :=
  finish s (
    match s.og.fill? nsid key, s.nsOf nsid with
    | some f, some n =>
      match f.granule with
      | some g => if s.alive && f.stage == 3 && !f.waitsJournal then s.fillCommit f n g else s
      | none => s
    | _, _ => s)

/-! ## Path events (R292, R302) -/

/-- ORIGIN_PATH_OPENED. -/
def execOriginPathOpened (origin port : Nat) (s : State) : Res :=
  finish s (if s.alive then s.modPath origin port fun p => { p with isOpen := true, retryDelayS := 1 } else s)

/-- ORIGIN_PATH_FAILURE: the fetches on the path are origin errors (R302). DESIGN CHOICE (log 25): where a path to the target from before a
change still stands beside the one in force, both have failed, since the row names only the origin and the port. -/
def execOriginPathFailure (origin port : Nat) (s : State) : Res :=
  finish s (
    match s.og.path? origin port with
    | some p =>
      if !s.alive then s
      else
        let s := if p.isOpen then s.modPath origin port fun p => { p with isOpen := false, retryDelayS := 1 } else s
        let s := s.modOg fun o => { o with paths := o.paths.filter fun x => !(x.retired && x.origin == origin && x.port == port) }
        (s.og.fills.filter fun f => f.origin == origin && f.port == port && f.sent).foldl State.originError s
    | none => s)

/-- ORIGIN_PATH_RETRY: the next delay doubles, up to 30 s (R292). -/
def execOriginPathRetry (origin port : Nat) (s : State) : Res :=
  finish s (
    match s.og.path? origin port, s.og.origin? origin with
    | some p, some r =>
      if s.alive && !p.isOpen && !p.retired && s.mayOpen r then
        (s.modPath origin port fun p => { p with retryDelayS := min 30 (2 * p.retryDelayS) }).emit (.originConnect origin port p.link)
      else s
    | _, _ => s)

/-! ## Expiry (R299, R300) -/

/-- TTL_CHECKPOINT (R299). -/
def execTtlCheckpoint (s : State) : Res :=
  finish s (if s.alive then s.modOg fun o => { o with ttl := ((s.pw.powerOnS, s.va.nextSeq) :: o.ttl).take 43200 } else s)

/-- MIRROR_EXPIRY_SWEEP: expired records go where STALE_OK is 0 (R300). -/
def execMirrorExpirySweep (nsid : Nat) (s : State) : Res :=
  finish s (
    match s.bindingOf nsid with
    | some b =>
      if s.alive && !b.staleOk then
        (s.recordsOf nsid fun r => s.unseals r && s.mirrorExpired r).foldl
          (fun s (_, r) => s.driveDelete nsid r.key) s
      else s
    | none => s)

/-! ## CONFIG messages of this chapter -/

/-- The first field of an origin record that fails; of one that removes an origin only the index and what is reserved count (R9, R291). -/
def originBad (p : Bytes) : Option Nat :=
  let valid := (natAt p 1 1).testBit 0
  if 7 < natAt p 0 1 then some 0
  else if 32 ≤ natAt p 1 1 ∨ (valid && natAt p 1 1 / 8 % 4 = 0) then some 1
  else if natAt p 2 2 ≠ 0 then some 2
  else if valid && (natAt p 4 4 < 100 || 60000 < natAt p 4 4) then some 4
  else if valid && (natAt p 8 2 < 1 || 2048 < natAt p 8 2) then some 8
  else if natAt p 12 4 ≠ 0 then some 12
  else if !allZero (bytesAt p 272 16) then some 272
  else none

/-- CONFIG.ORIGIN_SET (R291). -/
def hOriginSet : Handler := fun s m =>
  let p := m.payload
  let i := natAt p 0 1
  if p.length ≠ 288 then saying s (refuse .length)
  else match originBad p with
    | some off => saying s (badField off)
    | none =>
      if !(natAt p 1 1).testBit 0 then
        if s.og.named i then saying s (badField 1) else doing (s.modOg fun o => { o with origins := o.origins.set i none }) {}
      else
        let r : OriginRec := { flags := BitVec.ofNat 8 (natAt p 1 1), timeoutMs := natAt p 4 4, maxFills := natAt p 8 2, tcpPort := natAt p 10 2,
                               addrA := bytesAt p 16 16, addrB := bytesAt p 32 16, nqn := (bytesAt p 48 224).takeWhile (· != 0) }
        doing (s.modOg fun o => { o with origins := o.origins.set i (some r) }).ensurePaths {}

/-- The payload of an origin record in force (R291, R414). -/
def originBytes (i : Nat) (r : OriginRec) : Bytes :=
  leBytes 1 i ++ leBytes 1 r.flags.toNat ++ [0, 0] ++ leBytes 4 r.timeoutMs ++ leBytes 2 r.maxFills ++ leBytes 2 r.tcpPort ++ [0, 0, 0, 0]
    ++ padTo 16 r.addrA ++ padTo 16 r.addrB ++ padTo 224 r.nqn ++ List.replicate 16 0

/-- The first field of a Mirror binding that fails (R294). DESIGN CHOICE (log 25): an index of 0 to 7 without a valid origin fails too. -/
def State.mirrorBad (s : State) (p : Bytes) : Option Nat :=
  let ttl := natAt p 8 4
  if !((s.nsOf (natAt p 0 4)).any (·.type == .mirror)) then some 0
  else if (s.og.origin? (natAt p 4 1)).isNone then some 4
  else if natAt p 5 1 ≠ 255 && (s.og.origin? (natAt p 5 1)).isNone then some 5
  else if 1 < natAt p 6 1 then some 6
  else if natAt p 7 1 ≠ 0 then some 7
  else if ttl ≠ 0 && (ttl < 60 || 2592000 < ttl) then some 8
  else if 3600 < natAt p 12 2 then some 12
  else if natAt p 14 2 ≠ 0 then some 14
  else if !allZero (bytesAt p 20 12) then some 20
  else none

/-- CONFIG.MIRROR_SET: the binding, and the namespace's negative entries go (R294, R301). -/
def hMirrorSet : Handler := fun s m =>
  let p := m.payload
  if p.length ≠ 32 then saying s (refuse .length)
  else match s.mirrorBad p with
    | some off => saying s (badField off)
    | none =>
      let nsid := natAt p 0 4
      let b : Binding := { nsid := nsid, origin := natAt p 4 1, fallback := if natAt p 5 1 = 255 then none else some (natAt p 5 1),
                           staleOk := natAt p 6 1 == 1, ttlS := (natAt p 8 4 + 59) / 60 * 60, negTtlS := natAt p 12 2, originNsid := natAt p 16 4 }
      doing (s.modOg fun o => { o with bindings := (o.bindings.filter (·.nsid ≠ nsid)) ++ [b], neg := o.neg.filter (·.nsid ≠ nsid) }).ensurePaths {}

/-- The payload of a binding in force (R294, R414). -/
def Binding.bytes (b : Binding) : Bytes :=
  leBytes 4 b.nsid ++ leBytes 1 b.origin ++ leBytes 1 (b.fallback.getD 255) ++ leBytes 1 b.staleOk.toNat ++ [0] ++ leBytes 4 b.ttlS
    ++ leBytes 2 b.negTtlS ++ [0, 0] ++ leBytes 4 b.originNsid ++ List.replicate 12 0

/-- CONFIG.ORIGIN_STATUS: nine counts for each origin (R305). DESIGN CHOICE (log 25): a fill that waits to start is not outstanding, and one
whose value was served and not stored is not completed. Paths that stand only for fills begun before a change are not counted. -/
def hOriginStatus : Handler := fun s m =>
  if m.payload ≠ [] then saying s (refuse .length)
  else saying s (answer ((List.range 8).flatMap fun i =>
    let k := s.og.counts.getD i {}
    leBytes 8 (s.og.paths.countP fun p => p.origin == i && p.isOpen && !p.retired) ++ leBytes 8 (s.og.fills.countP fun f => f.origin == i && f.stage != 0)
      ++ leBytes 8 k.completed ++ leBytes 8 k.absent ++ leBytes 8 k.coalesced ++ leBytes 8 k.negative ++ leBytes 8 k.errors ++ leBytes 8 k.stale
      ++ leBytes 8 k.bytes))

/-- ORIGIN_SET (R291). -/
def execOriginSet (m : MsgReq) (s : State) : Res := finish s (s.message 0x01 0x08 hOriginSet m)
/-- MIRROR_SET (R294). -/
def execMirrorSet (m : MsgReq) (s : State) : Res := finish s (s.message 0x01 0x09 hMirrorSet m)
/-- ORIGIN_STATUS (R305). -/
def execOriginStatus (m : MsgReq) (s : State) : Res := finish s (s.message 0x01 0x0A hOriginStatus m)

end Sys2Proof.Machine
end

