-- ==== Sys2Proof/Machine/Manage.lean ====
section
/-! DEFINITION. CONFIG, HEALTH and POLICY messages (R26, R27, R45, R51, R195, R204, R414 to R419). -/

namespace Sys2Proof.Machine

/-! ## CONFIG messages (R414, R415) -/

/-- An enrolled host in the payload form of CONFIG.HOST_ADD. -/
def HostRow.bytes (h : HostRow) : Bytes := padTo 224 h.nqn ++ leBytes 2 h.group ++ leBytes 1 h.level

/-- CONFIG.HOST_ADD enrols a host or changes its group and level; a 1,025th host finds the table full (R42, R51, log 40). -/
def hHostAdd : Handler := fun s m =>
  let p := m.payload
  let nqn := trimZero (bytesAt p 0 224)
  let h : HostRow := { nqn := nqn, group := natAt p 224 2, level := natAt p 226 1 }
  if p.length ≠ 227 then saying s (refuse .length)
  else if nqn = [] then saying s (badField 0)
  else if 2 < h.level then saying s (badField 226)
  else if (s.fe.host? nqn).isSome then
    doing (s.modFe fun f => { f with hosts := f.hosts.map fun x => if x.nqn == nqn then h else x }) {}
  else if 1024 ≤ s.fe.hosts.length then saying s (refuse .stateRefused)
  else doing (s.modFe fun f => { f with hosts := f.hosts ++ [h] }) {}

/-- CONFIG.HOST_REMOVE: the host's controllers are torn down as by a controller reset; the sending host's own NQN is refused (R107,
R414). The NQN of no enrolled host is an inconsistent field (log 40). -/
def hHostRemove : Handler := fun s m =>
  let nqn := trimZero m.payload
  if m.payload.length ≠ 224 then saying s (refuse .length)
  else if (s.fe.host? nqn).isNone || (m.mbox < 8 && nqn == s.hostOf m.src) then saying s (badField 0)
  else
    let s := s.modFe fun f => { f with hosts := f.hosts.filter (·.nqn ≠ nqn) }
    doing (((s.fe.ctrls.filter (·.host == nqn)).map (·.cntlid)).foldl State.tearDown s) {}

/-- CONFIG.HOST_LIST: up to 17 entries from an index. -/
def hHostList : Handler := fun s m =>
  if m.payload.length ≠ 2 then saying s (refuse .length)
  else saying s (answer (((s.fe.hosts.drop (natAt m.payload 0 2)).take 17).flatMap HostRow.bytes))

/-- CONFIG.RETENTION_SET: a class is defined, or its period lengthened; shortening is refused and the old period kept (R26, R27). -/
def hRetentionSet : Handler := fun s m =>
  let p := m.payload
  let c := natAt p 0 1
  let days := natAt p 4 4
  if p.length ≠ 8 then saying s (refuse .length)
  else if 63 < c then saying s (badField 0)
  else if natAt p 1 3 ≠ 0 then saying s (badField 1)
  else if 36525 < days ∨ days < (s.va.retention.getD c none).getD 0 then saying s (badField 4)
  else doing (s.modVa fun v => { v with retention := v.retention.set c (some days) }) {}

/-- CONFIG.RATE_SET: the ceilings of classes 1 to 15; 0 means none (R45). -/
def hRateSet : Handler := fun s m =>
  let p := m.payload
  let c := natAt p 0 1
  if p.length ≠ 20 then saying s (refuse .length)
  else if c = 0 ∨ 15 < c then saying s (badField 0)
  else if natAt p 1 3 ≠ 0 then saying s (badField 1)
  else doing (s.modVa fun v => { v with rate := modAt v.rate c fun r => { r with cps := natAt p 4 8, bps := natAt p 12 8 } }) {}

/-- CONFIG.CHANNELS_SET: one to four designated channels, for bands opened from now on (R195). -/
def hChannelsSet : Handler := fun s m =>
  let v := natAt m.payload 0 2
  let n := (List.range 16).countP fun i => v.testBit i
  if m.payload.length ≠ 2 then saying s (refuse .length)
  else if n = 0 ∨ 4 < n then saying s (badField 0)
  else doing (s.modMd fun d => { d with channels := BitVec.ofNat 16 v }) {}

/-- CONFIG.SECDEL_SET: 1 to 168 hours (R204). -/
def hSecdelSet : Handler := fun s m =>
  let v := natAt m.payload 0 2
  if m.payload.length ≠ 2 then saying s (refuse .length)
  else if v = 0 ∨ 168 < v then saying s (badField 0)
  else doing (s.modMd fun d => { d with secdelHours := v }) {}

/-- The contents in force for a set message, in its payload form; the index counts hosts, classes, origins, bindings, interfaces
(16 × port + interface) and ports (R414, log 40). -/
def State.configOf (s : State) (op i : Nat) : Option Bytes :=
  match op with
  | 0x01 => s.fe.hosts[i]?.map HostRow.bytes
  | 0x04 => (s.va.retention.getD i none).map fun d => leBytes 1 i ++ leBytes 3 0 ++ leBytes 4 d
  | 0x05 => if i = 0 then none else s.va.rate[i]?.map fun r => leBytes 1 i ++ leBytes 3 0 ++ leBytes 8 r.cps ++ leBytes 8 r.bps
  | 0x06 => some (leBytes 2 s.md.channels.toNat)
  | 0x07 => some (leBytes 2 s.md.secdelHours)
  | 0x08 => (s.og.origins.getD i none).map (originBytes i)
  | 0x09 => s.og.bindings[i]?.map Binding.bytes
  | 0x0B => if 32 ≤ i then none else ((s.port (i / 16)).ifs.find? (·.index == i % 16)).map fun x => x.bytes (i / 16)
  | 0x0C => if 2 ≤ i then none else some ((s.port i).cfg.bytes i)
  | _ => none

/-- The set messages CONFIG.GET reads back. -/
def setOps : List Nat := [0x01, 0x04, 0x05, 0x06, 0x07, 0x08, 0x09, 0x0B, 0x0C]

/-- CONFIG.GET (R414). -/
def hConfigGet : Handler := fun s m =>
  let p := m.payload
  if p.length ≠ 8 then saying s (refuse .length)
  else if natAt p 0 1 ∉ setOps then saying s (badField 0)
  else if natAt p 1 3 ≠ 0 then saying s (badField 1)
  else match s.configOf (natAt p 0 1) (natAt p 4 4) with
    | some b => saying s (answer b)
    | none => saying s (badField 4)

/-- HOST_ADD. -/
def execHostAdd (m : MsgReq) (s : State) : Res := finish s (s.message 0x01 0x01 hHostAdd m)
/-- HOST_REMOVE. -/
def execHostRemove (m : MsgReq) (s : State) : Res := finish s (s.message 0x01 0x02 hHostRemove m)
/-- HOST_LIST. -/
def execHostList (m : MsgReq) (s : State) : Res := finish s (s.message 0x01 0x03 hHostList m)
/-- RETENTION_SET. -/
def execRetentionSet (m : MsgReq) (s : State) : Res := finish s (s.message 0x01 0x04 hRetentionSet m)
/-- RATE_SET. -/
def execRateSet (m : MsgReq) (s : State) : Res := finish s (s.message 0x01 0x05 hRateSet m)
/-- CHANNELS_SET. -/
def execChannelsSet (m : MsgReq) (s : State) : Res := finish s (s.message 0x01 0x06 hChannelsSet m)
/-- SECDEL_SET. -/
def execSecdelSet (m : MsgReq) (s : State) : Res := finish s (s.message 0x01 0x07 hSecdelSet m)
/-- CONFIG_GET. -/
def execConfigGet (m : MsgReq) (s : State) : Res := finish s (s.message 0x01 0x0E hConfigGet m)

/-! ## HEALTH messages (R416) -/

/-- HS_LOOPS_LIMITED: the loops in state 02h (R416, R419). -/
def Mail.limited (m : Mail) : Nat := ((m.loops.zipIdx).filter fun l => l.1.state == 2).foldl (fun a l => a + 2 ^ l.2) 0

/-- The health summary record. -/
def State.summary (s : State) : Bytes :=
  leBytes 1 s.smartWarn ++ leBytes 1 s.pw.psNow ++ leBytes 1 s.lifecycle.code ++ leBytes 1 s.li.level ++ leBytes 1 s.hsBoot ++ [s.tq]
    ++ leBytes 1 s.tw.role.code ++ leBytes 1 s.sk.shown ++ intBytes 2 s.pw.hottest ++ leBytes 2 s.pw.inputPower ++ leBytes 4 s.hlFlags
    ++ leBytes 8 s.pw.uptimeS ++ leBytes 8 (s.pw.powerOnS / 3600) ++ leBytes 8 s.now ++ leBytes 4 (newestSeq s.ev.kept s.ev.circ)
    ++ leBytes 4 (s.fl.c1.countP fun r => r.state == 1 || r.state == 2) ++ leBytes 2 s.mb.limited ++ List.replicate 14 0

def hHealthSummary : Handler := fun s m => if m.payload ≠ [] then saying s (refuse .length) else saying s (answer s.summary)

/-- HEALTH_SUMMARY. -/
def execHealthSummary (m : MsgReq) (s : State) : Res := finish s (s.message 0x0E 0x01 hHealthSummary m)

/-- HEALTH.SENSORS: reading, over and under threshold of each sensor. -/
def hHealthSensors : Handler := fun s m =>
  if m.payload ≠ [] then saying s (refuse .length)
  else saying s (answer ((List.range 8).flatMap fun i =>
    intBytes 2 (s.pw.sensors.getD i 0) ++ intBytes 2 (s.pw.overThr.getD i 0) ++ intBytes 2 (s.pw.underThr.getD i 0)))

/-- HEALTH_SENSORS. -/
def execHealthSensors (m : MsgReq) (s : State) : Res := finish s (s.message 0x0E 0x04 hHealthSensors m)

/-! ## POLICY messages (R417, R419) -/

/-- The first field of a goal record that fails (R9, R417). -/
def goalBad (p : Bytes) : Option Nat :=
  let r := natAt p 4 4
  if natAt p 0 2 < 40 ∨ 70 < natAt p 0 2 then some 0
  else if natAt p 2 1 < 55 ∨ 80 < natAt p 2 1 then some 2
  else if natAt p 3 1 ≠ 0 then some 3
  else if r ≠ 0 ∧ (r < 100 ∨ 100000 < r) then some 4
  else if natAt p 8 4 < 1 ∨ 60000 < natAt p 8 4 then some 8
  else if natAt p 12 4 ≠ 0 then some 12 else none

/-- POLICY.GOAL_SET: the record applies whole; a cap below that of the power state is an autonomous transition (R417, R463). -/
def hGoalSet : Handler := fun s m =>
  let p := m.payload
  if p.length ≠ 16 then saying s (refuse .length)
  else match goalBad p with
    | some o => saying s (badField o)
    | none =>
      let s := s.modMb fun b => { b with goalPower := natAt p 0 2, goalTemp := natAt p 2 1, goalRead := natAt p 4 4, goalLag := natAt p 8 4 }
      doing (s.whenB (decide (s.mb.goalPower < psLimit s.pw.psNow)) fun s => s.autoEvent 3 "Power goal limits") {}

/-- The goal record in force. -/
def Mail.goals (m : Mail) : Bytes :=
  leBytes 2 m.goalPower ++ leBytes 1 m.goalTemp ++ [0] ++ leBytes 4 m.goalRead ++ leBytes 4 m.goalLag ++ leBytes 4 0

def hGoalGet : Handler := fun s m => if m.payload ≠ [] then saying s (refuse .length) else saying s (answer s.mb.goals)

/-- PD_MEASURE; of the measures the model does not hold, a free value (R419, log 39). -/
def State.measure (s : State) (n : Nat) : Bytes :=
  match n with
  | 0 => leBytes 4 s.pw.inputPower
  | 1 => intBytes 4 s.pw.hottest
  | 2 => leBytes 4 s.md.waMilli
  | 3 => leBytes 4 s.md.freeBands
  | 4 => leBytes 4 s.md.patrolProgress
  | 5 => leBytes 4 (s.pt.a.fecRate + s.pt.b.fecRate)
  | 8 => leBytes 4 s.lagMs
  | _ => padTo 4 (Config.freeBytes (s.free + n) 4)

/-- PD_GOAL: the goal in force, 0 where the loop has none (R419). -/
def Mail.loopGoal (m : Mail) (n : Nat) : Nat :=
  match n with
  | 0 => m.goalPower
  | 1 => m.goalTemp
  | 3 | 4 | 7 => m.goalRead
  | 8 => m.goalLag
  | _ => 0

/-- A decision entry (R419). -/
def State.decision (s : State) (n : Nat) : Bytes :=
  let l := s.mb.loops.getD n {}
  leBytes 1 n ++ leBytes 1 l.state ++ leBytes 2 l.limitBy ++ leBytes 4 (s.loopSetting n l.setting) ++ s.measure n ++ leBytes 4 (s.mb.loopGoal n)
    ++ leBytes 8 l.changes ++ leBytes 8 l.lastTime

def hDecisions : Handler := fun s m =>
  if m.payload ≠ [] then saying s (refuse .length)
  else doing { s with free := s.free + 9 } (answer ((List.range 9).flatMap s.decision))

/-- GOAL_SET. -/
def execGoalSet (m : MsgReq) (s : State) : Res := finish s (s.message 0x02 0x01 hGoalSet m)
/-- GOAL_GET. -/
def execGoalGet (m : MsgReq) (s : State) : Res := finish s (s.message 0x02 0x02 hGoalGet m)
/-- DECISIONS. -/
def execDecisions (m : MsgReq) (s : State) : Res := finish s (s.message 0x02 0x03 hDecisions m)

end Sys2Proof.Machine
end

