-- ==== Sys2Proof/Machine/Witness.lean ====
section
/-! DEFINITION. The drive as a witness of twin pairs in its stack (R273, R274): whom it polls over the chain, what the replies tell
it, and the promotions it grants. The corners the manual leaves open are in log 24. -/

namespace Sys2Proof.Machine

/-! ## Which pairs this drive witnesses (R273) -/

/-- A drive that takes part in pairs as they are learned: any that may be the witness of a pair, which is the Beacon or one of the two
lowest-positioned other members, since at most one of those is the Beacon's twin. -/
def State.watches (s : State) : Bool :=
  s.sk.linked && s.sk.isMember s.pw.pos
    && (s.sk.role == 1 || s.pw.pos ∈ ((List.range 16).filter fun p => s.sk.isMember p && p != s.sk.beacon).take 2)

/-- The members that form a pair, this drive among them if it is one of the twins. -/
def State.twinsOf (s : State) (pair : Bytes) : List Nat :=
  (if s.tw.role != .solo && s.tw.pairId == pair then [s.pw.pos] else []) ++ (s.sk.views.filter fun v => v.pairId == pair).map (·.pos)

/-- This drive is the witness of a pair: as Beacon, or, where the Beacon is one of the twins, as the lowest-positioned member that is
not (R273). -/
def State.witnessOf (s : State) (pair : Bytes) : Bool :=
  let twins := s.twinsOf pair
  if s.pw.pos ∈ twins then false
  else if s.sk.beacon ∈ twins then (List.range 16).find? (fun p => s.sk.isMember p && p ∉ twins) == some s.pw.pos
  else s.sk.role == 1

/-! ## Terms and grants (R272, R274) -/

/-- The term of a pair as the witness knows it: the highest that a drive of the pair has reported or that it has granted. -/
def State.pairTerm (s : State) (pair : Bytes) : Nat :=
  max (((s.sk.views.filter fun v => v.pairId == pair).map (·.term)).foldl max 0)
    (((s.wx.granted.filter fun g => g.1 == pair).map (·.2)).foldl max 0)

/-- The last reply of the Primary of a pair, or the time from which the witness has waited for one. -/
def State.primaryHeard (s : State) (pair : Bytes) : Nat :=
  ((s.sk.primarySeen.lookup pair).getD 0).max s.sk.watchFrom

/-- 100 ms in nanoseconds. -/
def silenceNs : Nat := 100000000

/-- A promotion may be granted: the drive that asks is the Secondary of the current term, that term has had no grant, and the Primary has
not replied for 100 ms, counted by a new Beacon from when it took the role (R274). -/
def State.mayGrant (s : State) (v : WitnessView) : Bool :=
  v.request && v.role == 2 && v.term == s.pairTerm v.pairId && decide ((v.pairId, v.term + 1) ∉ s.wx.granted)
    && decide (s.primaryHeard v.pairId + silenceNs ≤ s.mono)

/-- A promotion is denied once the Primary has replied after the request was first seen (R276, log 24). -/
def State.mayDeny (s : State) (v : WitnessView) : Bool :=
  v.request && decide (v.asked < (s.sk.primarySeen.lookup v.pairId).getD 0)

/-! ## Polls (R273, R314) -/

/-- A request over the chain to mailbox 12 of a member, in the place of one like it that still waits for the token, unless that is a grant (R274). -/
def State.ask (s : State) (dst op : Nat) (payload : Bytes) : State :=
  let body (seq : Nat) : List Nat := (headerBytes 0x06 op 0 payload.length 0 0 seq 0 0 0 ++ payload).map (·.toNat)
  s.modSk fun k =>
    { k with outbox := k.outbox.filter (fun m => !(m.1 == 9 && m.2.1 == dst && m.2.2.take 2 == [0x06, op] && m.2.2.getD 10 0 % 2 == 0 && m.2.2.getD 56 0 ≠ 1))
               ++ [(9, dst, body (s.mono / 1000 % 2 ^ 32))] }

/-- WITNESS_POLL: the witness identifier is the stack's (log 24), the term and the verdict (R288). -/
def State.poll (s : State) (dst term verdict : Nat) : State :=
  s.ask dst 0x06 (padTo 16 s.sk.stackId ++ leBytes 8 term ++ leBytes 1 verdict)

/-- One drive's poll: a grant is written to Wax before it leaves (R274). -/
def State.pollView (s : State) (v : WitnessView) : State :=
  if !s.witnessOf v.pairId then s
  else if s.mayGrant v then
    (s.modWx fun w => { w with granted := w.granted ++ [(v.pairId, v.term + 1)] }).poll v.pos (v.term + 1) 1
  else s.poll v.pos (s.pairTerm v.pairId) (if s.mayDeny v then 2 else 0)

/-- Every 5 ms a witness polls the drives of its pairs, and asks the other members whether they have become a pair (R273). -/
def State.witnessRound (s : State) : State :=
  if !s.alive || !s.watches || decide (s.mono < s.sk.lastPolls + 5000000) then s
  else
    let s := s.modSk fun k => { k with lastPolls := s.mono }
    let polled (p : Nat) : Bool := s.sk.views.any fun v => v.pos == p && v.stackMode && v.role != 0
    let others := (List.range 16).filter fun p => s.sk.isMember p && p != s.pw.pos
    let s := (others.filter fun p => !polled p).foldl (fun s p => s.ask p 0x05 []) s
    (s.sk.views.filter fun v => polled v.pos).foldl State.pollView s

/-! ## Replies -/

/-- A reply is noted, and when it came if the drive gave it as Primary, which it may not be in its next (R274). -/
def Stack.putView (k : Stack) (v : WitnessView) : Stack :=
  { k with views := k.views.filter (·.pos ≠ v.pos) ++ [v],
           primarySeen := if v.role = 1 then setAssoc v.pairId v.at_ k.primarySeen else k.primarySeen }

/-- A reply to a witness's request: log C3h tells the pair, its mode, role and term, a poll's reply the role, term and REQUEST; a drive
that refuses has replied too, and is asked again (R274, R288, R289). -/
def State.takeView (s : State) (src op status : Nat) (p : Bytes) : State :=
  let old := s.sk.views.find? (·.pos == src)
  if status ≠ 0 then
    match old with
    | some v => s.modSk fun k => k.putView { v with stackMode := false, request := false, at_ := s.mono }
    | none => s
  else if op = 0x05 then
    s.modSk fun k => k.putView { pos := src, pairId := bytesAt p 80 16, stackMode := natAt p 66 1 == 1, role := natAt p 64 1, term := natAt p 72 8,
                                 request := false, at_ := s.mono, asked := 0 }
  else match old with
    | some v =>
      let req := natAt p 9 1 == 1
      s.modSk fun k => k.putView { v with role := natAt p 0 1, term := natAt p 1 8, request := req, at_ := s.mono,
                                          asked := if req && !v.request then s.mono else v.asked }
    | none => s

/-- A PEER reply that a witness takes up itself: it does not wait in mailbox 13 (log 24). -/
def witnessReply (cls op : Nat) : Bool := cls == 0x06 && (op == 0x05 || op == 0x06)

end Sys2Proof.Machine
end

