-- ==== Sys2Proof/Machine/Mail.lean ====
section
/-! DEFINITION. Mailboxes and the sideband (R401 to R413): posting, starting and fetching messages, PEER and MCTP transport, and
NVMe-MI. -/

namespace Sys2Proof.Machine

/-! ## The messages of every class (R411) -/

/-- The meaning of a message; none for an operation the drive does not implement. -/
def handlerOf (cls op : Nat) : Option Handler :=
  match cls, op with
  | 0x01, 0x01 => some hHostAdd
  | 0x01, 0x02 => some hHostRemove
  | 0x01, 0x03 => some hHostList
  | 0x01, 0x04 => some hRetentionSet
  | 0x01, 0x05 => some hRateSet
  | 0x01, 0x06 => some hChannelsSet
  | 0x01, 0x07 => some hSecdelSet
  | 0x01, 0x08 => some hOriginSet
  | 0x01, 0x09 => some hMirrorSet
  | 0x01, 0x0A => some hOriginStatus
  | 0x01, 0x0B => some hIfSet
  | 0x01, 0x0C => some hPortSet
  | 0x01, 0x0D => some hPortGet
  | 0x01, 0x0E => some hConfigGet
  | 0x02, 0x01 => some hGoalSet
  | 0x02, 0x02 => some hGoalGet
  | 0x02, 0x03 => some hDecisions
  | 0x03, 0x01 => some hCalibGet
  | 0x03, 0x02 => some hCalibSet
  | 0x03, 0x03 => some hCalibClear
  | 0x03, 0x04 => some hCalibFactoryRead
  | 0x04, 0x01 => some hEvStatus
  | 0x04, 0x02 => some hEvRead
  | 0x04, 0x03 => some hEvHold
  | 0x04, 0x04 => some hEvRelease
  | 0x04, 0x05 => some hEvClear
  | 0x04, 0x06 => some hEvCatalog
  | 0x05, 0x01 => some hBboxStatus
  | 0x05, 0x02 => some hBboxRead
  | 0x06, 0x01 => some hTwinAttach
  | 0x06, 0x02 => some hTwinDetach
  | 0x06, 0x03 => some hTwinSwitchover
  | 0x06, 0x04 => some hTwinConfig
  | 0x06, 0x05 => some hTwinStatus
  | 0x06, 0x06 => some hTwinWitnessPoll
  | 0x06, 0x07 => some hTwinRelease
  | 0x06, 0x08 => some hTwinForcePrimary
  | 0x06, 0x09 => some hTwinResync
  | 0x07, 0x01 => some hStackConfig
  | 0x07, 0x02 => some hStackStatus
  | 0x07, 0x03 => some hStackLeave
  | 0x08, 0x01 => some hUcodeStatus
  | 0x08, 0x02 => some hUcodeStage
  | 0x08, 0x03 => some hUcodeCommit
  | 0x08, 0x04 => some hUcodeUnload
  | 0x08, 0x05 => some hUcodeAbandon
  | 0x09, 0x01 => some hPskAdd
  | 0x09, 0x02 => some hPskRemove
  | 0x09, 0x10 => some hNsRotate
  | 0x09, 0x11 => some hNsErase
  | 0x09, 0x12 => some hNsKeyStatus
  | 0x09, 0x13 => some hKekRotate
  | 0x09, 0x20 => some hEpochSet
  | 0x09, 0x21 => some hEpochClose
  | 0x09, 0x22 => some hCertGet
  | 0x09, 0x30 => some hCustKeyAdd
  | 0x09, 0x31 => some hCustKeyRemove
  | 0x09, 0x32 => some hCustKeyList
  | 0x09, 0x40 => some hDebugChallenge
  | 0x09, 0x41 => some hDebugOpen
  | 0x09, 0x42 => some hDebugClose
  | 0x09, 0x43 => some hDebugKeySet
  | 0x09, 0x44 => some hDebugKeyRemove
  | 0x09, 0x45 => some hDebugStatus
  | 0x09, 0x48 => some hAttest
  | 0x09, 0x50 => some hSeal
  | 0x09, 0x51 => some hRetire
  | 0x0A, 0x10 => some hLinkProbe
  | 0x0A, 0x40 => some hBootRestart
  | 0x0B, 0x01 => some hFreezeNow
  | 0x0B, 0x02 => some hFreezeStatus
  | 0x0C, 0x01 => some hTimeStatus
  | 0x0C, 0x02 => some hTimeConfig
  | 0x0C, 0x03 => some hTimeSetEpoch
  | 0x0C, 0x04 => some hTimeSpans
  | 0x0D, 0x01 => some hCamWrite
  | 0x0D, 0x02 => some hCamRead
  | 0x0D, 0x03 => some hCamInvalidate
  | 0x0D, 0x04 => some hCamCopy
  | 0x0D, 0x05 => some hCamCounters
  | 0x0D, 0x06 => some hCamStatus
  | 0x0D, 0x07 => some hCamLookup
  | 0x0D, 0x08 => some hCamNsInfo
  | 0x0E, 0x01 => some hHealthSummary
  | 0x0E, 0x02 => some hPortSnapshot
  | 0x0E, 0x03 => some hPortStats
  | 0x0E, 0x04 => some hHealthSensors
  | 0x0E, 0x05 => some hHealthLogRead
  | _, _ => none

/-- The class codes of R411. -/
def knownClass (cls : Nat) : Bool := decide (1 ≤ cls) && decide (cls ≤ 14)

/-- The head message of a mailbox is carried out: a kept reply first, then a length that did not fit and an unknown class, whatever
the rights, then as any message of its class and operation (R404 to R406, R411). -/
def State.carryOut (s : State) (m : MsgReq) (cls op : Nat) (bad : Bool) : State :=
  match s.keptFor cls op m with
  | some k => s.replay m k
  | none =>
    if bad then s.reply cls op m (refuse .length)
    else if !knownClass cls then s.reply cls op m (refuse .unknown)
    else s.perform cls op ((handlerOf cls op).getD fun s _ => saying s (refuse .unknown)) m

/-- MESSAGE_START: the message at the head of an idle mailbox leaves the queue and starts, unless an activation pauses (R408,
R413). -/
def State.startHead (s : State) (mbox : Nat) : State :=
  match (s.box mbox).queue with
  | [] => s
  | (m, cls, op, bad) :: rest =>
    if !s.takesPosts mbox || s.bt.paused || (s.box mbox).working then s
    else (s.modBox mbox fun b => { b with queue := rest }).carryOut m cls op bad

def execMessageStart (mbox : Nat) (s : State) : Res := finishReset s (s.startHead mbox)

/-! ## Posting (R402, R403, R406, R407, R409, R314) -/

/-- A raw message as the request of a source; bits 15 to 3 of MH_FLAGS are reserved (R403). -/
def requestOf (m : RawMsg) (mbox src : Nat) (tls reserved : Bool) (mctpTag : Nat := 0) : MsgReq :=
  { mbox := mbox, src := src, tls := tls, mctpTag := mctpTag, tag := m.tag, seq := m.seq, len := m.len, payload := m.payload,
    reservedSet := m.reservedSet || reserved || decide (8 ≤ m.flags) }

/-- MBX_HDR of a posted request (R402). -/
def rawHeader (m : RawMsg) : BitVec 256 :=
  BitVec.ofNat 256 (leNat (headerBytes m.cls m.op m.tag m.len m.status m.flags m.seq m.detail m.time m.tq))

/-- The message in a header and its payload (R72, R403). -/
def rawOf (b : Bytes) : RawMsg :=
  { cls := natAt b 0 1, op := natAt b 1 1, tag := natAt b 2 2, len := natAt b 4 4, status := natAt b 8 2, flags := natAt b 10 2,
    seq := natAt b 12 4, reservedSet := natAt b 29 3 != 0, detail := natAt b 16 4, time := natAt b 20 8, tq := b.getD 28 0,
    payload := b.drop 32 }

/-- The outcome of a post: the message waits at the end of its mailbox, or is refused, which sets OVERRUN at 8 in flight. -/
def State.post1 (s : State) (m : RawMsg) (mbox src : Nat) (tls reserved bad : Bool) (mctpTag : Nat := 0) : State × Bool :=
  if s.takes mbox src then
    ((s.queueMsg (s.named (requestOf m mbox src tls reserved mctpTag)) m.cls m.op bad).modBox mbox fun b => { b with hdr := rawHeader m }, true)
  else (s.modBox mbox fun b => if 8 ≤ b.inFlight then { b with overrun := true } else b, false)

/-- Whether the admin queue of a controller runs over TLS (R412). -/
def State.adminTls (s : State) (ctrl : Nat) : Bool :=
  match ((s.fe.ctrl? ctrl).bind fun c => c.queues.find? (·.qid == 0)).bind fun q => s.fe.conn? q.conn with
  | some k => k.tls
  | none => false

/-- Mailbox Post (R72, R406). -/
def State.mailboxPost (s : State) (a : Adm) (mbox msgLen : Nat) (m : RawMsg) : State :=
  if 7 < mbox ∨ msgLen < 32 ∨ 4128 < msgLen then s.admDone a .invalidField
  else
    match s.post1 m mbox a.ctrl (s.adminTls a.ctrl) false (decide (m.len + 32 ≠ msgLen)) with
    | (t, true) => t.admDone a .success
    | (t, false) => t.admDone a .commandInterrupted

/-- MAILBOX_POST. -/
def execMailboxPost (a : Adm) (mbox msgLen : Nat) (m : RawMsg) (s : State) : Res :=
  finish s (s.admin (.mailboxPost a mbox msgLen m) a false true true fun s => s.mailboxPost a mbox msgLen m)

/-- The head reply is taken: it leaves the mailbox, and the last reply of a message ends it (R407). -/
def Mailbox.ack (b : Mailbox) : Mailbox :=
  match b.replies with
  | [] => b
  | r :: rest => { b with replies := rest, inFlight := if r.final then b.inFlight - 1 else b.inFlight }.settle

/-- Mailbox Fetch (R73, R407). -/
def State.mailboxFetch (s : State) (a : Adm) (mbox bufSize : Nat) : State :=
  if 7 < mbox ∨ bufSize < 4128 then s.admDone a .invalidField
  else
    let b := s.box mbox
    match b.replies with
    | [] => s.admDone a .success 0
    | r :: _ =>
      if !b.owned || b.owner != a.ctrl then s.admDone a .success 0
      else ((s.modBox mbox Mailbox.ack).sendData a.ctrl 0 a.cid r.bytes).admDone a .success r.bytes.length

/-- MAILBOX_FETCH. -/
def execMailboxFetch (a : Adm) (mbox bufSize : Nat) (s : State) : Res :=
  finish s (s.admin (.mailboxFetch a mbox bufSize) a false true true fun s => s.mailboxFetch a mbox bufSize)

/-- The request in MBX_HDR and the data window of a mailbox (R402). -/
def Mailbox.standing (b : Mailbox) : RawMsg :=
  let h := leBytes 32 b.hdr.toNat
  rawOf (h ++ b.window.take (natAt h 4 4))

/-- MBX_POST: a write of MBX_CTRL.POST, of the request that the writer has laid down with it or of the one that stands in the registers. Only
the debug probe at mailbox 14 and the Lantern cores at mailbox 15 post so (R401, R402). -/
def execMbxPost (mbox src : Nat) (m : Option RawMsg) (s : State) : Res :=
  finish s (if s.takesPosts mbox && (mbox == 14 || mbox == 15) then (s.post1 (m.getD (s.box mbox).standing) mbox src false false false).1 else s)

/-- MBX_ACK: a write of MBX_CTRL.ACK takes the head reply; on mailbox 14 the debug probe has read it (R402). -/
def execMbxAck (mbox : Nat) (s : State) : Res :=
  finish s (
    if !s.takesPosts mbox then s
    else
      match (s.box mbox).replies with
      | [] => s
      | r :: _ => (s.modBox mbox Mailbox.ack).whenB (mbox == 14) fun s => s.emit (.tap r.bytes))

/-- REPLY_RETENTION_EXPIRY: the replies posted longest ago are no longer kept (R404). -/
def execReplyRetentionExpiry (mbox : Nat) (s : State) : Res :=
  whileUp s (s.modBox mbox fun b =>
    { b with kept := b.kept.filter fun k => b.kept.any fun x => decide (x.posted < k.posted) })

/-- The payload of a PEER message: the mailbox message, header and payload (R314, R403). -/
def peerBody (m : RawMsg) : List Nat :=
  (headerBytes m.cls m.op m.tag m.len m.status m.flags m.seq m.detail m.time m.tq ++ m.payload).map (·.toNat)

/-- PEER: a request for mailbox 12, or a reply to a request of this drive for mailbox 13, where a witness takes up the replies to its polls
(R274, R314, R401, R403). -/
def execPeer (h : ChainHdr) (m : RawMsg) (s : State) : Res :=
  finish s (s.chained h 9 (peerBody m) fun s =>
    if h.src = s.pw.pos ∨ !s.managed then s
    else if m.flags % 2 = 0 then (s.post1 m 12 h.src false false false).1
    else if s.watches && witnessReply m.cls m.op then
      (s.modBox 13 fun b => { b with msgs := b.msgs + 1 }).takeView h.src m.op m.status m.payload
    else if s.takes 13 h.src then
      (s.accept 13 h.src).modBox 13 fun b =>
        { b with replies := b.replies ++ [{ dst := h.src, cls := m.cls, op := m.op, tag := m.tag, seq := m.seq, status := m.status,
                                            flags := m.flags, detail := m.detail, time := m.time, tq := m.tq, payload := m.payload }] }
    else s.modBox 13 fun b => { b with overrun := true })

/-! ## NVMe-MI (R410) -/

/-- A temperature as NVMe-MI codes it in one byte, °C (log 41). -/
def miTemp (t : Int) : Byte := BitVec.ofInt 8 (max (-60) (min 127 (t / 10)))

/-- Percentage used (R209). -/
def State.percentUsed (s : State) : Nat := min 255 (s.md.ecAvg * 100 / 3000)

/-- The health of a controller: identifier, CSTS, temperature in kelvins, percentage used, spare, critical warning (log 41). -/
def State.miController (s : State) (c : Ctrl) : Bytes :=
  padTo 16 (leBytes 2 c.cntlid ++ leBytes 2 (c.ready.toNat + 2 * s.pw.cfs.toNat) ++ leBytes 2 ((s.pw.hottest + 2732) / 10).toNat
    ++ leBytes 1 s.percentUsed ++ leBytes 1 s.md.availableSpare ++ leBytes 1 s.smartWarn)

/-- The management endpoint as controller 0, on which a tunnelled admin command runs (R410, log 41). -/
def miCtrl : Ctrl := { cntlid := 0, host := [], discovery := false, kato := 0, queues := [{ qid := 0, size := 1, conn := 0 }] }

/-- What an output of a tunnelled command puts into its response: the completion entry, data, or the values of a feature, 8 bytes each
(log 41). -/
def miPart : Out → Option (Bool × Bytes)
  | .cqe 0 sq 65536 st dnr dw0 dw1 sqhd _ => some (true, cqeBytes sq 0 st dnr dw0 dw1 sqhd)
  | .data 0 _ 65536 d => some (false, d)
  | .reading 0 65536 _ vals => some (false, vals.flatMap (intBytes 8))
  | _ => none

/-- A tunnelled command runs on the management endpoint: its completion and what it returns are the response, at once or, where it ends in a
later step, then (R410, log 41). -/
def State.tunnel (s : State) (w : Option Nat × Nat) (k : State → Adm → State) : State × Option Bytes :=
  let t := k (s.modFe fun f => { f with ctrls := f.ctrls ++ [miCtrl] }) { ctrl := 0, cid := miCid }
  let new := t.out.drop s.out.length
  let parts := new.filterMap miPart
  let t := { t with out := t.out.take s.out.length ++ new.filter (fun o => (miPart o).isNone),
                    fe := { t.fe with ctrls := t.fe.ctrls.filter (·.cntlid ≠ 0) } }
  match parts.find? (·.1) with
  | some (_, entry) => (t, some (entry ++ (parts.filter fun p => !p.1).flatMap (·.2)))
  | none => (t.modMb fun m => { m with miWait := some w }, none)

/-- The firmware commands of R436. -/
def State.fwCommit (s : State) (a : Adm) (action slot : Nat) : State :=
  match action with
  | 0 => s.commitReplace a slot false
  | 1 => s.commitReplace a slot true
  | 2 => s.commitTrial a slot
  | 3 => s.commitActivate a slot
  | _ => s.admDone a .invalidField

/-- The tunnelled commands of R410; Pilot-light mode takes those of R431, and none where only the sideband serves but Identify,
downloads and actions 000b and 001b; a Sanitize refuses firmware commands but action 011b (R109, R436). -/
def State.miAdmin (s : State) (a : Adm) (c : MiAdmin) : State :=
  let pilot := s.pw.phase == .pilot
  match c with
  | .identify cns csi _ => s.identify a cns csi
  | .getLogPage page off len => if s.romOnly then s.admDone a .commandSequenceError else s.getLog a page true off len
  | .getFeatures fid sensor under =>
    if pilot then s.admDone a .commandSequenceError else s.withCtrl a fun s c => s.getFeature a c fid sensor under
  | .selfTest stc =>
    if pilot then s.admDone a .commandSequenceError
    else if s.sanitizing then s.admDone a .sanitizeInProgress
    else if stc = 1 ∨ stc = 2 then s.selfTest a (stc == 2)
    else if stc = 15 then s.selfTestAbort a else s.admDone a .invalidField
  | .fwDownload off data => if s.sanitizing then s.admDone a .sanitizeInProgress else s.download a off data
  | .fwCommit action slot =>
    if s.romOnly && decide (1 < action) then s.admDone a .commandSequenceError
    else if s.sanitizing && action != 3 then s.admDone a .sanitizeInProgress
    else s.fwCommit a action slot
  | .other => s

/-- Reset acts as an NVM Subsystem Reset; in the pause of an activation it takes effect after it (R108, R110, R410). -/
def State.miReset (s : State) : State :=
  match s.fe.ctrls.head? with
  | some c => s.inWindow (.nssrWrite { ctrl := c.cntlid, cid := noCid }) c.cntlid noCid State.tearDownAll
  | none => s.tearDownAll

/-- An NVMe-MI request, in band of a controller or from an endpoint: the state after it, the name of its response status, and what it
returns, unless its response comes later (R410, log 41). -/
def State.mi (s : State) (inBand : Option Nat) (eid : Nat) (r : MiReq) : State × String × Option Bytes :=
  match r with
  | .readDataStructure t => (s, "Success", some (Config.miDataStructure t))
  | .subsystemPoll =>
    (s.spend, "Success", some ([(Config.freeWord s.free).setWidth 8, BitVec.ofNat 8 (255 - s.smartWarn), miTemp s.pw.hottest,
                          BitVec.ofNat 8 s.percentUsed] ++ padTo 4 (Config.freeBytes s.free 4)))
  | .controllerPoll => (s, "Success", some (s.fe.ctrls.flatMap s.miController))
  | .configGet item =>
    if item = 3 then (s, "Success", some (leBytes 3 s.mb.mtu))
    else if item = 1 ∨ item = 2 then
      match s.mb.miConfig.lookup item with
      | some v => (s, "Success", some (leBytes 3 v))
      | none => (s.spend, "Success", some (padTo 3 (Config.freeBytes s.free 3)))
    else (s, "Invalid Parameter", some [])
  | .configSet item v =>
    if inBand.isSome then (s, "Invalid Command Opcode", some [])
    else if item = 3 then
      if v = 64 ∨ (!s.mb.smbus ∧ (v = 128 ∨ v = 256)) then (s.modMb fun m => { m with mtu := v }, "Success", some [])
      else (s, "Invalid Parameter", some [])
    else if item = 1 ∨ item = 2 then (s.modMb fun m => { m with miConfig := setAssoc item v m.miConfig }, "Success", some [])
    else (s, "Invalid Parameter", some [])
  | .vpdRead off len =>
    if Config.vpd.length < off + len then (s, "Invalid Parameter", some []) else (s, "Success", some (bytesAt Config.vpd off len))
  | .reset => (s.miReset, "Success", some [])
  | .tunnelled .other => (s, "Invalid Command Opcode", some [])
  | .tunnelled c =>
    let (t, body) := s.tunnel (inBand, eid) fun s a => s.miAdmin a c
    (t, "Success", body)
  | .other => (s, "Invalid Command Opcode", some [])

/-- The requests the endpoint answers before B4 has ended (R420). -/
def miEarly : MiReq → Bool
  | .readDataStructure _ | .vpdRead _ _ | .subsystemPoll => true
  | _ => false

/-- A sideband request: answered while the endpoint answers; before B4 only those of R420, the others being refused; under ROM
recovery or with Wax failed the tunnelled commands of R431 besides these. A frozen drive, or one whose B0 failed, is silent. -/
def State.miSideband (s : State) (eid : Nat) (r : MiReq) : State :=
  let tunnelled := match r with
    | .tunnelled _ => true
    | _ => false
  let respond (s : State) : State :=
    match s.mi none eid r with
    | (t, name, some body) => t.emit (.mi eid name body)
    | (t, _, none) => t
  if !s.mb.endpoint || s.pw.phase == .frozen || s.pw.phase == .b0Failed then s
  else if !miEarly r && (s.beforeB4 || (s.romOnly && !tunnelled)) then s.emit (.mi eid "State Refused" [])
  else respond s

/-- READ_NVME_MI_DATA_STRUCTURE. -/
def execReadNvmeMiDataStructure (eid dtype : Nat) (s : State) : Res :=
  finish s (s.miSideband eid (.readDataStructure dtype))
/-- NVM_SUBSYSTEM_HEALTH_STATUS_POLL. -/
def execNvmSubsystemHealthStatusPoll (eid : Nat) (s : State) : Res :=
  finish s (s.miSideband eid .subsystemPoll)
/-- CONTROLLER_HEALTH_STATUS_POLL. -/
def execControllerHealthStatusPoll (eid : Nat) (s : State) : Res :=
  finish s (s.miSideband eid .controllerPoll)
/-- CONFIGURATION_GET. -/
def execConfigurationGet (eid item : Nat) (s : State) : Res := finish s (s.miSideband eid (.configGet item))
/-- CONFIGURATION_SET: in band it is not a command the drive implements (R410). -/
def execConfigurationSet (eid item value : Nat) (inBand : Bool) (s : State) : Res :=
  finish s (
    if inBand then (if s.managed then s.emit (.mi eid "Invalid Command Opcode" []) else s)
    else s.miSideband eid (.configSet item value))
/-- VPD_READ. -/
def execVpdRead (eid offset len : Nat) (s : State) : Res := finish s (s.miSideband eid (.vpdRead offset len))
/-- NVME_MI_RESET acts as an NVM Subsystem Reset (R108). -/
def execNvmeMiReset (eid : Nat) (s : State) : Res := finish s (s.miSideband eid .reset)

/-- The response status in one byte (log 41). -/
def miStatus : String → Byte
  | "Success" => 0
  | "Invalid Command Opcode" => 3
  | _ => 4

/-- NVME_MI_SEND carries a request in band; its response waits for NVMe-MI Receive. -/
def execNvmeMiSend (a : Adm) (request : MiReq) (s : State) : Res :=
  finish s (s.admin (.nvmeMiSend a request) a false true true fun s =>
    match s.mi (some a.ctrl) 0 request with
    | (t, name, some body) => (t.modFe fun f => { f with miReplies := f.miReplies ++ [(a.ctrl, miStatus name :: body)] }).admDone a .success
    | (t, _, none) => t.admDone a .success)

/-- The first element that `f` names, and the others. -/
def takeFirst {α : Type} (f : α → Bool) : List α → Option (α × List α)
  | [] => none
  | x :: t => if f x then some (x, t) else (takeFirst f t).map fun r => (r.1, x :: r.2)

/-- NVME_MI_RECEIVE returns the oldest response of the controller, or nothing. -/
def execNvmeMiReceive (a : Adm) (len : Nat) (s : State) : Res :=
  finish s (s.admin (.nvmeMiReceive a len) a false true true fun s =>
    match takeFirst (fun (r : Nat × Bytes) => r.1 == a.ctrl) s.fe.miReplies with
    | none => s.admDone a .success
    | some (r, rest) =>
      ((s.modFe fun f => { f with miReplies := rest }).sendData a.ctrl 0 a.cid (r.2.take len)).admDone a .success)

/-! ## MCTP (R409, R420) -/

/-- A mailbox message over MCTP: discarded for another enterprise number or mailbox; refused before B4; BUSY where the mailbox takes
no post (R409, R420). -/
def State.mctpMailbox (s : State) (eid iana mbox tag : Nat) (reserved : Bool) (m : RawMsg) : State :=
  let req := requestOf m mbox eid false reserved tag
  if iana ≠ 0xF2A5 ∨ !sideband mbox then s
  else if s.beforeB4 then s.turnAway m.cls m.op req .stateRefused
  else if !s.takesPosts mbox then s
  else
    match s.post1 m mbox eid false reserved false tag with
    | (t, true) => t
    | (t, false) => t.turnAway m.cls m.op req .busy

/-- MCTP_MESSAGE: a message that is too long is discarded and recorded; another type is not answered. -/
def execMctpMessage (eid : Nat) (body : MctpBody) (s : State) : Res :=
  finish s (
    if !s.mb.endpoint then s
    else match body with
      | .mailbox iana mbox tag reserved m => s.mctpMailbox eid iana mbox tag reserved m
      | .nvmeMi r => s.miSideband eid r
      | .tooLong => if s.alive then s.event 0xF "MCTP message too long" else s
      | .otherType => s)

/-- SET_ENDPOINT_ID: identifiers 8 to 254 are those of endpoints; the endpoint answers with the identifier it has then. The bus owner that
sends it is an SMBus or I2C controller or not, and over SMBus the transmission unit is 64 bytes (R409, R420, log 41). -/
def execSetEndpointId (e : NewEid) (s : State) : Res :=
  finish s (
    if !s.mb.endpoint || s.pw.phase == .frozen || s.pw.phase == .b0Failed then s
    else
      let taken := decide (8 ≤ e.eid) && decide (e.eid ≤ 254)
      let s := s.modMb fun m => { m with eid := if taken then some e.eid else m.eid, smbus := e.smbus, mtu := if e.smbus then 64 else m.mtu }
      s.emit (.endpointId (s.mb.eid.getD 0) taken))

end Sys2Proof.Machine
end

