-- ==== Sys2Proof/Machine/Idle.lean ====
section
/-! DEFINITION. The idle step (log 1): with no command waiting, time passes, and work that was held for something now over goes
on. -/

namespace Sys2Proof.Machine

/-- Time passes for a drive that has power and whose clocks run (R473, log 30). -/
def State.ticks (s : State) : Bool := !(s.pw.phase == .off || s.pw.phase == .tripped || s.pw.phase == .frozen)

/-- The clocks: the monotonic one always, the calendar clock unless an inserted second holds it, which ends in this step or not
(R228, R353). -/
def Time.advance (t : Time) (ns : Nat) : Time :=
  let m := t.mono + ns
  if !t.leapNow then { t with mono := m, clock := t.clock + ns }
  else if m < t.leapEnd then { t with mono := m }
  else { t with mono := m, clock := t.clock + (m - t.leapEnd), leapNow := false }

/-- The counters of a port in microseconds: queues that received pause holds, and Low Power Idle (R350). -/
def Port.advance (p : Port) (us : Nat) : Port :=
  { p with cnt := { p.cnt with
      lpiTxUs := p.cnt.lpiTxUs + (if p.lpi then us else 0),
      prio := (p.cnt.prio.zip p.held).map fun (x : PrioCounters × Bool) =>
        if x.2 then { x.1 with pausedUs := x.1.pausedUs + us } else x.1 } }

/-- A send rate that a congestion notification halved comes back over 1 ms, evenly from the notification on (R337, log 27). -/
def Conn.recover (k : Conn) (now : Nat) : Conn :=
  match k.slowed with
  | none => k
  | some (at_, rate) =>
    if at_ + 1000000 ≤ now then { k with rate := 1000000, slowed := none }
    else { k with rate := rate + (1000000 - rate) * (now - at_) / 1000000 }

/-- A new second: rate classes and the record ceiling start afresh, and ClientHellos that waited have their turn (R45, R223,
R494). -/
def State.newSecond (s : State) : State :=
  { s with
    va := { s.va with rate := s.va.rate.map RateClass.fresh },
    ev := { s.ev with second := if s.ev.supp = 0 then 0 else s.ev.second },
    md := { s.md with secHost := 0 },
    fe := { s.fe with handshakes := 0, hellos := s.fe.hellos.drop 4000 } }

/-- The waiting ClientHellos of this second, in order of arrival (R223). -/
def State.greet (s : State) (l : List (Nat × Nat × ClientHello)) : State := l.foldl (fun s h => s.handshake h.1 h.2.1 h.2.2) s

/-- The sweep of an invalidation command comes to a set in every cycle of 1.2 GHz (R146, R147). -/
def Mantle.sweepFor (m : Mantle) (ns : Nat) : Mantle := if m.invBusy then m.sweepTo (min 65536 (m.invNext + ns * 6 / 5)) else m

/-- Time passes (log 1): clocks, slew, seconds of power-on and of this start, the wear accrual, port counters, send rates and a
sweep of the cache. -/
def State.elapse (s : State) (ns : Nat) : State :=
  let m := s.tm.mono
  let sec := (m + ns) / Figure.secondNs - m / Figure.secondNs
  let us := (m + ns) / 1000 - m / 1000
  let s := ((s.modTm fun t => t.advance ns).slewBy ns).steerBy ns
  let s := { s with
    pw := { s.pw with powerOnS := s.pw.powerOnS + sec, uptimeS := s.pw.uptimeS + sec },
    md := { s.md.accrue (s.pw.powerOnS + sec) with fgSeconds := s.md.fgSeconds + (if s.md.gcMode = 2 then sec else 0) },
    pt := { s.pt with a := s.pt.a.advance us, b := s.pt.b.advance us },
    fe := { s.fe with conns := s.fe.conns.map fun k => k.recover (m + ns) },
    mc := s.mc.sweepFor ns }
  if sec = 0 then s else s.newSecond.greet (s.fe.hellos.take 4000)

/-- Overdue work in PS3 and PS4 runs under PS2 limits until it is caught up; the transition is recorded (R204, R463). -/
def State.overdueLimits (s : State) : State :=
  let due := s.workOverdue
  let starts := due && !s.pw.overdueWork && decide (3 ≤ s.pw.psHost)
  let s := s.lpiCheck (s.modPw fun p => ({ p with overdueWork := due }).settle)
  s.whenB starts fun s => s.autoEvent 4 "Overdue work limits"

/-- Admin commands and resets that waited enter the queue again once what held them has ended and a context is theirs (R57, R91, R110,
log 13). A reset that no command asked for is of no controller. -/
def State.releaseHeld (s : State) : State :=
  let free (h : Nat × Nat × Instr) : Bool :=
    (h.2.1 == noCid || !s.adminRuns h.1) && !s.bt.paused && s.fe.ctxWait.lookup (h.1, h.2.1) != some false
  { s with fe := { s.fe with heldAdm := s.fe.heldAdm.filter fun h => !free h },
           pending := s.pending ++ (s.fe.heldAdm.filter free).map (·.2.2) }

/-- A drain whose started writes have all committed ends, and one that takes too long; a drive whose Wax has failed goes on packing; runs of
origin errors are recorded (R174, R284, R286, R302). -/
def State.drainOn (s : State) : State := if s.alive then s.settleDrain.drainLimit.failingEnds.noteRuns else s

/-- The step on an empty queue; HBM3, which the cache commands alone write, stays as it was. -/
def idle (s : State) : State :=
  if !s.ticks then s
  else
    let t := ((((s.spend.elapse (Config.idleNs s.free)).endEntry).beginSanitize).overdueLimits).releaseHeld.witnessRound.drainOn
    { t with mc := { t.mc with hbm := s.mc.hbm }, fe := s.raisedLogs t, pt := s.queued t }

end Sys2Proof.Machine
end

