-- ==== Sys2Proof/Machine/Opcodes.lean ====
section
/-! DEFINITION. Opcodes: which command a submission queue entry spells (R47, R48, R64, R68, R71), and the bytes of a completion entry (R78).
The dwords of the NVMe Base commands and their standard status codes are PRESUMED (NVMe Base, log 14). -/

namespace Sys2Proof.Machine

/-! ## I/O opcodes (R48, R68, R71) -/

/-- The command an opcode spells on an I/O queue; Retention Hold tells its form by CDW11[9:8] (R72). -/
def ioOpcode (op : Nat) (e : Sqe) : Option IoKind :=
  match op with
  | 0x00 => some .flush
  | 0x01 => some .store
  | 0x02 => some .retrieve
  | 0x06 => some .list
  | 0x10 => some .delete
  | 0x14 => some .exist
  | 0x90 => some .longStore
  | 0x91 => some .longRetrieve
  | 0x92 => some .longDelete
  | 0x93 => some .longExist
  | 0x94 => some .filteredList
  | 0x95 => some .getReceipt
  | 0x96 => some .secureDelete
  | 0x97 =>
    some (match e.cdw11.getLsbD 8, e.cdw11.getLsbD 9 with
      | false, false => .holdKeyPlace
      | false, true => .holdKeyRelease
      | true, false => .holdNsPlace
      | true, true => .holdNsRelease)
  | _ => none

/-- The direction in which a command's buffer is moved: 0 none, 1 host to drive, 2 drive to host, whatever the opcode's low bits say (R68,
R71). -/
def IoKind.direction (k : IoKind) : Nat := if k == .store || k == .longStore then 1 else if k.reads then 2 else 0

/-! ## Admin opcodes (R64, R71) -/

/-- A field of a dword. -/
def dwField (d : BitVec 32) (lo n : Nat) : Nat := d.toNat / 2 ^ lo % 2 ^ n

/-- The bits of a dword that a command defines; every other bit is reserved (R9, R72). -/
structure Defined where
  d10 : Nat := 0
  d11 : Nat := 0
  d12 : Nat := 0
  d13 : Nat := 0
  d14 : Nat := 0
  deriving DecidableEq, Repr

/-- A whole dword. -/
def allBits : Nat := 0xFFFFFFFF

/-- What CDW11 defines in a Set Features (R65; PRESUMED: NVMe Base, log 14). -/
def featureBits : Nat → Nat
  | 0x01 => 0xFFFFFF07
  | 0x02 => 0xFF
  | 0x04 => 0x003FFFFF
  | 0x06 | 0x0C => 1
  | 0x0B => 0x8F00FFFF
  | _ => allBits

/-- The defined bits of an admin command's dwords: those of R72 for the vendor commands, and for the others those of the standard
(PRESUMED: NVMe Base, NVMe-oF and NVMe-MI, log 14). -/
def definedBits (op : Nat) (e : Sqe) : Defined :=
  match op with
  | 0x02 => { d10 := allBits, d11 := allBits, d12 := allBits, d13 := allBits, d14 := 0xFF80007F }
  | 0x06 => { d10 := 0xFFFF00FF, d11 := 0xFF00FFFF, d14 := 0x7F }
  | 0x08 => { d10 := allBits }
  | 0x09 => { d10 := 0x800000FF, d11 := featureBits (dwField e.cdw10 0 8), d14 := 0x7F }
  | 0x0A => { d10 := 0x7FF, d11 := allBits, d14 := 0x7F }
  | 0x0D => { d10 := 0xF, d11 := 0xFF000000 }
  | 0x10 => { d10 := 0x8000003F }
  | 0x11 => { d10 := allBits, d11 := allBits }
  | 0x14 | 0x15 => { d10 := 0xF }
  | 0x1D | 0x1E => { d10 := 0xF9FF, d11 := 0xFF, d12 := allBits, d13 := allBits }
  | 0x7F =>
    match e.nsid % 256 with
    | 0x00 => { d10 := 7, d11 := allBits, d12 := allBits, d13 := if dwField e.cdw10 0 3 = 1 then allBits else 0 }
    | 0x01 => { d10 := allBits, d11 := 0xFFFFFF, d12 := allBits }
    | 0x04 => { d10 := 7, d11 := allBits }
    | 0x08 => { d10 := 0xFFFF }
    | _ => { d10 := allBits, d11 := allBits, d12 := allBits, d13 := allBits, d14 := allBits }
  | 0x84 => { d10 := 0x7FF, d11 := allBits }
  | 0xC0 | 0xC1 => { d10 := 0xF, d11 := allBits }
  | _ => {}

/-- A dword has no bit set beyond those given. -/
def within (d : BitVec 32) (bits : Nat) : Bool := d &&& ~~~(BitVec.ofNat 32 bits) == 0

/-- A reserved field of an admin entry is not zero (R9). -/
def admReserved (op : Nat) (e : Sqe) : Bool :=
  let b := definedBits op e
  e.reservedSet || !(e.cdw2 == 0 && e.cdw3 == 0 && e.cdw4 == 0 && e.cdw5 == 0 && within e.cdw10 b.d10 && within e.cdw11 b.d11
    && within e.cdw12 b.d12 && within e.cdw13 b.d13 && within e.cdw14 b.d14 && e.cdw15 == 0) || (op == 0x7F && e.nsid / 256 != 0)

/-- A reserved byte of the create data structure is not zero: every byte but those of R67, the seal mode, and the fields NVMe Base gives the
structure (NMIC, ANAGRPID, NVMSETID, ENDGID, of which the drive makes no use; PRESUMED: NVMe Base, log 14) (R9, R67). -/
def createReserved (d : Bytes) : Bool :=
  !(allZero (bytesAt d 16 14) && allZero (bytesAt d 31 61) && allZero (bytesAt d 96 4) && allZero (bytesAt d 104 2968) && allZero (d.drop 3074))

/-- The admin command of an entry. -/
def admOf (op : Nat) (c : HostCmd) : Adm :=
  { ctrl := c.ctrl, cid := c.e.cid, nsid := c.e.nsid, reservedSet := admReserved op c.e, sgl := c.e.sgl, icdLen := c.e.icd.length }

/-- The data an admin command brings: in its capsule or in the host's buffer (R61). -/
def dataOf (e : Sqe) : Bytes :=
  match e.sgl with
  | .offset _ => e.icd
  | _ => e.buf

/-- An action of an implemented opcode that the drive does not implement, or a value it does not take: Invalid Field in Command (R47, R64,
R65). -/
def execActionRefused (i : Instr) (a : Adm) (s : State) : Res := finish s (s.admin i a false false false fun s => s.admDone a .invalidField)

/-- The notices that CDW11 of Asynchronous Event Configuration enables: any SMART/health warning in bits 7 to 0, Namespace Attribute in bit 8,
Firmware Activation in bit 9 and ANA Change in bit 11 (PRESUMED: NVMe Base); logs C1h, C3h and C4h in bits 24 to 26 (DESIGN CHOICE, log 14). -/
def eventsOf (v : BitVec 32) : List EventKind :=
  (if dwField v 0 8 = 0 then [] else [.smartHealth]) ++ (if v.getLsbD 8 then [.nsAttribute] else [])
    ++ (if v.getLsbD 9 then [.fwActivation] else []) ++ (if v.getLsbD 11 then [.anaChange] else [])
    ++ (if v.getLsbD 24 then [.logC1] else []) ++ (if v.getLsbD 25 then [.logC3] else []) ++ (if v.getLsbD 26 then [.logC4] else [])

/-- Set Features by its identifier and CDW11 (R65). -/
def setFeatureOf (i : Instr) (a : Adm) (e : Sqe) (s : State) : Res :=
  let v := e.cdw11
  match dwField e.cdw10 0 8 with
  | 0x01 => execSetArbitration a (dwField v 0 3) s
  | 0x02 => execSetPowerManagement a (dwField v 0 5) s
  | 0x04 =>
    if 1 < dwField v 20 2 then execActionRefused i a s
    else execSetTemperatureThreshold a (dwField v 16 4) (dwField v 20 2 == 1) (10 * (dwField v 0 16 : Int) - 2732) s
  | 0x07 => execSetNumberOfQueues a (min (dwField v 0 16) (dwField v 16 16) + 1) s
  | 0x0B => execSetAsyncEventConfig a (eventsOf v) s
  | 0x0F => execSetKeepAliveTimer a v.toNat s
  | f => execSetFeaturesRefused a f s

/-- The identifiers of a controller list: a count and 2 bytes each (PRESUMED: NVMe Base, log 14). -/
def ctrlList (b : Bytes) : List Nat := (List.range (natAt b 0 2)).map fun i => natAt b (2 + 2 * i) 2

/-- The NVMe-MI request that NVMe-MI Send carries: the opcode in CDW11 and the management dwords in CDW12 and CDW13 (R410; PRESUMED:
NVMe-MI, log 14). -/
def miOf (e : Sqe) : MiReq :=
  match dwField e.cdw11 0 8 with
  | 0x00 => .readDataStructure (dwField e.cdw12 24 8)
  | 0x01 => .subsystemPoll
  | 0x02 => .controllerPoll
  | 0x03 => .configSet (dwField e.cdw12 0 8) e.cdw13.toNat
  | 0x04 => .configGet (dwField e.cdw12 0 8)
  | 0x05 => .vpdRead (dwField e.cdw12 0 16) (dwField e.cdw13 0 16)
  | 0x07 => .reset
  | _ => .other

/-- A Fabrics command that ends with a status and no other effect. -/
def execFabricsEnd (i : Instr) (a : Adm) (st : Status) (s : State) : Res :=
  finish s (if s.managed && (s.fe.ctrl? a.ctrl).isSome then s.fabrics i a fun s => s.admDone a st else s)

/-- Property Set: CC.EN, the word of an NVM Subsystem Reset, and Invalid Field for a property that cannot be written (R107, R108, R111). -/
def propertySetOf (i : Instr) (a : Adm) (e : Sqe) (s : State) : Res :=
  match e.cdw11.toNat with
  | 0x14 =>
    if e.cdw12.getLsbD 0 then execCcEnSet a s
    else if (s.fe.ctrl? a.ctrl).any (·.enabled) then execCcEnClear a s else execFabricsEnd i a .success s
  | 0x20 => if e.cdw12 == 0x4E564D65#32 then execNssrWrite a s else execFabricsEnd i a .success s
  | _ => execFabricsEnd i a .invalidField s

/-- The Fabrics commands by FCTYPE, the low byte of dword 1 (R64). A Connect on a connection that carries a queue is out of sequence
(PRESUMED: NVMe-oF, log 14). -/
def fabricsOf (i : Instr) (a : Adm) (e : Sqe) (s : State) : Res :=
  match e.nsid % 256 with
  | 0x00 => propertySetOf i a e s
  | 0x01 => execFabricsEnd i a .commandSequenceError s
  | 0x04 => execPropertyGet a e.cdw11.toNat s
  | 0x08 => execDisconnect a s
  | _ => execFabricsEnd i a .invalidField s

/-- The admin command an entry of an implemented opcode spells (R64, R71, R72). -/
def adminOf (i : Instr) (op : Nat) (c : HostCmd) (s : State) : Res :=
  let a := admOf op c
  let e := c.e
  let d := dataOf e
  match op with
  | 0x02 =>
    execGetLogPage a (dwField e.cdw10 0 8) (e.cdw10.getLsbD 15) (e.cdw12.toNat + 2 ^ 32 * e.cdw13.toNat)
      (4 * (dwField e.cdw10 16 16 + 2 ^ 16 * dwField e.cdw11 0 16 + 1)) s
  | 0x06 => execIdentify a (dwField e.cdw10 0 8) (dwField e.cdw11 24 8) (dwField e.cdw10 16 16) s
  | 0x08 => execAbort a (dwField e.cdw10 0 16) (dwField e.cdw10 16 16) s
  | 0x09 => setFeatureOf i a e s
  | 0x0A =>
    if dwField e.cdw10 0 8 = 4 ∧ 1 < dwField e.cdw11 20 2 then execActionRefused i a s
    else execGetFeatures a (dwField e.cdw10 0 8) (dwField e.cdw11 16 4) (dwField e.cdw11 20 2 == 1) s
  | 0x0C => execAsynchronousEventRequest a s
  | 0x0D =>
    match dwField e.cdw10 0 4 with
    | 0 =>
      if dwField e.cdw11 24 8 = 1 then execNamespaceCreate { a with reservedSet := a.reservedSet || createReserved d } (natAt d 3072 1) (natAt d 3073 1) (natAt d 0 8) (natAt d 8 8) s
      else execActionRefused i a s
    | 1 => execNamespaceDelete a s
    | _ => execActionRefused i a s
  | 0x10 =>
    let slot := dwField e.cdw10 0 3
    match dwField e.cdw10 3 3 with
    | 0 => execFirmwareCommitReplace a slot s
    | 1 => execFirmwareCommitReplaceTrial a slot s
    | 2 => execFirmwareCommitSetTrial a slot s
    | 3 => execFirmwareCommitActivate a slot s
    | _ => execActionRefused i a s
  | 0x11 => execFirmwareImageDownload a (4 * e.cdw11.toNat) (d.take (4 * (e.cdw10.toNat + 1))) s
  | 0x14 =>
    match dwField e.cdw10 0 4 with
    | 1 => execDeviceSelfTestShort a s
    | 2 => execDeviceSelfTestExtended a s
    | 15 => execDeviceSelfTestAbort a s
    | _ => execActionRefused i a s
  | 0x15 =>
    match dwField e.cdw10 0 4 with
    | 0 => execNamespaceAttach a (ctrlList d) s
    | 1 => execNamespaceDetach a (ctrlList d) s
    | _ => execActionRefused i a s
  | 0x18 => execKeepAlive a s
  | 0x1D => execNvmeMiSend a (miOf e) s
  | 0x1E => execNvmeMiReceive a e.bufLen s
  | 0x7F => fabricsOf i a e s
  | 0x84 =>
    match dwField e.cdw10 0 3 with
    | 2 => execSanitizeBlockErase a s
    | 4 => execSanitizeCryptoErase a s
    | _ => execActionRefused i a s
  | 0xC0 => execMailboxPost a (dwField e.cdw10 0 4) e.cdw11.toNat (rawOf d) s
  | 0xC1 => execMailboxFetch a (dwField e.cdw10 0 4) e.cdw11.toNat s
  | _ => execActionRefused i a s

/-- An unimplemented opcode on an I/O queue: an identifier that is outstanding conflicts, a Sanitize refuses every command, and any other
completes with Invalid Command Opcode (R47, R48, R58, R109). -/
def State.refuseOpcode (s : State) (c : HostCmd) : State :=
  (s.fetch c.ctrl c.sq).post c.ctrl c.sq c.e.cid
    (if (s.cmd? c.ctrl c.sq c.e.cid).isSome then .cidConflict else if s.sanitizing then .sanitizeInProgress else .invalidOpcode)
    (inv := sglInv c.e.sgl)

/-- INVALID_COMMAND_OPCODE: an entry by its opcode. One the drive implements is that command; any other is refused and not performed (R47,
R48, R58, R64, R68, R71, R109). -/
def execInvalidCommandOpcode (c : HostCmd) (opcode : Nat) (s : State) : Res :=
  let op := opcode % 256
  let i : Instr := .invalidCommandOpcode c opcode
  if c.sq = 0 then
    if op ∈ adminOpcodes then adminOf i op c s
    else
      let a : Adm := { ctrl := c.ctrl, cid := c.e.cid, nsid := c.e.nsid }
      finish s (s.admin i a false false false fun s => s.admDone a .invalidOpcode)
  else
    match ioOpcode op c.e with
    | some k => finish s (s.arrive k c)
    | none => finish s (if s.serving && s.fe.hasQueue c.ctrl c.sq then s.refuseOpcode c else s)

/-! ## Completion entries (R78) -/

/-- The bytes in which a completion goes out (R78). -/
def Out.entry : Out → Option Bytes
  | .cqe _ sq cid st dnr dw0 dw1 sqhd _ => some (cqeBytes sq cid st dnr dw0 dw1 sqhd)
  | _ => none

end Sys2Proof.Machine
end

