-- ==== Sys2Proof/Machine/Resume.lean ====
section
/-! DEFINITION. What goes on when room comes: commits, LOSS records and deletions that wait for the journal (R161), reservations of
staging (R163, R197, R293) and hash lanes (R225). -/

namespace Sys2Proof.Machine

/-! ## Room in the journal (R161) -/

/-- Blocks that the commit of a waiting command takes (R158). -/
def State.waitBlocks (s : State) (c : Cmd) : Nat :=
  match s.nsOf c.e.nsid with
  | some n => ({ s.writeOf c n with leaf := c.kind.isStore && leafWanted n c.action } : Write).blocks
  | none => 0

/-- Commands that wait for the journal go on in their order, up to the first that finds no room. -/
def State.resumeCommits (s : State) : List Cmd → State
  | [] => s
  | c :: rest => if s.journalRoom (s.waitBlocks c) then (s.again c.fetch).resumeCommits rest else s

/-- Losses whose LOSS records waited are recorded and reported, the oldest first (R159). -/
def State.resumeLosses (s : State) : State := s.wx.losses.reverse.foldl (fun s g => if s.journalRoom 1 then s.loseStaged g else s) s

/-- A drive that waited to record what it lost to its twin goes on (R280). -/
def State.resumeJoin (s : State) : State :=
  match s.tw.lateJoin with
  | some p => if s.journalRoom s.tw.lag.length then s.asOther p else s
  | none => s

/-- Writes of the twin that waited for the journal go on; one that waits for staging stays in its place (R262). -/
def State.resumeInbound (s : State) : State :=
  match s.tw.inbound with
  | w :: rest =>
    let blocks := ({ kind := w.kind, nsid := w.nsid, key := w.key, action := w.action, leaf := w.leaf } : Write).blocks
    if Waiter.twin ∈ s.wx.waiters || s.journalWaits || !s.journalRoom blocks then s else s.takeInbound false (w :: rest)
  | [] => s

/-- Fills whose commits waited go on (R296). -/
def State.resumeFills (s : State) : State :=
  (s.og.fills.filter (·.waitsJournal)).foldl (fun s f => match s.nsOf f.nsid, f.granule with
    | some n, some g => if s.journalRoom 6 && !s.journalWaits then s.fillCommit { f with waitsJournal := false } n g else s
    | _, _ => s) s

/-- What the twin does not have goes as room comes: keys it reported absent, and those a full resynchronisation left out (R278, R542). -/
def State.resumeRemovals (s : State) : State :=
  let s := s.tw.absents.foldl (fun s (n, k) => s.repairAnswer n k none 1) s
  s.whenB s.tw.dropWaits State.endResync

/-- Deletions of the drive's own that waited go on, where the record is still an expired one (R299, R300). -/
def State.resumeDeletes (s : State) : State :=
  s.og.deletes.foldl (fun s (n, k) =>
    if s.journalWaits || !s.journalRoom 5 then s
    else
      let s := s.modOg fun o => { o with deletes := o.deletes.filter (· ≠ (n, k)) }
      s.whenB ((s.find n k).any fun f => s.mirrorExpired f.record) fun s => s.driveDelete n k) s

/-- JOURNAL_ROOM: what waited proceeds (R161). -/
def execJournalRoom (s : State) : Res :=
  finish s (if s.alive then
    ((s.resumeCommits (s.inPhase .waitJournal)).resumeLosses.resumeJoin.resumeInbound.resumeFills.resumeRemovals.resumeDeletes).unblock
    else s)

/-! ## Room in staging (R163, R197) -/

/-- Waiters whose command, fill or write is gone are passed over. -/
def State.liveWaiter (s : State) : Waiter → Bool
  | .store x => s.fl.cmds.any fun c => c.fetch == x && c.phase == .waitStaging
  | .fill n k => s.og.fills.any fun y => y.nsid == n && y.key == k && y.granule.isNone
  | .twin => !s.tw.inbound.isEmpty

/-- The reservation of a waiter is granted, at the accrual rate while the bank is empty, and what waited goes on; whether it still
waits is answered (R163, R197, R262, R296). -/
def State.grantTo (s : State) : Waiter → State × Bool
  | .store x =>
    match s.fl.cmds.find? (·.fetch == x) with
    | some c =>
      match s.nsOf c.e.nsid with
      | some n =>
        let t := s.intake c n true
        (t, (t.fl.cmds.find? (·.fetch == x)).any (·.phase == .waitStaging))
      | none => (s.complete c .invalidNamespace, false)
    | none => (s, false)
  | .fill n k =>
    match s.og.fill? n k with
    | some y =>
      match s.reserve y.granules true with
      | (t, some g) => (t.modFill y fun z => { z with granule := some g }, false)
      | (t, none) => (t, true)
    | none => (s, false)
  | .twin =>
    match s.tw.inbound with
    | w :: rest =>
      match s.replTry w true with
      | (t, true) => (t, true)
      | (t, false) => (t.modTw fun x => { x with inbound := rest }, false)
    | [] => (s, false)

/-- STAGING_RESERVATION_GRANT: the reservation that was asked for first is granted. Writes of the twin behind the one it was granted to
go on too, or wait in their turn (R163, R197, R262). -/
def execStagingReservationGrant (s : State) : Res :=
  finish s (
    if !s.alive then s
    else match s.wx.waiters.filter s.liveWaiter with
      | [] => s.modWx fun w => { w with waiters := [] }
      | x :: rest =>
        match s.grantTo x with
        | (t, true) => t
        | (t, false) =>
          let t := t.modWx fun w => { w with waiters := rest }
          if x == .twin then t.takeInbound false t.tw.inbound else t)

/-- HASH_LANE_FREE: the first store that waits for one takes a lane, and its data moves; with none, the first engine whose hash job waits
takes it (R225, R378, R513). -/
def execHashLaneFree (s : State) : Res :=
  finish s (
    match s.inPhase .waitHash with
    | c :: _ => if s.alive && decide (s.hashLanes < 16) then s.startIntake c true else s
    | [] =>
      match s.me.wick.find? (·.2.hashWait) with
      | some (n, e) =>
        if s.alive && decide (s.hashLanes < 16) then s.setEngine (.wick n) { e with hashBusy := true, hashWait := false } else s
      | none => s)

end Sys2Proof.Machine
end

