-- ==== Sys2Proof/Machine/Dispatch.lean ====
section
/-! DEFINITION. The dispatch of a command to its meaning: one arm per row of spec/opcode_table.json. -/

namespace Sys2Proof.Machine

def exec (i : Instr) (s : State) : Host.Outcome State Fault Refusal :=
  match i with
  | .connect c => Sys2Proof.Machine.execConnect c s
  | .propertyGet a offset => Sys2Proof.Machine.execPropertyGet a offset s
  | .ccEnClear a => Sys2Proof.Machine.execCcEnClear a s
  | .ccEnSet a => Sys2Proof.Machine.execCcEnSet a s
  | .nssrWrite a => Sys2Proof.Machine.execNssrWrite a s
  | .registerWrite path reg value => Sys2Proof.Machine.execRegisterWrite path reg value s
  | .disconnect a => Sys2Proof.Machine.execDisconnect a s
  | .transportConnectionLoss conn => Sys2Proof.Machine.execTransportConnectionLoss conn s
  | .keepAlive a => Sys2Proof.Machine.execKeepAlive a s
  | .keepAliveExpiry ctrl => Sys2Proof.Machine.execKeepAliveExpiry ctrl s
  | .icReq conn port r => Sys2Proof.Machine.execIcReq conn port r s
  | .h2cData conn cid defined offset data => Sys2Proof.Machine.execH2cData conn cid defined offset data s
  | .clientHello conn port h => Sys2Proof.Machine.execClientHello conn port h s
  | .tlsRecordReceived conn len tagOk => Sys2Proof.Machine.execTlsRecordReceived conn len tagOk s
  | .keyUpdateReceived conn requested => Sys2Proof.Machine.execKeyUpdateReceived conn requested s
  | .keyUpdateSend conn => Sys2Proof.Machine.execKeyUpdateSend conn s
  | .rdmaConnect conn port r => Sys2Proof.Machine.execRdmaConnect conn port r s
  | .tcpRetransmitTimeout conn => Sys2Proof.Machine.execTcpRetransmitTimeout conn s
  | .roceQpFailure conn => Sys2Proof.Machine.execRoceQpFailure conn s
  | .contextFreed => Sys2Proof.Machine.execContextFreed s
  | .ordRelease ctrl sq => Sys2Proof.Machine.execOrdRelease ctrl sq s
  | .rateClassRoom cls => Sys2Proof.Machine.execRateClassRoom cls s
  | .stagingReservationGrant => Sys2Proof.Machine.execStagingReservationGrant s
  | .getLogPage a page rae offset len => Sys2Proof.Machine.execGetLogPage a page rae offset len s
  | .identify a cns csi cntid => Sys2Proof.Machine.execIdentify a cns csi cntid s
  | .abort a sq cid => Sys2Proof.Machine.execAbort a sq cid s
  | .getFeatures a fid sensor under => Sys2Proof.Machine.execGetFeatures a fid sensor under s
  | .setArbitration a burst => Sys2Proof.Machine.execSetArbitration a burst s
  | .setPowerManagement a ps => Sys2Proof.Machine.execSetPowerManagement a ps s
  | .setTemperatureThreshold a sensor under value => Sys2Proof.Machine.execSetTemperatureThreshold a sensor under value s
  | .setNumberOfQueues a request => Sys2Proof.Machine.execSetNumberOfQueues a request s
  | .setAsyncEventConfig a kinds => Sys2Proof.Machine.execSetAsyncEventConfig a kinds s
  | .setKeepAliveTimer a kato => Sys2Proof.Machine.execSetKeepAliveTimer a kato s
  | .setFeaturesRefused a fid => Sys2Proof.Machine.execSetFeaturesRefused a fid s
  | .asynchronousEventRequest a => Sys2Proof.Machine.execAsynchronousEventRequest a s
  | .asynchronousEvent ctrl kind => Sys2Proof.Machine.execAsynchronousEvent ctrl kind s
  | .namespaceCreate a nsType mode nsze ncap => Sys2Proof.Machine.execNamespaceCreate a nsType mode nsze ncap s
  | .namespaceDelete a => Sys2Proof.Machine.execNamespaceDelete a s
  | .namespaceAttach a ctrls => Sys2Proof.Machine.execNamespaceAttach a ctrls s
  | .namespaceDetach a ctrls => Sys2Proof.Machine.execNamespaceDetach a ctrls s
  | .firmwareImageDownload a offset data => Sys2Proof.Machine.execFirmwareImageDownload a offset data s
  | .firmwareCommitReplace a slot => Sys2Proof.Machine.execFirmwareCommitReplace a slot s
  | .firmwareCommitReplaceTrial a slot => Sys2Proof.Machine.execFirmwareCommitReplaceTrial a slot s
  | .firmwareCommitSetTrial a slot => Sys2Proof.Machine.execFirmwareCommitSetTrial a slot s
  | .firmwareCommitActivate a slot => Sys2Proof.Machine.execFirmwareCommitActivate a slot s
  | .activationPause => Sys2Proof.Machine.execActivationPause s
  | .activationReady => Sys2Proof.Machine.execActivationReady s
  | .activationFallback => Sys2Proof.Machine.execActivationFallback s
  | .activationConfirm => Sys2Proof.Machine.execActivationConfirm s
  | .deviceSelfTestShort a => Sys2Proof.Machine.execDeviceSelfTestShort a s
  | .deviceSelfTestExtended a => Sys2Proof.Machine.execDeviceSelfTestExtended a s
  | .deviceSelfTestAbort a => Sys2Proof.Machine.execDeviceSelfTestAbort a s
  | .selfTestDone failed => Sys2Proof.Machine.execSelfTestDone failed s
  | .nvmeMiSend a request => Sys2Proof.Machine.execNvmeMiSend a request s
  | .nvmeMiReceive a len => Sys2Proof.Machine.execNvmeMiReceive a len s
  | .sanitizeCryptoErase a => Sys2Proof.Machine.execSanitizeCryptoErase a s
  | .sanitizeBlockErase a => Sys2Proof.Machine.execSanitizeBlockErase a s
  | .sanitizeDone => Sys2Proof.Machine.execSanitizeDone s
  | .mailboxPost a mbox msgLen m => Sys2Proof.Machine.execMailboxPost a mbox msgLen m s
  | .mailboxFetch a mbox bufSize => Sys2Proof.Machine.execMailboxFetch a mbox bufSize s
  | .flush c => Sys2Proof.Machine.execFlush c s
  | .store c => Sys2Proof.Machine.execStore c s
  | .longKeyStore c => Sys2Proof.Machine.execLongKeyStore c s
  | .storeCommit ctrl sq cid => Sys2Proof.Machine.execStoreCommit ctrl sq cid s
  | .retrieve c => Sys2Proof.Machine.execRetrieve c s
  | .longKeyRetrieve c => Sys2Proof.Machine.execLongKeyRetrieve c s
  | .list c => Sys2Proof.Machine.execList c s
  | .delete c => Sys2Proof.Machine.execDelete c s
  | .longKeyDelete c => Sys2Proof.Machine.execLongKeyDelete c s
  | .exist c => Sys2Proof.Machine.execExist c s
  | .longKeyExist c => Sys2Proof.Machine.execLongKeyExist c s
  | .filteredList c => Sys2Proof.Machine.execFilteredList c s
  | .getReceipt c => Sys2Proof.Machine.execGetReceipt c s
  | .secureDelete c => Sys2Proof.Machine.execSecureDelete c s
  | .retentionHoldKeyPlace c => Sys2Proof.Machine.execRetentionHoldKeyPlace c s
  | .retentionHoldKeyRelease c => Sys2Proof.Machine.execRetentionHoldKeyRelease c s
  | .retentionHoldNsPlace c => Sys2Proof.Machine.execRetentionHoldNsPlace c s
  | .retentionHoldNsRelease c => Sys2Proof.Machine.execRetentionHoldNsRelease c s
  | .twinAckReceived seq => Sys2Proof.Machine.execTwinAckReceived seq s
  | .twinAckRecord => Sys2Proof.Machine.execTwinAckRecord s
  | .hashLaneFree => Sys2Proof.Machine.execHashLaneFree s
  | .journalRoom => Sys2Proof.Machine.execJournalRoom s
  | .journalCondense => Sys2Proof.Machine.execJournalCondense s
  | .indexCheckpoint => Sys2Proof.Machine.execIndexCheckpoint s
  | .unitPadTimeout kind => Sys2Proof.Machine.execUnitPadTimeout kind s
  | .programStatusPassed granule naddr => Sys2Proof.Machine.execProgramStatusPassed granule naddr s
  | .programFailure band channel newDie newBlock => Sys2Proof.Machine.execProgramFailure band channel newDie newBlock s
  | .waxUncorrectable granule => Sys2Proof.Machine.execWaxUncorrectable granule s
  | .waxPackageFailure package => Sys2Proof.Machine.execWaxPackageFailure package s
  | .powerFailTrip => Sys2Proof.Machine.execPowerFailTrip s
  | .powerGood => Sys2Proof.Machine.execPowerGood s
  | .start env => Sys2Proof.Machine.execStart env s
  | .bootStepTimeout => Sys2Proof.Machine.execBootStepTimeout s
  | .hardwareWatchdog => Sys2Proof.Machine.execHardwareWatchdog s
  | .fatalFault code => Sys2Proof.Machine.execFatalFault code s
  | .failedStartRestart env => Sys2Proof.Machine.execFailedStartRestart env s
  | .startGood => Sys2Proof.Machine.execStartGood s
  | .deferredBootStep stepNo => Sys2Proof.Machine.execDeferredBootStep stepNo s
  | .floorRaise => Sys2Proof.Machine.execFloorRaise s
  | .diagBootRestart m => Sys2Proof.Machine.execDiagBootRestart m s
  | .cacheAccess line write => Sys2Proof.Machine.execCacheAccess line write s
  | .lineFillArrival line => Sys2Proof.Machine.execLineFillArrival line s
  | .writeBackAccepted line => Sys2Proof.Machine.execWriteBackAccepted line s
  | .mchCtrlWrite path value => Sys2Proof.Machine.execMchCtrlWrite path value s
  | .mchInvalidate path => Sys2Proof.Machine.execMchInvalidate path s
  | .mchWriteBackInvalidate path => Sys2Proof.Machine.execMchWriteBackInvalidate path s
  | .mchWriteBack path => Sys2Proof.Machine.execMchWriteBack path s
  | .mchInvDone => Sys2Proof.Machine.execMchInvDone s
  | .hbm3LineUncorrectable line => Sys2Proof.Machine.execHbm3LineUncorrectable line s
  | .hbm3StackLost stack => Sys2Proof.Machine.execHbm3StackLost stack s
  | .hbm3RebuildDone => Sys2Proof.Machine.execHbm3RebuildDone s
  | .unspill => Sys2Proof.Machine.execUnspill s
  | .bandLastRowProgrammed band => Sys2Proof.Machine.execBandLastRowProgrammed band s
  | .bandVerified v => Sys2Proof.Machine.execBandVerified v s
  | .gcVictimSelect => Sys2Proof.Machine.execGcVictimSelect s
  | .gcCopyVerified src dst => Sys2Proof.Machine.execGcCopyVerified src dst s
  | .bandEraseDone band => Sys2Proof.Machine.execBandEraseDone band s
  | .eraseFailure band channel => Sys2Proof.Machine.execEraseFailure band channel s
  | .gcModeChange => Sys2Proof.Machine.execGcModeChange s
  | .wearMove => Sys2Proof.Machine.execWearMove s
  | .accrualRecompute => Sys2Proof.Machine.execAccrualRecompute s
  | .bankEmpty needed => Sys2Proof.Machine.execBankEmpty needed s
  | .bankRefilled => Sys2Proof.Machine.execBankRefilled s
  | .patrolRead band found pageStart pageEnd => Sys2Proof.Machine.execPatrolRead band found pageStart pageEnd s
  | .readUncorrectable ctrl sq cid => Sys2Proof.Machine.execReadUncorrectable ctrl sq cid s
  | .dieLost channel die => Sys2Proof.Machine.execDieLost channel die s
  | .secureDeleteHalfDeadline slot => Sys2Proof.Machine.execSecureDeleteHalfDeadline slot s
  | .secureDeleteOverdue slot => Sys2Proof.Machine.execSecureDeleteOverdue slot s
  | .nsRotate m => Sys2Proof.Machine.execNsRotate m s
  | .rotationDone nsid => Sys2Proof.Machine.execRotationDone nsid s
  | .nsErase m => Sys2Proof.Machine.execNsErase m s
  | .eraseSweepDone nsid => Sys2Proof.Machine.execEraseSweepDone nsid s
  | .nsKeyStatus m => Sys2Proof.Machine.execNsKeyStatus m s
  | .kekRotate m => Sys2Proof.Machine.execKekRotate m s
  | .pskAdd m => Sys2Proof.Machine.execPskAdd m s
  | .pskRemove m => Sys2Proof.Machine.execPskRemove m s
  | .epochSet m => Sys2Proof.Machine.execEpochSet m s
  | .epochClose m => Sys2Proof.Machine.execEpochClose m s
  | .epochLengthElapsed => Sys2Proof.Machine.execEpochLengthElapsed s
  | .epochSigned => Sys2Proof.Machine.execEpochSigned s
  | .receiptStorePrune => Sys2Proof.Machine.execReceiptStorePrune s
  | .certGet m => Sys2Proof.Machine.execCertGet m s
  | .camWrite m => Sys2Proof.Machine.execCamWrite m s
  | .camRead m => Sys2Proof.Machine.execCamRead m s
  | .camInvalidate m => Sys2Proof.Machine.execCamInvalidate m s
  | .camCopy m => Sys2Proof.Machine.execCamCopy m s
  | .camCounters m => Sys2Proof.Machine.execCamCounters m s
  | .camStatus m => Sys2Proof.Machine.execCamStatus m s
  | .camLookup m => Sys2Proof.Machine.execCamLookup m s
  | .camNsInfo m => Sys2Proof.Machine.execCamNsInfo m s
  | .camSweep => Sys2Proof.Machine.execCamSweep s
  | .camSoftError addr bit inCopy => Sys2Proof.Machine.execCamSoftError addr bit inCopy s
  | .twinAttach m => Sys2Proof.Machine.execTwinAttach m s
  | .twinDetach m => Sys2Proof.Machine.execTwinDetach m s
  | .twinSwitchover m => Sys2Proof.Machine.execTwinSwitchover m s
  | .twinConfig m => Sys2Proof.Machine.execTwinConfig m s
  | .twinStatus m => Sys2Proof.Machine.execTwinStatus m s
  | .twinWitnessPoll m => Sys2Proof.Machine.execTwinWitnessPoll m s
  | .twinRelease m => Sys2Proof.Machine.execTwinRelease m s
  | .twinForcePrimary m => Sys2Proof.Machine.execTwinForcePrimary m s
  | .twinResync m => Sys2Proof.Machine.execTwinResync m s
  | .heartbeatSend => Sys2Proof.Machine.execHeartbeatSend s
  | .heartbeatReceived hb => Sys2Proof.Machine.execHeartbeatReceived hb s
  | .twinLost => Sys2Proof.Machine.execTwinLost s
  | .primaryFence => Sys2Proof.Machine.execPrimaryFence s
  | .candidateTimeout => Sys2Proof.Machine.execCandidateTimeout s
  | .localCompletionDelay => Sys2Proof.Machine.execLocalCompletionDelay s
  | .twinImpaired => Sys2Proof.Machine.execTwinImpaired s
  | .staleConfirmTimeout => Sys2Proof.Machine.execStaleConfirmTimeout s
  | .replicatedWriteReceived w => Sys2Proof.Machine.execReplicatedWriteReceived w s
  | .forwardedCommandReceived f => Sys2Proof.Machine.execForwardedCommandReceived f s
  | .twinLinkFormed p => Sys2Proof.Machine.execTwinLinkFormed p s
  | .resyncDone => Sys2Proof.Machine.execResyncDone s
  | .twinRepairRequest nsid key held value => Sys2Proof.Machine.execTwinRepairRequest nsid key held value s
  | .twinRepairTimeout nsid key => Sys2Proof.Machine.execTwinRepairTimeout nsid key s
  | .originSet m => Sys2Proof.Machine.execOriginSet m s
  | .mirrorSet m => Sys2Proof.Machine.execMirrorSet m s
  | .originStatus m => Sys2Proof.Machine.execOriginStatus m s
  | .originPathRetry origin port => Sys2Proof.Machine.execOriginPathRetry origin port s
  | .fillStart nsid key => Sys2Proof.Machine.execFillStart nsid key s
  | .fillRetrieveComplete nsid key r => Sys2Proof.Machine.execFillRetrieveComplete nsid key r s
  | .fillCommit nsid key => Sys2Proof.Machine.execFillCommit nsid key s
  | .fillTimeout nsid key => Sys2Proof.Machine.execFillTimeout nsid key s
  | .ttlCheckpoint => Sys2Proof.Machine.execTtlCheckpoint s
  | .mirrorExpirySweep nsid => Sys2Proof.Machine.execMirrorExpirySweep nsid s
  | .stackConfig m => Sys2Proof.Machine.execStackConfig m s
  | .stackStatus m => Sys2Proof.Machine.execStackStatus m s
  | .stackLeave m => Sys2Proof.Machine.execStackLeave m s
  | .superframeTimeout => Sys2Proof.Machine.execSuperframeTimeout s
  | .electReceived pos gen => Sys2Proof.Machine.execElectReceived pos gen s
  | .tokenTimeout => Sys2Proof.Machine.execTokenTimeout s
  | .census h members => Sys2Proof.Machine.execCensus h members s
  | .join h stackId driveId => Sys2Proof.Machine.execJoin h stackId driveId s
  | .leave h pos => Sys2Proof.Machine.execLeave h pos s
  | .pend h addrs => Sys2Proof.Machine.execPend h addrs s
  | .set h words => Sys2Proof.Machine.execSet h words s
  | .flushChain h => Sys2Proof.Machine.execFlushChain h s
  | .disable h addr nsid nsidMask => Sys2Proof.Machine.execDisable h addr nsid nsidMask s
  | .hits h counts => Sys2Proof.Machine.execHits h counts s
  | .hitsInterval => Sys2Proof.Machine.execHitsInterval s
  | .peer h m => Sys2Proof.Machine.execPeer h m s
  | .replica h words => Sys2Proof.Machine.execReplica h words s
  | .slotClaim polled polledPos key => Sys2Proof.Machine.execSlotClaim polled polledPos key s
  | .slotArrival requester key crcOk cells => Sys2Proof.Machine.execSlotArrival requester key crcOk cells s
  | .windowReturn gen key cells => Sys2Proof.Machine.execWindowReturn gen key cells s
  | .globalLookupTimeout ctrl sq cid => Sys2Proof.Machine.execGlobalLookupTimeout ctrl sq cid s
  | .linkNegotiation port n => Sys2Proof.Machine.execLinkNegotiation port n s
  | .fecUncorrectedLimit port => Sys2Proof.Machine.execFecUncorrectedLimit port s
  | .linkDown port => Sys2Proof.Machine.execLinkDown port s
  | .frameReceived port f => Sys2Proof.Machine.execFrameReceived port f s
  | .pauseReceived port quanta => Sys2Proof.Machine.execPauseReceived port quanta s
  | .pfcReceived port enable quanta => Sys2Proof.Machine.execPfcReceived port enable quanta s
  | .xoffThreshold port prio => Sys2Proof.Machine.execXoffThreshold port prio s
  | .xoffRepeat port prio => Sys2Proof.Machine.execXoffRepeat port prio s
  | .pauseWatchdog port prio => Sys2Proof.Machine.execPauseWatchdog port prio s
  | .pauseWatchdogRestore port prio => Sys2Proof.Machine.execPauseWatchdogRestore port prio s
  | .ownPauseWatchdog port prio => Sys2Proof.Machine.execOwnPauseWatchdog port prio s
  | .ceMarkedPacket conn => Sys2Proof.Machine.execCeMarkedPacket conn s
  | .cnpReceived conn => Sys2Proof.Machine.execCnpReceived conn s
  | .lpiEntry port => Sys2Proof.Machine.execLpiEntry port s
  | .frameTransmitted port => Sys2Proof.Machine.execFrameTransmitted port s
  | .timestampRead port => Sys2Proof.Machine.execTimestampRead port s
  | .linkProbe m => Sys2Proof.Machine.execLinkProbe m s
  | .portSnapshot m => Sys2Proof.Machine.execPortSnapshot m s
  | .portStats m => Sys2Proof.Machine.execPortStats m s
  | .portSet m => Sys2Proof.Machine.execPortSet m s
  | .portGet m => Sys2Proof.Machine.execPortGet m s
  | .ifSet m => Sys2Proof.Machine.execIfSet m s
  | .announceReceived port an => Sys2Proof.Machine.execAnnounceReceived port an s
  | .syncExchange port offset phase logSync tsLost => Sys2Proof.Machine.execSyncExchange port offset phase logSync tsLost s
  | .ptpMessageTimeout port => Sys2Proof.Machine.execPtpMessageTimeout port s
  | .ppsEdge offset gapMs => Sys2Proof.Machine.execPpsEdge offset gapMs s
  | .ppsTimeout => Sys2Proof.Machine.execPpsTimeout s
  | .holdoverExpiry => Sys2Proof.Machine.execHoldoverExpiry s
  | .leapSecond => Sys2Proof.Machine.execLeapSecond s
  | .timeStatus m => Sys2Proof.Machine.execTimeStatus m s
  | .timeConfig m => Sys2Proof.Machine.execTimeConfig m s
  | .timeSetEpoch m => Sys2Proof.Machine.execTimeSetEpoch m s
  | .timeSpans m => Sys2Proof.Machine.execTimeSpans m s
  | .inc u => Sys2Proof.Machine.execInc u s
  | .br u => Sys2Proof.Machine.execBr u s
  | .brc u => Sys2Proof.Machine.execBrc u s
  | .call u => Sys2Proof.Machine.execCall u s
  | .ret u => Sys2Proof.Machine.execRet u s
  | .safe u => Sys2Proof.Machine.execSafe u s
  | .wait u => Sys2Proof.Machine.execWait u s
  | .halt u => Sys2Proof.Machine.execHalt u s
  | .loadReturn engine => Sys2Proof.Machine.execLoadReturn engine s
  | .hashJobDone engine => Sys2Proof.Machine.execHashJobDone engine s
  | .keyLimitExceeded engine => Sys2Proof.Machine.execKeyLimitExceeded engine s
  | .cmdBudgetReached ctrl sq cid => Sys2Proof.Machine.execCmdBudgetReached ctrl sq cid s
  | .microcodeWordUncorrectable u addr => Sys2Proof.Machine.execMicrocodeWordUncorrectable u addr s
  | .ucodeStatus m => Sys2Proof.Machine.execUcodeStatus m s
  | .ucodeStage m => Sys2Proof.Machine.execUcodeStage m s
  | .ucodeCommit m => Sys2Proof.Machine.execUcodeCommit m s
  | .ucodeUnload m => Sys2Proof.Machine.execUcodeUnload m s
  | .ucodeAbandon m => Sys2Proof.Machine.execUcodeAbandon m s
  | .custKeyAdd m => Sys2Proof.Machine.execCustKeyAdd m s
  | .custKeyRemove m => Sys2Proof.Machine.execCustKeyRemove m s
  | .custKeyList m => Sys2Proof.Machine.execCustKeyList m s
  | .mbxPost mbox src m => Sys2Proof.Machine.execMbxPost mbox src m s
  | .mbxAck mbox => Sys2Proof.Machine.execMbxAck mbox s
  | .messageStart mbox => Sys2Proof.Machine.execMessageStart mbox s
  | .replyRetentionExpiry mbox => Sys2Proof.Machine.execReplyRetentionExpiry mbox s
  | .mctpMessage eid body => Sys2Proof.Machine.execMctpMessage eid body s
  | .setEndpointId e => Sys2Proof.Machine.execSetEndpointId e s
  | .readNvmeMiDataStructure eid dtype => Sys2Proof.Machine.execReadNvmeMiDataStructure eid dtype s
  | .nvmSubsystemHealthStatusPoll eid => Sys2Proof.Machine.execNvmSubsystemHealthStatusPoll eid s
  | .controllerHealthStatusPoll eid => Sys2Proof.Machine.execControllerHealthStatusPoll eid s
  | .configurationGet eid item => Sys2Proof.Machine.execConfigurationGet eid item s
  | .configurationSet eid item value inBand => Sys2Proof.Machine.execConfigurationSet eid item value inBand s
  | .vpdRead eid offset len => Sys2Proof.Machine.execVpdRead eid offset len s
  | .nvmeMiReset eid => Sys2Proof.Machine.execNvmeMiReset eid s
  | .hostAdd m => Sys2Proof.Machine.execHostAdd m s
  | .hostRemove m => Sys2Proof.Machine.execHostRemove m s
  | .hostList m => Sys2Proof.Machine.execHostList m s
  | .retentionSet m => Sys2Proof.Machine.execRetentionSet m s
  | .rateSet m => Sys2Proof.Machine.execRateSet m s
  | .channelsSet m => Sys2Proof.Machine.execChannelsSet m s
  | .secdelSet m => Sys2Proof.Machine.execSecdelSet m s
  | .configGet m => Sys2Proof.Machine.execConfigGet m s
  | .healthSummary m => Sys2Proof.Machine.execHealthSummary m s
  | .healthSensors m => Sys2Proof.Machine.execHealthSensors m s
  | .healthLogRead m => Sys2Proof.Machine.execHealthLogRead m s
  | .goalSet m => Sys2Proof.Machine.execGoalSet m s
  | .goalGet m => Sys2Proof.Machine.execGoalGet m s
  | .decisions m => Sys2Proof.Machine.execDecisions m s
  | .sensorSample readings => Sys2Proof.Machine.execSensorSample readings s
  | .criticalCleared => Sys2Proof.Machine.execCriticalCleared s
  | .junctionComparatorTrip => Sys2Proof.Machine.execJunctionComparatorTrip s
  | .seal m => Sys2Proof.Machine.execSeal m s
  | .retire m => Sys2Proof.Machine.execRetire m s
  | .debugChallenge m => Sys2Proof.Machine.execDebugChallenge m s
  | .debugOpen m => Sys2Proof.Machine.execDebugOpen m s
  | .keyCurtainDeadline => Sys2Proof.Machine.execKeyCurtainDeadline s
  | .debugClose m => Sys2Proof.Machine.execDebugClose m s
  | .debugSessionExpiry => Sys2Proof.Machine.execDebugSessionExpiry s
  | .debugKeySet m => Sys2Proof.Machine.execDebugKeySet m s
  | .debugKeyRemove m => Sys2Proof.Machine.execDebugKeyRemove m s
  | .debugStatus m => Sys2Proof.Machine.execDebugStatus m s
  | .attest m => Sys2Proof.Machine.execAttest m s
  | .nonOperationalWake => Sys2Proof.Machine.execNonOperationalWake s
  | .clockMonitorFault f => Sys2Proof.Machine.execClockMonitorFault f s
  | .domainIdleGate domain gate => Sys2Proof.Machine.execDomainIdleGate domain gate s
  | .snufNFall => Sys2Proof.Machine.execSnufNFall s
  | .freezeNow m => Sys2Proof.Machine.execFreezeNow m s
  | .freezeStatus m => Sys2Proof.Machine.execFreezeStatus m s
  | .frzStatus => Sys2Proof.Machine.execFrzStatus s
  | .dumpSel value => Sys2Proof.Machine.execDumpSel value s
  | .dumpData count => Sys2Proof.Machine.execDumpData count s
  | .frzHbm value => Sys2Proof.Machine.execFrzHbm value s
  | .frzReset => Sys2Proof.Machine.execFrzReset s
  | .calibGet m => Sys2Proof.Machine.execCalibGet m s
  | .calibSet m => Sys2Proof.Machine.execCalibSet m s
  | .calibClear m => Sys2Proof.Machine.execCalibClear m s
  | .calibFactoryRead m => Sys2Proof.Machine.execCalibFactoryRead m s
  | .channelRecalibration channel => Sys2Proof.Machine.execChannelRecalibration channel s
  | .scrub => Sys2Proof.Machine.execScrub s
  | .evlogStatus m => Sys2Proof.Machine.execEvlogStatus m s
  | .evlogRead m => Sys2Proof.Machine.execEvlogRead m s
  | .evlogHold m => Sys2Proof.Machine.execEvlogHold m s
  | .evlogRelease m => Sys2Proof.Machine.execEvlogRelease m s
  | .holdLimitExpiry idle => Sys2Proof.Machine.execHoldLimitExpiry idle s
  | .evlogClear m => Sys2Proof.Machine.execEvlogClear m s
  | .evlogCatalog m => Sys2Proof.Machine.execEvlogCatalog m s
  | .suppressionSecond => Sys2Proof.Machine.execSuppressionSecond s
  | .bboxStatus m => Sys2Proof.Machine.execBboxStatus m s
  | .bboxRead m => Sys2Proof.Machine.execBboxRead m s
  | .bootFlashRefresh => Sys2Proof.Machine.execBootFlashRefresh s
  | .pwrDisRise => Sys2Proof.Machine.execPwrDisRise s
  | .pwrDisFall => Sys2Proof.Machine.execPwrDisFall s
  | .hotSwapOvercurrent => Sys2Proof.Machine.execHotSwapOvercurrent s
  | .auxSupplyLoss => Sys2Proof.Machine.execAuxSupplyLoss s
  | .indexPageRebuildDone page => Sys2Proof.Machine.execIndexPageRebuildDone page s
  | .forwardCompletion ctrl sq cid status read => Sys2Proof.Machine.execForwardCompletion ctrl sq cid status read s
  | .witnessUnreachable => Sys2Proof.Machine.execWitnessUnreachable s
  | .chainReceiverLock => Sys2Proof.Machine.execChainReceiverLock s
  | .tokenBlock gen tok => Sys2Proof.Machine.execTokenBlock gen tok s
  | .pauseTimeExpiry port prio => Sys2Proof.Machine.execPauseTimeExpiry port prio s
  | .auxSupplyGood => Sys2Proof.Machine.execAuxSupplyGood s
  | .junctionComparatorClear => Sys2Proof.Machine.execJunctionComparatorClear s
  | .mediaReadDone ctrl sq cid corrected => Sys2Proof.Machine.execMediaReadDone ctrl sq cid corrected s
  | .rdmaReadResponse conn cid data => Sys2Proof.Machine.execRdmaReadResponse conn cid data s
  | .originPathOpened origin port => Sys2Proof.Machine.execOriginPathOpened origin port s
  | .originPathFailure origin port => Sys2Proof.Machine.execOriginPathFailure origin port s
  | .delayReqInterval => Sys2Proof.Machine.execDelayReqInterval s
  | .invalidCommandOpcode c opcode => Sys2Proof.Machine.execInvalidCommandOpcode c opcode s
  | .attachReachTimeout => Sys2Proof.Machine.execAttachReachTimeout s

end Sys2Proof.Machine
end

