-- ==== Sys2Proof/Safety.lean ====
section
/-! DEFINITION. The words the statements are written in: what it is for a command to complete, to leave the machine as the
rules say, and to meet nothing that turns it away. -/

namespace Sys2Proof.Machine

/-- The command completes: `exec` answers a next state, of which `P` holds. -/
def Completes (c : Instr) (s : State) (P : State → Prop) : Prop := ∃ t, exec c s = .next t ∧ P t

/-- The command completes in the state `u`: all of it, but for the queue and the bytes of HBM3, which stay as they were, the generations of
the vendor logs that show a change (R80), and the transmit queues, in which stands what `u` has put out (R336). -/
def Yields (c : Instr) (s u : State) : Prop :=
  exec c s = .next { u with pending := s.pending, mc := { u.mc with hbm := s.mc.hbm }, fe := s.raisedLogs u, pt := s.queued u }

/-- The drive serves, or runs in Pilot-light mode or in a start: the states in which its own events happen. -/
def up (s : State) : Bool := s.alive

/-- What an admin command must find besides a context: a drive that serves, its controller enabled, no pause, no command that holds it back,
its identifier free, no Sanitize, reserved fields of 0 and a data pointer of a kind the drive accepts (R9, R58, R61, R63, R91, R109, R110). -/
def adminFree (a : Adm) (s : State) : Bool :=
  s.pw.phase == .serving && (s.fe.ctrl? a.ctrl).any (·.enabled) && s.fe.hasQueue a.ctrl 0 && !s.bt.paused
    && !s.adminBlocked a.ctrl && !s.fe.jobs.any (·.ctrl == a.ctrl) && !s.fe.heldAdm.any (·.1 == a.ctrl)
    && !s.adminCid a && !s.sanitizing && !a.reservedSet && (s.admSgl a).isNone

/-- An admin command that nothing turns away: the drive serves, the controller and its admin queue are there and enabled, no
activation pauses, no admin command of the controller runs or waits, a context and the identifier are free, no Sanitize runs, the reserved
fields are zero and the data pointer is one the drive accepts (R9, R57, R58, R61, R63, R91, R109, R110). -/
def adminOk (a : Adm) (s : State) : Bool := adminFree a s && s.admRoom a

/-- A Fabrics command of a controller that nothing turns away: no pause, no command that holds it back, a context and its identifier free,
reserved fields of 0 and a data pointer of a kind the drive accepts (R9, R57, R58, R61, R63, R91, R110). -/
def fabricsOk (a : Adm) (s : State) : Bool :=
  s.managed && !s.bt.paused && !s.adminBlocked a.ctrl && s.admRoom a && !s.adminCid a && !a.reservedSet && (s.admSgl a).isNone

/-- The completion entry of an admin command, with the head of its queue as the state `t` has it (R57). -/
def adminCqe (t : State) (a : Adm) (st : Status) (dnr : Bool) (dw0 : Nat := 0) : Out :=
  .cqe a.ctrl 0 a.cid st dnr (BitVec.ofNat 32 dw0) 0 (t.sqHead a.ctrl 0) (sglInv a.sgl)

/-- ... of one that succeeded. -/
def adminEntry (t : State) (a : Adm) (dw0 : Nat := 0) : Out := adminCqe t a .success false dw0

/-- Between the two states exactly these outputs leave. -/
abbrev Emits (s t : State) (os : List Out) : Prop := t.out = s.out ++ os

/-- Between the two states an output leaves, among others. -/
abbrev Sends (s t : State) (o : Out) : Prop := t.out.take s.out.length = s.out ∧ o ∈ t.out.drop s.out.length

/-- A message that nothing turns away: the drive serves, its mailbox is free and empty, no Sanitize and no activation runs,
no kept reply answers it, its length is right, its source has the right and its reserved fields are zero (R9, R402 to R413). -/
def messageOk (cls op : Nat) (m : MsgReq) (s : State) : Bool :=
  s.pw.phase == .serving && !s.sanitizing && !s.bt.paused && decide (m.mbox < 16) && decide (s.mb.boxes.length = 16)
    && !(s.box m.mbox).owned && decide ((s.box m.mbox).inFlight = 0) && (s.box m.mbox).queue.isEmpty
    && (s.box m.mbox).replies.isEmpty && !(s.box m.mbox).orphan && (s.keptFor cls op m).isNone && decide (m.len = m.payload.length)
    && s.permitted m.mbox m.src m.tls cls op m.payload && !m.reservedSet

/-- The message is answered now: the reply kept for its source has this status, detail and payloads (R403, R404). -/
abbrev Answered (s t : State) (cls op : Nat) (m : MsgReq) (st : MStatus) (detail : Nat) (body : List Bytes) : Prop :=
  ∃ k ∈ (t.box m.mbox).kept, k.source = s.sourceOf m.mbox m.src ∧ k.seq = m.seq ∧ k.cls = cls ∧ k.op = op
    ∧ k.posted = s.mono ∧ k.status = st.code ∧ k.detail = detail ∧ k.payloads = body

/-- The connections that carry a queue of a controller. -/
def State.connsOf (s : State) (id : Nat) : List Nat := (s.fe.conns.filter fun k => k.ctrl.any fun x => x.1 == id).map (·.id)

/-- A chain message from another drive that this drive takes: its CRC is good, its generation is not older, and it is for this
drive (R312, R314). -/
def State.hears (s : State) (h : ChainHdr) : Bool :=
  s.alive && decide (s.sk.gen.toNat ≤ h.gen) && h.crcOk && s.sk.partakes && (h.broadcast || h.dst == s.pw.pos) && h.src != s.pw.pos

/-- The outstanding command that a host's command becomes (R56, R58, R88). -/
def asCmd (k : IoKind) (h : HostCmd) (s : State) : Cmd :=
  { ctrl := h.ctrl, sq := h.sq, fetch := s.fl.nextFetch, kind := k, e := h.e, phase := .heldOrd, key := (fieldsOf k h.e).key, ord := ordOf k h.e,
    entry := ((s.fe.queue? h.ctrl h.sq).map (·.fetched)).getD 0 }

/-- The state in which a command has been fetched and has taken its place in fetch order. -/
def State.enter (s : State) (c : Cmd) : State := (s.fetch c.ctrl c.sq).modFl fun f => { f with cmds := f.cmds ++ [c], nextFetch := f.nextFetch + 1 }

/-- An I/O command that starts at once and passes the checks of R521 for a namespace: the drive serves in an operational power
state, the queue exists, nothing is outstanding, no carrier waits, and nothing holds commands (R57, R88, R97, R521). -/
def ioPasses (k : IoKind) (h : HostCmd) (n : Ns) (s : State) : Bool :=
  let c := asCmd k h s
  let e := s.enter c
  s.serving && h.sq != 0 && s.fe.hasQueue h.ctrl h.sq && s.fl.cmds.isEmpty && s.fl.carriers.isEmpty && decide (s.pw.psHost < 3)
    && !e.held c && e.contextFree c && (match e.check c with
      | .ok (some m) => m == n
      | _ => false)

/-- ... which the policy allows with an action whose rate class has room, and which no twin performs (R43, R45, R246, R267). -/
def ioAllowed (k : IoKind) (h : HostCmd) (n : Ns) (a : ActWord) (s : State) : Bool :=
  let c := asCmd k h s
  ioPasses k h n s && !s.forwards n k && s.rateRoom { c with action := a }
    && (match ((s.enter c).policy ((s.enter c).keyOf c) n.stackScope).2 with
      | .allowed b => b == a
      | _ => false)

/-- The key of a host's command. -/
def keyFor (k : IoKind) (h : HostCmd) : Key := (fieldsOf k h.e).key

/-- The completion entry of an I/O command, with the head of its queue as the state `t` has it (R57, R63). -/
def ioEntry (t : State) (h : HostCmd) (st : Status := .success) (dw0 : Nat := 0) (dw1 : Nat := 0) : Out :=
  .cqe h.ctrl h.sq h.e.cid st (statusDnr st) (BitVec.ofNat 32 dw0) (BitVec.ofNat 32 dw1) (t.sqHead h.ctrl h.sq) (sglInv h.e.sgl)

/-- A command that returned data: the data, where there is any, and its completion entry. -/
def ioData (t : State) (h : HostCmd) (d : Bytes) (dw0 dw1 : Nat) : List Out :=
  (if d.isEmpty then [] else [.data h.ctrl h.sq h.e.cid d]) ++ [ioEntry t h .success dw0 dw1]

/-- Room for one journal record of a key without a leaf (R158, R161). -/
def roomFor (key : Key) (s : State) : Bool := s.journalRoom ({ type := .store, key := key } : JRec).blocks

/-! ## Whole rows of the table -/

/-- The class and operation of a message row, with its message (R411). -/
def messageRow : Instr → Option (Nat × Nat × MsgReq)
  | .hostAdd m => some (0x01, 0x01, m)
  | .hostRemove m => some (0x01, 0x02, m)
  | .hostList m => some (0x01, 0x03, m)
  | .retentionSet m => some (0x01, 0x04, m)
  | .rateSet m => some (0x01, 0x05, m)
  | .channelsSet m => some (0x01, 0x06, m)
  | .secdelSet m => some (0x01, 0x07, m)
  | .originSet m => some (0x01, 0x08, m)
  | .mirrorSet m => some (0x01, 0x09, m)
  | .originStatus m => some (0x01, 0x0A, m)
  | .ifSet m => some (0x01, 0x0B, m)
  | .portSet m => some (0x01, 0x0C, m)
  | .portGet m => some (0x01, 0x0D, m)
  | .configGet m => some (0x01, 0x0E, m)
  | .goalSet m => some (0x02, 0x01, m)
  | .goalGet m => some (0x02, 0x02, m)
  | .decisions m => some (0x02, 0x03, m)
  | .calibGet m => some (0x03, 0x01, m)
  | .calibSet m => some (0x03, 0x02, m)
  | .calibClear m => some (0x03, 0x03, m)
  | .calibFactoryRead m => some (0x03, 0x04, m)
  | .evlogStatus m => some (0x04, 0x01, m)
  | .evlogRead m => some (0x04, 0x02, m)
  | .evlogHold m => some (0x04, 0x03, m)
  | .evlogRelease m => some (0x04, 0x04, m)
  | .evlogClear m => some (0x04, 0x05, m)
  | .evlogCatalog m => some (0x04, 0x06, m)
  | .bboxStatus m => some (0x05, 0x01, m)
  | .bboxRead m => some (0x05, 0x02, m)
  | .twinAttach m => some (0x06, 0x01, m)
  | .twinDetach m => some (0x06, 0x02, m)
  | .twinSwitchover m => some (0x06, 0x03, m)
  | .twinConfig m => some (0x06, 0x04, m)
  | .twinStatus m => some (0x06, 0x05, m)
  | .twinWitnessPoll m => some (0x06, 0x06, m)
  | .twinRelease m => some (0x06, 0x07, m)
  | .twinForcePrimary m => some (0x06, 0x08, m)
  | .twinResync m => some (0x06, 0x09, m)
  | .stackConfig m => some (0x07, 0x01, m)
  | .stackStatus m => some (0x07, 0x02, m)
  | .stackLeave m => some (0x07, 0x03, m)
  | .ucodeStatus m => some (0x08, 0x01, m)
  | .ucodeStage m => some (0x08, 0x02, m)
  | .ucodeCommit m => some (0x08, 0x03, m)
  | .ucodeUnload m => some (0x08, 0x04, m)
  | .ucodeAbandon m => some (0x08, 0x05, m)
  | .pskAdd m => some (0x09, 0x01, m)
  | .pskRemove m => some (0x09, 0x02, m)
  | .nsRotate m => some (0x09, 0x10, m)
  | .nsErase m => some (0x09, 0x11, m)
  | .nsKeyStatus m => some (0x09, 0x12, m)
  | .kekRotate m => some (0x09, 0x13, m)
  | .epochSet m => some (0x09, 0x20, m)
  | .epochClose m => some (0x09, 0x21, m)
  | .certGet m => some (0x09, 0x22, m)
  | .custKeyAdd m => some (0x09, 0x30, m)
  | .custKeyRemove m => some (0x09, 0x31, m)
  | .custKeyList m => some (0x09, 0x32, m)
  | .debugChallenge m => some (0x09, 0x40, m)
  | .debugOpen m => some (0x09, 0x41, m)
  | .debugClose m => some (0x09, 0x42, m)
  | .debugKeySet m => some (0x09, 0x43, m)
  | .debugKeyRemove m => some (0x09, 0x44, m)
  | .debugStatus m => some (0x09, 0x45, m)
  | .attest m => some (0x09, 0x48, m)
  | .seal m => some (0x09, 0x50, m)
  | .retire m => some (0x09, 0x51, m)
  | .linkProbe m => some (0x0A, 0x10, m)
  | .diagBootRestart m => some (0x0A, 0x40, m)
  | .freezeNow m => some (0x0B, 0x01, m)
  | .freezeStatus m => some (0x0B, 0x02, m)
  | .timeStatus m => some (0x0C, 0x01, m)
  | .timeConfig m => some (0x0C, 0x02, m)
  | .timeSetEpoch m => some (0x0C, 0x03, m)
  | .timeSpans m => some (0x0C, 0x04, m)
  | .camWrite m => some (0x0D, 0x01, m)
  | .camRead m => some (0x0D, 0x02, m)
  | .camInvalidate m => some (0x0D, 0x03, m)
  | .camCopy m => some (0x0D, 0x04, m)
  | .camCounters m => some (0x0D, 0x05, m)
  | .camStatus m => some (0x0D, 0x06, m)
  | .camLookup m => some (0x0D, 0x07, m)
  | .camNsInfo m => some (0x0D, 0x08, m)
  | .healthSummary m => some (0x0E, 0x01, m)
  | .portSnapshot m => some (0x0E, 0x02, m)
  | .portStats m => some (0x0E, 0x03, m)
  | .healthSensors m => some (0x0E, 0x04, m)
  | .healthLogRead m => some (0x0E, 0x05, m)
  | _ => none

/-- The row of an I/O command. -/
def ioCommand : IoKind → HostCmd → Instr
  | .flush => .flush
  | .store => .store
  | .longStore => .longKeyStore
  | .retrieve => .retrieve
  | .longRetrieve => .longKeyRetrieve
  | .list => .list
  | .delete => .delete
  | .longDelete => .longKeyDelete
  | .exist => .exist
  | .longExist => .longKeyExist
  | .filteredList => .filteredList
  | .getReceipt => .getReceipt
  | .secureDelete => .secureDelete
  | .holdKeyPlace => .retentionHoldKeyPlace
  | .holdKeyRelease => .retentionHoldKeyRelease
  | .holdNsPlace => .retentionHoldNsPlace
  | .holdNsRelease => .retentionHoldNsRelease

/-- The messages that only read (R411): they change nothing but their mailbox. -/
def readMessage : Instr → Option MsgReq
  | .timeStatus m => some m
  | .timeSpans m => some m
  | .calibGet m => some m
  | .calibFactoryRead m => some m
  | .camRead m => some m
  | .camStatus m => some m
  | .portStats m => some m
  | .portGet m => some m
  | .freezeStatus m => some m
  | .certGet m => some m
  | .debugStatus m => some m
  | .hostList m => some m
  | .configGet m => some m
  | .healthSummary m => some m
  | .healthSensors m => some m
  | .goalGet m => some m
  | .ucodeStatus m => some m
  | .custKeyList m => some m
  | .originStatus m => some m
  | .evlogStatus m => some m
  | .evlogCatalog m => some m
  | .bboxStatus m => some m
  | .bboxRead m => some m
  | .stackStatus m => some m
  | .twinStatus m => some m
  | _ => none

/-- What still acts on a drive in a freeze: the supplies and comparators, the pin SNUF_N, the chain's superframes, and the debug TAP
(R474, R477, R478, R533 to R537). -/
def actsInFreeze : Instr → Bool
  | .powerFailTrip => true
  | .powerGood => true
  | .pwrDisRise => true
  | .pwrDisFall => true
  | .hotSwapOvercurrent => true
  | .auxSupplyLoss => true
  | .auxSupplyGood => true
  | .junctionComparatorTrip => true
  | .junctionComparatorClear => true
  | .snufNFall => true
  | .superframeTimeout => true
  | .frzStatus => true
  | .dumpSel _ => true
  | .dumpData _ => true
  | .frzHbm _ => true
  | .frzReset => true
  | _ => false

/-- Events of the two ports (R328 to R347). -/
def portEvent : Instr → Bool
  | .linkNegotiation _ _ => true
  | .linkDown _ => true
  | .fecUncorrectedLimit _ => true
  | .frameReceived _ _ => true
  | .pauseReceived _ _ => true
  | .pfcReceived _ _ _ => true
  | .pauseTimeExpiry _ _ => true
  | .xoffThreshold _ _ => true
  | .xoffRepeat _ _ => true
  | .pauseWatchdog _ _ => true
  | .pauseWatchdogRestore _ _ => true
  | .ownPauseWatchdog _ _ => true
  | .lpiEntry _ => true
  | .frameTransmitted _ => true
  | .timestampRead _ => true
  | _ => false

/-- Events of calendar time (R353 to R361). -/
def timeEvent : Instr → Bool
  | .announceReceived _ _ => true
  | .syncExchange _ _ _ _ _ => true
  | .ptpMessageTimeout _ => true
  | .ppsEdge _ _ => true
  | .ppsTimeout => true
  | .holdoverExpiry => true
  | .leapSecond => true
  | .delayReqInterval => true
  | _ => false

/-- Messages and events of the chain that change no rule of this drive (R312 to R323). -/
def chainEvent : Instr → Bool
  | .superframeTimeout => true
  | .electReceived _ _ => true
  | .tokenTimeout => true
  | .tokenBlock _ _ => true
  | .join _ _ _ => true
  | .leave _ _ => true
  | .flushChain _ => true
  | .disable _ _ _ _ => true
  | .replica _ _ => true
  | .slotClaim _ _ _ => true
  | .hitsInterval => true
  | _ => false

/-- The row of an admin or Fabrics command that a controller's admin queue carries, with its identifier (R58, R64). -/
def adminRow : Instr → Option Adm
  | .propertyGet a _ => some a
  | .ccEnClear a => some a
  | .ccEnSet a => some a
  | .nssrWrite a => some a
  | .disconnect a => some a
  | .keepAlive a => some a
  | .getLogPage a _ _ _ _ => some a
  | .identify a _ _ _ => some a
  | .abort a _ _ => some a
  | .getFeatures a _ _ _ => some a
  | .setArbitration a _ => some a
  | .setPowerManagement a _ => some a
  | .setTemperatureThreshold a _ _ _ => some a
  | .setNumberOfQueues a _ => some a
  | .setAsyncEventConfig a _ => some a
  | .setKeepAliveTimer a _ => some a
  | .setFeaturesRefused a _ => some a
  | .asynchronousEventRequest a => some a
  | .namespaceCreate a _ _ _ _ => some a
  | .namespaceDelete a => some a
  | .namespaceAttach a _ => some a
  | .namespaceDetach a _ => some a
  | .firmwareImageDownload a _ _ => some a
  | .firmwareCommitReplace a _ => some a
  | .firmwareCommitReplaceTrial a _ => some a
  | .firmwareCommitSetTrial a _ => some a
  | .firmwareCommitActivate a _ => some a
  | .deviceSelfTestShort a => some a
  | .deviceSelfTestExtended a => some a
  | .deviceSelfTestAbort a => some a
  | .nvmeMiSend a _ => some a
  | .nvmeMiReceive a _ => some a
  | .sanitizeCryptoErase a => some a
  | .sanitizeBlockErase a => some a
  | .mailboxPost a _ _ _ => some a
  | .mailboxFetch a _ _ => some a
  | _ => none

/-- The commands that may take the drive into reset or off, where HBM3 loses its contents (R112, R168, R421). -/
def mayReset : Instr → Bool
  | .powerFailTrip => true
  | .pwrDisRise => true
  | .hotSwapOvercurrent => true
  | .junctionComparatorTrip => true
  | .sensorSample _ => true
  | .start _ => true
  | .bootStepTimeout => true
  | .hardwareWatchdog => true
  | .failedStartRestart _ => true
  | .diagBootRestart _ => true
  | .messageStart _ => true
  | .frzReset => true
  | .seal _ => true
  | .retire _ => true
  | _ => false

/-- The commands that reach HBM3 through the Mantle cache (R135 to R144). -/
def reachesHbm : Instr → Bool
  | .cacheAccess _ _ => true
  | .lineFillArrival _ => true
  | .writeBackAccepted _ => true
  | _ => false

/-- The cache holds something for a line of HBM3 that may still be written there: a Chimney entry, a write behind one, a miss register,
or an access that waits (R139 to R144). -/
def State.owes (s : State) (line : Nat) : Bool :=
  s.mc.chimney.any (·.line == line) || s.mc.deferredWb.any (·.1 == line) || s.mc.miss.any (·.line == line) || s.mc.waits.any (·.line == line)

/-- A mailbox that takes a message and starts it at once: the drive serves, nothing pauses, and it is free and empty (R402, R407,
R408). -/
def mailboxFree (n : Nat) (s : State) : Bool :=
  s.pw.phase == .serving && !s.bt.paused && decide (n < 16) && decide (s.mb.boxes.length = 16) && !(s.box n).owned
    && decide ((s.box n).inFlight = 0) && (s.box n).queue.isEmpty && (s.box n).replies.isEmpty && !(s.box n).orphan

/-- Between the two states only the mailboxes and what leaves through them differ (R403, R409). -/
abbrev OnlyAnswered (s t : State) : Prop :=
  t = { s with mb := { s.mb with boxes := t.mb.boxes }, out := t.out, sk := { s.sk with outbox := t.sk.outbox } }

/-- The volume is the same in both states: namespaces, index, staging and journal, media, keys, the CAM and HBM3. -/
abbrev SameVolume (s t : State) : Prop :=
  t.va = s.va ∧ t.ix = s.ix ∧ t.wx = s.wx ∧ t.md = s.md ∧ t.ky = s.ky ∧ t.cam = s.cam ∧ t.mc = s.mc

end Sys2Proof.Machine
end

