-- ==== Sys2Proof/Certificates/Slice0/Obligations.lean ====
section
/-! DEFINITION. The statements for the provers. Every clause is about one command of the table, or about the machine. -/

open Sys2Proof Sys2Proof.Machine

/-- Each of CONNECT (admin and I/O queue), ICREQ, H2CDATA, CLIENT_HELLO, TLS_RECORD_RECEIVED, KEY_UPDATE_RECEIVED,
KEY_UPDATE_SEND and RDMA_CONNECT answers a next state with its own effect. An admin Connect that passes its checks adds one
controller with its admin queue, an I/O Connect adds the queue to the controller. An ICReq of version 0 on a port without
required TLS makes a ready connection and answers ICResp with a MAXH2CDATA of 131,072. In-order data of an awaited store is
kept with its command. A good ClientHello ends in a TLS connection. A record with a bad tag sends bad_record_mac and closes
the connection. A KeyUpdate raises the receive generation, and a sent one the transmit generation. An RDMA connect adds a
connection without TLS. (R50, R52, R59, R62, R63, R223, R224) -/
def Obligations.Connection_commands_complete : Prop :=
  (∀ (c : ConnectReq) (k : Conn) (id : Nat) (s : State),
      (s.listens = true) → (s.bt.paused = false) → (s.fe.conn? c.conn = some k) → (k.ready = true) → (k.ctrl = none) →
      (s.connectCheck c = .ok id) → (c.qid = 0) →
      Completes (.connect c) s fun t =>
         Emits s t [.connectRsp c.conn c.cid .success id]
         ∧ t.fe.ctrls = s.fe.ctrls ++ [{ cntlid := id, host := c.host, discovery := c.subsys == discoveryNqn, kato := katoInForce c.kato, kaStart := s.mono, queues := [{ qid := 0, size := c.size, conn := c.conn, fetched := 1 }] }]
         ∧ t.fe.conns = s.fe.conns.map fun x => if x.id == c.conn then { x with ctrl := some (id, 0) } else x)
  ∧ (∀ (c : ConnectReq) (k : Conn) (id : Nat) (s : State),
      (s.listens = true) → (s.bt.paused = false) → (s.fe.conn? c.conn = some k) → (k.ready = true) → (k.ctrl = none) →
      (s.connectCheck c = .ok id) → (c.qid ≠ 0) →
      Completes (.connect c) s fun t =>
         Emits s t [.connectRsp c.conn c.cid .success id]
         ∧ t.fe.ctrls = s.fe.ctrls.map fun x =>
             if x.cntlid == id then { x with queues := x.queues ++ [{ qid := c.qid, size := c.size, conn := c.conn, fetched := 1 }] } else x)
  ∧ (∀ (conn port : Nat) (r : IcReq) (s : State),
      (s.listens = true) → (s.service port 0 = true) → (s.service port 1 = false) → (s.fe.conn? conn = none) →
      (r.pfv = 0) → (r.tcpPort = 4420 ∨ r.tcpPort = 8009) →
      Completes (.icReq conn port r) s fun t =>
         Emits s t [.icResp conn 0 131072]
         ∧ t.fe.conns = s.fe.conns.filter (·.id ≠ conn) ++ [{ id := conn, port := port, rdma := false, ready := true, addr := r.addr, hdgst := r.hdgst, ddgst := r.ddgst, maxr2t := r.maxr2t, tcpPort := r.tcpPort, mss := r.mss, v6 := r.v6, options := r.options, mtu := (s.port port).cfg.mtu, peer := r.peer, peerPort := r.peerPort, wscale := r.wscale, sack := r.sack }])
  ∧ (∀ (conn cid offset : Nat) (data : Bytes) (c : Cmd) (s : State),
      (up s = true) → ((s.fe.conn? conn).isSome = true) → (s.awaiting conn cid = some c) → (data.length ≤ 131072) →
      (offset = c.got.length) → (c.got.length + data.length < c.e.cdw10.toNat) →
      (∀ x ∈ s.fl.cmds, x.fetch = c.fetch → x = c) → (c ∈ s.fl.cmds) →
      Completes (.h2cData conn cid true offset data) s fun t => ∃ x ∈ t.fl.cmds, x.fetch = c.fetch ∧ x.got = c.got ++ data)
  ∧ (∀ (conn port : Nat) (hello : ClientHello) (p : Psk) (s : State),
      (s.listens = true) → (s.service port 0 = true) → (s.fe.conn? conn = none) → (s.fe.hellos = []) →
      (s.fe.handshakes < 4000) → (s.ky.kekPresent = true) →
      ((hello.tls13 && hello.aes256Sha384 && hello.pskDheSecp384 && !hello.earlyData) = true) → 
      (s.ky.psks.find? (fun p => p.host == hello.host && p.identity == hello.identity) = some p) →
      (hello.binder = pskBinder (p.tls s.ky.kek) hello.truncated) →
      Completes (.clientHello conn port hello) s fun t =>
         Emits s t [.tls conn "Finished"] ∧ t.fe.handshakes = s.fe.handshakes + 1
         ∧ ∃ k ∈ t.fe.conns, k.id = conn ∧ k.tls = true ∧ k.tlsHost = hello.host ∧ k.port = port)
  ∧ (∀ (conn len : Nat) (k : Conn) (s : State),
      (up s = true) → (s.fe.conn? conn = some k) → (k.tls = true) → (k.ctrl = none) → (len ≤ 16640) → (s.bt.paused = false) →
      Completes (.tlsRecordReceived conn len false) s fun t =>
         Emits s t [.tlsAlert conn "bad_record_mac", .closed conn] ∧ t.fe.conn? conn = none)
  ∧ (∀ (conn len : Nat) (s : State),
      (up s = true) → ((s.fe.conn? conn).any (·.tls) = true) → (len ≤ 16640) →
      Completes (.tlsRecordReceived conn len true) s fun t => t = s)
  ∧ (∀ (conn : Nat) (s : State),
      (up s = true) → ((s.fe.conn? conn).any (·.tls) = true) →
      Completes (.keyUpdateReceived conn false) s fun t =>
         t.fe.conns = (s.fe.conns.map fun k => if k.id == conn then { k with rxGen := k.rxGen + 1, rxSecret := nextTraffic k.rxSecret } else k) ∧ Emits s t [])
  ∧ (∀ (conn : Nat) (s : State),
      (up s = true) → ((s.fe.conn? conn).any (·.tls) = true) →
      Completes (.keyUpdateSend conn) s fun t =>
         t.fe.conns = (s.fe.conns.map fun k => if k.id == conn then { k with txGen := k.txGen + 1, txRecords := 0, txSecret := nextTraffic k.txSecret } else k)
         ∧ Emits s t [.tls conn "KeyUpdate update_requested"])
  ∧ (∀ (conn port : Nat) (r : CmRequest) (s : State),
      (s.serving = true) → (s.fe.listening = true) → (r.port = 4420) → (s.service port 2 = true) → (s.fe.conn? conn = none) →
      Completes (.rdmaConnect conn port r) s fun t =>
         t.fe.conns = s.fe.conns ++ [{ id := conn, port := port, rdma := true, ready := true, addr := r.addr, peer := r.peer, mtu := (s.port port).cfg.mtu }] ∧ Emits s t [])

/-- DISCONNECT, TRANSPORT_CONNECTION_LOSS, KEEP_ALIVE_EXPIRY, TCP_RETRANSMIT_TIMEOUT and ROCE_QP_FAILURE, outside the pause of
an activation, remove the controller, close each of its connections and give its granted queue pairs back to the pool, and
then drop the work of that controller (dropWork) and let waiting carriers choose again (rechoose). A connection without a
controller only closes. NSSR_WRITE leaves no connection. CC_EN_CLEAR leaves the controller disabled and not ready with its
admin queue only, closes its I/O connections, gives back its pairs and drops its work. (R53, R54, R107, R108, R111, R330) -/
def Obligations.Connection_endings_reset_the_controller : Prop :=
  (∀ (a : Adm) (c : Ctrl) (u : State) (s : State),
      (fabricsOk a s = true) → (s.fe.ctrl? a.ctrl = some c) → (u = (s.admEntry a).1) →
      Yields (.disconnect a) s ((({ u with fe := { u.fe with ctrls := u.fe.ctrls.filter (·.cntlid ≠ a.ctrl), gone := (a.ctrl, c.host) :: dropAssoc a.ctrl u.fe.gone, conns := u.fe.conns.filter (fun k => k.id ∉ u.connsOf a.ctrl), qpFree := u.fe.qpFree + c.granted }, out := u.out ++ (u.connsOf a.ctrl).map Out.closed } : State).dropWork a.ctrl).rechoose))
  ∧ (∀ (conn id q : Nat) (k : Conn) (c : Ctrl) (s : State),
      (up s = true) → (s.bt.paused = false) → (s.fe.conn? conn = some k) → (k.ctrl = some (id, q)) →
      (s.fe.ctrl? id = some c) →
      Yields (.transportConnectionLoss conn) s ((({ s with fe := { s.fe with ctrls := s.fe.ctrls.filter (·.cntlid ≠ id), gone := (id, c.host) :: dropAssoc id s.fe.gone, conns := s.fe.conns.filter (fun k => k.id ∉ s.connsOf id), qpFree := s.fe.qpFree + c.granted }, out := s.out ++ (s.connsOf id).map Out.closed } : State).dropWork id).rechoose))
  ∧ (∀ (id : Nat) (c : Ctrl) (s : State),
      (up s = true) → (s.bt.paused = false) → (s.fe.ctrl? id = some c) →
      Yields (.keepAliveExpiry id) s ((({ s with fe := { s.fe with ctrls := s.fe.ctrls.filter (·.cntlid ≠ id), gone := (id, c.host) :: dropAssoc id s.fe.gone, conns := s.fe.conns.filter (fun k => k.id ∉ s.connsOf id), qpFree := s.fe.qpFree + c.granted }, out := s.out ++ (s.connsOf id).map Out.closed } : State).dropWork id).rechoose))
  ∧ (∀ (conn id q : Nat) (k : Conn) (c : Ctrl) (s : State),
      (up s = true) → (s.bt.paused = false) → (s.fe.conn? conn = some k) → (k.rdma = false) → (k.ctrl = some (id, q)) →
      (s.fe.ctrl? id = some c) →
      Yields (.tcpRetransmitTimeout conn) s ((({ s with fe := { s.fe with ctrls := s.fe.ctrls.filter (·.cntlid ≠ id), gone := (id, c.host) :: dropAssoc id s.fe.gone, conns := s.fe.conns.filter (fun k => k.id ∉ s.connsOf id), qpFree := s.fe.qpFree + c.granted }, out := s.out ++ (s.connsOf id).map Out.closed } : State).dropWork id).rechoose))
  ∧ (∀ (conn : Nat) (k : Conn) (s : State),
      (up s = true) → (s.bt.paused = false) → (s.fe.conn? conn = some k) → (k.rdma = true) → (k.ctrl = none) →
      Completes (.roceQpFailure conn) s fun t =>
         t.fe.conns = s.fe.conns.filter (·.id ≠ conn) ∧ t.fe.ctrls = s.fe.ctrls ∧ Emits s t [.closed conn])
  ∧ (∀ (a : Adm) (s : State),
      (fabricsOk a s = true) → ((s.fe.ctrl? a.ctrl).isSome = true) →
      Completes (.nssrWrite a) s fun t => t.fe.conns = [] ∧ t.fe.hellos = [])
  ∧ (∀ (a : Adm) (c : Ctrl) (u : State) (s : State),
      (fabricsOk a s = true) → (s.fe.ctrl? a.ctrl = some c) → (c.enabled = true) → (u = (s.admEntry a).1) →
      Yields (.ccEnClear a) s ((({ u with fe := { u.fe with ctrls := u.fe.ctrls.map (fun x => if x.cntlid == a.ctrl then { x with enabled := false, ready := false, queues := x.queues.filter (·.qid == 0), aers := [], raised := [], granted := 0 } else x), conns := u.fe.conns.filter (fun k => !(k.ctrl.any fun (i, q) => i == a.ctrl && decide (0 < q))), qpFree := u.fe.qpFree + c.granted } } : State).dropWork a.ctrl).rechoose))

/-- PROPERTY_GET of CAP returns MQES 1,023 and TO 2. CC_EN_SET makes the controller enabled and ready. KEEP_ALIVE restarts the
timer. GET_FEATURES of fid 01h, 02h, 04h, 07h, 0Bh, 0Ch, 0Eh and 0Fh returns the value in force, and refuses any other.
SET_ARBITRATION sets the burst, SET_TEMPERATURE_THRESHOLD the threshold of one sensor, SET_NUMBER_OF_QUEUES grants the
smaller of the request and the free pairs, at most 1,024, and SET_ASYNC_EVENT_CONFIG and SET_KEEP_ALIVE_TIMER the
controller's own value. SET_FEATURES_REFUSED completes with Invalid Field. Each posts its completion entry and nothing else.
(R53, R54, R55, R64, R65, R66, R111) -/
def Obligations.Controller_property_and_feature_commands_complete : Prop :=
  (∀ (a : Adm) (s : State),
      (adminOk a s = true) →
      Completes (.propertyGet a 0) s fun t => Emits s t [.reading a.ctrl a.cid "CAP" [1023, 2], adminEntry t a])
  ∧ (∀ (a : Adm) (c : Ctrl) (s : State),
      (fabricsOk a s = true) → ((s.admEntry a).1.fe.ctrl? a.ctrl = some c) →
      Completes (.ccEnSet a) s fun t => ∃ x, t.fe.ctrl? a.ctrl = some x ∧ x = { c with enabled := true, ready := true })
  ∧ (∀ (a : Adm) (s : State),
      (adminOk a s = true) →
      Completes (.keepAlive a) s fun t =>
         t.fe.ctrls = ((s.admEntry a).1.fe.ctrls.map fun c => if c.cntlid == a.ctrl then { c with kaStart := s.mono } else c) ∧ Emits s t [adminEntry t a])
  ∧ (∀ (a : Adm) (fid sensor : Nat) (under : Bool) (c : Ctrl) (s : State),
      (adminOk a s = true) → (s.fe.ctrl? a.ctrl = some c) →
      (sensor < s.pw.underThr.length ∧ sensor < s.pw.overThr.length) →
      Completes (.getFeatures a fid sensor under) s fun t =>
         (fid = 0x01 → Emits s t [adminEntry t a c.burst])
         ∧ (fid = 0x02 → Emits s t [adminEntry t a s.pw.psHost])
         ∧ (fid = 0x04 → ∃ v, (if under then s.pw.underThr else s.pw.overThr)[sensor]? = some v
              ∧ Emits s t [.reading a.ctrl a.cid "Temperature Threshold" [v], adminEntry t a])
         ∧ (fid = 0x07 → 0 < c.granted → Emits s t [adminEntry t a ((c.granted - 1) * 65537)])
         ∧ (fid = 0x0B → Emits s t [.reading a.ctrl a.cid "Asynchronous Event Configuration" (c.events.map EventKind.code), adminEntry t a])
         ∧ (fid = 0x0C → Emits s t [.reading a.ctrl a.cid "Autonomous Power State Transition" [0], adminEntry t a])
         ∧ (fid = 0x0E → Emits s t [.reading a.ctrl a.cid "Timestamp" [s.now / 1000000, s.tm.everTraceable.toNat, 0], adminEntry t a])
         ∧ (fid = 0x0F → Emits s t [adminEntry t a c.kato])
         ∧ (fid ∉ [0x01, 0x02, 0x04, 0x07, 0x0B, 0x0C, 0x0E, 0x0F] →
              Emits s t [adminCqe t a .invalidField (Config.dnrOf .invalidField)]))
  ∧ (∀ (a : Adm) (burst : Nat) (s : State),
      (adminOk a s = true) → (burst ≤ 7) →
      Completes (.setArbitration a burst) s fun t =>
         t.fe.ctrls = ((s.admEntry a).1.fe.ctrls.map fun c => if c.cntlid == a.ctrl then { c with burst := burst } else c) ∧ Emits s t [adminEntry t a])
  ∧ (∀ (a : Adm) (sensor : Nat) (value : Int) (s : State),
      (adminOk a s = true) → (sensor < 8) →
      (Completes (.setTemperatureThreshold a sensor true value) s fun t =>
           t.pw.underThr = s.pw.underThr.set sensor value ∧ t.pw.overThr = s.pw.overThr ∧ Emits s t [adminEntry t a])
         ∧ Completes (.setTemperatureThreshold a sensor false value) s fun t =>
           t.pw.overThr = s.pw.overThr.set sensor value ∧ t.pw.underThr = s.pw.underThr ∧ Emits s t [adminEntry t a])
  ∧ (∀ (a : Adm) (request : Nat) (c : Ctrl) (s : State),
      (adminOk a s = true) → (s.fe.ctrl? a.ctrl = some c) → (0 < request) → (0 < s.fe.qpFree + c.granted) →
      Completes (.setNumberOfQueues a request) s fun t =>
         t.fe.qpFree = s.fe.qpFree + c.granted - min request (min (s.fe.qpFree + c.granted) 1024)
         ∧ (t.fe.ctrl? a.ctrl).map (·.granted) = some (min request (min (s.fe.qpFree + c.granted) 1024))
         ∧ Emits s t [adminEntry t a ((min request (min (s.fe.qpFree + c.granted) 1024) - 1) * 65537)])
  ∧ (∀ (a : Adm) (kinds : List EventKind) (s : State),
      (adminOk a s = true) →
      Completes (.setAsyncEventConfig a kinds) s fun t =>
         t.fe.ctrls = ((s.admEntry a).1.fe.ctrls.map fun c => if c.cntlid == a.ctrl then { c with events := kinds } else c) ∧ Emits s t [adminEntry t a])
  ∧ (∀ (a : Adm) (kato : Nat) (s : State),
      (adminOk a s = true) → (kato ≤ 600000) →
      Completes (.setKeepAliveTimer a kato) s fun t =>
         t.fe.ctrls = ((s.admEntry a).1.fe.ctrls.map fun c =>
           if c.cntlid == a.ctrl then { c with kato := if kato = 0 then 120000 else max 1000 ((kato + 99) / 100 * 100), kaStart := s.mono } else c)
         ∧ Emits s t [adminEntry t a])
  ∧ (∀ (a : Adm) (fid : Nat) (s : State),
      (adminOk a s = true) →
      Completes (.setFeaturesRefused a fid) s fun t => Emits s t [adminCqe t a .invalidField (Config.dnrOf .invalidField)])

/-- ABORT of an outstanding command that has not passed its catch point completes with bit 0 clear, of one that does not exist
with bit 0 set. CONTEXT_FREED serves the next waiting queue in the round robin of all queues: the oldest waiting command of an I/O queue starts, that of an
admin queue takes the context.
ORD_RELEASE lets the command held behind an ORD command start. RATE_CLASS_ROOM begins a fresh second of its class, and the
first command waiting for it starts and is charged. An ASYNCHRONOUS_EVENT_REQUEST with no event waiting is held on its
controller, and an enabled ASYNCHRONOUS_EVENT completes the oldest one held. INVALID_COMMAND_OPCODE completes with Invalid
Command Opcode. (R45, R47, R57, R64, R66, R88, R92, R94) -/
def Obligations.Abort_waiting_and_event_commands_complete : Prop :=
  (∀ (a : Adm) (sq cid : Nat) (s : State),
      (adminOk a s = true) → (sq ≠ 0) → (s.cmd? a.ctrl sq cid = none) →
      Completes (.abort a sq cid) s fun t => Emits s t [adminEntry t a 1])
  ∧ (∀ (a : Adm) (cid : Nat) (c : Ctrl) (s : State),
      (adminOk a s = true) → (s.fe.ctrl? a.ctrl = some c) → (cid ∈ c.aers) →
      Completes (.abort a 0 cid) s fun t =>
         Emits s t [.cqe a.ctrl 0 cid .abortRequested (Config.dnrOf .abortRequested) 0 0 (t.sqHead a.ctrl 0) none, adminEntry t a 0]
         ∧ (t.fe.ctrl? a.ctrl).map (·.aers) = some (c.aers.filter (· ≠ cid)))
  ∧ (∀ (q : Nat × Nat) (c : Cmd) (rest : List Cmd) (s : State),
      (up s = true) →
      (s.fe.robin.find? s.mayTake = some q) → (q.2 ≠ 0) →
      ((s.inPhase .waitContext).filter (fun c => (c.ctrl, c.sq) == q) = c :: rest) →
      (s.fl.cmds.find? (·.fetch == c.fetch) = some c) →
      Yields .contextFreed s (({ s with fe := s.fe.turn q } : State).tryStart c))
  ∧ (∀ (q : Nat × Nat) (cid : Nat) (s : State),
      (up s = true) → (s.fe.robin.find? s.mayTake = some q) → (q.2 = 0) →
      ((s.fe.ctxWait.find? fun w => w.1.1 == q.1 && !w.2) = some ((q.1, cid), false)) →
      Completes .contextFreed s fun t => t.fe.ctxWait.contains ((q.1, cid), true) = true ∧ t.fl = s.fl ∧ Emits s t [])
  ∧ (∀ (ctrl sq : Nat) (c : Cmd) (s : State),
      (up s = true) → ((s.inPhase .heldOrd).filter (fun c => c.ctrl == ctrl && c.sq == sq) = [c]) →
      (s.fl.cmds.find? (·.fetch == c.fetch) = some c) →
      Yields (.ordRelease ctrl sq) s (s.tryStart c))
  ∧ (∀ (cls : Nat) (r : RateClass) (c : Cmd) (n : Ns) (u : State) (s : State),
      (s.serving = true) → (s.bt.paused = false) → (s.va.rate[cls]? = some r) →
      (u = { s with va := { s.va with rate := s.va.rate.set cls { r with usedC := 0, usedB := 0 } } }) →
      ((s.inPhase .waitRate).filter (fun c => actRate c.action == cls) = [c]) → (u.rateRoom c = true) →
      (s.fl.cmds.find? (·.fetch == c.fetch) = some c) → (c.phase = .waitRate) → (c.judged = true) → (c.kind.isFlush = false) →
      (u.sanitizing = false) → (u.fl.curtain = false) → (u.ordHeld c = false) → (u.held c = false) → (u.contextFree c = true) →
      (u.carrierFor c = none) → (u.check c = .ok (some n)) →
      Yields (.rateClassRoom cls) s (u.admitRate c n))
  ∧ (∀ (a : Adm) (c : Ctrl) (s : State),
      (adminOk a s = true) → (s.fe.ctrl? a.ctrl = some c) → (c.raised = []) → (c.aers.length < 16) →
      Completes (.asynchronousEventRequest a) s fun t =>
         (t.fe.ctrl? a.ctrl).map (·.aers) = some (c.aers ++ [a.cid]) ∧ Emits s t [])
  ∧ (∀ (ctrl cid : Nat) (rest : List Nat) (k : EventKind) (c : Ctrl) (s : State),
      (up s = true) → (s.fe.ctrls = [c]) → (c.cntlid = ctrl) → (c.discovery = false) → (k ∈ c.events) →
      (k ∉ c.masked) → (c.aers = cid :: rest) →
      Completes (.asynchronousEvent ctrl k) s fun t =>
         Emits s t [.aen ctrl cid k] ∧ t.fe.ctrls.map (·.aers) = [rest]
         ∧ (vendorEvent k = true → t.fe.ctrls.map (·.masked) = [k :: c.masked]))
  ∧ (∀ (c : HostCmd) (opcode : Nat) (s : State),
      (s.serving = true) → (s.fe.hasQueue c.ctrl c.sq = true) → (c.sq ≠ 0) → (opcode < 256) → (ioOpcode opcode c.e = none) →
      (s.cmd? c.ctrl c.sq c.e.cid = none) → (s.sanitizing = false) →
      Completes (.invalidCommandOpcode c opcode) s fun t => Emits s t [ioEntry t c .invalidOpcode] ∧ t.fl = s.fl)
  ∧ (∀ (c : HostCmd) (opcode : Nat) (a : Adm) (s : State),
      (c.sq = 0) → (opcode < 256) → (opcode ∉ adminOpcodes) → (a = { ctrl := c.ctrl, cid := c.e.cid, nsid := c.e.nsid }) →
      (adminOk a s = true) →
      Completes (.invalidCommandOpcode c opcode) s fun t => Emits s t [adminCqe t a .invalidOpcode (Config.dnrOf .invalidOpcode)])
  ∧ (∀ (c : HostCmd) (opcode : Nat) (k : IoKind) (s : State),
      (c.sq ≠ 0) → (opcode < 256) → (ioOpcode opcode c.e = some k) →
      exec (.invalidCommandOpcode c opcode) s = exec (ioCommand k c) s)

/-- NAMESPACE_CREATE of a known type, a sealing mode the type may have and zero sizes adds one namespace at the lowest free
identifier, attached to no controller, with a key of generation 1, and returns the identifier, or, of a pair whose drives reach each
other, tells the twin of it first; a drive of such a pair that is not Primary asks the Primary for it. NAMESPACE_DELETE of a
namespace that no bound record keeps ends its uncommitted commands, removes it and leaves no active key of it.
NAMESPACE_ATTACH adds the listed controllers to its list, NAMESPACE_DETACH takes them from it. FIRMWARE_IMAGE_DOWNLOAD puts
an aligned piece into the buffer and makes the controller its owner. FIRMWARE_COMMIT_REPLACE and
FIRMWARE_COMMIT_REPLACE_TRIAL of a slot that does not run check the assembled image: a bad one completes with Invalid
Firmware Image, one below the floor with Firmware Activation Prohibited, and any other is written to the slot (the second
also sets BR_TRIAL). FIRMWARE_COMMIT_SET_TRIAL of a slot with a valid image that passes sets BR_TRIAL.
FIRMWARE_COMMIT_ACTIVATE completes later: with a good image the commit is outstanding and the slot written. ACTIVATION_PAUSE
begins the pause and sets BR_TRIAL; ACTIVATION_READY makes the image the running one, ACTIVATION_FALLBACK brings the old one
back, and each ends the pause; ACTIVATION_CONFIRM makes the activated image BR_ACTIVE. (R64, R67, R110, R214, R221, R264,
R435, R436, R439, R440, R441, R543) -/
def Obligations.Namespace_and_firmware_commands_complete : Prop :=
  (∀ (a : Adm) (nsType mode i : Nat) (ty : NsType) (m : SealMode) (s : State),
      (adminOk a s = true) → (nsTypeOf nsType = some ty) → (sealModeOf ty mode = some m) →
      (s.lifecycle = .isSealed) → (s.fl.curtain = false) → (s.nsMode ≠ .refused) → (s.va.ns.length < 1024) →
      (s.freeNsid = some i) → (s.nsMode = .both → s.tw.role = .primary) →
      Completes (.namespaceCreate a nsType mode 0 0) s fun t =>
         t.va.ns = s.va.ns ++ [{ nsid := i, type := ty, mode := m }] ∧ t.ky.recs.any (fun r => r.nsid == i && r.gen == 1) = true
         ∧ Emits s t (if s.nsMode = .both then [.twinNs true i nsType mode false] else [adminEntry t a i]))
  ∧ (∀ (a : Adm) (nsType mode : Nat) (ty : NsType) (m : SealMode) (s : State),
      (adminOk a s = true) → (nsTypeOf nsType = some ty) → (sealModeOf ty mode = some m) →
      (s.lifecycle = .isSealed) → (s.fl.curtain = false) → (s.nsMode = .both) → (s.tw.role ≠ .primary) → (s.va.ns.length < 1024) →
      Completes (.namespaceCreate a nsType mode 0 0) s fun t =>
         t.va.ns = s.va.ns ∧ t.fe.jobs.any (fun j => j.ctrl == a.ctrl && j.cid == a.cid) = true
         ∧ Emits s t [.twinNsAsk true 0 nsType mode])
  ∧ (∀ (a : Adm) (n : Ns) (s : State),
      (adminOk a s = true) → (s.fl.curtain = false) → (s.nsOf a.nsid = some n) →
      ((n.type == .ledger && s.ledgerBound n.nsid) = false) → (s.nsMode ≠ .refused) →
      (s.ky.sweeping n.nsid = false) → (s.nsMode = .both → s.tw.role = .primary) →
      Completes (.namespaceDelete a) s fun t =>
         t.va.ns = ((s.admEntry a).1.failUncommitted n.nsid).va.ns.filter (·.nsid ≠ n.nsid) ∧ t.ky.recs.all (fun r => r.nsid != n.nsid || r.state != 1) = true)
  ∧ (∀ (a : Adm) (ids : List Nat) (n : Ns) (s : State),
      (adminOk a s = true) → (s.nsOf a.nsid = some n) → (s.ioCtrls ids = true) → (ids.all (· ∉ n.attached) = true) →
      Completes (.namespaceAttach a ids) s fun t =>
         t.va.ns = s.va.ns.map (fun x => if x.nsid == n.nsid then { x with attached := x.attached ++ ids } else x) ∧ Sends s t (adminEntry t a))
  ∧ (∀ (a : Adm) (ids : List Nat) (n : Ns) (s : State),
      (adminOk a s = true) → (s.nsOf a.nsid = some n) → (s.ioCtrls ids = true) → (ids.all (· ∈ n.attached) = true) →
      Completes (.namespaceDetach a ids) s fun t =>
         t.va.ns = s.va.ns.map (fun x => if x.nsid == n.nsid then { x with attached := x.attached.filter (· ∉ ids) } else x)
         ∧ Sends s t (adminEntry t a))
  ∧ (∀ (a : Adm) (offset : Nat) (data : Bytes) (s : State),
      (adminOk a s = true) → (s.bt.commit = none) →
      (s.bt.bufferOwner = some a.ctrl ∨ (s.bt.bufferOwner = none ∧ offset = 0)) → (offset + data.length ≤ fwMax) →
      (offset % 4096 = 0) → (data.length % 4096 = 0) →
      Completes (.firmwareImageDownload a offset data) s fun t =>
         t.bt.bufferOwner = some a.ctrl ∧ t.bt.buffer = setAssoc offset data s.bt.buffer ∧ Emits s t [adminEntry t a])
  ∧ (∀ (a : Adm) (slot i : Nat) (b : Bytes) (s : State),
      (adminOk a s = true) → (s.bt.commit = none) → (s.bt.slotIndex slot = some i) → (i ≠ s.bt.running) →
      (s.bt.assembled = some b) →
      Completes (.firmwareCommitReplace a slot) s fun t =>
         match fwCheck b with
         | none => Emits s t [adminCqe t a .invalidFirmwareImage (Config.dnrOf .invalidFirmwareImage)]
         | some g =>
           if g.svn < s.bt.floor then Emits s t [adminCqe t a .fwActivationProhibited (Config.dnrOf .fwActivationProhibited)]
           else t.bt.slotImage i = some g ∧ t.bt.brTrial = s.bt.brTrial ∧ t.bt.buffer = [] ∧ Emits s t [adminEntry t a])
  ∧ (∀ (a : Adm) (slot i : Nat) (b : Bytes) (s : State),
      (adminOk a s = true) → (s.bt.commit = none) → (s.bt.slotIndex slot = some i) → (i ≠ s.bt.running) →
      (s.bt.assembled = some b) →
      Completes (.firmwareCommitReplaceTrial a slot) s fun t =>
         match fwCheck b with
         | none => Emits s t [adminCqe t a .invalidFirmwareImage (Config.dnrOf .invalidFirmwareImage)]
         | some g =>
           if g.svn < s.bt.floor then Emits s t [adminCqe t a .fwActivationProhibited (Config.dnrOf .fwActivationProhibited)]
           else t.bt.slotImage i = some g ∧ t.bt.brTrial = some i ∧ t.bt.brGen = s.bt.brGen + 1 ∧ t.bt.buffer = [] ∧ Emits s t [adminEntry t a])
  ∧ (∀ (a : Adm) (slot i : Nat) (s : State),
      (adminOk a s = true) → (s.bt.commit = none) → (s.bt.slotIndex slot = some i) → (i ≠ s.bt.running) →
      ((s.bt.slotImage i).isSome = true) → (s.bt.passes i = true) →
      Completes (.firmwareCommitSetTrial a slot) s fun t =>
         t.bt.brTrial = some i ∧ t.bt.brGen = s.bt.brGen + 1 ∧ t.bt.buffer = [] ∧ Emits s t [adminEntry t a])
  ∧ (∀ (a : Adm) (slot i : Nat) (b : Bytes) (s : State),
      (adminOk a s = true) → (s.bt.commit = none) → (s.bt.slotIndex slot = some i) → (i ≠ s.bt.running) →
      (s.bt.assembled = some b) → (s.paired = false) →
      Completes (.firmwareCommitActivate a slot) s fun t =>
         match fwCheck b with
         | none => Emits s t [adminCqe t a .invalidFirmwareImage (Config.dnrOf .invalidFirmwareImage)]
         | some g =>
           if g.svn < s.bt.floor then Emits s t [adminCqe t a .fwActivationProhibited (Config.dnrOf .fwActivationProhibited)]
           else if ((s.bt.slotImage s.bt.running).map (·.hoFormat)).getD 0 < g.hoMin then
             Emits s t [adminCqe t a .fwNeedsConventionalReset (Config.dnrOf .fwNeedsConventionalReset)]
           else t.bt.slotImage i = some g ∧ t.bt.commit = some (a.ctrl, a.cid, i) ∧ t.bt.paused = false)
  ∧ (∀ (c k i : Nat) (s : State),
      (s.serving = true) → (s.bt.paused = false) → (s.bt.commit = some (c, k, i)) → (s.mb.boxes.all (fun b => !b.working) = true) →
      Completes .activationPause s fun t =>
         t.bt.paused = true ∧ t.bt.brTrial = some i ∧ t.bt.oldImage = s.bt.running ∧ t.me = { s.me with wick := suspendAll s.me.wick, taper := suspendAll s.me.taper }.attend
         ∧ t.fl = s.fl ∧ Emits s t [])
  ∧ (∀ (c k i : Nat) (g : FwImage) (s : State),
      (s.serving = true) → (s.bt.paused = true) → (s.bt.commit = some (c, k, i)) → (s.bt.slotImage i = some g) →
      (s.me.anyRuns = false) → (s.fl.cmds = []) → (s.fe.hasQueue c 0 = true) →
      Completes .activationReady s fun t =>
         t.bt.running = i ∧ t.bt.activated = some i ∧ t.bt.patch = g.patchVer ∧ t.bt.paused = false ∧ t.bt.commit = none
         ∧ t.bb.activations = s.bb.activations + 1 ∧ Sends s t (.cqe c 0 k .success false 0 0 (t.sqHead c 0) none))
  ∧ (∀ (c k i : Nat) (s : State),
      (s.serving = true) → (s.bt.paused = true) → (s.bt.commit = some (c, k, i)) → (s.fl.cmds = []) →
      (s.fe.hasQueue c 0 = true) →
      Completes .activationFallback s fun t =>
         t.bt.running = s.bt.oldImage ∧ t.bt.brTrial = none ∧ t.bt.paused = false ∧ t.bt.commit = none ∧ t.bb.fallbacks = s.bb.fallbacks + 1
         ∧ Sends s t (.cqe c 0 k .invalidFirmwareImage (Config.dnrOf .invalidFirmwareImage) 0 0 (t.sqHead c 0) none))
  ∧ (∀ (i : Nat) (s : State),
      (s.serving = true) → (s.bt.activated = some i) →
      Completes .activationConfirm s fun t =>
         t.bt.brActive = i ∧ t.bt.brTrial = none ∧ t.bt.activated = none ∧ t.bt.brGen = s.bt.brGen + 1 ∧ t.bt.activeSince = s.pw.powerOnS)

/-- DEVICE_SELF_TEST_SHORT and DEVICE_SELF_TEST_EXTENDED start a test where none runs; DEVICE_SELF_TEST_ABORT ends the running
one with result 1h; SELF_TEST_DONE enters result 0h, or 7h with the first segment that failed. With no I/O command
outstanding and no bound Ledger record, SANITIZE_CRYPTO_ERASE and SANITIZE_BLOCK_ERASE leave no namespace, no key and an
empty index, and the block erase no band and no journal record; the operation then runs until SANITIZE_DONE.
SET_POWER_MANAGEMENT to PS0, PS1 or PS2 sets the host's state; to PS3 it enters that state once no started I/O remains.
(R109, R205, R222, R460, R461, R516, R517, R518) -/
def Obligations.Self_test_sanitize_and_power_commands_complete : Prop :=
  (∀ (a : Adm) (s : State),
      (adminOk a s = true) → (s.stt.running = none) →
      Completes (.deviceSelfTestShort a) s fun t =>
         t.stt.running = some { extended := false, ctrl := a.ctrl, nsid := a.nsid, suspended := false } ∧ t.stt.results = s.stt.results
         ∧ Sends s t (adminEntry t a))
  ∧ (∀ (a : Adm) (s : State),
      (adminOk a s = true) → (s.stt.running = none) →
      Completes (.deviceSelfTestExtended a) s fun t =>
         t.stt.running = some { extended := true, ctrl := a.ctrl, nsid := a.nsid, suspended := false } ∧ t.stt.results = s.stt.results
         ∧ Sends s t (adminEntry t a))
  ∧ (∀ (a : Adm) (r : SelfTest) (s : State),
      (adminOk a s = true) → (s.stt.running = some r) →
      Completes (.deviceSelfTestAbort a) s fun t =>
         t.stt.running = none ∧ t.stt.results = ((1, r.nsid, 0, r.extended, s.pw.powerOnS / 3600) :: s.stt.results).take 20 ∧ Emits s t [adminEntry t a])
  ∧ (∀ (failed : Option Nat) (r : SelfTest) (s : State),
      (up s = true) → (s.stt.running = some r) → (r.suspended = false) →
      Completes (.selfTestDone failed) s fun t =>
         t.stt.running = none ∧ t.stt.results = ((if failed.isSome then 7 else 0, r.nsid, failed.getD 0, r.extended, s.pw.powerOnS / 3600) :: s.stt.results).take 20)
  ∧ (∀ (a : Adm) (s : State),
      (adminOk a s = true) → ((s.va.ns.any fun n => n.type == .ledger && s.ledgerBound n.nsid) = false) →
      (s.fl.cmds = []) → (s.og.fills = []) →
      Completes (.sanitizeCryptoErase a) s fun t =>
         t.fl.sanitize = 1 ∧ t.va.ns = [] ∧ t.ky.recs = [] ∧ t.ix.buckets = [] ∧ t.ix.resident = 0 ∧ t.wx.staged = [] ∧ t.md.nand = [])
  ∧ (∀ (a : Adm) (s : State),
      (adminOk a s = true) → ((s.va.ns.any fun n => n.type == .ledger && s.ledgerBound n.nsid) = false) →
      (s.fl.cmds = []) → (s.og.fills = []) →
      Completes (.sanitizeBlockErase a) s fun t =>
         t.fl.sanitize = 2 ∧ t.va.ns = [] ∧ t.ky.recs = [] ∧ t.ix.buckets = [] ∧ t.ix.resident = 0 ∧ t.wx.staged = [] ∧ t.md.nand = []
         ∧ t.md.bands = [] ∧ t.wx.journal = [])
  ∧ (∀ (s : State),
      (up s = true) → (s.fl.sanitize ≠ 0) → (s.fe.jobs.any (·.what == 2) = false) →
      Completes .sanitizeDone s fun t => t.fl.sanitize = 0 ∧ t.fl.sanitizeLast = s.fl.sanitize ∧ t.va = s.va)
  ∧ (∀ (a : Adm) (ps : Nat) (s : State),
      (adminOk a s = true) → (s.psRefused ps = false) → (ps ≤ 2) → (s.pw.critical = false) →
      (s.fe.jobs.any (·.what == 1) = false) →
      Completes (.setPowerManagement a ps) s fun t => t.pw.psHost = ps ∧ t.pw.psNow = ps ∧ t.pw.psLastOp = ps ∧ Emits s t [adminEntry t a])
  ∧ (∀ (a : Adm) (s : State),
      (adminOk a s = true) → (s.psRefused 3 = false) → (s.fl.cmds = []) → (s.fe.jobs = []) →
      (s.pw.critical = false) → (s.pw.overdueWork = false) →
      Completes (.setPowerManagement a 3) s fun t => t.pw.psHost = 3 ∧ t.pw.psNow = 3 ∧ t.fe.jobs = [] ∧ Sends s t (adminEntry t a))

/-- A mailbox that takes a post from its source (MAILBOX_POST, MBX_POST, PEER and MCTP_MESSAGE with a request) counts it in
MBX_MSGS, puts it at the end of its queue, and belongs to that source. MAILBOX_FETCH returns the head reply to the owner of
the mailbox, and with MBX_ACK takes it. MESSAGE_START takes the head message of a mailbox in which nothing works and carries
it out. REPLY_RETENTION_EXPIRY drops the replies posted longest ago. SET_ENDPOINT_ID sets the EID and is answered with it. (R314, R401, R402, R404,
R406, R407, R408, R409) -/
def Obligations.Mailbox_commands_complete : Prop :=
  (∀ (a : Adm) (mbox msgLen : Nat) (m : RawMsg) (s : State),
      (adminOk a s = true) → (mbox ≤ 7) → (32 ≤ msgLen) → (msgLen ≤ 4128) → (s.mb.boxes.length = 16) →
      (s.takes mbox a.ctrl = true) →
      Completes (.mailboxPost a mbox msgLen m) s fun t =>
         (t.box mbox).msgs = (s.box mbox).msgs + 1 ∧ (t.box mbox).inFlight = (s.box mbox).inFlight + 1 ∧ (t.box mbox).owner = a.ctrl
         ∧ (t.box mbox).owned = true ∧ (t.box mbox).queue.length = (s.box mbox).queue.length + 1 ∧ Emits s t [adminEntry t a])
  ∧ (∀ (a : Adm) (mbox bufSize : Nat) (r : Reply) (rest : List Reply) (s : State),
      (adminOk a s = true) → (mbox ≤ 7) → (4128 ≤ bufSize) → (s.mb.boxes.length = 16) →
      ((s.box mbox).replies = r :: rest) → ((s.box mbox).owned = true) → ((s.box mbox).owner = a.ctrl) →
      Completes (.mailboxFetch a mbox bufSize) s fun t =>
         (t.box mbox).replies = rest ∧ Emits s t [.data a.ctrl 0 a.cid r.bytes, adminEntry t a r.bytes.length])
  ∧ (∀ (mbox src : Nat) (m : Option RawMsg) (s : State),
      (s.takesPosts mbox = true) → (mbox = 14 ∨ mbox = 15) → (s.mb.boxes.length = 16) → (s.takes mbox src = true) →
      Completes (.mbxPost mbox src m) s fun t =>
         (t.box mbox).msgs = (s.box mbox).msgs + 1 ∧ (t.box mbox).inFlight = (s.box mbox).inFlight + 1 ∧ (t.box mbox).owner = src
         ∧ (t.box mbox).queue.length = (s.box mbox).queue.length + 1 ∧ (t.box mbox).hdr = rawHeader (m.getD (s.box mbox).standing) ∧ Emits s t [])
  ∧ (∀ (mbox : Nat) (r : Reply) (rest : List Reply) (s : State),
      (s.takesPosts mbox = true) → (mbox < 16) → (s.mb.boxes.length = 16) → ((s.box mbox).replies = r :: rest) →
      Completes (.mbxAck mbox) s fun t =>
         (t.box mbox).replies = rest ∧ (r.final = true → (t.box mbox).inFlight = (s.box mbox).inFlight - 1)
         ∧ Emits s t (if mbox = 14 then [.tap r.bytes] else []))
  ∧ (∀ (mbox cls op : Nat) (bad : Bool) (m : MsgReq) (rest : List (MsgReq × Nat × Nat × Bool)) (u : State) (s : State),
      (s.takesPosts mbox = true) → (s.bt.paused = false) → ((s.box mbox).queue = (m, cls, op, bad) :: rest) →
      ((s.box mbox).working = false) →
      (u = (s.modBox mbox fun b => { b with queue := rest }).carryOut m cls op bad) →
      Completes (.messageStart mbox) s fun t =>
         t = { u with pending := s.pending, mc := { u.mc with hbm := if u.mc.hbm = [] then [] else s.mc.hbm }, fe := s.raisedLogs u, pt := s.queued u })
  ∧ (∀ (mbox : Nat) (s : State),
      (up s = true) → (mbox < s.mb.boxes.length) →
      Completes (.replyRetentionExpiry mbox) s fun t =>
         (t.box mbox).kept = (s.box mbox).kept.filter (fun k => (s.box mbox).kept.any fun x => decide (x.posted < k.posted)) ∧ Emits s t [])
  ∧ (∀ (h : ChainHdr) (m : RawMsg) (s : State),
      (s.hears h = true) → (s.managed = true) → (m.flags % 2 = 0) → (s.mb.boxes.length = 16) →
      (s.takes 12 h.src = true) →
      Completes (.peer h m) s fun t =>
         (t.box 12).msgs = (s.box 12).msgs + 1 ∧ (t.box 12).owner = h.src ∧ (t.box 12).queue.length = (s.box 12).queue.length + 1)
  ∧ (∀ (h : ChainHdr) (m : RawMsg) (v : WitnessView) (s : State),
      (s.hears h = true) → (s.managed = true) → (m.flags % 2 = 1) → (s.mb.boxes.length = 16) → (s.watches = true) →
      (m.cls = 6) → (m.op = 6) → (m.status = 0) → (s.sk.views.find? (·.pos == h.src) = some v) →
      Completes (.peer h m) s fun t =>
         (t.box 13).msgs = (s.box 13).msgs + 1 ∧ (t.box 13).replies = (s.box 13).replies
         ∧ t.sk.views = s.sk.views.filter (·.pos ≠ h.src) ++
             [{ v with role := natAt m.payload 0 1, term := natAt m.payload 1 8, request := natAt m.payload 9 1 == 1, at_ := s.mono,
                       asked := if natAt m.payload 9 1 == 1 && !v.request then s.mono else v.asked }])
  ∧ (∀ (eid mbox tag : Nat) (m : RawMsg) (s : State),
      (s.mb.endpoint = true) → (s.pw.phase = .serving) → (8 ≤ mbox) → (mbox ≤ 11) → (s.mb.boxes.length = 16) →
      (s.takes mbox eid = true) →
      Completes (.mctpMessage eid (.mailbox 0xF2A5 mbox tag false m)) s fun t =>
         (t.box mbox).msgs = (s.box mbox).msgs + 1 ∧ (t.box mbox).owner = eid ∧ (t.box mbox).queue.length = (s.box mbox).queue.length + 1
         ∧ Emits s t [])
  ∧ (∀ (e : NewEid) (s : State),
      (s.mb.endpoint = true) → (s.pw.phase ≠ .frozen) → (s.pw.phase ≠ .b0Failed) → (8 ≤ e.eid) → (e.eid ≤ 254) →
      Completes (.setEndpointId e) s fun t => t.mb.eid = some e.eid ∧ (e.smbus = true → t.mb.mtu = 64) ∧ Emits s t [.endpointId e.eid true])

/-- On an endpoint of a drive that serves, READ_NVME_MI_DATA_STRUCTURE, NVM_SUBSYSTEM_HEALTH_STATUS_POLL,
CONTROLLER_HEALTH_STATUS_POLL, CONFIGURATION_GET of the MTU, CONFIGURATION_SET of an MTU of 64, 128 or 256 and VPD_READ
inside the vital product data answer Success; a read beyond the vital product data answers Invalid Parameter; the set changes
the MTU alone. NVME_MI_RESET closes every connection. NVME_MI_SEND keeps a response for its controller and NVME_MI_RECEIVE
returns the oldest one. The layouts of the answers and the response names are the model's (log 41). (R108, R410, R420) -/
def Obligations.NVMe_MI_commands_complete : Prop :=
  (∀ (eid dtype : Nat) (s : State),
      (s.mb.endpoint = true) → (s.pw.phase = .serving) →
      Completes (.readNvmeMiDataStructure eid dtype) s fun t => Emits s t [.mi eid "Success" (Config.miDataStructure dtype)] ∧ t.mb = s.mb)
  ∧ (∀ (eid : Nat) (s : State),
      (s.mb.endpoint = true) → (s.pw.phase = .serving) →
      Completes (.nvmSubsystemHealthStatusPoll eid) s fun t =>
         Emits s t [.mi eid "Success" ([(Config.freeWord s.free).setWidth 8, BitVec.ofNat 8 (255 - s.smartWarn), miTemp s.pw.hottest,
           BitVec.ofNat 8 s.percentUsed] ++ padTo 4 (Config.freeBytes s.free 4))])
  ∧ (∀ (eid : Nat) (s : State),
      (s.mb.endpoint = true) → (s.pw.phase = .serving) →
      Completes (.controllerHealthStatusPoll eid) s fun t => Emits s t [.mi eid "Success" (s.fe.ctrls.flatMap s.miController)])
  ∧ (∀ (eid : Nat) (s : State),
      (s.mb.endpoint = true) → (s.pw.phase = .serving) →
      Completes (.configurationGet eid 3) s fun t => Emits s t [.mi eid "Success" (leBytes 3 s.mb.mtu)] ∧ t.mb = s.mb)
  ∧ (∀ (eid value : Nat) (s : State),
      (s.mb.endpoint = true) → (s.pw.phase = .serving) → (value = 64 ∨ (s.mb.smbus = false ∧ (value = 128 ∨ value = 256))) →
      Completes (.configurationSet eid 3 value false) s fun t => Emits s t [.mi eid "Success" []] ∧ t.mb = { s.mb with mtu := value })
  ∧ (∀ (eid offset len : Nat) (s : State),
      (s.mb.endpoint = true) → (s.pw.phase = .serving) →
      Completes (.vpdRead eid offset len) s fun t =>
         Emits s t [if Config.vpd.length < offset + len then .mi eid "Invalid Parameter" [] else .mi eid "Success" (bytesAt Config.vpd offset len)])
  ∧ (∀ (eid : Nat) (s : State),
      (s.mb.endpoint = true) → (s.pw.phase = .serving) → (s.bt.paused = false) →
      Completes (.nvmeMiReset eid) s fun t => t.fe.conns = [] ∧ t.fe.hellos = [] ∧ Sends s t (.mi eid "Success" []))
  ∧ (∀ (a : Adm) (s : State),
      (adminOk a s = true) →
      Completes (.nvmeMiSend a (.configGet 3)) s fun t =>
         t.fe.miReplies = s.fe.miReplies ++ [(a.ctrl, 0 :: leBytes 3 s.mb.mtu)] ∧ Emits s t [adminEntry t a])
  ∧ (∀ (a : Adm) (len : Nat) (body : Bytes) (rest : List (Nat × Bytes)) (s : State),
      (adminOk a s = true) → (s.fe.miReplies = (a.ctrl, body) :: rest) →
      Completes (.nvmeMiReceive a len) s fun t =>
         t.fe.miReplies = rest ∧ Emits s t [.data a.ctrl 0 a.cid (body.take len), adminEntry t a])

/-- For an I/O command that starts at once, passes the checks and is allowed by policy: FLUSH without a twin-asynchronous
namespace completes; RETRIEVE and LONG_KEY_RETRIEVE of a record that lies readable in staging return the leading bytes that
fit and the length of the value in Dword 0; LIST returns the keys in listing order that fit; EXIST and LONG_KEY_EXIST
complete with success or Key Does Not Exist; FILTERED_LIST with PROG_ID 0 returns every key that fits and says in Dword 1
whether more follow; GET_RECEIPT of a leaf of a signed epoch for this namespace and key returns the receipt. None of them
changes the commit sequence or the index. (R20, R70, R73, R76, R87, R106, R121, R235, R398, R521) -/
def Obligations.Reading_IO_commands_complete : Prop :=
  (∀ (h : HostCmd) (n : Ns) (s : State),
      (ioPasses .flush h n s = true) →
      ((s.va.ns.filter fun x => x.nsid == h.e.nsid && x.level == some .async) = []) →
      Completes (.flush h) s fun t => Emits s t [ioEntry t h] ∧ t.va = s.va ∧ t.ix = s.ix ∧ t.fl.cmds = [])
  ∧ (∀ (h : HostCmd) (n : Ns) (a : ActWord) (f : Found) (g : Nat) (s : State),
      (ioAllowed .retrieve h n a s = true) → (n.type ≠ .mirror) → (s.find n.nsid (keyFor .retrieve h) = some f) →
      (f.slot.loc = .wax g) → ((decide (g ∈ s.wx.bad) && !s.copyValid g f.record.granules) = false) →
      Completes (.retrieve h) s fun t =>
         Emits s t (ioData t h (f.record.value.take (fieldsOf .retrieve h.e).bufSize) f.record.value.length 0) ∧ t.va.nextSeq = s.va.nextSeq
         ∧ t.ix = (s.look n.nsid (keyFor .retrieve h)).ix)
  ∧ (∀ (h : HostCmd) (n : Ns) (a : ActWord) (f : Found) (g : Nat) (s : State),
      (ioAllowed .longRetrieve h n a s = true) → (n.type ≠ .mirror) →
      (s.find n.nsid (keyFor .longRetrieve h) = some f) → (f.slot.loc = .wax g) →
      ((decide (g ∈ s.wx.bad) && !s.copyValid g f.record.granules) = false) →
      Completes (.longKeyRetrieve h) s fun t =>
         Emits s t (ioData t h (f.record.value.take (fieldsOf .longRetrieve h.e).bufSize) f.record.value.length 0) ∧ t.va.nextSeq = s.va.nextSeq
         ∧ t.ix = (s.look n.nsid (keyFor .longRetrieve h)).ix)
  ∧ (∀ (h : HostCmd) (n : Ns) (a : ActWord) (ks : List Key) (s : State),
      (ioAllowed .list h n a s = true) →
      (ks = fitEntries listEntry ((fieldsOf .list h.e).bufSize - 4) (s.listFrom h.e.nsid (keyFor .list h) 16)) →
      Completes (.list h) s fun t =>
         Emits s t (ioData t h (leBytes 4 ks.length ++ ks.flatMap listEntry) ks.length 0) ∧ t.va.nextSeq = s.va.nextSeq ∧ t.ix = s.ix)
  ∧ (∀ (h : HostCmd) (n : Ns) (a : ActWord) (s : State),
      (ioAllowed .exist h n a s = true) →
      Completes (.exist h) s fun t =>
         Emits s t [ioEntry t h (if s.present n.nsid (keyFor .exist h) then .success else .keyDoesNotExist)] ∧ t.va.nextSeq = s.va.nextSeq
         ∧ t.ix = (s.look n.nsid (keyFor .exist h)).ix)
  ∧ (∀ (h : HostCmd) (n : Ns) (a : ActWord) (s : State),
      (ioAllowed .longExist h n a s = true) →
      Completes (.longKeyExist h) s fun t =>
         Emits s t [ioEntry t h (if s.present n.nsid (keyFor .longExist h) then .success else .keyDoesNotExist)] ∧ t.va.nextSeq = s.va.nextSeq
         ∧ t.ix = (s.look n.nsid (keyFor .longExist h)).ix)
  ∧ (∀ (h : HostCmd) (n : Ns) (a : ActWord) (all ks : List Key) (s : State),
      (ioAllowed .filteredList h n a s = true) → ((fieldsOf .filteredList h.e).progId = 0) →
      (all = s.listFrom h.e.nsid (keyFor .filteredList h) 240) →
      (ks = fitEntries flEntry ((fieldsOf .filteredList h.e).bufSize - 8) all) →
      Completes (.filteredList h) s fun t =>
         Emits s t (ioData t h (leBytes 4 ks.length ++ [0, 0, 0, 0] ++ ks.flatMap flEntry) ks.length (decide (ks.length < all.length)).toNat)
         ∧ t.va.nextSeq = s.va.nextSeq ∧ t.ix = s.ix)
  ∧ (∀ (h : HostCmd) (n : Ns) (a : ActWord) (e : ClosedEpoch) (l : Leaf) (g : Bytes × Bytes) (s : State),
      (ioAllowed .getReceipt h n a s = true) →
      (s.ky.store.find? (·.number == (fieldsOf .getReceipt h.e).epoch) = some e) →
      (e.leaves[(fieldsOf .getReceipt h.e).leaf]? = some l) → (e.sigs = some g) → (l.nsid = h.e.nsid) →
      (l.key = keyFor .getReceipt h) → (s.wx.pend.any (·.seq == l.seq) = false) →
      Completes (.getReceipt h) s fun t =>
         Emits s t (ioData t h ((s.receipt e (fieldsOf .getReceipt h.e).leaf l g).take (fieldsOf .getReceipt h.e).bufSize)
           (s.receipt e (fieldsOf .getReceipt h.e).leaf l g).length 0) ∧ t.va.nextSeq = s.va.nextSeq ∧ t.ix = s.ix)

/-- For an I/O command that starts at once, passes the checks and is allowed by policy, with no pending write of its key: STORE
and LONG_KEY_STORE whose pre-check and capacity check pass, with staging room and a hash lane where a leaf is wanted, hold
their reservation and take in their data. STORE_COMMIT of a whole value of a new key at durability Local takes the next
commit sequence, leaves the sealed record in staging under it, writes one journal record and completes. DELETE and
LONG_KEY_DELETE of a present key outside Ledger namespaces remove it from the index under the next sequence and complete;
SECURE_DELETE also takes the tracking slot that Dword 0 names. (R21, R25, R32, R60, R72, R74, R102, R156, R163, R203, R225) -/
def Obligations.Storing_IO_commands_complete : Prop :=
  (∀ (h : HostCmd) (n : Ns) (a : ActWord) (g : Nat) (s : State),
      (ioAllowed .store h n a s = true) → (s.isPending n.nsid (keyFor .store h) = false) →
      (s.storeCheck n (keyFor .store h) (fieldsOf .store h.e).ifExists (fieldsOf .store h.e).ifAbsent = none) →
      (s.capacityRefuses n.nsid (keyFor .store h) (32 * recGranules n.mode (keyFor .store h).length h.e.cdw10.toNat) = false) →
      (s.lagHolds n ((keyFor .store h).length + h.e.cdw10.toNat) = false) →
      (leafWanted n a = true → s.hashLanes < 16) → (s.wx.waiters = []) →
      ((s.reserve (recGranules n.mode (keyFor .store h).length h.e.cdw10.toNat) false).2 = some g) →
      Completes (.store h) s fun t =>
         t.fl.cmds.map (fun x => (x.ctrl, x.sq, x.e.cid, x.phase, x.granule)) = [(h.ctrl, h.sq, h.e.cid, .intake, some g)]
         ∧ t.va.nextSeq = s.va.nextSeq ∧ t.ix = (s.look n.nsid (keyFor .store h)).ix)
  ∧ (∀ (h : HostCmd) (n : Ns) (a : ActWord) (g : Nat) (s : State),
      (ioAllowed .longStore h n a s = true) → (s.isPending n.nsid (keyFor .longStore h) = false) →
      (s.storeCheck n (keyFor .longStore h) (fieldsOf .longStore h.e).ifExists (fieldsOf .longStore h.e).ifAbsent = none) →
      (s.capacityRefuses n.nsid (keyFor .longStore h) (32 * recGranules n.mode (keyFor .longStore h).length h.e.cdw10.toNat) = false) →
      (s.lagHolds n ((keyFor .longStore h).length + h.e.cdw10.toNat) = false) →
      (leafWanted n a = true → s.hashLanes < 16) → (s.wx.waiters = []) →
      ((s.reserve (recGranules n.mode (keyFor .longStore h).length h.e.cdw10.toNat) false).2 = some g) →
      Completes (.longKeyStore h) s fun t =>
         t.fl.cmds.map (fun x => (x.ctrl, x.sq, x.e.cid, x.phase, x.granule)) = [(h.ctrl, h.sq, h.e.cid, .intake, some g)]
         ∧ t.va.nextSeq = s.va.nextSeq ∧ t.ix = (s.look n.nsid (keyFor .longStore h)).ix)
  ∧ (∀ (ctrl sq cid g : Nat) (c : Cmd) (n : Ns) (s : State),
      (up s = true) → (s.cmd? ctrl sq cid = some c) → (c.granule = some g) → (s.nsOf c.e.nsid = some n) →
      (c.phase = .intake) → (c.kind.isStore = true) → (c.seq = none) → (c.got.length = c.e.cdw10.toNat) →
      (c.forwardedFrom = none) → (s.fe.hasQueue c.ctrl c.sq = true) → (s.isPending n.nsid c.key = false) →
      (s.storeCheck n c.key (fieldsOf c.kind c.e).ifExists (fieldsOf c.kind c.e).ifAbsent = none) →
      (s.find n.nsid c.key = none) → (n.writeLevel = .loc) → (leafWanted n c.action = false) →
      (roomFor c.key s = true) → (s.journalWaits = false) → (s.keyLimit n.nsid c.key = false) →
      (s.ix.points (.wax g) = false) → (c.keyGen = s.currentGen n.nsid) →
      Completes (.storeCommit ctrl sq cid) s fun t =>
         t.va.nextSeq = s.va.nextSeq + 1 ∧ t.wx.staged.lookup g = some { s.sealRecord c n g with seq := s.va.nextSeq }
         ∧ t.wx.journal.map (·.seq) = s.wx.journal.map (·.seq) ++ [s.va.nextSeq]
         ∧ Emits s t [ioEntry t { ctrl := c.ctrl, sq := c.sq, e := c.e }])
  ∧ (∀ (h : HostCmd) (n : Ns) (a : ActWord) (s : State),
      (ioAllowed .delete h n a s = true) → (s.isPending n.nsid (keyFor .delete h) = false) → (n.type ≠ .ledger) →
      (s.present n.nsid (keyFor .delete h) = true) → (n.writeLevel = .loc) → (roomFor (keyFor .delete h) s = true) →
      Completes (.delete h) s fun t =>
         t.ix = { ((s.look n.nsid (keyFor .delete h)).removeKey n.nsid (keyFor .delete h)).ix with base := t.ix.base }
         ∧ t.va.nextSeq = s.va.nextSeq + 1 ∧ Emits s t [ioEntry t h])
  ∧ (∀ (h : HostCmd) (n : Ns) (a : ActWord) (s : State),
      (ioAllowed .longDelete h n a s = true) → (s.isPending n.nsid (keyFor .longDelete h) = false) →
      (n.type ≠ .ledger) → (s.present n.nsid (keyFor .longDelete h) = true) → (n.writeLevel = .loc) →
      (roomFor (keyFor .longDelete h) s = true) →
      Completes (.longKeyDelete h) s fun t =>
         t.ix = { ((s.look n.nsid (keyFor .longDelete h)).removeKey n.nsid (keyFor .longDelete h)).ix with base := t.ix.base }
         ∧ t.va.nextSeq = s.va.nextSeq + 1 ∧ Emits s t [ioEntry t h])
  ∧ (∀ (h : HostCmd) (n : Ns) (a : ActWord) (i : Nat) (s : State),
      (ioAllowed .secureDelete h n a s = true) → (s.isPending n.nsid (keyFor .secureDelete h) = false) →
      (n.type ≠ .ledger) → (s.present n.nsid (keyFor .secureDelete h) = true) → (n.writeLevel = .loc) →
      (roomFor (keyFor .secureDelete h) s = true) → (64 ≤ s.fl.c1Free) → (s.c1Slot = some i) →
      Completes (.secureDelete h) s fun t =>
         t.ix = { ((s.look n.nsid (keyFor .secureDelete h)).removeKey n.nsid (keyFor .secureDelete h)).ix with base := t.ix.base }
         ∧ t.va.nextSeq = s.va.nextSeq + 1
         ∧ (t.fl.c1[i]?).map (fun r => (r.kind, r.nsid, r.key, r.seq)) = some (4, n.nsid, keyFor .secureDelete h, s.va.nextSeq)
         ∧ Sends s t (ioEntry t h .success i))

/-- For a Ledger namespace, with no pending write of the key, no twin level and journal room: RETENTION_HOLD_KEY_PLACE on a
present record without this tag adds one hold for it, RETENTION_HOLD_KEY_RELEASE of a placed tag removes it,
RETENTION_HOLD_NS_PLACE of a new tag with fewer than 16 placed adds it to the namespace's tags and RETENTION_HOLD_NS_RELEASE
takes it away. Each takes the next commit sequence and completes. Where the tag is already placed, or is not there to
release, the command completes without a commit. (R25, R30, R34, R35) -/
def Obligations.Retention_hold_commands_complete : Prop :=
  (∀ (h : HostCmd) (n : Ns) (a : ActWord) (f : Found) (s : State),
      (ioAllowed .holdKeyPlace h n a s = true) → (s.isPending n.nsid (keyFor .holdKeyPlace h) = false) →
      (s.find n.nsid (keyFor .holdKeyPlace h) = some f) → (s.holdDecision n (asCmd .holdKeyPlace h s) = none) →
      (n.writeLevel = .loc) → (roomFor (keyFor .holdKeyPlace h) s = true) →
      Completes (.retentionHoldKeyPlace h) s fun t =>
         t.va.keyHolds = s.va.keyHolds ++ [{ nsid := n.nsid, tag := (fieldsOf .holdKeyPlace h.e).tag, seq := f.record.seq }]
         ∧ t.va.nextSeq = s.va.nextSeq + 1 ∧ Emits s t [ioEntry t h])
  ∧ (∀ (h : HostCmd) (n : Ns) (a : ActWord) (f : Found) (s : State),
      (ioAllowed .holdKeyRelease h n a s = true) → (s.isPending n.nsid (keyFor .holdKeyRelease h) = false) →
      (s.find n.nsid (keyFor .holdKeyRelease h) = some f) → (s.holdDecision n (asCmd .holdKeyRelease h s) = none) →
      (n.writeLevel = .loc) → (roomFor (keyFor .holdKeyRelease h) s = true) →
      Completes (.retentionHoldKeyRelease h) s fun t =>
         t.va.keyHolds = s.va.keyHolds.filter (fun k => !(k.nsid == n.nsid && k.tag == (fieldsOf .holdKeyRelease h.e).tag && k.seq == f.record.seq))
         ∧ t.va.nextSeq = s.va.nextSeq + 1 ∧ Emits s t [ioEntry t h])
  ∧ (∀ (h : HostCmd) (n : Ns) (a : ActWord) (s : State),
      (ioAllowed .holdNsPlace h n a s = true) → ((fieldsOf .holdNsPlace h.e).tag ∉ n.tags) → (n.tags.length < 16) →
      (n.writeLevel = .loc) → (roomFor (keyFor .holdNsPlace h) s = true) →
      Completes (.retentionHoldNsPlace h) s fun t =>
         t.va.ns = s.va.ns.map (fun x => if x.nsid == n.nsid then
           { x with tags := if (fieldsOf .holdNsPlace h.e).tag ∈ x.tags then x.tags else x.tags ++ [(fieldsOf .holdNsPlace h.e).tag] } else x)
         ∧ t.va.nextSeq = s.va.nextSeq + 1 ∧ Emits s t [ioEntry t h])
  ∧ (∀ (h : HostCmd) (n : Ns) (a : ActWord) (s : State),
      (ioAllowed .holdNsRelease h n a s = true) → ((fieldsOf .holdNsRelease h.e).tag ∈ n.tags) →
      (n.writeLevel = .loc) → (roomFor (keyFor .holdNsRelease h) s = true) →
      Completes (.retentionHoldNsRelease h) s fun t =>
         t.va.ns = s.va.ns.map (fun x => if x.nsid == n.nsid then { x with tags := x.tags.filter (· ≠ (fieldsOf .holdNsRelease h.e).tag) } else x)
         ∧ t.va.nextSeq = s.va.nextSeq + 1 ∧ Emits s t [ioEntry t h])
  ∧ (∀ (k : IoKind) (h : HostCmd) (n : Ns) (a : ActWord) (s : State),
      (k.isHold = true) → (ioAllowed k h n a s = true) → (k.nsHold = true ∨ s.isPending n.nsid (keyFor k h) = false) →
      (s.holdDecision n (asCmd k h s) = some .success) →
      Completes (ioCommand k h) s fun t =>
         t.va.ns = s.va.ns ∧ t.va.keyHolds = s.va.keyHolds ∧ t.va.nextSeq = s.va.nextSeq ∧ Emits s t [ioEntry t h])

/-- STAGING_RESERVATION_GRANT gives the store that asked first its reservation and it starts moving data. HASH_LANE_FREE gives
the first waiting store its lane. JOURNAL_ROOM lets a waiting commit that finds room go on, and then what waits behind the commits.
TWIN_ACK_RECEIVED settles an unacknowledged sequence, and TWIN_ACK_RECORD writes a TWIN_ACK journal record where the acknowledged
value has advanced. JOURNAL_CONDENSE drops the condensed records and counts them as delta entries, and keeps
them while the delta pages find no room; INDEX_CHECKPOINT leaves no changed
page, no dirty page of the spill page cache and no delta segment, and a changed page takes the next place of the open FINE_INTERNAL
band. WAX_UNCORRECTABLE counts the error and marks the staged record bad where HBM3 holds a valid copy. WAX_PACKAGE_FAILURE sets
CSTS.CFS and the drive awaits its restart; while the twin is asked for a record that the package took, it waits for the answer
(log 19). (R126, R129, R130, R157, R158, R159, R160, R161, R163, R166, R174, R225) -/
def Obligations.Write_path_events_complete : Prop :=
  (∀ (x : Nat) (rest : List Waiter) (c : Cmd) (ns : Ns) (u : State) (s : State),
      (up s = true) →
      (s.wx.waiters.filter s.liveWaiter = .store x :: rest) →
      (s.fl.cmds.find? (·.fetch == x) = some c) →
      (s.nsOf c.e.nsid = some ns) →
      (u = s.intake c ns true) →
      ((u.fl.cmds.find? (·.fetch == x)).any (·.phase == .waitStaging) = false) →
      Yields .stagingReservationGrant s { u with wx := { u.wx with waiters := rest } })
  ∧ (∀ (c : Cmd) (rest : List Cmd) (s : State),
      (up s = true) →
      (s.inPhase .waitHash = c :: rest) →
      (s.hashLanes < 16) →
      Yields .hashLaneFree s (s.startIntake c true))
  ∧ (∀ (c : Cmd) (s : State),
      (up s = true) →
      (s.inPhase .waitJournal = [c]) →
      (s.journalRoom (s.waitBlocks c) = true) →
      Yields .journalRoom s ((s.again c.fetch).resumeLosses.resumeJoin.resumeInbound.resumeFills.resumeRemovals.resumeDeletes).unblock)
  ∧ (∀ (seq : Nat) (s : State),
      (up s = true) →
      (s.paired = true) →
      (seq ∈ s.wx.unacked) →
      (s.wx.pend = []) →
      (s.inPhase .waitFlush = []) →
      Completes (.twinAckReceived seq) s fun t =>
         t.wx.unacked = s.wx.unacked.filter (· ≠ seq) ∧ t.wx.acked = s.wx.ackedAfter seq s.va.nextSeq
         ∧ t.tw.ackedSeq = s.wx.ackedAfter seq s.va.nextSeq ∧ t.va = s.va)
  ∧ (∀ (s : State),
      (up s = true) →
      (s.wx.ackWritten < s.wx.acked) →
      (s.journalRoom 1 = true) →
      Completes .twinAckRecord s fun t =>
         t.wx.ackWritten = s.wx.acked ∧ t.wx.journal.map (·.type) = s.wx.journal.map (·.type) ++ [.twinAck] ∧ t.va = s.va)
  ∧ (∀ (s : State),
      (s.serving = true) →
      (Figure.journalBlocks < 2 * s.wx.journalUsed ∨ s.wx.condensing = true) →
      (s.ix.deltas + s.condensable.length < 1000000000) →
      (s.ix.checkpointing = none) →
      (s.condensable = [] ∨ (s.placeInternal ((List.range ((s.condensable.length + 255) / 256)).map fun i => .delta (s.wx.ctlGen + 1) i)).md.intWaits = []) →
      Completes .journalCondense s fun t =>
         t.wx.journal = s.wx.journal.drop s.condensable.length ∧ t.ix.deltas = s.ix.deltas + s.condensable.length ∧ t.wx.ctlGen = s.wx.ctlGen + 1
         ∧ t.wx.condensing = false ∧ t.va = s.va)
  ∧ (∀ (s : State),
      (s.serving = true) →
      (Figure.journalBlocks < 2 * s.wx.journalUsed ∨ s.wx.condensing = true) →
      (s.condensable ≠ []) →
      ((s.placeInternal ((List.range ((s.condensable.length + 255) / 256)).map fun i => .delta (s.wx.ctlGen + 1) i)).md.intWaits ≠ []) →
      Completes .journalCondense s fun t => t.wx = { s.wx with condensing := true } ∧ t.ix = s.ix ∧ t.md = s.md ∧ t.va = s.va)
  ∧ (∀ (s : State),
      (s.serving = true) →
      Completes .indexCheckpoint s fun t =>
         t.ix.dirtyPages = [] ∧ t.ix.checkpoint = s.mono ∧ t.ix.spillCache = s.ix.spillCache.map (fun p => (p.1, false))
         ∧ (t.md.intWaits = [] → t.ix.deltas = 0 ∧ t.md.internal.all (fun p => !p.2.deltaUpTo s.wx.ctlGen) = true)
         ∧ (t.md.intWaits ≠ [] → t.ix.deltas = s.ix.deltas)
         ∧ t.ix.buckets = s.ix.buckets ∧ t.ix.spill = s.ix.spill ∧ { t.wx with parityRows := s.wx.parityRows } = s.wx ∧ t.va = s.va)
  ∧ (∀ (p g : Nat) (b : Band) (s : State),
      (s.serving = true) →
      (s.md.intWaits = []) →
      (s.md.ecDirty = []) →
      (s.ix.dirtyPages = [p]) →
      (s.ix.spillCache = []) →
      (s.md.openOf .fineInternal = some b) →
      (b.nextInternal = some g) →
      Completes .indexCheckpoint s fun t =>
         (g, .index p) ∈ t.md.internal ∧ t.md.nandBytes = s.md.nandBytes + 4096)
  ∧ (∀ (g a : Nat) (r : StoredRec) (s : State),
      (up s = true) →
      (s.stagedAt g = some (a, r)) →
      (s.copyValid a r.granules = true) →
      Completes (.waxUncorrectable g) s fun t =>
         t.wx = { s.wx with bad := a :: s.wx.bad.filter (· ≠ a) } ∧ t.md.err = modAt s.md.err 10 (fun n => min 0xFFFFFFFF (n + 1)) ∧ t.ix = s.ix)
  ∧ (∀ (package : Nat) (s : State),
      (up s = true) →
      (package < 8) →
      Completes (.waxPackageFailure package) s fun t =>
         package ∈ t.wx.failedPkgs
         ∧ (t.wx.failing = none → t.pw.cfs = true ∧ t.pw.phase = .fatal ∧ t.bb.fatals = s.bb.fatals + 1)
         ∧ (t.wx.failing ≠ none → t.wx.failing = some package ∧ t.pw.phase = s.pw.phase ∧ t.bb.fatals = s.bb.fatals))
  ∧ (∀ (package : Nat) (s : State),
      (up s = true) →
      (package < 8) →
      (s.tw.repairs = []) →
      (s.wx.losses = []) →
      (s.wx.staged = []) →
      Completes (.waxPackageFailure package) s fun t => t.wx.failing = none ∧ t.pw.phase = .fatal)
  ∧ (∀ (package : Nat) (s : State),
      (up s = true) →
      (package < 8) →
      (s.tw.repairs.any (·.2.2 == 1) = true) →
      Completes (.waxPackageFailure package) s fun t =>
         t.pw.phase = s.pw.phase ∧ t.wx.failing = some package ∧ package ∈ t.wx.failedPkgs)

/-- PROGRAM_STATUS_PASSED of a staged record whose turn it is and that lands at the next place of its stream writes a PACK journal
record, moves the slot to the NAND address and frees its staging. UNIT_PAD_TIMEOUT pads the unit of the stream's open band.
BAND_LAST_ROW_PROGRAMMED makes an OPEN band VERIFY, all of it written; BAND_VERIFIED a VERIFY band that reads back without a failed page
CLOSED with its parity slot free, and counts a page that failed and retires its block sets. GC_VICTIM_SELECT makes the CLOSED band of the lowest
live fraction VICTIM and keeps that fraction, GC_COPY_VERIFIED moves a record's slot with a MOVE record, and BAND_ERASE_DONE frees the
band and counts an erase of each member. (R123, R165, R179, R184, R186, R191, R192, R193, R200, R207) -/
def Obligations.Packing_and_band_commands_complete : Prop :=
  (∀ (g naddr : Nat) (r : StoredRec) (u : State) (s : State),
      (s.mediaWork = true) →
      (naddr < 2 ^ 42) →
      (s.wx.staged.lookup g = some r) →
      (s.packs g r = true) →
      (s.packTurn g (s.packStream g r) = true) →
      (s.journalRoom 1 = true) →
      (s.land (s.packStream g r) naddr (s.reseal r) = some u) →
      Completes (.programStatusPassed g naddr) s fun t =>
         t.wx.staged = dropAssoc g s.wx.staged ∧ t.md.nand.lookup naddr = some (s.reseal r)
         ∧ t.ix = { s.ix.relocate (.wax g) (fun x =>
             { x with loc := .nand naddr, stagedCopy := false, fine := s.packStream g r == .fineInternal }) with
             base := t.ix.base, spillCache := t.ix.spillCache, deltas := t.ix.deltas, checkpointing := t.ix.checkpointing }
         ∧ t.wx.journal.map (·.type) = s.wx.journal.map (·.type) ++ [.pack])
  ∧ (∀ (kind : StreamKind) (b : Band) (s : State),
      (s.mediaWork = true) →
      (s.md.openOf kind = some b) →
      (unitUp b.unit b.fill ≠ b.fill) →
      Completes (.unitPadTimeout kind) s fun t =>
         t.md.nandBytes = s.md.nandBytes + 32 * (unitUp b.unit b.fill - b.fill)
         ∧ t.md.bands = s.md.bands.map (fun x => if x.number == b.number then
             { x with fill := unitUp b.unit b.fill, pads := b.pads ++ (laneAddr b.recordLanes b.fill).toList, lastWrite := s.mono } else x))
  ∧ (∀ (band : Nat) (b : Band) (s : State),
      (s.mediaWork = true) →
      (s.md.band? band = some b) →
      (b.state = 1) →
      (b.checked = false) →
      Completes (.bandLastRowProgrammed band) s fun t =>
         (t.md.band? band).map (fun x => (x.state, x.fill)) = some (2, setGranules * b.recordLanes.length))
  ∧ (∀ (band : Nat) (b : Band) (s : State),
      (s.mediaWork = true) →
      (s.md.band? band = some b) →
      (b.state ≠ 1) →
      Completes (.bandLastRowProgrammed band) s fun t => t.md = s.md)
  ∧ (∀ (band : Nat) (b : Band) (s : State),
      (s.mediaWork = true) →
      (s.md.bands = [b]) →
      (b.number = band) →
      (b.state = 2) →
      (s.md.secdel = []) →
      (b.members.any (fun x => (s.md.set x).retired) = false) →
      (b.failed = []) →
      (s.md.intWaits = []) →
      Completes (.bandVerified { band := band }) s fun t => t.md.bands = [{ b with checked := true, slot := none, state := 3 }])
  ∧ (∀ (band p : Nat) (b : Band) (s : State),
      (s.mediaWork = true) →
      (s.md.band? band = some b) →
      (b.state = 2) →
      (p < b.pageCount) →
      (p ∉ b.failed) →
      (17 < s.md.err.length) →
      Completes (.bandVerified { band := band, failed := [p] }) s fun t =>
         (b.membersOn p p).all (fun x => (t.md.set x).retired) = true ∧ t.md.err.getD 17 0 = min 0xFFFFFFFF (s.md.err.getD 17 0 + 1))
  ∧ (∀ (b : Band) (s : State),
      (s.mediaWork = true) →
      (s.md.gcMode ≠ 0) →
      (s.bestVictim = some b) →
      Completes .gcVictimSelect s fun t =>
         t.md.victim = some b.number ∧ t.md.victimU = some (s.bandLive b, b.size)
         ∧ t.md.bands.all (fun x => x.number != b.number || x.state == 4 || x.state == 5) = true)
  ∧ (∀ (src dst : Nat) (r : StoredRec) (sl : Slot) (u : State) (s : State),
      (s.mediaWork = true) →
      (dst < 2 ^ 42) →
      (src ≠ dst) →
      (s.md.nand.lookup src = some r) →
      (s.journalRoom 1 = true) →
      (s.ix.slotFor (.nand src) = some sl) →
      (s.land (s.copyStream src sl.fine) dst (if s.rotates src r then s.reseal r else r) = some u) →
      Completes (.gcCopyVerified src dst) s fun t =>
         t.ix = { s.ix.relocate (.nand src) (fun y => { y with loc := .nand dst, fine := s.copyStream src sl.fine == .fineInternal }) with
                  base := t.ix.base, spillCache := t.ix.spillCache, deltas := t.ix.deltas, checkpointing := t.ix.checkpointing }
         ∧ t.wx.journal.map (·.type) = s.wx.journal.map (·.type) ++ [.move] ∧ (t.md.nand.lookup dst).map (·.value) = some r.value)
  ∧ (∀ (band : Nat) (b : Band) (s : State),
      (s.mediaWork = true) →
      (s.md.band? band = some b) →
      (b.state = 5) →
      (s.md.secdel = []) →
      (b.members.all (fun x => decide ((s.md.set x).erases < 2999)) = true) →
      (b.members.Nodup) →
      Completes (.bandEraseDone band) s fun t =>
         t.md.bands = s.md.bands.filter (·.number ≠ b.number) ∧ b.members.all (fun x => (t.md.set x).erases == (s.md.set x).erases + 1) = true
         ∧ t.md.nand = s.md.nand.filter (fun p => naMember p.1 ∉ b.members))

/-- ERASE_FAILURE and PROGRAM_FAILURE count their error and take the failed block set out of its band; the second puts the
replacement in its place. GC_MODE_CHANGE sets the mode the free bands call for. WEAR_MOVE starts and stops at its spreads.
ACCRUAL_RECOMPUTE sets the planned cycles, the write amplification and the accrual of R196. BANK_EMPTY marks a bank too small
as empty and BANK_REFILLED ends that at 67,109,152 bytes. PATROL_READ counts its pages as read and, for a codeword that needed stage 2 or
more, an event against each block set of its page, with the records there due for relocation, or unreadable where no stage corrected;
a read that found nothing relocates nothing. DIE_LOST takes the die
and sets the reliability warning. MEDIA_READ_DONE of a corrected read returns the value,
READ_UNCORRECTABLE ends the retrieval with Unrecovered Read Error. SECURE_DELETE_HALF_DEADLINE makes its job urgent and
SECURE_DELETE_OVERDUE sets the overdue flag. (R188, R189, R190, R194, R195, R196, R197, R199, R200, R201, R204) -/
def Obligations.Media_health_and_wear_events_complete : Prop :=
  (∀ (band channel : Nat) (b : Band) (x : Nat × Nat × Nat) (s : State),
      (s.mediaWork = true) →
      (s.md.band? band = some b) →
      (b.state = 5) →
      (b.member channel = some x) →
      ((s.md.set x).retired = false) →
      (s.md.dieServes x = true) →
      ((s.md.modSet x fun y => { y with retired := true }).blocks.countP (fun p => p.1.1 == x.1 && p.1.2.1 == x.2.1 && p.2.retired) < 128) →
      Completes (.eraseFailure band channel) s fun t =>
         (t.md.set x).retired = true ∧ (t.md.band? band).map (·.members) = some (b.members.filter (· ≠ x)) ∧ t.md.blockSets = s.md.blockSets - 1)
  ∧ (∀ (band channel die block : Nat) (b : Band) (x : Nat × Nat × Nat) (s : State),
      (s.mediaWork = true) →
      (s.md.band? band = some b) →
      (b.state = 1 ∨ b.state = 2) →
      (b.member channel = some x) →
      (die < 32) →
      (block < 2048) →
      (s.md.freeSet (channel, die, block) = true) →
      ((s.md.set x).retired = false) →
      (s.md.dieServes x = true) →
      ((s.md.modSet x fun y => { y with retired := true }).blocks.countP (fun p => p.1.1 == x.1 && p.1.2.1 == x.2.1 && p.2.retired) < 128) →
      (s.journalRoom (s.md.nand.countP fun p => naMember p.1 == x) = true) →
      Completes (.programFailure band channel die block) s fun t =>
         (t.md.set x).retired = true ∧ (t.md.band? band).map (·.members) = some (b.members.map fun z => if z = x then (x.1, die, block) else z)
         ∧ t.md.blockSets = s.md.blockSets - 1 ∧ t.md.nandBytes = s.md.nandBytes + 65536 * b.rowsOn x)
  ∧ (∀ (s : State),
      (s.mediaWork = true) →
      Completes .gcModeChange s fun t => t.md = { s.md with gcMode := s.gcModeNow })
  ∧ (∀ (s : State),
      (s.mediaWork = true) →
      (s.wearVictim = none) →
      Completes .wearMove s fun t =>
         t.md = { s.md with wearMoves := if s.md.wearMoves then decide (150 < s.md.staticSpread) else decide (200 < s.md.staticSpread) })
  ∧ (∀ (s : State),
      (up s = true) →
      (s.pw.powerOnS / 3600 < 105192) →
      Completes .accrualRecompute s fun t =>
         t.md.pPlan = 2700 ∧ t.md.waMilli = (s.md.accrue s.pw.powerOnS).waNow
         ∧ t.md.accrual = accrualOf 2700 s.md.blockSets s.md.erasesSum (s.md.accrue s.pw.powerOnS).waNow (s.pw.powerOnS / 3600)
         ∧ t.md.bank ≤ 30 * t.md.accrual ∧ t.md.winHost = 0 ∧ t.md.winNand = 0)
  ∧ (∀ (needed : Nat) (s : State),
      (up s = true) →
      (s.md.bank < needed) →
      (s.md.bankEmpty = false) →
      Completes (.bankEmpty needed) s fun t => t.md = { s.md with bankEmpty := true })
  ∧ (∀ (s : State),
      (up s = true) →
      (s.md.bankEmpty = true) →
      (67109152 ≤ s.md.bank) →
      Completes .bankRefilled s fun t => t.md = { s.md with bankEmpty := false })
  ∧ (∀ (band page k stage a z : Nat) (b : Band) (s : State),
      (s.mediaWork = true) →
      ((s.md.bands.map (·.number)).Nodup) →
      (s.md.band? band = some b) →
      (b.state = 3) →
      (s.md.patrolTurn b = true) →
      (a ≤ b.read) →
      (a ≤ page) →
      (page ≤ z) →
      (z < b.pageCount) →
      (k < 4) →
      (2 ≤ stage) →
      (stage ≤ 5) →
      (s.md.bands.any (fun x => x.state == 3 && x.number != band && decide (x.read < x.pageCount)) = true) →
      ((b.membersOn page page).Nodup) →
      ((b.membersOn page page).all (fun x => (s.md.set x).patrol == []) = true) →
      Completes (.patrolRead band { codewords := [((page, k), stage)] } a z) s fun t =>
         (t.md.band? band).map (·.read) = some (max b.read (z + 1)) ∧ (b.membersOn page page).all (fun x => (t.md.set x).patrol == [s.mono]) = true
         ∧ (∀ g ∈ s.liveOnPages b page page, (stage = 5 ∧ g ∈ s.liveOnCodeword b page k) ∨ g ∈ t.md.due)
         ∧ (stage = 5 → ∀ g ∈ s.liveOnCodeword b page k, g ∈ t.md.badNand))
  ∧ (∀ (band a z : Nat) (b : Band) (s : State),
      (s.mediaWork = true) →
      ((s.md.bands.map (·.number)).Nodup) →
      (s.md.band? band = some b) →
      (b.state = 3) →
      (s.md.patrolTurn b = true) →
      (a ≤ b.read) →
      (a ≤ z) →
      (z < b.pageCount) →
      (s.md.bands.any (fun x => x.state == 3 && x.number != band && decide (x.read < x.pageCount)) = true) →
      Completes (.patrolRead band {} a z) s fun t =>
         (t.md.band? band).map (·.read) = some (max b.read (z + 1)) ∧ t.md.due = s.md.due ∧ t.md.badNand = s.md.badNand
         ∧ t.md.err = modAt s.md.err 0 (fun n => min 0xFFFFFFFF (n + 4 * (z + 1 - a))))
  ∧ (∀ (channel die : Nat) (s : State),
      (up s = true) →
      (channel < 16) →
      (die < 32) →
      ((channel, die) ∉ s.md.diesLost) →
      Completes (.dieLost channel die) s fun t =>
         t.md.diesLost = (channel, die) :: s.md.diesLost ∧ t.pw.reliability = true ∧ t.md.blockSets = s.md.blockSets - s.md.dieSets channel die)
  ∧ (∀ (ctrl sq cid g : Nat) (c : Cmd) (f : Found) (s : State),
      (up s = true) →
      (s.cmd? ctrl sq cid = some c) →
      (c.phase = .waitMedia) →
      (c.loc = some (.nand g)) →
      (s.find c.e.nsid c.key = some f) →
      (f.slot.loc = .nand g) →
      (g ∉ s.md.badNand) →
      (c.granule = none) →
      (c.forwardedFrom = none) →
      (s.fe.hasQueue c.ctrl c.sq = true) →
      Completes (.mediaReadDone ctrl sq cid true) s fun t =>
         t.md.readCache = (s.cacheRecord g).md.readCache ∧ t.md.err = (s.countRead c.stage (s.codewords g f.record.granules)).md.err
         ∧ Emits s t (ioData t { ctrl := c.ctrl, sq := c.sq, e := c.e } (f.record.value.take (fieldsOf c.kind c.e).bufSize) f.record.value.length 0))
  ∧ (∀ (ctrl sq cid g : Nat) (c : Cmd) (s : State),
      (up s = true) →
      (s.cmd? ctrl sq cid = some c) →
      (c.phase = .waitMedia ∨ c.phase = .waitTwinRepair) →
      (c.loc = some (.nand g)) →
      (c.granule = none) →
      (c.forwardedFrom = none) →
      (s.fe.hasQueue c.ctrl c.sq = true) →
      Completes (.readUncorrectable ctrl sq cid) s fun t =>
         t.md.badNand = (s.md.addBad [g]).badNand ∧ t.md.err = modAt s.md.err 5 (fun n => min 0xFFFFFFFF (n + 1))
         ∧ Emits s t [ioEntry t { ctrl := c.ctrl, sq := c.sq, e := c.e } .unrecoveredReadError])
  ∧ (∀ (slot : Nat) (s : State),
      (up s = true) →
      Completes (.secureDeleteHalfDeadline slot) s fun t =>
         t.md.secdel = s.md.secdel.map (fun j => if j.slot == some slot then { j with urgent := true } else j)
         ∧ t.pw.overdueWork = t.workOverdue)
  ∧ (∀ (slot : Nat) (s : State),
      (up s = true) →
      (s.md.secdel.any (fun j => j.slot == some slot && !j.overdue) = true) →
      Completes (.secureDeleteOverdue slot) s fun t =>
         t.md.overdue = true ∧ t.md.secdel = s.md.secdel.map (fun j => if j.slot == some slot then { j with overdue := true } else j))

/-- START of a drive whose start is due and whose supplies allow it, and FAILED_START_RESTART after a failed start, count one more start and
put one more entry at the head of the ledger, which keeps 63 and stands in Wax where Wax can be written. The first start of a drive that is neither paired nor stacked, has no time
source and no stored program, with a passing image and both HBM3 stacks trained, reaches service: it listens, its KEK is
present, its rules are loaded and it runs the chosen image. (R421, R422, R425, R427, R428, R434) -/
def Obligations.A_start_runs_the_boot_steps : Prop :=
  (∀ (env : BootEnv) (s : State),
      (s.pw.phase = .ready) → (s.pw.ready = true) →
      Completes (.start env) s fun t =>
         t.bt.starts = s.bt.starts + 1
         ∧ (s.bt.ledgerWax = none → env.ledgerWritable = true → t.bt.ledger.length = min 63 (s.bt.ledger.length + 1)))
  ∧ (∀ (env : BootEnv) (s : State),
      (s.pw.phase = .ready) → (s.pw.ready = true) → (s.bt.ledger = []) → (s.bt.ledgerWax = none) → (s.bt.pilot = 0) → (s.bt.fails = 0) → (s.bt.force = 0) →
      (s.bt.skip = 0) → (s.bt.brTrial.getD s.bt.brActive < 2) →
      (s.bt.passes (s.bt.brTrial.getD s.bt.brActive) = true) → (s.tw.role = .solo) → (s.sk.enabled = false) →
      (s.me.stored = []) → ((s.tm.ptpA.enabled || s.tm.ptpB.enabled || s.tm.ppsOn) = false) →
      (env.ledgerWritable = true) → (env.waxFailed = none) → ((env.stack0 && env.stack1) = true) →
      (env.hangAt = none) → (env.failAt = none) → (env.recordBad = []) →
      (env.factoryBad = []) →
      Completes (.start env) s fun t =>
         t.pw.phase = .serving ∧ t.fe.listening = true ∧ t.ky.kekPresent = true ∧ t.cam.loaded = true
         ∧ t.bt.running = s.bt.brTrial.getD s.bt.brActive)
  ∧ (∀ (env : BootEnv) (s : State),
      (s.pw.phase = .failedStart) → (s.pw.ready = true) →
      Completes (.failedStartRestart env) s fun t =>
         t.bt.starts = s.bt.starts + 1
         ∧ (s.bt.ledgerWax = none → env.ledgerWritable = true → t.bt.ledger.length = min 63 (s.bt.ledger.length + 1)))

/-- POWER_FAIL_TRIP leaves the drive tripped without controllers, connections, commands, cache or HBM3 contents, and counts the
power failure of a running drive; records on NAND, staged records, journal and index stay. POWER_GOOD makes a start due with
cause 1 where the other supplies allow it. BOOT_STEP_TIMEOUT fails the start: the failures rise to at most three.
HARDWARE_WATCHDOG makes a start due with cause 5, FATAL_FAULT sets CSTS.CFS. START_GOOD clears the failures and makes a trial
image active. DEFERRED_BOOT_STEP starts the servo left out at the start. FLOOR_RAISE raises the security version floor to
that of an image that has been active for 24 hours. DIAG_BOOT_RESTART shuts down in order and makes a start due with cause 4 and the given maps. (R167,
R168, R421, R422, R425, R428, R433, R434, R438, R504) -/
def Obligations.Resets_and_start_events_complete : Prop :=
  (∀ (s : State),
      Completes .powerFailTrip s fun t =>
         t.pw.phase = .tripped ∧ t.pw.p12v = false ∧ t.fe.ctrls = [] ∧ t.fe.conns = [] ∧ t.fl.cmds = [] ∧ t.mc = {}
         ∧ t.md.nand = s.md.nand ∧ t.wx.staged = s.wx.staged ∧ t.wx.journal = s.wx.journal ∧ t.ix.buckets = s.ix.buckets
         ∧ (up s = true → t.bb.powerFails = s.bb.powerFails + 1))
  ∧ (∀ (s : State),
      (s.pw.phase = .tripped ∨ s.pw.phase = .off) → (({ s.pw with p12v := true } : Power).ready = true) →
      Completes .powerGood s fun t => t.pw = { s.pw with p12v := true, phase := .ready } ∧ t.bt = { s.bt with cause := 1 })
  ∧ (∀ (s : State),
      (s.pw.phase = .starting) →
      Completes .bootStepTimeout s fun t =>
         t.pw.phase = (if s.pw.curStep = 0 then .b0Failed else .failedStart) ∧ t.bt.fails = min 3 (s.bt.fails + 1) ∧ t.bt.good = false
         ∧ t.bb.failedStarts = s.bb.failedStarts + 1)
  ∧ (∀ (s : State),
      (up s = true) → (s.li.halted = false) → (s.pw.ready = true) →
      Completes .hardwareWatchdog s fun t => t.pw.phase = .ready ∧ t.pw.cfs = false ∧ t.bt.cause = 5 ∧ t.mc = {} ∧ t.fl.cmds = [])
  ∧ (∀ (code : Nat) (s : State),
      (up s = true) →
      Completes (.fatalFault code) s fun t => t.pw.cfs = true ∧ t.pw.phase = .fatal ∧ t.bb.fatals = s.bb.fatals + 1)
  ∧ (∀ (s : State),
      (s.serving = true) → (s.bt.good = false) →
      Completes .startGood s fun t =>
         t.bt.good = true ∧ t.bt.fails = 0
         ∧ (s.bt.brTrial = some s.bt.running → t.bt.brActive = s.bt.running ∧ t.bt.brTrial = none ∧ t.bt.brGen = s.bt.brGen + 1)
         ∧ (s.bt.brTrial ≠ some s.bt.running → t.bt.brActive = s.bt.brActive ∧ t.bt.brTrial = s.bt.brTrial))
  ∧ (∀ (s : State),
      (s.serving = true) → (10 ∈ s.bt.deferred) →
      Completes (.deferredBootStep 10) s fun t =>
         t.tm = { s.tm with servoOn := true } ∧ t.bt.deferred = s.bt.deferred.filter (· ≠ 10) ∧ t.bt.offServices = s.bt.offServices.filter (· ≠ 10))
  ∧ (∀ (g : FwImage) (s : State),
      (s.serving = true) → (s.bt.slotImage s.bt.running = some g) → (s.bt.running = s.bt.brActive) →
      (∀ i ∈ [0, 1], (s.bt.slotImage i).any (fun x => decide (g.floor ≤ x.svn)) = true) → (s.bt.floor < g.floor) →
      (s.bt.activeSince + 86400 ≤ s.pw.powerOnS) →
      Completes .floorRaise s fun t => t.bt = { s.bt with floor := g.floor })
  ∧ (∀ (m : MsgReq) (s : State),
      (messageOk 0x0A 0x40 m s = true) → (m.payload.length = 8) → (bootMapsBad m.payload = none) →
      (s.tw.role ≠ .primary) → (s.pw.ready = true) →
      Completes (.diagBootRestart m) s fun t =>
         t.pw.phase = .ready ∧ t.bt.cause = 4 ∧ t.bt.fails = 0 ∧ t.bt.pilot = 0 ∧ t.bt.force.toNat = natAt m.payload 0 2
         ∧ t.bt.skip.toNat = natAt m.payload 2 2 ∧ t.bb.orderly = s.bb.orderly + 1 ∧ t.mc = {})

/-- The two addresses of a line of a mirrored region are one line of the cache, under the lower of them. With the cache off, a read returns the
64 bytes HBM3 holds and a write puts its bytes there, in a mirrored region in both copies. A read hit returns the line and
counts a hit; a write hit in a write-back region merges the bytes, marks the line dirty and leaves HBM3 alone. A read of a
line that is nowhere in the cache, in a cached region with a free miss register, takes that register and counts a miss. A
write that misses in a region that does not allocate joins the miss register of its line. (R112, R133, R136, R137, R139, R141, R149) -/
def Obligations.Cache_accesses_complete : Prop :=
  (∀ (line h : Nat) (s : State),
      (hbmHas (!s.mc.twoStacks) line = true) → (h = homeLine line) → (s.pw.phase ≠ .frozen) → (s.mc.enable = false) →
      Yields (.cacheAccess line none) s { s with out := s.out ++ [.cacheData h (Memory.readAll s.mc.hbm (64 * h) 64)] })
  ∧ (∀ (line h : Nat) (w : CacheWrite) (s : State),
      (hbmHas (!s.mc.twoStacks) line = true) → (h = homeLine line) → (s.pw.phase ≠ .frozen) → (s.mc.enable = false) → (w.offset + w.data.length ≤ 64) →
      (s.mc.chimney = []) →
      Completes (.cacheAccess line (some w)) s fun t =>
         t = { s with mc := { s.mc with hbm := if mirrored h && s.mc.twoStacks then
                                                  Memory.writeAll (Memory.writeAll s.mc.hbm (64 * h + w.offset) w.data) (64 * mirrorOf h + w.offset) w.data
                                                else Memory.writeAll s.mc.hbm (64 * h + w.offset) w.data } })
  ∧ (∀ (line h way : Nat) (y : Way) (s : State),
      (hbmHas (!s.mc.twoStacks) line = true) → (h = homeLine line) → (s.pw.phase ≠ .frozen) → (s.mc.enable = true) → (s.mc.attr h ≠ 3) →
      (s.mc.way? h = some (way, y)) →
      Completes (.cacheAccess line none) s fun t => Emits s t [.cacheData h y.data] ∧ t.mc.hits = s.mc.hits + 1 ∧ t.mc.lines = s.mc.lines ∧ t.mc.hbm = s.mc.hbm)
  ∧ (∀ (line h way : Nat) (y : Way) (w : CacheWrite) (s : State),
      (hbmHas (!s.mc.twoStacks) line = true) → (h = homeLine line) → (s.pw.phase ≠ .frozen) → (s.mc.enable = true) → (s.mc.noalloc = false) →
      (s.mc.attr h = 0) → (s.mc.way? h = some (way, y)) →
      Completes (.cacheAccess line (some w)) s fun t =>
         t.mc.lines = setAssoc (h % 65536, way) { y with data := mergeLine y.data w, dirty := true } s.mc.lines
         ∧ t.mc.hits = s.mc.hits + 1 ∧ t.mc.hbm = s.mc.hbm)
  ∧ (∀ (line h : Nat) (s : State),
      (hbmHas (!s.mc.twoStacks) line = true) → (h = homeLine line) → (s.pw.phase ≠ .frozen) → (s.mc.enable = true) → (s.mc.attr h ≠ 3) →
      (s.mc.way? h = none) → (s.mc.chimney.all (fun c => !(c.line == h && c.valid)) = true) →
      (s.mc.miss.all (fun r => r.line != h) = true) → (s.mc.miss.length < 64) →
      Completes (.cacheAccess line none) s fun t =>
         t.mc = { s.mc with misses := s.mc.misses + 1, miss := s.mc.miss ++ [{ line := h, drop := false, secondary := 0, readers := 1, merged := [] }] }
         ∧ t.out = s.out)
  ∧ (∀ (line h : Nat) (w : CacheWrite) (r : Miss) (s : State),
      (hbmHas (!s.mc.twoStacks) line = true) → (h = homeLine line) → (s.pw.phase ≠ .frozen) → (s.mc.enable = true) → (s.mc.attr h ≠ 3) →
      (s.mc.way? h = none) → (s.mc.chimney.all (fun c => !(c.line == h && c.valid)) = true) →
      (s.mc.miss = [r]) → (r.line = h) → (r.secondary < 8) →
      Completes (.cacheAccess line (some w)) s fun t =>
         t.mc = { s.mc with misses := s.mc.misses + 1, miss := [{ r with secondary := r.secondary + 1, merged := r.merged ++ [w] }] } ∧ t.out = s.out)

/-- LINE_FILL_ARRIVAL of a missed line installs it, answers its readers and frees the register. WRITE_BACK_ACCEPTED puts the
data of the oldest write-back of its line into HBM3. MCH_CTRL_WRITE sets ENABLE and NOALLOC. MCH_INVALIDATE,
MCH_WRITE_BACK_INVALIDATE and MCH_WRITE_BACK during a sweep set INV_REJECT; with none they take their range and begin at set 0, the
first with the miss registers of the range marked DROP. At the end of the sweep of MCH_INVALIDATE no line of its range is left, and
MCH_INV_DONE ends INV_BUSY once nothing of the sweep is left. REGISTER_WRITE of a region register keeps 35 bits; the drive's own write
of one waits while HBM3 has not accepted a line whose attribute it changes; a write of a read-only register changes nothing. (R8,
R136, R138, R140, R141, R143, R146, R147, R149, R150) -/
def Obligations.Cache_progress_commands_complete : Prop :=
  (∀ (line h : Nat) (s : State),
      (s.pw.phase ≠ .frozen) → (h = homeLine line) →
      (s.mc.miss = [{ line := h, drop := false, secondary := 0, readers := 1, merged := [] }]) →
      (s.mc.noalloc = false) → (s.mc.attr h < 2) → (s.mc.lines = []) → (s.mc.waits = []) → (s.mc.invTodo = []) → (s.mc.rgnWrites = []) →
      Completes (.lineFillArrival line) s fun t =>
         t.mc.lines = [((h % 65536, 0), { tag := h / 65536, dirty := false, data := Memory.readAll s.mc.hbm (64 * h) 64 })]
         ∧ t.mc.miss = [] ∧ Emits s t [.cacheData h (Memory.readAll s.mc.hbm (64 * h) 64)] ∧ t.mc.hbm = s.mc.hbm)
  ∧ (∀ (line : Nat) (s : State),
      (s.pw.phase ≠ .frozen) → (s.mc.miss.all (fun r => r.line != homeLine line) = true) →
      Completes (.lineFillArrival line) s fun t => t = s)
  ∧ (∀ (line h : Nat) (d : Bytes) (s : State),
      (s.pw.phase ≠ .frozen) → (h = homeLine line) →
      (s.mc.chimney = [{ line := h, dirty := true, valid := true, pending := true, data := d }]) →
      (d.length = 64) → (s.mc.deferredWb = []) → (s.mc.miss = []) → (s.mc.waits = []) → (s.mc.invTodo = []) → (s.mc.rgnWrites = []) →
      Completes (.writeBackAccepted line) s fun t =>
         t.mc.hbm = (if mirrored h && s.mc.twoStacks then Memory.writeAll (Memory.writeAll s.mc.hbm (64 * h) d) (64 * mirrorOf h) d
           else Memory.writeAll s.mc.hbm (64 * h) d)
         ∧ t.mc.chimney = [{ line := h, dirty := false, valid := true, pending := false, data := d }])
  ∧ (∀ (path : RegPath) (value : BitVec 32) (s : State),
      (s.reaches path = true) →
      Yields (.mchCtrlWrite path value) s { s with mc := { s.mc with enable := value.getLsbD 0, noalloc := value.getLsbD 1 } })
  ∧ (∀ (path : RegPath) (s : State),
      (s.reaches path = true) → (s.mc.invBusy = false) →
      Completes (.mchInvalidate path) s fun t =>
         t.mc.invBusy = true ∧ t.mc.invOp = 1 ∧ t.mc.invLo = s.mc.invBase.toNat ∧ t.mc.invHi = s.mc.invLimit.toNat ∧ t.mc.invNext = 0
         ∧ t.mc.miss.all (fun r => r.drop || !(decide (s.mc.invBase.toNat ≤ r.line) && decide (r.line ≤ s.mc.invLimit.toNat))) = true
         ∧ t.mc.lines = s.mc.lines ∧ t.mc.hbm = s.mc.hbm)
  ∧ (∀ (path : RegPath) (s : State),
      (s.reaches path = true) → (s.mc.invBusy = true) →
      Yields (.mchInvalidate path) s { s with mc := { s.mc with invReject := true } })
  ∧ (∀ (path : RegPath) (s : State),
      (s.reaches path = true) → (s.mc.invBusy = true) →
      Yields (.mchWriteBackInvalidate path) s { s with mc := { s.mc with invReject := true } })
  ∧ (∀ (path : RegPath) (s : State),
      (s.reaches path = true) → (s.mc.invBusy = false) → (s.mc.miss = []) → (s.mc.chimney = []) →
      Yields (.mchWriteBackInvalidate path) s { s with mc := { s.mc with invBusy := true, invOp := 2, invLo := s.mc.invBase.toNat,
                                                                         invHi := s.mc.invLimit.toNat, invNext := 0, invDrop := [] } })
  ∧ (∀ (path : RegPath) (s : State),
      (s.reaches path = true) → (s.mc.invBusy = true) →
      Yields (.mchWriteBack path) s { s with mc := { s.mc with invReject := true } })
  ∧ (∀ (path : RegPath) (s : State),
      (s.reaches path = true) → (s.mc.invBusy = false) → (s.mc.miss = []) →
      Yields (.mchWriteBack path) s { s with mc := { s.mc with invBusy := true, invOp := 3, invLo := s.mc.invBase.toNat,
                                                               invHi := s.mc.invLimit.toNat, invNext := 0, invDrop := [] } })
  ∧ (∀ (m : Mantle) (s : State),
      (up s = true) → (m = s.mc.sweepTo 65536) → (m.invTodo = []) → (m.invDrop = []) → (m.invWb = []) →
      Yields .mchInvDone s { s with mc := { m with invBusy := false } })
  ∧ (∀ (s : State),
      (up s = true) → (s.mc.invOp = 1) → (s.mc.invNext = 0) → (s.mc.lines.all (fun e => decide (e.1.1 < 65536)) = true) →
      Completes .mchInvDone s fun t =>
         t.mc.lines.all (fun e => !(decide (s.mc.invLo ≤ lineOf e.1.1 e.2.tag) && decide (lineOf e.1.1 e.2.tag ≤ s.mc.invHi))) = true
         ∧ t.mc.hbm = s.mc.hbm)
  ∧ (∀ (n : Nat) (value : BitVec 256) (s : State),
      (s.reaches .debugTap = true) → (n < s.mc.rgn.length) →
      Completes (.registerWrite .debugTap (.mchRgn n) value) s fun t =>
         t.mc = { s.mc with rgn := modAt s.mc.rgn n fun _ => (value.extractLsb' 0 35).setWidth 64 } ∧ t.mb = s.mb)
  ∧ (∀ (n : Nat) (value : BitVec 256) (s : State),
      (s.reaches .lamplighter = true) → (n < s.mc.rgn.length) → (s.mc.rgnWrites = []) → (s.mc.lines = []) → (s.mc.chimney = []) →
      (s.mc.miss = []) →
      Completes (.registerWrite .lamplighter (.mchRgn n) value) s fun t =>
         t.mc = { s.mc with rgn := modAt s.mc.rgn n fun _ => (value.extractLsb' 0 35).setWidth 64 } ∧ t.mb = s.mb)
  ∧ (∀ (n : Nat) (value : BitVec 256) (c : Chim) (s : State),
      (s.reaches .lamplighter = true) → (s.mc.rgnWrites = []) → (c ∈ s.mc.chimney) → (c.pinned = true) →
      (s.mc.attr c.line ≠ (s.mc.setRgn n ((value.extractLsb' 0 35).setWidth 64)).attr c.line) →
      Completes (.registerWrite .lamplighter (.mchRgn n) value) s fun t =>
         t.mc.rgn = s.mc.rgn ∧ t.mc.rgnWrites = [(n, (value.extractLsb' 0 35).setWidth 64)] ∧ t.mc.hbm = s.mc.hbm)
  ∧ (∀ (path : RegPath) (reg : Reg) (value : BitVec 256) (s : State),
      (reg ∈ [.mchHitCnt, .mchMissCnt, .mcvWick, .mcvTaper]) →
      Completes (.registerWrite path reg value) s fun t => t = s)

/-- HBM3_LINE_UNCORRECTABLE of an index line makes its page due for a rebuild, and INDEX_PAGE_REBUILD_DONE ends that.
HBM3_STACK_LOST of the first stack stops key-value service, begins the rebuild and leaves the layout of one stack; HBM3_REBUILD_DONE puts every key into the
half geometry, sets the reliability warning and lets service go on. UNSPILL with no spilled key changes nothing, and with a
free resident slot leaves none. SCRUB counts its pass and what it corrected, CHANNEL_RECALIBRATION its pass. (R112, R128, R132, R133,
R207, R511, R520) -/
def Obligations.Index_and_HBM3_events_complete : Prop :=
  (∀ (line : Nat) (s : State),
      (up s = true) → (line < s.ix.regionLines) → (hbmHas (!s.mc.twoStacks) line = true) → (line / 64 ∉ s.ix.pages) →
      (s.ix.stackErrors.length < 16) →
      Completes (.hbm3LineUncorrectable line) s fun t =>
         t.ix.pages = s.ix.pages ++ [line / 64] ∧ line ∈ t.mc.badLines ∧ t.ix.buckets = s.ix.buckets ∧ t.mc.hbm = s.mc.hbm)
  ∧ (∀ (page : Nat) (s : State),
      (up s = true) → (page ∈ s.ix.pages) → (s.inPhase .waitService = []) →
      Completes (.indexPageRebuildDone page) s fun t =>
         t.ix = { s.ix with pages := s.ix.pages.filter (· ≠ page) } ∧ t.mc = { s.mc with badLines := s.mc.badLines.filter (· / 64 ≠ page) })
  ∧ (∀ (stack : Nat) (s : State),
      (up s = true) → (stack < 2) → (s.ix.lost = [false, false]) → (s.tw.role = .solo) →
      Completes (.hbm3StackLost stack) s fun t => 
         t.fl.kvStopped = true ∧ t.ix.rebuilding = true ∧ t.ix.lost = modAt s.ix.lost stack (fun _ => true) ∧ t.mc.twoStacks = false
         ∧ t.mc.rgn = cacheRegions true)
  ∧ (∀ (s : State),
      (up s = true) → (s.ix.rebuilding = true) → (s.inPhase .waitService = []) →
      Completes .hbm3RebuildDone s fun t =>
         t.ix.rebuilding = false ∧ t.ix.half = true ∧ t.fl.kvStopped = false ∧ t.pw.reliability = true)
  ∧ (∀ (s : State),
      (s.serving = true) → (s.ix.spill = []) → (s.ix.spillCache = []) →
      Completes .unspill s fun t => t = s)
  ∧ (∀ (e : Spilled) (s : State),
      (s.serving = true) → (s.ix.spill = [e]) → (s.ix.resident < s.ix.residentMax) →
      Completes .unspill s fun t =>
         t.ix = { (s.ix.remove e.h (.spilled e.slot.loc)).insert e.h e.slot with spillCache := t.ix.spillCache })
  ∧ (∀ (s : State),
      (up s = true) →
      Completes .scrub s fun t =>
         t.ck = { s.ck with scrubs := s.ck.scrubs + 1 }
         ∧ ∃ wax hbm : Nat, t.md = { s.md with err := modAt (modAt s.md.err 9 fun n => min 0xFFFFFFFF (n + wax)) 11 fun n => min 0xFFFFFFFF (n + hbm) }
         ∧ t.mc = s.mc ∧ ∃ moved : List (Nat × Nat), t.wx = { s.wx with remap := s.wx.remap ++ moved } ∧ moved.length ≤ 1)
  ∧ (∀ (channel : Nat) (s : State),
      (up s = true) → (channel < 64) →
      Yields (.channelRecalibration channel) s { s with ck := { s.ck with recals := s.ck.recals + 1 } })

/-- NS_ROTATE of a namespace with no rotation or sweep running makes its key previous, starts the rotation and makes one new
current key. NS_ERASE leaves no unsealing key of the namespace but a new one, and starts the sweep; ERASE_SWEEP_DONE ends it
and no erased key record is left. ROTATION_DONE with no record under the previous key,
stored or on its way into staging, ends the rotation. NS_KEY_STATUS
answers generation, mode and progress. KEK_ROTATE raises the generation of the KEK in every key record and pre-shared key, and
wraps each again. PSK_ADD enters one key, wrapped, in place of an older one of the host and identity, PSK_REMOVE takes it away. EPOCH_SET of 1 to 1,000
ms sets the epoch length. EPOCH_CLOSE and EPOCH_LENGTH_ELAPSED with an open epoch close it: it waits for its signatures, and
its root record is the newest. EPOCH_SIGNED, outside the key curtain and Retired, moves the oldest waiting epoch with two
signatures to the end of the receipt store. RECEIPT_STORE_PRUNE takes the oldest epoch of a full store and counts it. CERT_GET
returns the certificate chain. (R215, R219, R220, R221, R222, R228, R231, R232, R234, R238, R240) -/
def Obligations.Key_and_epoch_commands_complete : Prop :=
  (∀ (m : MsgReq) (n : Ns) (s : State),
      (messageOk 0x09 0x10 m s = true) → (m.payload.length = 4) → (s.ky.kekPresent = true) →
      (s.nsOf (natAt m.payload 0 4) = some n) → (s.ky.busy (natAt m.payload 0 4) = false) →
      (n.nsid = natAt m.payload 0 4) →
      Completes (.nsRotate m) s fun t =>
         Answered s t 0x09 0x10 m .success 0 [[]] ∧ t.ky.jobs = s.ky.jobs ++ [{ nsid := n.nsid, kind := 0, pct := 0, started := s.mono }]
         ∧ (t.ky.recs.take s.ky.recs.length).map (fun r => (r.nsid, r.gen, r.mode, r.time, r.state)) =
             s.ky.recs.map (fun r => (r.nsid, r.gen, r.mode, r.time, if r.nsid == n.nsid && r.state == 1 then 2 else r.state))
         ∧ (t.ky.recs.drop s.ky.recs.length).map (fun r => (r.nsid, r.state, r.gen)) = [(n.nsid, 1, s.ky.newest n.nsid + 1)]
         ∧ t.ky.wrapCounter = s.ky.wrapCounter + s.ky.recs.countP (fun r => r.nsid == n.nsid && r.state == 1) + 1 ∧ t.wx = s.wx ∧ t.ix = s.ix)
  ∧ (∀ (m : MsgReq) (n : Ns) (s : State),
      (messageOk 0x09 0x11 m s = true) → (m.payload.length = 4) → (s.ky.kekPresent = true) →
      (s.nsOf (natAt m.payload 0 4) = some n) → (n.nsid = natAt m.payload 0 4) →
      (n.type ≠ .ledger ∨ s.ledgerBound n.nsid = false) → (s.ky.sweeping n.nsid = false) → (s.md.secdel = []) →
      Completes (.nsErase m) s fun t =>
         Answered s t 0x09 0x11 m .success 0 [[]] ∧ t.ky.sweeping n.nsid = true
         ∧ t.ky.recs.filter (fun r => r.nsid == n.nsid && r.state != 3) = t.ky.recs.drop s.ky.recs.length ∧ t.ky.recs.length = s.ky.recs.length + 1
         ∧ t.va.ns = s.va.ns ∧ t.cam.entries = s.cam.entries)
  ∧ (∀ (nsid : Nat) (s : State),
      (s.mediaWork = true) → (s.ky.jobs.any (fun j => j.nsid == nsid && j.kind == 0) = true) →
      (s.recordsOf nsid s.previousGen = []) →
      (s.sealsPrevious nsid = false) →
      Completes (.rotationDone nsid) s fun t =>
         t.ky.recs = s.ky.recs.filter (fun r => !(r.nsid == nsid && r.state == 2))
         ∧ t.ky.jobs = s.ky.jobs.filter (fun j => !(j.nsid == nsid && j.kind == 0)) ∧ t.wx = s.wx)
  ∧ (∀ (nsid : Nat) (s : State),
      (s.mediaWork = true) → (s.ky.sweeping nsid = true) →
      Completes (.eraseSweepDone nsid) s fun t =>
         t.ky.sweeping nsid = false ∧ t.ky.recs = s.ky.recs.filter (fun r => !(r.nsid == nsid && r.state == 3)) ∧ t.va.ns = s.va.ns)
  ∧ (∀ (m : MsgReq) (n : Ns) (s : State),
      (messageOk 0x09 0x12 m s = true) → (m.payload.length = 4) → (s.nsOf (natAt m.payload 0 4) = some n) →
      Completes (.nsKeyStatus m) s fun t => t.ky = s.ky ∧ ∃ p : Nat,
         Answered s t 0x09 0x12 m .success 0 [leBytes 4 (s.currentGen (natAt m.payload 0 4)) ++ leBytes 1 n.mode.code ++ leBytes 1 p]
         ∧ (∀ j, s.ky.jobs.find? (·.nsid == natAt m.payload 0 4) = some j → j.pct ≤ 100 → p ≤ 100))
  ∧ (∀ (m : MsgReq) (s : State),
      (messageOk 0x09 0x13 m s = true) → (m.payload = []) → (s.ky.kekPresent = true) →
      Completes (.kekRotate m) s fun t =>
         Answered s t 0x09 0x13 m .success 0 [[]] ∧ t.ky.kekGen = s.ky.kekGen + 1
         ∧ t.ky.recs.map (fun r => (r.nsid, r.gen, r.state, r.kekGen)) = s.ky.recs.map (fun r => (r.nsid, r.gen, r.state, s.ky.kekGen + 1))
         ∧ t.ky.psks.map (fun p => (p.host, p.identity, p.kekGen)) = s.ky.psks.map (fun p => (p.host, p.identity, s.ky.kekGen + 1))
         ∧ t.ky.wrapCounter = s.ky.wrapCounter + s.ky.recs.length + s.ky.psks.length)
  ∧ (∀ (m : MsgReq) (s : State),
      (messageOk 0x09 0x01 m s = true) → (273 ≤ m.payload.length) → (s.ky.kekPresent = true) →
      (pskIdentityOk ((m.payload.drop 224).take (m.payload.length - 272)) = true) →
      ((s.ky.psks.filter fun k => !(k.host == trimZero (bytesAt m.payload 0 224) && k.identity == (m.payload.drop 224).take (m.payload.length - 272))).length < 256) →
      Completes (.pskAdd m) s fun t =>
         Answered s t 0x09 0x01 m .success 0 [[]]
         ∧ t.ky.psks = s.ky.psks.filter (fun k => !(k.host == trimZero (bytesAt m.payload 0 224) && k.identity == (m.payload.drop 224).take (m.payload.length - 272)))
             ++ [s.ky.newPsk (trimZero (bytesAt m.payload 0 224)) ((m.payload.drop 224).take (m.payload.length - 272)) (m.payload.drop (m.payload.length - 48))]
         ∧ t.ky.wrapCounter = s.ky.wrapCounter + 1
         ∧ t.fe.conns = s.fe.conns)
  ∧ (∀ (m : MsgReq) (s : State),
      (messageOk 0x09 0x02 m s = true) → (225 ≤ m.payload.length) →
      (s.ky.psks.any (fun k => k.host == trimZero (bytesAt m.payload 0 224) && k.identity == m.payload.drop 224) = true) →
      Completes (.pskRemove m) s fun t =>
         Answered s t 0x09 0x02 m .success 0 [[]]
         ∧ t.ky.psks = s.ky.psks.filter (fun k => !(k.host == trimZero (bytesAt m.payload 0 224) && k.identity == m.payload.drop 224)) ∧ t.fe.conns = s.fe.conns)
  ∧ (∀ (m : MsgReq) (s : State),
      (messageOk 0x09 0x20 m s = true) → (m.payload.length = 2) → (1 ≤ natAt m.payload 0 2) →
      (natAt m.payload 0 2 ≤ 1000) →
      Completes (.epochSet m) s fun t => Answered s t 0x09 0x20 m .success 0 [[]] ∧ t.ky = { s.ky with epochMs := natAt m.payload 0 2 })
  ∧ (∀ (m : MsgReq) (o : OpenEpoch) (s : State),
      (messageOk 0x09 0x21 m s = true) → (m.payload = []) → (s.ky.open_ = some o) →
      Completes (.epochClose m) s fun t =>
         Answered s t 0x09 0x21 m .success 0 [[]]
         ∧ t.ky = { s.ky with open_ := none, lastRoot := some (s.rootRecord o 4), waiting := s.ky.waiting ++ [{ number := o.number, root := s.rootRecord o 4, leaves := o.leaves }] })
  ∧ (∀ (o : OpenEpoch) (s : State),
      (up s = true) → (s.ky.open_ = some o) →
      Completes .epochLengthElapsed s fun t =>
         t.ky = { s.ky with open_ := none, lastRoot := some (s.rootRecord o 0), waiting := s.ky.waiting ++ [{ number := o.number, root := s.rootRecord o 0, leaves := o.leaves }] })
  ∧ (∀ (e : ClosedEpoch) (rest : List ClosedEpoch) (s : State),
      (up s = true) → (s.ky.receiptKey = true) → (s.ky.signOff = false) → (s.lifecycle ≠ .retired) → (s.ky.waiting = e :: rest) →
      Completes .epochSigned s fun t =>
         t.ky.waiting = rest ∧ (∃ k ≤ s.ky.store.length, t.ky.store.map (·.number) = (s.ky.store.map (·.number)).drop k ++ [e.number] ∧ (s.ky.storeFull = false → k = 0))
         ∧ t.ky.store.all (fun x => decide (x ∈ s.ky.store) || x.sigs.isSome) = true
         ∧ t.ky.lastSigned = e.number)
  ∧ (∀ (e : ClosedEpoch) (rest : List ClosedEpoch) (s : State),
      (up s = true) → (s.ky.store = e :: rest) → (s.ky.storeFull = true) →
      Completes .receiptStorePrune s fun t => t.ky = { s.ky with store := rest, pruned := s.ky.pruned + 1 })
  ∧ (∀ (m : MsgReq) (s : State),
      (messageOk 0x09 0x22 m s = true) → (m.payload = []) →
      Completes (.certGet m) s fun t => Answered s t 0x09 0x22 m .success 0 (answerLong s.chainArea).body ∧ t.ky = s.ky)

/-- With no change running and no global entry touched: CAM_WRITE whose records pass every check puts each record at its address
with its counter at 0; CAM_INVALIDATE leaves the all-zero record with a correct CRC at each address, with its counter at 0;
CAM_COPY moves entries and counters as they stood before the message, whichever way source and destination overlap. Every
other entry stays, and a message whose first record fails a check changes nothing and names the record and the reason.
CAM_READ returns the records of its range, CAM_COUNTERS the counters (and clears those of its range on request), CAM_STATUS
the counts, CAM_LOOKUP on a drive that asks no chain the winner of a lookup that checks and repairs what it hits, and CAM_NS_INFO the scope and level of a namespace.
CAM_SWEEP where no address differs from its copy only notes its time and clears the parity marks; where one address differs
and its copy is good it takes the copy. CAM_SOFT_ERROR flips one bit of the copy, or of the key, mask, priority and flags of
an entry with its parity mark; one flipped bit of an action is corrected, a second one makes the entry's hit a parity failure. (R245, R247, R250, R251, R254, R255, R256, R258, R259,
R541) -/
def Obligations.CAM_commands_complete : Prop :=
  (∀ (m : MsgReq) (fixed : List (Nat × Level)) (s : State),
      (messageOk 0x0D 0x01 m s = true) → (1 ≤ natAt m.payload 4 4) → (natAt m.payload 4 4 ≤ 63) →
      (m.payload.length = 8 + 64 * natAt m.payload 4 4) → (natAt m.payload 0 4 + natAt m.payload 4 4 ≤ 65536) →
      (camChecks s ((camRecords m.payload).zipIdx.map fun x => (x.2, x.1.2)) [] = .ok fixed) → (s.sk.change = none) →
      (s.camGlobal 1 m.payload = false) →
      Completes (.camWrite m) s fun t =>
         Answered s t 0x0D 0x01 m .success 0 [[]]
         ∧ (∀ i, i < natAt m.payload 4 4 → t.cam.entry (natAt m.payload 0 4 + i) = camOfBytes (bytesAt m.payload (8 + 64 * i) 64)
              ∧ t.cam.counter (natAt m.payload 0 4 + i) = 0)
         ∧ (∀ a, a < 65536 → a < natAt m.payload 0 4 ∨ natAt m.payload 0 4 + natAt m.payload 4 4 ≤ a → t.cam.entry a = s.cam.entry a)
         ∧ t.ix = s.ix ∧ t.ky = s.ky)
  ∧ (∀ (m : MsgReq) (i r : Nat) (s : State),
      (messageOk 0x0D 0x01 m s = true) → (1 ≤ natAt m.payload 4 4) → (natAt m.payload 4 4 ≤ 63) →
      (m.payload.length = 8 + 64 * natAt m.payload 4 4) → (natAt m.payload 0 4 + natAt m.payload 4 4 ≤ 65536) →
      (camChecks s ((camRecords m.payload).zipIdx.map fun x => (x.2, x.1.2)) [] = .error (i, r)) →
      Completes (.camWrite m) s fun t =>
         Answered s t 0x0D 0x01 m .invalidField (badField (8 + 64 * i + camField (camOfBytes (bytesAt m.payload (8 + 64 * i) 64)) r) r).detail [leBytes 4 i ++ leBytes 1 r] ∧ t.cam = s.cam ∧ t.va = s.va)
  ∧ (∀ (m : MsgReq) (s : State),
      (messageOk 0x0D 0x03 m s = true) → (m.payload.length = 8) → (1 ≤ natAt m.payload 4 4) →
      (natAt m.payload 0 4 + natAt m.payload 4 4 ≤ 65536) → (s.sk.change = none) →
      (s.camGlobal 3 m.payload = false) →
      Completes (.camInvalidate m) s fun t =>
         Answered s t 0x0D 0x03 m .success 0 [[]]
         ∧ (∀ i, i < natAt m.payload 4 4 → t.cam.entry (natAt m.payload 0 4 + i) = CamEntry.blank ∧ t.cam.counter (natAt m.payload 0 4 + i) = 0)
         ∧ (∀ a, a < 65536 → a < natAt m.payload 0 4 ∨ natAt m.payload 0 4 + natAt m.payload 4 4 ≤ a → t.cam.entry a = s.cam.entry a))
  ∧ (∀ (m : MsgReq) (s : State),
      (messageOk 0x0D 0x04 m s = true) → (m.payload.length = 12) → (1 ≤ natAt m.payload 8 4) →
      (natAt m.payload 0 4 + natAt m.payload 8 4 ≤ 65536) → (natAt m.payload 4 4 + natAt m.payload 8 4 ≤ 65536) →
      (s.sk.change = none) → (s.camGlobal 4 m.payload = false) →
      Completes (.camCopy m) s fun t =>
         Answered s t 0x0D 0x04 m .success 0 [[]]
         ∧ (∀ i, i < natAt m.payload 8 4 → t.cam.entry (natAt m.payload 4 4 + i) = s.cam.entry (natAt m.payload 0 4 + i)
              ∧ t.cam.counter (natAt m.payload 4 4 + i) = s.cam.counter (natAt m.payload 0 4 + i))
         ∧ (∀ a, a < 65536 → a < natAt m.payload 4 4 ∨ natAt m.payload 4 4 + natAt m.payload 8 4 ≤ a → t.cam.entry a = s.cam.entry a))
  ∧ (∀ (m : MsgReq) (s : State),
      (messageOk 0x0D 0x02 m s = true) → (m.payload.length = 8) → (1 ≤ natAt m.payload 4 4) →
      (natAt m.payload 4 4 ≤ 63) → (natAt m.payload 0 4 + natAt m.payload 4 4 ≤ 65536) →
      Completes (.camRead m) s fun t =>
         Answered s t 0x0D 0x02 m .success 0 [(List.range (natAt m.payload 4 4)).flatMap fun i =>
           (s.cam.entry (natAt m.payload 0 4 + i)).bytes (s.cam.dirAt (natAt m.payload 0 4 + i)).disabled] ∧ t.cam = s.cam)
  ∧ (∀ (m : MsgReq) (s : State),
      (messageOk 0x0D 0x05 m s = true) → (m.payload.length = 9) → (1 ≤ natAt m.payload 4 4) →
      (natAt m.payload 4 4 ≤ 1022) → (natAt m.payload 0 4 + natAt m.payload 4 4 ≤ 65536) →
      (natAt m.payload 8 1 ≤ 1) →
      Completes (.camCounters m) s fun t =>
         Answered s t 0x0D 0x05 m .success 0 [(List.range (natAt m.payload 4 4)).flatMap fun i => leBytes 4 (s.cam.counter (natAt m.payload 0 4 + i))]
         ∧ (∀ i, i < natAt m.payload 4 4 → t.cam.counter (natAt m.payload 0 4 + i) = if natAt m.payload 8 1 = 1 then 0 else s.cam.counter (natAt m.payload 0 4 + i))
         ∧ t.cam.entries = s.cam.entries)
  ∧ (∀ (m : MsgReq) (s : State),
      (messageOk 0x0D 0x06 m s = true) → (m.payload = []) → (s.cam.dir.any (·.2.disabled) = false) →
      Completes (.camStatus m) s fun t =>
         Answered s t 0x0D 0x06 m .success 0 [leBytes 4 (s.cam.entries.countP (·.2.valid)) ++ leBytes 4 0 ++ leBytes 8 s.cam.fromCopy ++ leBytes 8 s.cam.toCopy
           ++ leBytes 8 s.cam.parityHits ++ leBytes 8 s.cam.lastSweep ++ leBytes 8 s.cam.cacheHits] ∧ t.cam = s.cam)
  ∧ (∀ (m : MsgReq) (s : State),
      (messageOk 0x0D 0x07 m s = true) → (m.payload.length = 24) → (natAt m.payload 0 1 = 0) →
      (s.sk.joinedNow = false) →
      Completes (.camLookup m) s fun t =>
         Answered s t 0x0D 0x07 m .success 0 [match (s.camLookup s.cam.faults false (lkeyOfBits (BitVec.ofNat 192 (leNat m.payload)))).2 with
           | some (a, e) => leBytes 4 a ++ leBytes 2 e.prio.toNat ++ leBytes 1 s.pw.pos ++ leBytes 1 1 ++ leBytes 8 e.action.toNat
           | none => List.replicate 16 0]
         ∧ t.cam = (s.camLookup s.cam.faults false (lkeyOfBits (BitVec.ofNat 192 (leNat m.payload)))).1.cam)
  ∧ (∀ (m : MsgReq) (n : Ns) (s : State),
      (messageOk 0x0D 0x08 m s = true) → (m.payload.length = 6) → (s.nsOf (natAt m.payload 0 4) = some n) →
      (natAt m.payload 4 1 = 0) → (natAt m.payload 5 1 ≤ 1) →
      Completes (.camNsInfo m) s fun t =>
         Answered s t 0x0D 0x08 m .success 0 [[BitVec.ofNat 8 n.stackScope.toNat, BitVec.ofNat 8 ((n.level.map levelCode).getD 255)]] ∧ t.va = s.va)
  ∧ (∀ (s : State),
      (up s = true) → (s.cam.loaded = true) →
      ((s.cam.entries.map (·.1) ++ s.cam.copy.map (·.1) ++ s.cam.actErr.map (·.1) ++ s.cam.copyBad).any s.cam.differs = false) →
      Yields .camSweep s { s with cam := { s.cam with lastSweep := s.now } })
  ∧ (∀ (a : Nat) (s : State),
      (up s = true) → (s.cam.loaded = true) →
      (((s.cam.entries.map (·.1) ++ s.cam.copy.map (·.1) ++ s.cam.actErr.map (·.1) ++ s.cam.copyBad).eraseDups).filter s.cam.differs = [a]) →
      ((s.cam.dirAt a).disabled = false) → (a ∉ s.cam.copyBad) → ((s.cam.copyAt a).computed = (s.cam.dirAt a).crc) →
      Completes .camSweep s fun t => t.cam.entry a = s.cam.copyAt a ∧ t.cam.copy = s.cam.copy ∧ t.cam.fromCopy = s.cam.fromCopy + 1 ∧ t.cam.parityBad = s.cam.parityBad.filter (· ≠ a))
  ∧ (∀ (addr bit : Nat) (s : State),
      (up s = true) →
      Completes (.camSoftError addr bit true) s fun t => t.cam.copyAt addr = (s.cam.copyAt addr).flip bit ∧ t.cam.entries = s.cam.entries)
  ∧ (∀ (addr bit : Nat) (s : State),
      (up s = true) → (bit < 416) → (addr ∉ s.cam.parityBad) →
      Completes (.camSoftError addr bit false) s fun t =>
         t.cam.entry addr = (s.cam.entry addr).flip bit ∧ addr ∈ t.cam.parityBad ∧ t.cam.copy = s.cam.copy ∧ t.cam.dir = s.cam.dir)
  ∧ (∀ (addr bit : Nat) (s : State),
      (up s = true) → (416 ≤ bit) → (bit < 480) → (s.cam.actErr.all (fun x => x.1 != addr) = true) →
      Completes (.camSoftError addr bit false) s fun t =>
         t.cam = { s.cam with actErr := (addr, bit - 416) :: s.cam.actErr } ∧ t.cam.actBad addr = false)
  ∧ (∀ (addr bit : Nat) (x : Nat × Nat) (s : State),
      (up s = true) → (416 ≤ bit) → (bit < 480) → (x ∈ s.cam.actErr) → (x.1 = addr) → ((addr, bit - 416) ∉ s.cam.actErr) →
      Completes (.camSoftError addr bit false) s fun t => t.cam.actBad addr = true ∧ t.cam.entries = s.cam.entries)

/-- HEARTBEAT_SEND sends one capsule on each path. HEARTBEAT_RECEIVED starts the missed count again and changes no role, but a
Primary that hears a higher term becomes Detached-stale, and a Secondary that hears its own term plus one becomes Primary in
it; a level it tells of a namespace without one binds that namespace here too. TWIN_LOST leaves a Primary in its role at state
5 and, under DEGRADE, degraded, but ends a departure that drains (log 24); a Secondary without a witness Detached-stale, with
one a candidate. PRIMARY_FENCE, with no command outstanding, holds every pending write. CANDIDATE_TIMEOUT ends in
Detached-stale, LOCAL_COMPLETION_DELAY permits Local completion, TWIN_IMPAIRED, STALE_CONFIRM_TIMEOUT and WITNESS_UNREACHABLE
set their mark. A repair's answer replaces the record at its new place; its timeout ends the repair. (R265, R269, R271, R272,
R273, R275, R276, R282, R284, R287) -/
def Obligations.Twin_heartbeat_and_loss_events_complete : Prop :=
  (∀ (s : State),
      (up s = true) → (s.paired = true) → (s.tw.hbStopped = false) →
      Yields .heartbeatSend s { s with tw := { s.tw with confirmDue := false }, out := s.out ++ [.twinHeartbeat 0 s.tw.term (s.tw.impaired && s.tw.role == .primary) s.tw.confirmDue, .twinHeartbeat 1 s.tw.term (s.tw.impaired && s.tw.role == .primary) s.tw.confirmDue] })
  ∧ (∀ (hb : Heartbeat) (s : State),
      (up s = true) → (s.paired = true) → (hb.news = []) → (hb.term ≤ s.tw.term) → (hb.confirm = false) →
      (hb.staleNotice = false) → (s.tw.changing = false) →
      Completes (.heartbeatReceived hb) s fun t =>
         t.tw.missed = 0 ∧ t.tw.lastHb = s.mono ∧ t.tw.role = s.tw.role ∧ t.tw.term = s.tw.term ∧ t.wx = s.wx ∧ t.out = s.out)
  ∧ (∀ (hb : Heartbeat) (s : State),
      (up s = true) → (hb.news = []) → (s.tw.role = .primary) → (s.tw.term < hb.term) →
      Completes (.heartbeatReceived hb) s fun t => t.tw.role = .detachedStale ∧ t.tw.missed = 0 ∧ t.tw.term = s.tw.term)
  ∧ (∀ (hb : Heartbeat) (s : State),
      (up s = true) → (hb.news = []) → (s.tw.role = .secondary) → (hb.term = s.tw.term + 1) → (s.tw.lost = false) →
      (s.fl.cmds = []) →
      Completes (.heartbeatReceived hb) s fun t => t.tw.role = .primary ∧ t.tw.term = hb.term ∧ t.tw.primaryTerm = hb.term)
  ∧ (∀ (hb : Heartbeat) (i : Nat) (n : Ns) (s : State),
      (up s = true) → (s.tw.role = .primary) → (hb.news = [.levelFixed i 2]) → (hb.term = s.tw.term) →
      (hb.confirm = false) → (s.tw.changing = false) → (s.nsOf i = some n) → (n.level = none) → (n.type ≠ .mirror) →
      Completes (.heartbeatReceived hb) s fun t => (t.nsOf i).map (·.level) = some (some (levelOfCode 2)) ∧ t.tw.role = .primary ∧ t.tw.missed = 0)
  ∧ (∀ (s : State),
      (up s = true) → (s.tw.role = .primary) → (s.tw.lost = false) → (s.bt.paused = false) → (s.tw.drain ≤ 1) → (s.fl.cmds = []) →
      Completes .twinLost s fun t =>
         t.tw.role = .primary ∧ t.tw.lost = true ∧ t.tw.reached = false ∧ t.tw.st = 5 ∧ t.tw.degraded = (s.tw.degraded || !s.tw.applyCfg.strict)
         ∧ t.tw.drain = 0)
  ∧ (∀ (s : State),
      (up s = true) → (s.tw.role = .primary) → (s.tw.lost = false) → (s.bt.paused = false) → (s.tw.drain = 2 ∨ s.tw.drain = 3) →
      (s.fl.cmds = []) →
      Completes .twinLost s fun t => t.tw.role = (if s.tw.drain = 2 then .detachedStale else .solo) ∧ t.tw.drain = 0)
  ∧ (∀ (s : State),
      (up s = true) → (s.tw.role = .secondary) → (s.tw.lost = false) → (s.bt.paused = false) → (s.fl.cmds = []) →
      Completes .twinLost s fun t =>
         t.tw.lost = true ∧ (s.tw.witnessMode = 0 → t.tw.role = .detachedStale) ∧ (s.tw.witnessMode ≠ 0 → t.tw.role = .secondary ∧ t.tw.candidate = true ∧ t.tw.st = 7))
  ∧ (∀ (s : State),
      (up s = true) → (s.tw.role = .primary) → (s.tw.witnessMode ≠ 0) → (s.tw.fenced = false) → (s.fl.cmds = []) →
      (s.wx.pend.all (fun p => !s.damaged p.loc) = true) →
      Completes .primaryFence s fun t =>
         t.tw.fenced = true ∧ t.tw.st = 6 ∧ t.tw.role = .primary ∧ t.wx.pend = [] ∧ t.wx.heldRecs = s.wx.heldRecs ++ s.wx.pend)
  ∧ (∀ (s : State),
      (up s = true) → (s.tw.candidate = true) →
      Completes .candidateTimeout s fun t => t.tw.role = .detachedStale ∧ t.tw.candidate = false ∧ t.tw.st = 8 ∧ t.tw.term = s.tw.term)
  ∧ (∀ (s : State),
      (up s = true) → (s.tw.role = .primary) → (s.tw.lost = true) → (s.tw.fenced = false) →
      (s.tw.witnessMode = 0 ∨ s.tw.witnessState = 1) → (s.wx.pend = []) →
      Yields .localCompletionDelay s { s with tw := { s.tw with localOk := true } })
  ∧ (∀ (s : State),
      (up s = true) → (s.tw.role = .primary) → (s.tw.lost = false) → (s.wx.unacked ≠ []) →
      Completes .twinImpaired s fun t => t.tw = { s.tw with impaired := true } ∧ t.wx = s.wx)
  ∧ (∀ (s : State),
      (up s = true) → (s.tw.role = .primary) → (s.tw.impaired = true) → (s.tw.staleConfirmed = false) →
      Yields .staleConfirmTimeout s { s with tw := { s.tw with hbStopped := true } })
  ∧ (∀ (s : State),
      (up s = true) → (s.tw.witnessMode ≠ 0) →
      Completes .witnessUnreachable s fun t => t.tw = { s.tw with witnessState := 2 })
  ∧ (∀ (nsid g d : Nat) (key : Key) (value : Bytes) (f : Found) (u : State) (s : State),
      (up s = true) → (s.tw.repairs = [(nsid, key, 0)]) → (s.find nsid key = some f) → (f.slot.loc = .nand g) →
      (f.slot.twinPend = false) → (s.fl.cmds = []) → (s.journalRoom 1 = true) →
      (s.landNext .gcCold (s.reseal { f.record with value := value }) = some (u, d)) →
      Completes (.twinRepairRequest nsid key true value) s fun t =>
         t.tw.repairs = [] ∧ t.md.nand.lookup d = some (s.reseal { f.record with value := value }) ∧ g ∉ t.md.badNand
         ∧ t.wx.journal.map (·.type) = s.wx.journal.map (·.type) ++ [.move])
  ∧ (∀ (nsid : Nat) (key : Key) (s : State),
      (up s = true) → (s.tw.repairs = [(nsid, key, 0)]) → (s.fl.cmds = []) → (s.wx.failing = none) →
      Yields (.twinRepairTimeout nsid key) s { s with tw := { s.tw with repairs := [] } })

/-- TWIN_ATTACH as Primary of a drive that passes its own checks is recorded and answered. TWIN_LINK_FORMED of a request that
passes makes the drive Primary of term 1, of one that fails ends it with its reason, and without a request makes the drive of
the higher term Primary again. ATTACH_REACH_TIMEOUT ends a Secondary's request with reason 06h. TWIN_SWITCHOVER of a drained
Primary makes it Secondary of the next term, TWIN_DETACH makes it Detached-stale or Solo and a Secondary ask its Primary to
drain (log 24), TWIN_RELEASE a Detached-stale drive Solo, TWIN_FORCE_PRIMARY one that lost its twin Primary of the next term.
TWIN_CONFIG waits for the next transition, TWIN_STATUS returns log C3h, TWIN_WITNESS_POLL notes the poll and TWIN_RESYNC
starts a full resynchronisation. (R272, R273, R278, R280, R281, R283, R284, R285, R288, R289) -/
def Obligations.Twin_messages_complete : Prop :=
  (∀ (m : MsgReq) (s : State),
      (messageOk 0x06 0x01 m s = true) → (17 ≤ m.payload.length) → (natAt m.payload 16 1 = 1) →
      (s.tw.attachReq = none) → (s.lifecycle = .isSealed) →
      (s.tw.pairId = List.replicate 16 0 ∨ s.tw.pairId = bytesAt m.payload 0 16) → (s.pw.psNow < 3) →
      Completes (.twinAttach m) s fun t =>
         Answered s t 0x06 0x01 m .success 0 [[]]
         ∧ t.tw = { s.tw with attachReq := some (bytesAt m.payload 0 16, 1, none), addrs := m.payload.drop 17, st := 1 })
  ∧ (∀ (p : PeerView) (pid : Bytes) (m : Option MsgReq) (s : State),
      (up s = true) → (11 ∉ s.bt.offServices) → (s.tw.attachReq = some (pid, 1, m)) → (s.attachChecks p pid 1 = none) → (s.tw.pairId ≠ pid) →
      (p.request = some (pid, 2)) →
      Completes (.twinLinkFormed p) s fun t =>
         t.tw.role = .primary ∧ t.tw.st = 3 ∧ t.tw.term = 1 ∧ t.tw.primaryTerm = 1 ∧ t.tw.pairId = pid ∧ t.tw.twinId = p.driveId ∧ t.tw.reached = true
         ∧ t.tw.attachReq = none)
  ∧ (∀ (p : PeerView) (pid : Bytes) (role r : Nat) (m : Option MsgReq) (s : State),
      (up s = true) → (11 ∉ s.bt.offServices) → (s.tw.attachReq = some (pid, role, m)) → (s.attachChecks p pid role = some r) → (r ≠ 0) →
      (s.peerAsks p pid role = true) →
      Completes (.twinLinkFormed p) s fun t => t.tw.attachReq = none ∧ t.tw.attachReason = r ∧ t.tw.role = s.tw.role ∧ t.tw.pairId = s.tw.pairId)
  ∧ (∀ (p : PeerView) (s : State),
      (up s = true) → (11 ∉ s.bt.offServices) → (s.tw.attachReq = none) → (s.paired = true) → (p.term < s.tw.term) → (s.fl.cmds = []) →
      (s.wx.heldRecs = []) →
      Completes (.twinLinkFormed p) s fun t => t.tw.role = .primary ∧ t.tw.reached = true ∧ t.tw.lost = false ∧ t.tw.term = s.tw.term)
  ∧ (∀ (pid : Bytes) (m : Option MsgReq) (s : State),
      (up s = true) → (s.tw.attachReq = some (pid, 2, m)) →
      Completes .attachReachTimeout s fun t => t.tw.attachReq = none ∧ t.tw.attachReason = 6 ∧ t.tw.role = s.tw.role)
  ∧ (∀ (m : MsgReq) (s : State),
      (messageOk 0x06 0x03 m s = true) → (m.payload = []) → (s.tw.role = .primary) → (s.tw.fenced = false) →
      (s.tw.reached = true) → (s.twinGone = false) → (s.tw.drain = 0) → (s.wx.pend = []) → (s.tw.lag = []) →
      (s.resyncSends = false) → (s.fl.cmds = []) →
      Completes (.twinSwitchover m) s fun t =>
         Answered s t 0x06 0x03 m .success 0 [[]] ∧ t.tw.role = .secondary ∧ t.tw.term = s.tw.term + 1 ∧ Sends s t (.twinTerm (s.tw.term + 1)))
  ∧ (∀ (m : MsgReq) (s : State),
      (messageOk 0x06 0x02 m s = true) → (m.payload.length = 16) → (s.tw.role = .primary) →
      (s.tw.drain = 0) → (s.drained = true) → (m.payload = s.tw.twinId) → (s.fl.cmds = []) →
      Completes (.twinDetach m) s fun t =>
         Answered s t 0x06 0x02 m .success 0 [[]] ∧ t.tw.role = if m.payload = s.driveId then .detachedStale else .solo)
  ∧ (∀ (m : MsgReq) (s : State),
      (messageOk 0x06 0x02 m s = true) → (m.payload.length = 16) → (s.tw.role = .secondary) → (s.tw.reached = true) →
      (s.tw.lost = false) → (s.tw.drain = 0) → (m.payload = s.tw.twinId) →
      Completes (.twinDetach m) s fun t =>
         t.tw = { s.tw with drain := if m.payload = s.driveId then 2 else 3, drainReq := some (s.named m), drainFrom := s.mono }
         ∧ Emits s t [.twinDetachAsk (m.payload != s.driveId)])
  ∧ (∀ (m : MsgReq) (s : State),
      (messageOk 0x06 0x04 m s = true) → (m.payload.length = 24) → (natAt m.payload 0 1 ≤ 2) →
      (natAt m.payload 1 1 ≤ 1) → (natAt m.payload 2 2 = 0) → (1000 ≤ natAt m.payload 4 4) →
      (natAt m.payload 4 4 ≤ 25000) →
      Completes (.twinConfig m) s fun t =>
         Answered s t 0x06 0x04 m .success 0 [[]]
         ∧ t.tw = { s.tw with nextCfg := some (natAt m.payload 0 1, natAt m.payload 8 16, natAt m.payload 1 1 == 1, natAt m.payload 4 4) })
  ∧ (∀ (m : MsgReq) (s : State),
      (messageOk 0x06 0x05 m s = true) → (m.payload = []) →
      Completes (.twinStatus m) s fun t => Answered s t 0x06 0x05 m .success 0 [s.logC3] ∧ t.tw = s.tw)
  ∧ (∀ (m : MsgReq) (s : State),
      (messageOk 0x06 0x06 m s = true) → (m.mbox = 12) → (m.payload.length = 25) → (s.tw.witnessMode = 1) →
      (natAt m.payload 0 16 = s.tw.witnessId) → (natAt m.payload 24 1 = 0) → (s.tw.role = .secondary) →
      (s.tw.fenced = false) →
      Completes (.twinWitnessPoll m) s fun t =>
         t.tw = { s.tw with lastPoll := some s.mono, witnessState := 1 }
         ∧ Answered s t 0x06 0x06 m .success 0 [[2] ++ leBytes 8 s.tw.term ++ leBytes 1 s.tw.candidate.toNat ++ leBytes 4 ((s.mono - s.tw.lastHb) / 1000000)])
  ∧ (∀ (m : MsgReq) (s : State),
      (messageOk 0x06 0x07 m s = true) → (m.payload = []) → (s.tw.role = .detachedStale) →
      Completes (.twinRelease m) s fun t =>
         Answered s t 0x06 0x07 m .success 0 [[]] ∧ t.tw.role = .solo ∧ t.tw.pairId = List.replicate 16 0 ∧ t.wx.heldRecs = [] ∧ t.tw.lag = [])
  ∧ (∀ (m : MsgReq) (s : State),
      (messageOk 0x06 0x08 m s = true) → (m.payload.length = 16) → (m.payload = s.tw.pairId) →
      (s.tw.role = .secondary ∨ s.tw.role = .detachedStale) → (s.tw.lost = true) → (s.fl.cmds = []) →
      (s.wx.heldRecs = []) →
      Completes (.twinForcePrimary m) s fun t =>
         Answered s t 0x06 0x08 m .success 0 [[]] ∧ t.tw.role = .primary ∧ t.tw.term = s.tw.term + 1 ∧ t.tw.primaryTerm = s.tw.term + 1)
  ∧ (∀ (m : MsgReq) (s : State),
      (messageOk 0x06 0x09 m s = true) → (m.payload = []) → (s.tw.role = .primary) → (s.tw.reached = true) →
      Completes (.twinResync m) s fun t =>
         Answered s t 0x06 0x09 m .success 0 [[]]
         ∧ t.tw = { s.tw with impaired := false, staleConfirmed := false, localOk := false, fullResync := true, st := 3,
                              resyncTo := s.va.nextSeq - 1, resyncPct := 0, resyncKeys := s.fullWalk.length, resyncGot := 0,
                              sendForm := 3 }
         ∧ Sends s t (.twinResync true s.fullWalk (s.holdWalk s.fullWalk true)))

/-- REPLICATED_WRITE_RECEIVED of a namespace the Secondary lacks is refused; a store with staging room takes the next commit
sequence of this drive, stages the value and is acknowledged. FORWARDED_COMMAND_RECEIVED of a namespace the Primary lacks, or
of an Exist of an absent key, is answered with the status. FORWARD_COMPLETION with an error completes the host's command with
it, and of a read with its data and both Dwords of the Primary's completion. RESYNC_DONE makes a returning drive Secondary, and a Primary's pair whole, with what the resynchronisation covered
acknowledged (log 24). (R73, R77, R262, R264, R267, R268, R278, R279) -/
def Obligations.Twin_traffic_completes : Prop :=
  (∀ (w : ReplWrite) (s : State),
      (up s = true) → (s.tw.role = .secondary) → (s.nsOf w.nsid = none) → (s.tw.inbound = []) →
      Yields (.replicatedWriteReceived w) s { s with out := s.out ++ [.twinRefuse w.seq] })
  ∧ (∀ (w : ReplWrite) (n : Ns) (g : Nat) (s : State),
      (up s = true) → (s.tw.role = .secondary) → (s.nsOf w.nsid = some n) → (w.kind = .store) → (w.leaf = false) →
      (s.keyLimit w.nsid w.key = false) → (w.ledger = false) → (w.forwarded = none) → (s.tw.inbound = []) → (s.wx.waiters = []) → (s.journalWaits = false) →
      (roomFor w.key s = true) → ((s.reserve (recGranules n.mode w.key.length w.value.length) false).2 = some g) → (s.find w.nsid w.key = none) →
      (s.ix.points (.wax g) = false) →
      Completes (.replicatedWriteReceived w) s fun t =>
         Sends s t (.twinAck w.seq) ∧ t.va.nextSeq = s.va.nextSeq + 1 ∧ (t.wx.staged.lookup g).map (·.value) = some w.value
         ∧ t.wx.journal.map (·.type) = s.wx.journal.map (·.type) ++ [.store])
  ∧ (∀ (f : FwdCmd) (s : State),
      (up s = true) → (s.tw.role = .primary) → (s.tw.fenced = false) → (s.cmd? (65536 + f.ctrl) f.sq f.cid = none) →
      (s.nsOf f.nsid = none) →
      Yields (.forwardedCommandReceived f) s { s with out := s.out ++ [.forwardDone f.ctrl f.sq f.cid .invalidNamespace 0 0 []] })
  ∧ (∀ (f : FwdCmd) (n : Ns) (s : State),
      (up s = true) → (s.tw.role = .primary) → (s.tw.fenced = false) → (s.fl.cmds = []) → (s.nsOf f.nsid = some n) →
      (f.kind = 4) → (s.find f.nsid f.key = none) → (n.type = .plain) →
      Completes (.forwardedCommandReceived f) s fun t => Emits s t [.forwardDone f.ctrl f.sq f.cid .keyDoesNotExist 0 0 []] ∧ t.fl.cmds = [] ∧ t.va = s.va)
  ∧ (∀ (ctrl sq cid : Nat) (status : Status) (read : FwdData) (c : Cmd) (s : State),
      (up s = true) → (s.fl.cmds = [c]) → (c.ctrl = ctrl ∧ c.sq = sq ∧ c.e.cid = cid) → (c.phase = .forwarded) →
      (c.forwardedFrom = none) → (status ≠ .success) → (s.fe.hasQueue ctrl sq = true) →
      Completes (.forwardCompletion ctrl sq cid status read) s fun t =>
         Emits s t [ioEntry t { ctrl := c.ctrl, sq := c.sq, e := c.e } status] ∧ t.fl.cmds = [])
  ∧ (∀ (ctrl sq cid : Nat) (read : FwdData) (c : Cmd) (s : State),
      (up s = true) → (s.fl.cmds = [c]) → (c.ctrl = ctrl ∧ c.sq = sq ∧ c.e.cid = cid) → (c.phase = .forwarded) →
      (c.forwardedFrom = none) → (c.kind.writes = false) → (c.kind.isExist = false) → (s.fe.hasQueue ctrl sq = true) →
      Completes (.forwardCompletion ctrl sq cid .success read) s fun t =>
         Emits s t (ioData t { ctrl := c.ctrl, sq := c.sq, e := c.e } (read.data.take (fieldsOf c.kind c.e).bufSize) read.dw0 read.dw1) ∧ t.fl.cmds = [])
  ∧ (∀ (s : State),
      (up s = true) → (s.tw.resyncing = true) → (s.tw.role = .detachedStale) → (s.tw.fullResync = false) →
      (s.fl.cmds = []) →
      Completes .resyncDone s fun t => t.tw.role = .secondary ∧ t.tw.st = 4 ∧ t.tw.resyncing = false ∧ t.tw.resyncPct = 100 ∧ t.ix = s.ix)
  ∧ (∀ (s : State),
      (up s = true) → (s.tw.resyncing = false) → (s.tw.role = .primary) → (s.tw.reached = true) →
      (s.tw.drain = 0) → (s.wx.unacked = []) →
      Completes .resyncDone s fun t =>
         t.tw = { s.tw with st := 4, sendForm := 0, degraded := false, fullResync := false, resyncPct := 100, lagOver := false, lag := s.tw.lag.filter (!·.loss),
                            ackedSeq := max s.wx.acked s.tw.resyncTo }
         ∧ t.wx = { s.wx with acked := max s.wx.acked s.tw.resyncTo })
  ∧ (∀ (q : Nat) (s : State),
      (up s = true) → (s.tw.resyncing = false) → (s.tw.role = .primary) → (s.tw.reached = true) →
      (s.tw.drain = 0) → (s.wx.unacked = [q]) → (q ≤ s.tw.resyncTo) → (s.wx.pend = []) → (s.fl.cmds = []) →
      Completes .resyncDone s fun t => t.tw.st = 4 ∧ t.tw.resyncPct = 100 ∧ t.wx.unacked = [] ∧ s.tw.resyncTo ≤ t.wx.acked)

/-- CONFIG.ORIGIN_SET with valid fields keeps the origin record, and one not in use that is cleared goes. MIRROR_SET binds its
namespace to its origin with the time to live rounded up to a minute. ORIGIN_STATUS returns nine counts for each origin.
ORIGIN_PATH_OPENED opens the path, ORIGIN_PATH_FAILURE closes it, ORIGIN_PATH_RETRY sends a Connect and doubles the next
delay up to 30 s. TTL_CHECKPOINT adds one checkpoint, keeping 43,200. MIRROR_EXPIRY_SWEEP with STALE_OK, or with nothing
expired, deletes nothing. FILL_START of the oldest waiting fill of an open origin, with room and staging, sends a Retrieve of
65,536 bytes. FILL_RETRIEVE_COMPLETE with a value that fits the first Retrieve keeps it for its commit and counts its bytes;
with "absent" it ends the fill and counts it; with an error, or FILL_TIMEOUT, and no fallback, it counts an error and ends
the fill. FILL_COMMIT stores the value as a Local write under the next commit sequence and ends the fill. (R291, R292, R293,
R294, R296, R298, R299, R300, R301, R302, R305) -/
def Obligations.Origin_commands_complete : Prop :=
  (∀ (m : MsgReq) (s : State),
      (messageOk 0x01 0x08 m s = true) → (m.payload.length = 288) → (originBad m.payload = none) →
      ((natAt m.payload 1 1).testBit 0 = true) → (s.og.origins.length = 8) →
      Completes (.originSet m) s fun t =>
         Answered s t 0x01 0x08 m .success 0 [[]]
         ∧ t.og.origin? (natAt m.payload 0 1) = some { flags := BitVec.ofNat 8 (natAt m.payload 1 1), timeoutMs := natAt m.payload 4 4, maxFills := natAt m.payload 8 2, tcpPort := natAt m.payload 10 2, addrA := bytesAt m.payload 16 16, addrB := bytesAt m.payload 32 16, nqn := (bytesAt m.payload 48 224).takeWhile (· != 0) }
         ∧ t.og.bindings = s.og.bindings ∧ t.og.fills = s.og.fills)
  ∧ (∀ (m : MsgReq) (s : State),
      (messageOk 0x01 0x08 m s = true) → (m.payload.length = 288) → (originBad m.payload = none) →
      ((natAt m.payload 1 1).testBit 0 = false) → (s.og.named (natAt m.payload 0 1) = false) →
      Completes (.originSet m) s fun t => Answered s t 0x01 0x08 m .success 0 [[]] ∧ t.og = { s.og with origins := s.og.origins.set (natAt m.payload 0 1) none })
  ∧ (∀ (m : MsgReq) (s : State),
      (messageOk 0x01 0x09 m s = true) → (m.payload.length = 32) → (s.mirrorBad m.payload = none) →
      Completes (.mirrorSet m) s fun t =>
         Answered s t 0x01 0x09 m .success 0 [[]]
         ∧ t.og.bindings = s.og.bindings.filter (·.nsid ≠ natAt m.payload 0 4) ++ [{ nsid := natAt m.payload 0 4, origin := natAt m.payload 4 1, fallback := if natAt m.payload 5 1 = 255 then none else some (natAt m.payload 5 1), staleOk := natAt m.payload 6 1 == 1, ttlS := (natAt m.payload 8 4 + 59) / 60 * 60, negTtlS := natAt m.payload 12 2, originNsid := natAt m.payload 16 4 }]
         ∧ t.og.neg = s.og.neg.filter (·.nsid ≠ natAt m.payload 0 4) ∧ t.ix = s.ix)
  ∧ (∀ (m : MsgReq) (s : State),
      (messageOk 0x01 0x0A m s = true) → (m.payload = []) → (s.og.paths = []) → (s.og.fills = []) →
      Completes (.originStatus m) s fun t =>
         Answered s t 0x01 0x0A m .success 0 [(List.range 8).flatMap fun i => List.replicate 16 0 ++ leBytes 8 (s.og.counts.getD i {}).completed
           ++ leBytes 8 (s.og.counts.getD i {}).absent ++ leBytes 8 (s.og.counts.getD i {}).coalesced ++ leBytes 8 (s.og.counts.getD i {}).negative
           ++ leBytes 8 (s.og.counts.getD i {}).errors ++ leBytes 8 (s.og.counts.getD i {}).stale ++ leBytes 8 (s.og.counts.getD i {}).bytes] ∧ t.og = s.og)
  ∧ (∀ (origin port : Nat) (s : State),
      (up s = true) →
      Completes (.originPathOpened origin port) s fun t =>
         t.og = { s.og with paths := s.og.paths.map (fun p => if p.origin == origin && p.port == port && !p.retired then { p with isOpen := true, retryDelayS := 1 } else p) } ∧ t.out = s.out)
  ∧ (∀ (origin port : Nat) (s : State),
      (up s = true) → ((s.og.path? origin port).any (·.isOpen) = true) → (s.og.fills = []) →
      (s.og.paths.all (!·.retired) = true) →
      Completes (.originPathFailure origin port) s fun t =>
         t.og = { s.og with paths := s.og.paths.map (fun p => if p.origin == origin && p.port == port then { p with isOpen := false, retryDelayS := 1 } else p) })
  ∧ (∀ (origin port : Nat) (p : OriginPath) (r : OriginRec) (s : State),
      (up s = true) → (s.og.path? origin port = some p) → (s.og.origin? origin = some r) → (p.isOpen = false) →
      (p.retired = false) → (s.mayOpen r = true) →
      Completes (.originPathRetry origin port) s fun t =>
         Emits s t [.originConnect origin port p.link]
         ∧ t.og.paths = s.og.paths.map (fun q => if q.origin == origin && q.port == port && !q.retired then { q with retryDelayS := min 30 (2 * q.retryDelayS) } else q))
  ∧ (∀ (s : State),
      (up s = true) →
      Yields .ttlCheckpoint s { s with og := { s.og with ttl := ((s.pw.powerOnS, s.va.nextSeq) :: s.og.ttl).take 43200 } })
  ∧ (∀ (nsid : Nat) (b : Binding) (s : State),
      (s.bindingOf nsid = some b) → (b.staleOk = true) →
      Completes (.mirrorExpirySweep nsid) s fun t => t = s)
  ∧ (∀ (nsid : Nat) (b : Binding) (s : State),
      (up s = true) → (s.bindingOf nsid = some b) → (b.staleOk = false) →
      (s.recordsOf nsid (fun r => s.unseals r && s.mirrorExpired r) = []) →
      Completes (.mirrorExpirySweep nsid) s fun t => t = s)
  ∧ (∀ (nsid : Nat) (b : Binding) (l : List (Loc × StoredRec)) (s : State),
      (up s = true) → (s.bindingOf nsid = some b) → (b.staleOk = false) →
      (l = s.recordsOf nsid (fun r => s.unseals r && s.mirrorExpired r)) → (s.journalWaits = false) →
      (s.wx.journalUsed + (l.map fun p => ({ type := .delete, nsid := nsid, key := p.2.key } : JRec).blocks).sum ≤ Figure.journalBlocks) →
      Completes (.mirrorExpirySweep nsid) s fun t =>
         t.va.nextSeq = s.va.nextSeq + l.length ∧ t.og.deletes = s.og.deletes
         ∧ t.wx.journal.map (fun j => (j.type, j.nsid, j.key)) = s.wx.journal.map (fun j => (j.type, j.nsid, j.key)) ++ l.map (fun p => (.delete, nsid, p.2.key))
         ∧ t.ix = { (l.foldl (fun u p => u.removeKey nsid p.2.key) s).ix with base := t.ix.base, spillCache := t.ix.spillCache })
  ∧ (∀ (nsid p g : Nat) (key : Key) (f : Fill) (n : Ns) (s : State),
      (up s = true) → (s.og.fills = [f]) → (f.nsid = nsid ∧ f.key = key) → (s.nsOf nsid = some n) → (f.sent = false) → (f.stage = 0) → (f.granule = none) →
      (s.nextPath f = some p) → (s.fillRoom f = true) → (s.wx.waiters = []) →
      ((s.reserve (recGranules n.mode key.length 65536) false).2 = some g) →
      Completes (.fillStart nsid key) s fun t =>
         Emits s t [.originRetrieve f.origin p f.binding.originNsid key 65536 (if key.length ≤ 16 then 0x02 else 0x91)]
         ∧ t.og.fills = [{ f with granule := some g, granules := recGranules n.mode key.length 65536, stage := 1, sent := true, port := p }])
  ∧ (∀ (nsid len : Nat) (key : Key) (data : Bytes) (f : Fill) (s : State),
      (up s = true) → (s.og.fills = [f]) → (f.nsid = nsid ∧ f.key = key) → (f.sent = true) → (f.stage = 1) →
      (len ≤ 65536) →
      Completes (.fillRetrieveComplete nsid key (.value len data)) s fun t =>
         t.og.fills = [{ f with stage := 3, sent := false, len := len, value := data.take len }]
         ∧ t.og.counts = modAt s.og.counts f.origin (fun k => { k with bytes := k.bytes + len }) ∧ t.ix = s.ix ∧ t.va = s.va)
  ∧ (∀ (nsid : Nat) (key : Key) (f : Fill) (s : State),
      (up s = true) → (s.og.fills = [f]) → (f.nsid = nsid ∧ f.key = key) → (f.sent = true) →
      (s.find nsid key = none) → (f.binding.negTtlS = 0) → (s.fl.cmds = []) →
      Completes (.fillRetrieveComplete nsid key .absent) s fun t =>
         t.og.fills = [] ∧ t.og.counts = modAt s.og.counts f.origin (fun k => { k with absent := k.absent + 1 }) ∧ t.og.neg = s.og.neg)
  ∧ (∀ (nsid : Nat) (key : Key) (f : Fill) (s : State),
      (up s = true) → (s.og.fills = [f]) → (f.nsid = nsid ∧ f.key = key) → (f.sent = true) → (f.onFallback = true) →
      (s.fl.cmds = []) → (s.bt.paused = false) →
      Completes (.fillTimeout nsid key) s fun t =>
         t.og.fills = [] ∧ t.og.counts = modAt s.og.counts f.origin (fun k => { k with errors := k.errors + 1 }))
  ∧ (∀ (nsid g : Nat) (key : Key) (f : Fill) (n : Ns) (s : State),
      (up s = true) → (s.og.fills = [f]) → (f.nsid = nsid ∧ f.key = key) → (s.nsOf nsid = some n) → (f.stage = 3) →
      (f.granule = some g) → (f.abandoned = false) → (f.waitsJournal = false) → (s.journalWaits = false) → (roomFor key s = true) →
      (s.find nsid key = none) →
      (s.capacityRefuses nsid key (s.fillRecord f n g).bytes = false) → (s.fl.cmds = []) →
      (s.ix.points (.wax g) = false) →
      Completes (.fillCommit nsid key) s fun t =>
         t.og.fills = [] ∧ t.va.nextSeq = s.va.nextSeq + 1 ∧ (t.wx.staged.lookup g).map (fun r => (r.seq, r.value)) = some (s.va.nextSeq, f.value)
         ∧ t.og.counts = modAt s.og.counts f.origin (fun k => { k with completed := k.completed + 1 })
         ∧ t.wx.journal.map (·.type) = s.wx.journal.map (·.type) ++ [.store])

/-- SUPERFRAME_TIMEOUT takes CHAIN_RDY low and makes a participant elect under the next generation with its own position.
ELECT_RECEIVED of the generation in force forwards the lower of both positions, a newer one starts the election at its
generation, and a relay passes the block as it came. TOKEN_BLOCK of the generation in force adopts the rotation counter (the
Beacon raises it) and passes the token, and one of an older generation changes nothing. TOKEN_TIMEOUT makes the Beacon pass a
new token. SLOT_CLAIM of a waiting key puts its lookup in flight and fills the slot; a slot polled for
another member passes, and the Beacon polls an empty slot for the next member. SLOT_ARRIVAL with a bad CRC voids the
window; the lookup of another drive is sent on, and a relay passes it with its window. WINDOW_RETURN empties the slot: a refused window
waits for another slot; an accepted one with the epoch
unchanged enters the cache and ends the lookup. GLOBAL_LOOKUP_TIMEOUT counts the command as unavailable. CHAIN_RECEIVER_LOCK
drives CHAIN_RDY high. (R312, R313, R316, R317, R318, R319, R322, R531) -/
def Obligations.Elections_tokens_and_windows_complete : Prop :=
  (∀ (s : State),
      (up s = true) → (s.sk.partakes = true) → (s.sk.gen.toNat + 1 < 2 ^ 32) →
      Completes .superframeTimeout s fun t =>
         t.pw.chainRdy = false ∧ t.sk.electing = true ∧ t.sk.ringUp = false ∧ t.sk.gen.toNat = s.sk.gen.toNat + 1 ∧ t.sk.beacon = 255
         ∧ t.sk.elections = s.sk.elections + 1 ∧ t.sk.epoch = s.sk.epoch + 1 ∧ t.sk.replica = s.sk.replica ∧ t.cam = s.cam ∧ t.va = s.va
         ∧ Sends s t (.chain 0xFD (s.sk.gen.toNat + 1) [s.pw.pos]))
  ∧ (∀ (pos gen : Nat) (s : State),
      (up s = true) → (s.sk.partakes = true) → (s.sk.electing = true) → (gen = s.sk.gen.toNat) → (pos ≠ s.pw.pos) →
      Completes (.electReceived pos gen) s fun t =>
         Emits s t [.chain 0xFD gen [min pos s.pw.pos]] ∧ t.sk = { s.sk with electLaps := 0 } ∧ t.cam = s.cam)
  ∧ (∀ (pos gen : Nat) (s : State),
      (up s = true) → (s.sk.partakes = true) → (s.sk.gen.toNat < gen) → (gen < 2 ^ 32) → (pos ≠ s.pw.pos) →
      Completes (.electReceived pos gen) s fun t =>
         t.sk.electing = true ∧ t.sk.gen.toNat = gen ∧ t.sk.elections = s.sk.elections + 1 ∧ Sends s t (.chain 0xFD gen [min pos s.pw.pos]))
  ∧ (∀ (pos gen : Nat) (s : State),
      (up s = true) → (s.sk.partakes = false) →
      Yields (.electReceived pos gen) s { s with out := s.out ++ [.chain 0xFD gen [pos]] })
  ∧ (∀ (s : State),
      (up s = true) → (s.sk.role = 1) → (s.sk.ringUp = true) →
      Completes .tokenTimeout s fun t =>
         Emits s t [.chain 0xFE s.sk.gen.toNat [s.sk.beacon, (s.sk.tokenRot + 1).toNat]] ∧ t.sk.outbox.any (·.1 == 1) = true ∧ t.cam = s.cam)
  ∧ (∀ (gen : Nat) (tok : Token) (s : State),
      (up s = true) → (gen = s.sk.gen.toNat) → (s.sk.electing = false) → (s.sk.outbox = []) → (tok.rot < 65536) →
      (s.sk.role = 1 → tok.rot = s.sk.tokenRot.toNat) → (s.sk.gather = 0) →
      Completes (.tokenBlock gen tok) s fun t =>
         t.sk = { s.sk with tokenRot := if s.sk.role = 1 then s.sk.tokenRot + 1 else BitVec.ofNat 16 tok.rot,
                            beacon := if s.sk.role ≠ 1 ∧ s.sk.partakes = true then tok.beacon else s.sk.beacon }
         ∧ Emits s t [.chain 0xFE gen [if s.sk.role = 1 then s.pw.pos else tok.beacon, t.sk.tokenRot.toNat]])
  ∧ (∀ (gen ty dst : Nat) (tok : Token) (body : List Nat) (rest : List (Nat × Nat × List Nat)) (s : State),
      (up s = true) → (gen = s.sk.gen.toNat) → (s.sk.electing = false) → (s.sk.partakes = true) →
      (s.bt.paused = false) → (s.sk.outbox = (ty, dst, body) :: rest) →
      (s.sk.role = 1 → tok.rot = s.sk.tokenRot.toNat) → (s.sk.gather = 0) →
      Completes (.tokenBlock gen tok) s fun t =>
         t.sk.outbox = rest ∧ t.sk.sent = some (ty, dst, body)
         ∧ Emits s t [.chainMsg (chainFrame ty s.pw.pos dst s.sk.seq s.sk.gen.toNat body), .chain 0xFE gen [if s.sk.role = 1 then s.pw.pos else tok.beacon, t.sk.tokenRot.toNat]])
  ∧ (∀ (gen : Nat) (tok : Token) (s : State),
      (gen < s.sk.gen.toNat) →
      Yields (.tokenBlock gen tok) s s)
  ∧ (∀ (g : GLookup) (s : State),
      (up s = true) → (s.sk.linked = true) → (s.sk.role ≠ 1) → (s.sk.pending = [g]) → (g.inFlight = false) → (s.sk.flushDue = false) →
      Completes (.slotClaim false 0 g.key) s fun t =>
         t.sk.pending = [{ g with inFlight := true, gen := s.sk.gen.toNat, epoch := s.sk.epoch.toNat }]
         ∧ Emits s t [slotOut 1 false s.pw.pos g.key true])
  ∧ (∀ (pos : Nat) (key : BitVec 192) (s : State),
      (up s = true) → (s.sk.linked = true) → (s.sk.role ≠ 1) → (pos ≠ s.pw.pos) →
      Yields (.slotClaim true pos key) s { s with out := s.out ++ [slotOut 0 true pos 0 true] })
  ∧ (∀ (polled : Bool) (pos : Nat) (key : BitVec 192) (s : State),
      (up s = true) → (s.sk.linked = true) → (s.sk.role = 1) → (s.sk.nextPoll s.sk.poll ≠ s.pw.pos) →
      Yields (.slotClaim polled pos key) s
         { s with sk := { s.sk with poll := s.sk.nextPoll s.sk.poll }, out := s.out ++ [slotOut 0 true (s.sk.nextPoll s.sk.poll) 0 true] })
  ∧ (∀ (requester : Nat) (key : BitVec 192) (cells : BitVec 40) (s : State),
      (up s = true) → (s.sk.st = 2) →
      Completes (.slotArrival requester key false cells) s fun t =>
         Emits s t ((if requester = s.pw.pos then [] else [slotOut 1 false requester key false]) ++ [.cells (cells &&& 0xFFFFFFFFF8#40)]) ∧ t.sk.linkErrors = s.sk.linkErrors + 1 ∧ t.cam = s.cam)
  ∧ (∀ (requester : Nat) (key : BitVec 192) (crcOk : Bool) (cells : BitVec 40) (s : State),
      (up s = true) → (s.sk.st ≠ 2) →
      Yields (.slotArrival requester key crcOk cells) s { s with out := s.out ++ [slotOut 1 false requester key crcOk, .cells cells] })
  ∧ (∀ (requester : Nat) (key : BitVec 192) (cells : BitVec 40) (s : State),
      (up s = true) → (s.sk.st = 2) → (s.cam.winner true (lkeyOfBits key) = none) →
      Yields (.slotArrival requester key true cells) s
         { s with out := s.out ++ if requester = s.pw.pos then [.cells 0xFFFFFFFFFF#40] else [slotOut 1 false requester key true, .cells cells] })
  ∧ (∀ (gen : Nat) (cells : BitVec 40) (g : GLookup) (s : State),
      (up s = true) → (gen = s.sk.gen.toNat) → (s.sk.pending = [g]) → (g.inFlight = true) →
      (s.sk.readWindow cells = none) →
      Yields (.windowReturn gen g.key cells) s { s with out := s.out ++ [slotOut 0 false 0 0 true], sk := { s.sk with retries := s.sk.retries + 1, pending := [{ g with inFlight := false }] } })
  ∧ (∀ (gen : Nat) (cells : BitVec 40) (g : GLookup) (w : Option (Nat × Nat)) (s : State),
      (up s = true) → (gen = s.sk.gen.toNat) → (g.gen = gen) → (s.sk.pending = [g]) → (g.inFlight = true) →
      (g.cmds = []) → (g.msgs = []) → (g.epoch = s.sk.epoch.toNat) → (s.sk.readWindow cells = some w) →
      Completes (.windowReturn gen g.key cells) s fun t =>
         t.sk.pending = [] ∧ t.sk.lookups = s.sk.lookups + 1 ∧ t.sk.cache.head? = some { key := g.key, winner := w, epoch := g.epoch } ∧ Emits s t [slotOut 0 false 0 0 true])
  ∧ (∀ (ctrl sq cid : Nat) (c : Cmd) (s : State),
      (up s = true) → (s.cmd? ctrl sq cid = some c) → (c.phase = .waitChain) → (c.forwardedFrom = none) →
      (s.fe.hasQueue c.ctrl c.sq = true) →
      Completes (.globalLookupTimeout ctrl sq cid) s fun t =>
         t.sk.unavailable = s.sk.unavailable + 1 ∧ Sends s t (ioEntry t { ctrl := c.ctrl, sq := c.sq, e := c.e } .policyUnavailable))
  ∧ (∀ (s : State),
      (s.serving = true) →
      Yields .chainReceiverLock s { s with pw := { s.pw with chainRdy := true } })

/-- A CENSUS that leaves no conflict makes its sender the Beacon, ends the election and is forwarded with this drive's position.
Every message of another drive is passed on as it came. A JOIN of the drive's own stack enters the joining drive's row, a LEAVE takes the member's bit, row and words out, PEND marks
the words, SET stores them, FLUSH and every other change of rules raise the cache epoch, DISABLE covers its namespaces, HITS
without a count for this drive change nothing, and REPLICA stores words for a joining drive only. HITS_INTERVAL moves the
wins of this drive into the outbox. STACK_CONFIG enables and starts a join, or leaves and disables; STACK_LEAVE makes the
drive a relay that sends LEAVE; STACK_STATUS answers log C4h. (R307, R312, R314, R318, R320, R321, R322, R323, R325) -/
def Obligations.Chain_messages_complete : Prop :=
  (∀ (h : ChainHdr) (s : State),
      (s.hears h = true) → (s.sk.change = none) → (s.sk.joining = 0) →
      Completes (.census h []) s fun t =>
         t.sk.beacon = h.src ∧ t.sk.electing = false ∧ t.sk.ringUp = true ∧ t.sk.members = 0#16 ||| BitVec.ofNat 16 (2 ^ s.pw.pos)
         ∧ t.sk.gen = BitVec.ofNat 32 h.gen ∧ Sends s t (.chainPass 1 h (s.pw.pos :: s.driveId.map (·.toNat))))
  ∧ (∀ (h : ChainHdr) (driveId : Bytes) (s : State),
      (s.hears h = true) → (s.cam.dir.any (fun p => p.2.disabled && p.2.isGlobal) = false) →
      Completes (.join h s.sk.stackId driveId) s fun t =>
         t.sk.rows = s.sk.rows.filter (·.pos ≠ h.src) ++ [{ pos := h.src, beacon := false, replica := false, driveId := driveId, joinTime := s.now }]
         ∧ t.sk.members = s.sk.members ∧ t.sk.outbox = (if s.sk.role = 1 then s.sk.outbox ++ s.sk.replicaMsgs h.src else s.sk.outbox)
         ∧ Sends s t (.chainPass 2 h ((s.sk.stackId ++ driveId).map (·.toNat))))
  ∧ (∀ (h : ChainHdr) (pos : Nat) (s : State),
      (s.hears h = true) → (pos ≠ s.pw.pos) → (pos < 16) →
      Completes (.leave h pos) s fun t =>
         t.sk.isMember pos = false ∧ t.sk.rows = s.sk.rows.filter (·.pos ≠ pos) ∧ t.sk.epoch = s.sk.epoch + 1
         ∧ t.sk.replica = s.sk.replica.filter (fun p => p.1 / 65536 ≠ pos) ∧ t.cam = s.cam
         ∧ Sends s t (.chainPass 3 h [pos]))
  ∧ (∀ (h : ChainHdr) (a : Nat) (s : State),
      (s.hears h = true) →
      Completes (.pend h [a]) s fun t =>
         t.sk.word h.src a = s.sk.word h.src a ||| 0x200000000#64 ∧ t.sk.epoch = s.sk.epoch ∧ t.cam = s.cam ∧ Emits s t [.chainPass 4 h [a]])
  ∧ (∀ (h : ChainHdr) (a : Nat) (w : BitVec 64) (s : State),
      (s.hears h = true) →
      Completes (.set h [(a, w)]) s fun t =>
         t.sk.word h.src a = w ∧ t.sk.epoch = s.sk.epoch + 1 ∧ t.cam = s.cam ∧ t.sk.disabledGlobal.any (fun x => x.1 == h.src && x.2.1 == a) = false)
  ∧ (∀ (h : ChainHdr) (s : State),
      (s.hears h = true) → (s.sk.isMember h.src = true) → (s.sk.flushDue = false) → (s.sk.rows.all (·.replica) = true) →
      Yields (.flushChain h) s { s with sk := { s.sk with epoch := s.sk.epoch + 1 }, out := s.out ++ [.chainPass 6 h []] })
  ∧ (∀ (h : ChainHdr) (a : Nat) (n m : BitVec 32) (s : State),
      (s.hears h = true) →
      Completes (.disable h a n m) s fun t =>
         t.sk.word h.src a = (s.sk.word h.src a &&& ~~~0x100000000#64) ||| 0x400000000#64 ∧ (h.src, a, n, m) ∈ t.sk.disabledGlobal ∧ t.sk.flags.getLsbD 3 = true
         ∧ t.sk.epoch = s.sk.epoch + 1)
  ∧ (∀ (h : ChainHdr) (cs : List (Nat × Nat × Nat)) (s : State),
      (s.hears h = true) → (cs.all (·.1 != s.pw.pos) = true) →
      Yields (.hits h cs) s { s with out := s.out ++ [.chainPass 8 h (cs.flatMap fun x => [x.1, x.2.1, x.2.2])] })
  ∧ (∀ (h : ChainHdr) (a n : Nat) (s : State),
      (s.hears h = true) →
      Yields (.hits h [(s.pw.pos, a, n)]) s { s.countHit a n with out := s.out ++ [.chainPass 8 h [s.pw.pos, a, n]] })
  ∧ (∀ (s : State),
      (up s = true) → (s.sk.linked = true) → (s.sk.wins = [(3, 7, 2), (3, 7, 1)]) →
      Yields .hitsInterval s { s with sk := { s.sk with wins := [], outbox := s.sk.outbox ++ [(8, 0x80, [3, 7, 3])] } })
  ∧ (∀ (h : ChainHdr) (ws : List (Nat × Nat × BitVec 64)) (s : State),
      (s.hears h = true) → (s.sk.joining ≠ 1) →
      Yields (.replica h ws) s { s with out := s.out ++ [.chainPass 10 h (ws.flatMap fun x => [x.1, x.2.1, x.2.2.toNat])] })
  ∧ (∀ (h : ChainHdr) (pos a : Nat) (w : BitVec 64) (s : State),
      (s.hears h = true) → (s.sk.joining = 1) → (s.cam.globals = []) → (s.sk.gather = 0) →
      (s.cam.dir.any (fun p => p.2.disabled && p.2.isGlobal) = false) →
      Completes (.replica h [(pos, a, w)]) s fun t =>
         t.sk.word pos a = w ∧ t.sk.joining = 3 ∧ t.sk.outbox = s.sk.outbox ++ [(6, 0x80, [])] ∧ t.cam = s.cam)
  ∧ (∀ (m : MsgReq) (s : State),
      (messageOk 0x07 0x01 m s = true) → (m.payload = 1 :: List.replicate 16 5) → (s.sk.enabled = false) →
      Completes (.stackConfig m) s fun t =>
         Answered s t 0x07 0x01 m .success 0 [[]] ∧ t.sk.enabled = true ∧ t.sk.stackId = List.replicate 16 5 ∧ t.sk.st = 1 ∧ t.sk.joining = 1
         ∧ t.sk.outbox.any (·.1 == 2) = true ∧ t.cam = s.cam)
  ∧ (∀ (m : MsgReq) (s : State),
      (messageOk 0x07 0x01 m s = true) → (m.payload = List.replicate 17 0) → (s.mayNotLeave = false) →
      (s.sk.partakes = true) →
      Completes (.stackConfig m) s fun t =>
         Answered s t 0x07 0x01 m .success 0 [[]] ∧ t.sk.enabled = false ∧ t.sk.st = 0 ∧ t.sk.member = false ∧ t.sk.members = 0 ∧ t.sk.outbox = [(3, 0x80, [s.pw.pos])])
  ∧ (∀ (m : MsgReq) (s : State),
      (messageOk 0x07 0x02 m s = true) → (m.payload = []) →
      Completes (.stackStatus m) s fun t => Answered s t 0x07 0x02 m .success 0 [s.logC4] ∧ t.sk = s.sk)
  ∧ (∀ (m : MsgReq) (s : State),
      (messageOk 0x07 0x03 m s = true) → (m.payload = []) → (s.mayNotLeave = false) → (s.sk.partakes = true) →
      Completes (.stackLeave m) s fun t =>
         Answered s t 0x07 0x03 m .success 0 [[]] ∧ t.sk.st = 0 ∧ t.sk.role = 0 ∧ t.sk.member = false ∧ t.sk.members = 0 ∧ t.sk.outbox = [(3, 0x80, [s.pw.pos])]
         ∧ t.sk.enabled = s.sk.enabled)

/-- Each of these events of a link or of flow control answers a next state with its own effect. LINK_NEGOTIATION advertises the port's types and brings the link up at
the highest type both partners have, or leaves it down. LINK_DOWN discards the queued frames, counts them and one link-down event.
FEC_UNCORRECTED_LIMIT counts more than 10 uncorrected codewords and drops the link. PAUSE_RECEIVED in PAUSE mode holds all queues, and in any
other mode is ignored and counted; PFC_RECEIVED in PFC mode holds each named queue whose time is not 0 and lets go of one whose time is 0;
PAUSE_TIME_EXPIRY lets go. XOFF_THRESHOLD raises XOFF with a timer of FFFFh or falls to XON with 0, XOFF_REPEAT sends it again.
PAUSE_WATCHDOG breaks a pause on a queue that waits, PAUSE_WATCHDOG_RESTORE honours pause again, OWN_PAUSE_WATCHDOG stops the drive's own.
(R328, R329, R330, R338, R339, R340, R341, R342) -/
def Obligations.Link_and_flow_control_events_complete : Prop :=
  (∀ (port : Nat) (partner : BitVec 8) (eee : Bool) (wake : Nat) (ty : PhyType) (s : State),
      (up s = true) → ((s.port port).startDisabled = false) → ((s.port port).gatedPs4 = false) →
      ((s.port port).cfg.types ≠ 0) → ((s.port port).link = none) →
      (commonType (s.port port).cfg.types partner = some ty) →
      Completes (.linkNegotiation port (.up partner eee wake)) s fun t =>
         (t.port port).link = some ty ∧ (t.port port).eee = eee ∧ (t.port port).wakeUs = wake ∧ (t.port port).cnt = (s.port port).cnt ∧ t.va = s.va
         ∧ Sends s t (.advertise port (s.port port).cfg.types true ((s.port port).cfg.flow == 1)))
  ∧ (∀ (port : Nat) (s : State),
      (up s = true) → ((s.port port).startDisabled = false) → ((s.port port).gatedPs4 = false) →
      ((s.port port).cfg.types ≠ 0) → ((s.port port).link = none) →
      Completes (.linkNegotiation port .noCommonType) s fun t => (t.port port).link = none ∧ (t.port port).noCommon.isSome = true)
  ∧ (∀ (port : Nat) (ty : PhyType) (s : State),
      (up s = true) → ((s.port port).link = some ty) → ((s.port port).probe = none) →
      Completes (.linkDown port) s fun t =>
         (t.port port).link = none ∧ (t.port port).txq = List.replicate 8 [] ∧ (t.port port).held = List.replicate 8 false
         ∧ (t.port port).cnt = { (s.port port).cnt with txLinkDownDrop := (s.port port).cnt.txLinkDownDrop + (s.port port).txq.flatten.length, linkDownEvents := (s.port port).cnt.linkDownEvents + 1 } ∧ t.out = s.out ∧ t.fe = s.fe)
  ∧ (∀ (port : Nat) (ty : PhyType) (s : State),
      (up s = true) → ((s.port port).link = some ty) → ((s.port port).probe = none) →
      Completes (.fecUncorrectedLimit port) s fun t =>
         (t.port port).link = none ∧ (s.port port).cnt.fecUncorrected + 10 < (t.port port).cnt.fecUncorrected)
  ∧ (∀ (port quanta : Nat) (ty : PhyType) (s : State),
      (up s = true) → ((s.port port).link = some ty) → ((s.port port).cfg.flow = 1) →
      ((s.port port).broken = List.replicate 8 false) →
      Completes (.pauseReceived port quanta) s fun t =>
         t.port port = { s.port port with held := List.replicate 8 (decide (quanta ≠ 0)), cnt := { (s.port port).cnt with pauseRx := (s.port port).cnt.pauseRx + 1 } })
  ∧ (∀ (port quanta : Nat) (ty : PhyType) (s : State),
      (up s = true) → ((s.port port).link = some ty) → ((s.port port).cfg.flow ≠ 1) →
      Completes (.pauseReceived port quanta) s fun t =>
         t.port port = { s.port port with cnt := { (s.port port).cnt with pauseRx := (s.port port).cnt.pauseRx + 1, pauseIgnored := (s.port port).cnt.pauseIgnored + 1 } })
  ∧ (∀ (port : Nat) (enable : BitVec 8) (quanta : List Nat) (ty : PhyType) (s : State),
      (up s = true) → ((s.port port).link = some ty) → ((s.port port).cfg.flow = 2) →
      ((s.port port).broken = List.replicate 8 false) →
      Completes (.pfcReceived port enable quanta) s fun t =>
         (t.port port).held = (List.range 8).foldl (fun h q => if enable.getLsbD q then h.set q (decide (quanta.getD q 0 ≠ 0)) else h) (s.port port).held
         ∧ (t.port port).txq = (s.port port).txq ∧ t.out = s.out)
  ∧ (∀ (port prio : Nat) (s : State),
      (up s = true) →
      Completes (.pauseTimeExpiry port prio) s fun t =>
         t.port port = { s.port port with held := if (s.port port).cfg.flow = 1 then List.replicate 8 false else (s.port port).held.set prio false })
  ∧ (∀ (port prio : Nat) (ty : PhyType) (s : State),
      (up s = true) → ((s.port port).link = some ty) → ((s.port port).cfg.paces prio = true) →
      ((s.port port).ownBroken.getD prio false = false) →
      Completes (.xoffThreshold port prio) s fun t =>
         (t.port port).xoff = (s.port port).xoff.set prio (!(s.port port).xoff.getD prio false)
         ∧ Emits s t [.pause port prio (if (s.port port).xoff.getD prio false then 0 else 0xFFFF)])
  ∧ (∀ (port prio : Nat) (ty : PhyType) (s : State),
      (up s = true) → ((s.port port).link = some ty) → ((s.port port).cfg.paces prio = true) → ((s.port port).xoff.getD prio false = true) →
      Completes (.xoffRepeat port prio) s fun t => Emits s t [.pause port prio 0xFFFF] ∧ (t.port port).xoff = (s.port port).xoff)
  ∧ (∀ (port prio : Nat) (s : State),
      (up s = true) → ((s.port port).cfg.flow = 2) → ((s.port port).held.getD prio false = true) →
      ((s.port port).txq.getD prio [] ≠ []) →
      Completes (.pauseWatchdog port prio) s fun t =>
         (t.port port).held = (s.port port).held.set prio false ∧ (t.port port).broken = (s.port port).broken.set prio true
         ∧ (t.port port).txq = (s.port port).txq)
  ∧ (∀ (port prio : Nat) (s : State),
      (up s = true) → ((s.port port).broken.getD prio false = true) →
      Completes (.pauseWatchdogRestore port prio) s fun t =>
         (t.port port).broken = if (s.port port).cfg.flow = 1 then List.replicate 8 false else (s.port port).broken.set prio false)
  ∧ (∀ (port prio : Nat) (s : State),
      (up s = true) → ((s.port port).xoff.getD prio false = true) →
      Completes (.ownPauseWatchdog port prio) s fun t =>
         (t.port port).xoff = (s.port port).xoff.set prio false ∧ (t.port port).ownBroken = (s.port port).ownBroken.set prio true
         ∧ (t.port port).cnt.wdOwnBreaks = (s.port port).cnt.wdOwnBreaks + 1 ∧ t.out = s.out)

/-- Each of these commands of the ports answers a next state with its own effect. FRAME_RECEIVED counts an oversize frame, one with a wrong
FCS, a good one and one that a full buffer drops each in its own counter; no other port state changes for those that are dropped. FRAME_TRANSMITTED sends the oldest frame of the queue
that may send. TIMESTAMP_READ frees the oldest entry of the timestamp queue. LPI_ENTRY starts Low Power Idle on a port that resolved EEE, has
no frame and no XOFF and whose partner's wake time is within the limit. A CE-marked packet on an RDMA connection sends one congestion
notification, and one received halves the queue pair's rate. LINK_PROBE starts a burst of count frames in the queue of class 6.
PORT_SNAPSHOT takes the next snapshot and answers it, PORT_STATS answers the one taken, PORT_SET makes its record the one in force, PORT_GET
answers the record, IF_SET defines an interface in the place of any of its index. (R332, R333, R336, R337, R344, R347, R349, R350, R351) -/
def Obligations.Frames_and_port_messages_complete : Prop :=
  (∀ (port : Nat) (f : Frame) (ty : PhyType) (s : State),
      (up s = true) → ((s.port port).link = some ty) → (9216 < f.len) →
      Completes (.frameReceived port f) s fun t =>
         t.port port = { s.port port with cnt := { (s.port port).cnt with rxOversize := (s.port port).cnt.rxOversize + 1 } })
  ∧ (∀ (port : Nat) (f : Frame) (ty : PhyType) (s : State),
      (up s = true) → ((s.port port).link = some ty) → (64 ≤ f.len) → (f.len ≤ 9216) → (f.fcsOk = false) →
      Completes (.frameReceived port f) s fun t =>
         t.port port = { s.port port with cnt := { (s.port port).cnt with rxFcsErr := (s.port port).cnt.rxFcsErr + 1 } })
  ∧ (∀ (port : Nat) (f : Frame) (ty : PhyType) (s : State),
      (up s = true) → ((s.port port).link = some ty) → (64 ≤ f.len) → (f.len ≤ 9216) → (f.fcsOk = true) →
      (f.sTag = false) → (f.vlan = none) → (f.dest = 0xFFFFFFFFFFFF#48) → ((s.port port).cfg.paces 0 = false) → (f.full = false) →
      Completes (.frameReceived port f) s fun t =>
         (t.port port).cnt.rxFramesOk = (s.port port).cnt.rxFramesOk + 1 ∧ (t.port port).cnt.rxOctets = (s.port port).cnt.rxOctets + f.len
         ∧ (t.port port).cnt.rxFcsErr = (s.port port).cnt.rxFcsErr ∧ (t.port port).occupancy = (s.port port).occupancy ∧ t.out = s.out)
  ∧ (∀ (port : Nat) (f : Frame) (ty : PhyType) (s : State),
      (up s = true) → ((s.port port).link = some ty) → (64 ≤ f.len) → (f.len ≤ 9216) → (f.fcsOk = true) →
      (f.sTag = false) → (f.vlan = none) → (f.dest = 0xFFFFFFFFFFFF#48) → ((s.port port).cfg.paces 0 = false) → (f.full = true) →
      Completes (.frameReceived port f) s fun t =>
         t.port port = { s.port port with cnt := { (s.port port).cnt with rxBufferDrop := (s.port port).cnt.rxBufferDrop + 1 } })
  ∧ (∀ (port q : Nat) (f : TxFrame) (rest : List TxFrame) (ty : PhyType) (s : State),
      (up s = true) → ((s.port port).link = some ty) → ((s.port port).nextQueue s.free = some q) →
      ((s.port port).txq.getD q [] = f :: rest) → (f.wantsTs = false) → (f.probe = false) →
      ((s.port port).probe = none) →
      Completes (.frameTransmitted port) s fun t =>
         Emits s t [.frame port q f false (f.wire port q)] ∧ (t.port port).txq = (s.port port).txq.set q rest ∧ (t.port port).cnt.txFrames = (s.port port).cnt.txFrames + 1
         ∧ (t.port port).tsq = (s.port port).tsq ∧ (t.port port).lpi = false)
  ∧ (∀ (port : Nat) (e : TsEntry) (rest : List TsEntry) (s : State),
      (up s = true) → ((s.port port).tsq = e :: rest) → (e.probe = false) → ((s.port port).probe = none) →
      Completes (.timestampRead port) s fun t => t.port port = { s.port port with tsq := rest } ∧ t.tm = s.tm)
  ∧ (∀ (port : Nat) (ty : PhyType) (s : State),
      (up s = true) → ((s.port port).link = some ty) → ((s.port port).eee = true) →
      ((s.port port).wakeUs ≤ s.wakeLimit port) → ((s.port port).txq = List.replicate 8 []) →
      ((s.port port).xoff = List.replicate 8 false) →
      (3 ≤ s.pw.psNow ∨ (s.port port).cfg.services.getLsbD 3 = true) →
      Completes (.lpiEntry port) s fun t => t.port port = { s.port port with lpi := true })
  ∧ (∀ (conn : Nat) (k : Conn) (s : State),
      (up s = true) → (s.fe.conn? conn = some k) → (k.rdma = true) → (k.cnpSent ≤ s.mono) →
      Completes (.ceMarkedPacket conn) s fun t => Emits s t [.cnp conn] ∧ t.fl = s.fl ∧ (t.fe.conns.map (·.id)) = s.fe.conns.map (·.id))
  ∧ (∀ (conn : Nat) (s : State),
      (up s = true) →
      Completes (.cnpReceived conn) s fun t =>
         t.fe.conns = s.fe.conns.map (fun k => if k.id == conn then (if k.rdma then { k with rate := k.rate / 2, slowed := some (s.mono, k.rate / 2) } else k) else k) ∧ t.out = s.out)
  ∧ (∀ (m : MsgReq) (port n len : Nat) (ty : PhyType) (s : State),
      (messageOk 0x0A 0x10 m s = true) → (m.payload.length = 16) → (natAt m.payload 0 1 = port) → (port < 2) →
      (natAt m.payload 1 1 = 255 ∨ (s.port port).ifs.any (·.index == natAt m.payload 1 1) = true) →
      (natAt m.payload 2 2 = n) → (1 ≤ n) → (n ≤ 1024) → (natAt m.payload 4 2 = len) → (64 ≤ len) → (len ≤ 9216) →
      (len ≤ (s.port port).cfg.mtu + 22) → (natAt m.payload 12 4 = 0) → ((s.port port).link = some ty) → ((s.port port).probe = none) →
      Completes (.linkProbe m) s fun t =>
         (t.port port).probe = some { count := n, len := len, req := s.named m }
         ∧ (t.port port).txq = modAt (s.port port).txq ((s.port port).cfg.classPcp.getD 6 0)
             (· ++ (List.range n).map fun i =>
               { len := len, tag := i, wantsTs := true, probe := true, dest := BitVec.ofNat 48 (leNat (bytesAt m.payload 6 6).reverse),
                 vlan := (s.port port).tagOf (natAt m.payload 1 1), cls := 6, dscp := (s.port port).cfg.classDscp.getD 6 0 })
         ∧ t.port (1 - port) = s.port (1 - port))
  ∧ (∀ (m : MsgReq) (s : State),
      (messageOk 0x0E 0x02 m s = true) → (m.payload = []) → (s.pt.a.cnt.prio.length = 8) →
      (s.pt.b.cnt.prio.length = 8) →
      Completes (.portSnapshot m) s fun t =>
         t.pt.snapGen = s.pt.snapGen + 1 ∧ Answered s t 0x0E 0x02 m .success 0 [t.pt.snap] ∧ t.pt.snap.take 8 = leBytes 8 (s.pt.snapGen + 1)
         ∧ t.pt.snap.length = 2080)
  ∧ (∀ (m : MsgReq) (s : State),
      (messageOk 0x0E 0x03 m s = true) → (m.payload = []) →
      Completes (.portStats m) s fun t => Answered s t 0x0E 0x03 m .success 0 [s.pt.snap] ∧ t.pt = s.pt)
  ∧ (∀ (m : MsgReq) (port : Nat) (c : PortCfg) (s : State),
      (messageOk 0x01 0x0C m s = true) → (m.payload.length = 64) → (portCfgBad m.payload = none) →
      (natAt m.payload 0 1 = port) → (portCfgOf m.payload = c) →
      Completes (.portSet m) s fun t => Answered s t 0x01 0x0C m .success 0 [[]] ∧ (t.port port).cfg = c ∧ t.va = s.va)
  ∧ (∀ (m : MsgReq) (port : Nat) (s : State),
      (messageOk 0x01 0x0D m s = true) → (m.payload.length = 1) → (natAt m.payload 0 1 = port) → (port < 2) →
      Completes (.portGet m) s fun t => Answered s t 0x01 0x0D m .success 0 [(s.port port).cfg.bytes port] ∧ t.pt = s.pt)
  ∧ (∀ (m : MsgReq) (port : Nat) (i : IpIf) (s : State),
      (messageOk 0x01 0x0B m s = true) → (m.payload.length = 12 + 16 * natAt m.payload 9 1) → (natAt m.payload 0 1 = port) → (port < 2) →
      (ipIfOf m.payload = i) → (i.index < 16) → (i.vlan < 4095) →
      ((s.port port).ifs.any (fun x => x.index ≠ i.index && x.vlan == i.vlan) = false) → (natAt m.payload 8 1 ≤ 32) →
      (i.ipv6.length ≤ 4) → (natAt m.payload 10 2 = 0) →
      (s.fe.conns.all (fun k => k.port != port || decide (k.addr ∈ i.addrs port)
        || !decide (k.addr ∈ (s.port port).ifs.flatMap fun x => x.addrs port)) = true) →
      ((s.tm.ptpPort port).enabled = false) →
      Completes (.ifSet m) s fun t =>
         Answered s t 0x01 0x0B m .success 0 [[]] ∧ (t.port port).ifs = (s.port port).ifs.filter (·.index ≠ i.index) ++ [i]
         ∧ (t.port (1 - port)).ifs = (s.port (1 - port)).ifs ∧ t.fe.conns = s.fe.conns)

/-- ANNOUNCE_RECEIVED outside the limits of R358 is counted and ignored, and one within them from the first master makes it
the chosen one. SYNC_EXCHANGE of the chosen master enters the servo, one with a lost timestamp does not. PTP_MESSAGE_TIMEOUT
forgets the port's masters. PPS_EDGE less than 0.5 s after the last is counted and ignored, any other enters the PPS servo and
moves the epoch by one second; PPS_TIMEOUT ends the epoch and the qualification. HOLDOVER_EXPIRY makes the drive Untraced
where no reference is qualified. LEAP_SECOND inserts or deletes the announced second at the end of the day. DELAY_REQ_INTERVAL
sends a Delay_Req on the chosen master's port, queued there with a timestamp asked for. TIME_STATUS and TIME_SPANS answer,
TIME_SET_EPOCH sets the epoch, TIME_CONFIG sets the configuration in force. (R353, R357, R358, R359, R360, R361, R365, R369,
R529, R540) -/
def Obligations.Time_events_and_messages_complete : Prop :=
  (∀ (port : Nat) (an : Announce) (s : State),
      (up s = true) → (s.tm.servoOn = true) → ((s.tm.ptpPort port).enabled = true) →
      ((s.tm.ptpPort port).usable = true) → (an.domain ≠ s.tm.domain) →
      Yields (.announceReceived port an) s { s with tm := { s.tm with ptpIgnored := s.tm.ptpIgnored + 1 } })
  ∧ (∀ (port : Nat) (an : Announce) (s : State),
      (up s = true) → (s.tm.servoOn = true) → ((s.tm.ptpPort port).enabled = true) →
      ((s.tm.ptpPort port).usable = true) → (an.domain = s.tm.domain) →
      (an.transport = (s.tm.ptpPort port).transport) → (an.iface = (s.tm.ptpPort port).iface) → (0 ≤ an.logInterval) → (an.logInterval ≤ 4) →
      (s.tm.masters = []) → (s.tm.master = none) → (s.tm.st = .untraced) → (s.tm.pps.qualified = false) →
      Completes (.announceReceived port an) s fun t =>
         t.tm.masters = [⟨port, an⟩] ∧ t.tm.master = some (port, an.master) ∧ t.tm.gm = an.gm ∧ t.tm.st = .untraced ∧ t.out = s.out)
  ∧ (∀ (port : Nat) (offset phase logSync : Int) (mid : Nat) (s : State),
      (up s = true) → (s.tm.servoOn = true) → (s.tm.master = some (port, mid)) → (-4 ≤ logSync) → (logSync ≤ 1) →
      (s.tm.ptp.qualified = false) → (s.tm.ptp.run < 15) → ((s.port port).tsMissed = false) →
      Completes (.syncExchange port offset phase logSync false) s fun t =>
         t.tm.ptp = s.tm.ptp.enter offset (s.tm.utcPhase port phase) s.tm.asym ∧ t.tm.offset = offset ∧ t.tm.st = s.tm.st)
  ∧ (∀ (port : Nat) (offset phase logSync : Int) (mid : Nat) (s : State),
      (up s = true) → (s.tm.servoOn = true) → (s.tm.master = some (port, mid)) → (-4 ≤ logSync) → (logSync ≤ 1) →
      Yields (.syncExchange port offset phase logSync true) s (s.modPort port fun p => { p with tsMissed := false }))
  ∧ (∀ (port mid : Nat) (s : State),
      (up s = true) → (s.tm.master = some (port, mid)) → (s.tm.masters.all (·.port == port) = true) →
      (s.tm.st = .untraced) → (s.tm.pps.qualified = false) →
      Completes (.ptpMessageTimeout port) s fun t =>
         t.tm.masters = [] ∧ t.tm.master = none ∧ t.tm.ptp.qualified = false ∧ t.tm.st = .untraced)
  ∧ (∀ (offset : Int) (gapMs e : Nat) (s : State),
      (up s = true) → (s.tm.servoOn = true) → (s.tm.ppsOn = true) → (s.tm.lastEdge = some e) → (gapMs < 500) →
      Yields (.ppsEdge offset gapMs) s { s with tm := { s.tm with ppsIgnored := s.tm.ppsIgnored + 1 } })
  ∧ (∀ (offset : Int) (gapMs e : Nat) (s : State),
      (up s = true) → (s.tm.servoOn = true) → (s.tm.ppsOn = true) → (500 ≤ gapMs) → (s.tm.ppsEpoch = some e) →
      (s.tm.pps.qualified = false) → (s.tm.pps.run < 15) →
      Completes (.ppsEdge offset gapMs) s fun t =>
         t.tm.ppsEpoch = some (e + 1) ∧ t.tm.lastEdge = some s.tm.mono ∧ t.tm.offset = offset - s.ppsDelay
         ∧ t.tm.pps = s.tm.pps.enter (offset - s.ppsDelay) ((e : Int) * 1000000000 - s.tm.clock + s.ppsDelay) s.tm.asym ∧ t.tm.ppsIgnored = s.tm.ppsIgnored)
  ∧ (∀ (s : State),
      (up s = true) → (s.tm.ppsOn = true) → (s.tm.st = .untraced) → (s.tm.ptp.qualified = false) →
      Completes .ppsTimeout s fun t =>
         t.tm = { s.tm with ppsEpoch := none, pps := { s.tm.pps with qualified := false, run := 0 } } ∧ t.out = s.out)
  ∧ (∀ (s : State),
      (up s = true) → (s.tm.st = .holdover) → (s.tm.ptp.qualified = false) → (s.tm.pps.qualified = false) →
      Completes .holdoverExpiry s fun t => t.tm.st = .untraced ∧ t.tm.slew = none ∧ t.tm.clock = s.tm.clock)
  ∧ (∀ (s : State),
      (up s = true) → (s.tm.leap = 1) → (s.tm.leapNow = false) → (s.tm.leapDay = none) →
      Completes .leapSecond s fun t =>
         t.tm.clock = (s.now / 86400000000000 + 1) * 86400000000000 - 1 ∧ t.tm.leapNow = true ∧ t.tm.leap = 0 ∧ t.tm.mono = s.tm.mono
         ∧ t.tm.ppsEpoch = s.tm.ppsEpoch.map (· - 1))
  ∧ (∀ (s : State),
      (up s = true) → (s.tm.leap = 2) → (s.tm.leapNow = false) → (s.tm.leapDay = none) →
      Completes .leapSecond s fun t =>
         t.tm.clock = (s.now / 86400000000000 + 1) * 86400000000000 ∧ t.tm.leapNow = false ∧ t.tm.leap = 0 ∧ t.tm.ppsEpoch = s.tm.ppsEpoch.map (· + 1))
  ∧ (∀ (port mid : Nat) (s : State),
      (up s = true) → (s.tm.servoOn = true) → (s.tm.master = some (port, mid)) →
      Completes .delayReqInterval s fun t =>
         Emits s t [.delayReq port] ∧ t.tm = s.tm ∧ t.pt = (s.enqueue port 0 (s.delayReqFrame port)).pt)
  ∧ (∀ (m : MsgReq) (s : State),
      (messageOk 0x0C 0x01 m s = true) → (m.payload = []) → (s.tm.st = .untraced) →
      Completes (.timeStatus m) s fun t =>
         Answered s t 0x0C 0x01 m .success 0 [[s.tq] ++ leBytes 1 ((s.tm.master.map (·.1)).getD 255)
           ++ leBytes 2 (s.tm.conflict.toNat + 2 * s.tm.ppsEpoch.isSome.toNat) ++ leBytes 4 s.tm.asym ++ leBytes 8 s.tm.clock ++ List.replicate 8 0xFF
           ++ intBytes 8 s.tm.offset ++ leBytes 8 s.tm.gm.toNat ++ List.replicate 4 0 ++ leBytes 4 (s.tm.spans.any (·.trace.isNone)).toNat] ∧ t.tm = s.tm)
  ∧ (∀ (m : MsgReq) (s : State),
      (messageOk 0x0C 0x02 m s = true) → (m.payload = [0, 0, 0, 0, 9, 1, 1, 0, 200, 0, 0, 0, 0, 0, 0, 0]) →
      (s.tm.st = .untraced) → (s.tm.pps.qualified = false) → (s.tm.ptp.qualified = false) →
      Completes (.timeConfig m) s fun t =>
         Answered s t 0x0C 0x02 m .success 0 [[]] ∧ t.tm.domain = 9 ∧ t.tm.ppsOn = true ∧ t.tm.prefer = 1 ∧ t.tm.asym = 200
         ∧ t.tm.ptpA.enabled = false ∧ t.tm.masters = [] ∧ t.tm.clock = s.tm.clock)
  ∧ (∀ (m : MsgReq) (e : Nat) (s : State),
      (messageOk 0x0C 0x03 m s = true) → (m.payload = [5, 0, 0, 0, 0, 0, 0, 0, 1, 0, 0, 0, 7, 0, 0, 0]) →
      (s.tm.ppsOn = true) → (s.tm.lastEdge = some e) → (s.mono ≤ e + 2000000000) → (s.tm.pps.qualified = true ∨ s.tm.pps.run < 16) →
      Completes (.timeSetEpoch m) s fun t =>
         Answered s t 0x0C 0x03 m .success 0 [[]] ∧ t.tm = { s.tm with ppsEpoch := some 5, leap := 1, leapDay := some 7 })
  ∧ (∀ (m : MsgReq) (p : Span) (s : State),
      (messageOk 0x0C 0x04 m s = true) → (m.payload = []) → (s.tm.spans = [p]) → (p.trace = none) →
      Completes (.timeSpans m) s fun t =>
         Answered s t 0x0C 0x04 m .success 0 [leBytes 8 p.first ++ leBytes 8 p.last ++ List.replicate 8 0xFF] ∧ t.tm = s.tm)

/-- An engine at an INC word goes on at the next address; at BR at the target, and in a native program a taken branch back is a
sample point where a SUSPEND request stops the engine; at BRC at the target where the condition holds after the word's own
data path, else at the next address; CALL pushes the return address, RET pops it; SAFE goes on, or stops at a SUSPEND
request; WAIT goes on where its condition holds and waits otherwise, a Taper sequencer stops; HALT ends a factory routine,
and a program's last key ends the listing with the count so far. LOAD_RETURN writes the value of the oldest load,
HASH_JOB_DONE holds the SHA3-384 of the key window, KEY_LIMIT_EXCEEDED is a program fault of code 01h, CMD_BUDGET_REACHED
ends a listing that has a key, and MICROCODE_WORD_UNCORRECTABLE restarts a factory routine. (R371, R373, R374, R375, R376,
R378, R379, R380, R383, R399, R400) -/
def Obligations.Microwords_complete : Prop :=
  (∀ (u : EngineId) (s : State),
      (s.standsAt u 0 = true) → (s.wordFails u = false) → ((s.engine u).waiting = false) →
      Completes (.inc u) s fun t =>
         (t.engine u).pc = (s.engine u).pc + 1 ∧ (t.engine u).regs = ((s.firstCycle u).engine u).regs ∧ (t.engine u).stack = (s.engine u).stack
         ∧ (t.engine u).running = true ∧ t.fl = s.fl ∧ t.ix = s.ix)
  ∧ (∀ (u : EngineId) (s : State),
      (s.standsAt u 1 = true) → (s.wordFails u = false) → ((s.engine u).waiting = false) →
      ((s.engine u).prog = none ∨ (s.engine u).forerunner = true) →
      Completes (.br u) s fun t =>
         (t.engine u).pc = mwTgt (s.me.word u (s.engine u).pc) ∧ (t.engine u).stack = (s.engine u).stack ∧ t.fl = s.fl)
  ∧ (∀ (u : EngineId) (s : State),
      (s.standsAt u 1 = true) → (s.wordFails u = false) → ((s.engine u).waiting = false) → ((s.engine u).prog.isSome = true) →
      ((s.engine u).forerunner = false) → (mwTgt (s.me.word u (s.engine u).pc) < (s.engine u).pc) →
      ((s.engine u).abortReq = false) → ((s.engine u).suspendReq = true) →
      Completes (.br u) s fun t =>
         (t.engine u).pc = mwTgt (s.me.word u (s.engine u).pc) ∧ (t.engine u).suspended = true ∧ (t.engine u).running = false
         ∧ (t.engine u).suspendReq = false)
  ∧ (∀ (u : EngineId) (s : State),
      (s.standsAt u 2 = true) → (s.wordFails u = false) → ((s.engine u).waiting = false) → ((s.engine u).abortReq = false) →
      ((s.engine u).suspendReq = false) →
      Completes (.brc u) s fun t =>
         (t.engine u).pc = (if condHolds u s.pin ((s.firstCycle u).engine u) (s.me.word u (s.engine u).pc) then mwTgt (s.me.word u (s.engine u).pc)
           else (s.engine u).pc + 1) ∧ t.free = s.free + 1)
  ∧ (∀ (u : EngineId) (s : State),
      (s.standsAt u 3 = true) → (s.wordFails u = false) → ((s.engine u).waiting = false) →
      ((s.engine u).stack.length < (if (s.engine u).prog.isSome then 4 else 8)) →
      Completes (.call u) s fun t =>
         (t.engine u).pc = mwTgt (s.me.word u (s.engine u).pc) ∧ (t.engine u).stack = ((s.engine u).pc + 1) :: (s.engine u).stack)
  ∧ (∀ (u : EngineId) (a : Nat) (rest : List Nat) (s : State),
      (s.standsAt u 4 = true) → (s.wordFails u = false) → ((s.engine u).waiting = false) → ((s.engine u).stack = a :: rest) →
      Completes (.ret u) s fun t => (t.engine u).pc = a ∧ (t.engine u).stack = rest)
  ∧ (∀ (u : EngineId) (s : State),
      (s.standsAt u 5 = true) → (s.wordFails u = false) → ((s.engine u).waiting = false) →
      ((s.engine u).abortReq = false ∨ (s.engine u).forerunner = true) →
      Completes (.safe u) s fun t =>
         (t.engine u).pc = (s.engine u).pc + 1
         ∧ (t.engine u).suspended
             = (((s.engine u).suspendReq && !(s.engine u).forerunner && s.suspendable u ((s.engine u).pc + 1)) || (s.engine u).suspended)
         ∧ (t.engine u).running = ((s.engine u).forerunner || !((s.engine u).suspendReq && s.suspendable u ((s.engine u).pc + 1))))
  ∧ (∀ (n : Nat) (s : State),
      (s.standsAt (.wick n) 6 = true) → (s.wordFails (.wick n) = false) → ((s.engine (.wick n)).waiting = false) →
      Completes (.wait (.wick n)) s fun t =>
         if condHolds (.wick n) s.pin ((s.firstCycle (.wick n)).engine (.wick n)) (s.me.word (.wick n) (s.engine (.wick n)).pc)
         then (t.engine (.wick n)).waiting = false ∧ (t.engine (.wick n)).pc = (s.engine (.wick n)).pc + 1
         else (t.engine (.wick n)).waiting = true ∧ (t.engine (.wick n)).pc = (s.engine (.wick n)).pc)
  ∧ (∀ (n : Nat) (s : State),
      (s.standsAt (.wick n) 6 = true) → ((s.engine (.wick n)).waiting = true) →
      Completes (.wait (.wick n)) s fun t =>
         t.engine (.wick n) =
           (if condHolds (.wick n) s.pin (s.engine (.wick n)) (s.me.word (.wick n) (s.engine (.wick n)).pc)
            then { s.engine (.wick n) with waiting := false, pc := (s.engine (.wick n)).pc + 1 } else s.engine (.wick n)) ∧ t.fl = s.fl)
  ∧ (∀ (n : Nat) (s : State),
      (s.standsAt (.taper n) 6 = true) →
      Completes (.wait (.taper n)) s fun t => (t.engine (.taper n)).stopped = true ∧ (t.engine (.taper n)).pc = (s.engine (.taper n)).pc)
  ∧ (∀ (u : EngineId) (s : State),
      (s.standsAt u 7 = true) → (s.wordFails u = false) → ((s.engine u).waiting = false) → ((s.engine u).prog = none) →
      ((s.engine u).heldFault = none) → ((s.engine u).abortReq = false) → (s.fe.jobs = []) → (s.me.unloads = []) →
      (s.me.progs.all (fun p => !p.draining) = true) → (s.fl.cmds = []) →
      Completes (.halt u) s fun t => (t.engine u).running = false ∧ (t.engine u).stack = [] ∧ t.fl = s.fl ∧ t.out = s.out)
  ∧ (∀ (n : Nat) (c : Cmd) (p : Program) (s : State),
      (s.standsAt (.wick n) 7 = true) → (s.wordFails (.wick n) = false) → ((s.engine (.wick n)).waiting = false) →
      (s.me.wick.filter (fun x => x.1 != n) = []) → (s.progOf (s.engine (.wick n)) = some p) →
      (s.me.prog? (fieldsOf c.kind c.e).progId = some p) → (s.servedBy (s.engine (.wick n)) = some c) → ((s.engine (.wick n)).heldFault = none) →
      ((s.engine (.wick n)).abortReq = false) → ((s.engine (.wick n)).drainReq = false) →
      (c.evals = [((s.engine (.wick n)).keyWindow, none)]) →
      (((s.firstCycle (.wick n)).engine (.wick n)).cycles ≤ p.keyLimit) → ((((s.firstCycle (.wick n)).engine (.wick n)).reg 1).getLsbD 0 = false) →
      (s.me.progs.all (fun q => !q.draining) = true) → (c.count = 0) → (c.rateCharged = false) →
      (c.forwardedFrom = none) → (c.granule = none) → (s.bt.paused = false) →
      (s.listFrom c.e.nsid (s.engine (.wick n)).keyWindow 240 = []) → (s.fl.cmds = [c]) → (s.fe.jobs = []) →
      (s.me.unloads = []) → (s.fe.hasQueue c.ctrl c.sq = true) →
      Completes (.halt (.wick n)) s fun t =>
         (t.engine (.wick n)).running = false ∧ t.fl.cmds = [] ∧ Sends s t (ioEntry t { ctrl := c.ctrl, sq := c.sq, e := c.e }))
  ∧ (∀ (n dst due : Nat) (x : BitVec 64) (rest : List (Nat × BitVec 64 × Nat)) (s : State),
      (up s = true) → ((s.engine (.wick n)).loads = (dst, x, due) :: rest) → ((s.engine (.wick n)).waiting = false) →
      (dst ≠ 0) → (dst < (s.engine (.wick n)).regs.length) →
      Completes (.loadReturn n) s fun t =>
         (t.engine (.wick n)).reg dst = x ∧ (t.engine (.wick n)).loads = rest ∧ (t.engine (.wick n)).memReady = true
         ∧ (t.engine (.wick n)).regs = (s.engine (.wick n)).regs.set dst x ∧ (t.engine (.wick n)).pc = (s.engine (.wick n)).pc)
  ∧ (∀ (n : Nat) (s : State),
      (up s = true) → ((s.engine (.wick n)).hashBusy = true) → ((s.engine (.wick n)).waiting = false) →
      Completes (.hashJobDone n) s fun t =>
         (t.engine (.wick n)).hash = sha3_384 (s.engine (.wick n)).keyWindow ∧ (t.engine (.wick n)).hashReady = true
         ∧ (t.engine (.wick n)).hashBusy = false ∧ (t.engine (.wick n)).regs = (s.engine (.wick n)).regs)
  ∧ (∀ (n : Nat) (c : Cmd) (s : State),
      (up s = true) → ((s.engine (.wick n)).running = true) → ((s.engine (.wick n)).prog.isSome = true) →
      (s.overLimit (.wick n) = true ∨ (s.engine (.wick n)).waiting = true) →
      (s.servedBy (s.engine (.wick n)) = some c) → (c.forwardedFrom = none) → (s.fl.cmds = [c]) → (s.fe.jobs = []) →
      (s.me.unloads = []) → (s.me.progs.all (fun q => !q.draining) = true) → (s.fe.hasQueue c.ctrl c.sq = true) →
      Completes (.keyLimitExceeded n) s fun t =>
         (t.engine (.wick n)).running = false ∧ t.fl.cmds = []
         ∧ Sends s t (.cqe c.ctrl c.sq c.e.cid .internalError true 1
             (BitVec.ofNat 32 ((s.engine (.wick n)).pc - ((s.progOf (s.engine (.wick n))).map (·.microBase)).getD 0)) (t.sqHead c.ctrl c.sq) (sglInv c.e.sgl)))
  ∧ (∀ (ctrl sq cid : Nat) (c : Cmd) (p : Program) (s : State),
      (up s = true) → (s.cmd? ctrl sq cid = some c) → (c.kind = .filteredList) → (c.phase = .running) →
      (0 < c.count) → (c.rateCharged = false) → (c.forwardedFrom = none) → (s.fl.cmds = [c]) → (s.me.wick = []) →
      (s.fe.jobs = []) → (s.me.unloads = []) → (s.me.progs = [p]) → (p.id = (fieldsOf c.kind c.e).progId) → (p.draining = false) → (p.budget ≤ c.spent) →
      (s.fe.hasQueue c.ctrl c.sq = true) →
      Completes (.cmdBudgetReached ctrl sq cid) s fun t =>
         t.fl.cmds = [] ∧ Sends s t (ioEntry t { ctrl := c.ctrl, sq := c.sq, e := c.e } .success c.count 3))
  ∧ (∀ (n addr : Nat) (s : State),
      (up s = true) → (n < 64) → ((s.engine (.wick n)).running = true) → ((s.engine (.wick n)).prog = none) →
      (addr ∈ s.me.ramFetched (.wick n) (s.engine (.wick n)).pc) →
      Completes (.microcodeWordUncorrectable (.wick n) addr) s fun t =>
         t.engine (.wick n) = { s.engine (.wick n) with pc := (s.engine (.wick n)).start, stack := [], waiting := false } ∧ t.fl = s.fl)

/-- UCODE_STATUS answers the microcode versions and the loaded programs. UCODE_STAGE stages its bytes for its mailbox.
UCODE_COMMIT of an image that passes the checks loads the program and empties the staging buffer; of one that fails it
answers the reason, loads nothing and empties the buffer too. UCODE_UNLOAD of a program no engine runs removes it and its
stored image at once. UCODE_ABANDON empties the staging buffer. CUST_KEY_ADD of a key that decodes fills its slot, one that
does not decode is refused; CUST_KEY_REMOVE clears a slot none of whose programs run; CUST_KEY_LIST answers slot and key
identifier. (R385, R388, R390, R391, R392, R396) -/
def Obligations.Program_messages_complete : Prop :=
  (∀ (m : MsgReq) (s : State),
      (messageOk 0x08 0x01 m s = true) → (m.payload = []) → (s.me.progs = []) →
      Completes (.ucodeStatus m) s fun t => Answered s t 0x08 0x01 m .success 0 [leBytes 8 s.mcvWick ++ leBytes 8 s.mcvTaper] ∧ t.me = s.me)
  ∧ (∀ (m : MsgReq) (b : Byte) (s : State),
      (messageOk 0x08 0x02 m s = true) → (m.payload = [5, 0, 0, 0, 1, 0, 0, 0, b]) →
      (s.me.stagingBy = none ∨ s.me.stagingBy = some m.mbox) →
      Completes (.ucodeStage m) s fun t =>
         Answered s t 0x08 0x02 m .success 0 [[]] ∧ t.me.stagingBy = some m.mbox ∧ t.me.staging = s.me.staging.filter (fun y => y.1 ≠ 5) ++ [(5, b)]
         ∧ t.me.progs = s.me.progs)
  ∧ (∀ (m : MsgReq) (n : Nat) (s : State),
      (messageOk 0x08 0x03 m s = true) → (m.payload.length = 4) → (n = natAt m.payload 0 4) → (n ≤ 65536) →
      Completes (.ucodeCommit m) s fun t =>
         t.me.staging = [] ∧ t.me.stagingBy = none ∧ match s.me.judgeImage (s.me.staged n) s.now with
         | .ok p => Answered s t 0x08 0x03 m .success 0 [[]] ∧ t.me.progs = s.me.progs ++ [p] ∧ t.me.stored.lookup p.id = some p.image
         | .error r => Answered s t 0x08 0x03 m .invalidField (65536 * r) [leBytes 1 r] ∧ t.me.progs = s.me.progs ∧ t.me.stored = s.me.stored)
  ∧ (∀ (m : MsgReq) (p : Program) (s : State),
      (messageOk 0x08 0x04 m s = true) → (m.payload = [1, 0]) → (s.me.progs = [p]) → (p.id = 1) → (s.me.wick = []) →
      (s.me.unloads = []) →
      Completes (.ucodeUnload m) s fun t =>
         Answered s t 0x08 0x04 m .success 0 [[]] ∧ t.me.progs = [] ∧ t.me.stored.lookup 1 = none ∧ t.me.customer = s.me.customer + 1)
  ∧ (∀ (m : MsgReq) (s : State),
      (messageOk 0x08 0x05 m s = true) → (m.payload = []) →
      Completes (.ucodeAbandon m) s fun t => Answered s t 0x08 0x05 m .success 0 [[]] ∧ t.me = { s.me with staging := [], stagingBy := none })
  ∧ (∀ (m : MsgReq) (slot : Nat) (s : State),
      (messageOk 0x09 0x30 m s = true) → (m.payload.length = 2050) → (natAt m.payload 0 1 = slot) → (slot < 4) →
      (s.me.keys.length = 4) → (s.me.keys.getD slot none = none) →
      Completes (.custKeyAdd m) s fun t =>
         if Config.keyDecodes (bytesAt m.payload 1 97) (bytesAt m.payload 98 1952)
         then Answered s t 0x09 0x30 m .success 0 [[]] ∧ t.me.keys = s.me.keys.set slot (some (bytesAt m.payload 1 97, bytesAt m.payload 98 1952))
         else Answered s t 0x09 0x30 m .invalidField 1 [[]] ∧ t.me = s.me)
  ∧ (∀ (m : MsgReq) (slot : Nat) (s : State),
      (messageOk 0x09 0x31 m s = true) → (m.payload.length = 1) → (natAt m.payload 0 1 = slot) →
      ((s.me.keys.getD slot none).isSome = true) → (s.me.progs = []) → (s.me.unloads = []) →
      Completes (.custKeyRemove m) s fun t => Answered s t 0x09 0x31 m .success 0 [[]] ∧ t.me.keys = s.me.keys.set slot none)
  ∧ (∀ (m : MsgReq) (s : State),
      (messageOk 0x09 0x32 m s = true) → (m.payload = []) → (s.me.keys = List.replicate 4 none) →
      Completes (.custKeyList m) s fun t => Answered s t 0x09 0x32 m .success 0 [[]] ∧ t.me = s.me)

/-- HOST_ADD enrols a host with its group and level, or changes those of one enrolled; HOST_REMOVE takes an enrolled host out
and leaves no controller of it; HOST_LIST answers up to 17 entries from an index. RETENTION_SET takes a period that is no
shorter, RATE_SET the ceilings of a class from 1 to 15, CHANNELS_SET one to four designated channels, SECDEL_SET 1 to 168
hours; CONFIG_GET answers what is in force in the payload form of the set message. (R26, R27, R42, R45, R51, R195, R204, R414)
-/
def Obligations.Configuration_messages_complete : Prop :=
  (∀ (m : MsgReq) (h : HostRow) (s : State),
      (messageOk 0x01 0x01 m s = true) → (m.payload = [5] ++ List.replicate 223 0 ++ [9, 0, 1]) →
      (h = { nqn := [5], group := 9, level := 1 }) → (s.fe.host? [5] = none) → (s.fe.hosts.length < 1024) →
      Completes (.hostAdd m) s fun t => Answered s t 0x01 0x01 m .success 0 [[]] ∧ t.fe.hosts = s.fe.hosts ++ [h] ∧ t.fe.ctrls = s.fe.ctrls)
  ∧ (∀ (m : MsgReq) (h : HostRow) (s : State),
      (messageOk 0x01 0x01 m s = true) → (m.payload = [5] ++ List.replicate 223 0 ++ [9, 0, 1]) →
      (h = { nqn := [5], group := 9, level := 1 }) → ((s.fe.host? [5]).isSome = true) →
      Completes (.hostAdd m) s fun t =>
         Answered s t 0x01 0x01 m .success 0 [[]] ∧ t.fe.hosts = s.fe.hosts.map (fun x => if x.nqn == [5] then h else x) ∧ t.fe.ctrls = s.fe.ctrls)
  ∧ (∀ (m : MsgReq) (s : State),
      (messageOk 0x01 0x02 m s = true) → (m.payload = [1] ++ List.replicate 223 0) →
      ((s.fe.host? [1]).isSome = true) → (8 ≤ m.mbox) → (s.fe.ctrls.all (·.host != [1]) = true) →
      Completes (.hostRemove m) s fun t =>
         Answered s t 0x01 0x02 m .success 0 [[]] ∧ t.fe.hosts = s.fe.hosts.filter (·.nqn ≠ [1]) ∧ t.fe.ctrls = s.fe.ctrls)
  ∧ (∀ (m : MsgReq) (s : State),
      (messageOk 0x01 0x03 m s = true) → (m.payload = [0, 0]) →
      Completes (.hostList m) s fun t =>
         Answered s t 0x01 0x03 m .success 0 [(s.fe.hosts.take 17).flatMap fun h => padTo 224 h.nqn ++ leBytes 2 h.group ++ leBytes 1 h.level]
         ∧ t.fe.hosts = s.fe.hosts)
  ∧ (∀ (m : MsgReq) (s : State),
      (messageOk 0x01 0x04 m s = true) → (m.payload = [63, 0, 0, 0, 10, 0, 0, 0]) →
      ((s.va.retention.getD 63 none).getD 0 ≤ 10) →
      Completes (.retentionSet m) s fun t => Answered s t 0x01 0x04 m .success 0 [[]] ∧ t.va.retention = s.va.retention.set 63 (some 10))
  ∧ (∀ (m : MsgReq) (s : State),
      (messageOk 0x01 0x05 m s = true) →
      (m.payload = [15, 0, 0, 0, 7, 0, 0, 0, 0, 0, 0, 0, 9, 0, 0, 0, 0, 0, 0, 0]) →
      Completes (.rateSet m) s fun t =>
         Answered s t 0x01 0x05 m .success 0 [[]] ∧ t.va.rate = modAt s.va.rate 15 (fun r => { r with cps := 7, bps := 9 }) ∧ t.va.ns = s.va.ns)
  ∧ (∀ (m : MsgReq) (s : State),
      (messageOk 0x01 0x06 m s = true) → (m.payload = [3, 128]) →
      Completes (.channelsSet m) s fun t => Answered s t 0x01 0x06 m .success 0 [[]] ∧ t.md = { s.md with channels := 0x8003 })
  ∧ (∀ (m : MsgReq) (s : State),
      (messageOk 0x01 0x07 m s = true) → (m.payload = [168, 0]) →
      Completes (.secdelSet m) s fun t => Answered s t 0x01 0x07 m .success 0 [[]] ∧ t.md = { s.md with secdelHours := 168 })
  ∧ (∀ (m : MsgReq) (s : State),
      (messageOk 0x01 0x0E m s = true) → (m.payload = [7, 0, 0, 0, 0, 0, 0, 0]) →
      Completes (.configGet m) s fun t => Answered s t 0x01 0x0E m .success 0 [leBytes 2 s.md.secdelHours] ∧ t.md = s.md)

/-- HEALTH_SUMMARY answers the summary record of 64 bytes and HEALTH_SENSORS the eight sensors with their thresholds. GOAL_SET
of a record in range makes it the record in force, whole, and GOAL_GET answers the record in force; DECISIONS answers nine
entries. CALIB_GET answers the records of the items asked for, CALIB_SET gives an item a user value within its limits and
answers the effective value (a start that B3 left unapplied keeps to the factory values), CALIB_CLEAR returns it to the
factory value, and CALIB_FACTORY_READ answers the factory block. (R416, R417, R419, R487, R488) -/
def Obligations.Health_and_goal_messages_complete : Prop :=
  (∀ (m : MsgReq) (s : State),
      (messageOk 0x0E 0x01 m s = true) → (m.payload = []) →
      Completes (.healthSummary m) s fun t => Answered s t 0x0E 0x01 m .success 0 [s.summary] ∧ t.pw = s.pw ∧ t.va = s.va)
  ∧ (∀ (m : MsgReq) (s : State),
      (messageOk 0x0E 0x04 m s = true) → (m.payload = []) →
      Completes (.healthSensors m) s fun t =>
         Answered s t 0x0E 0x04 m .success 0 [(List.range 8).flatMap fun i =>
           intBytes 2 (s.pw.sensors.getD i 0) ++ intBytes 2 (s.pw.overThr.getD i 0) ++ intBytes 2 (s.pw.underThr.getD i 0)] ∧ t.pw = s.pw)
  ∧ (∀ (m : MsgReq) (s : State),
      (messageOk 0x02 0x01 m s = true) → (m.payload = [70, 0, 55, 0, 100, 0, 0, 0, 1, 0, 0, 0, 0, 0, 0, 0]) →
      Completes (.goalSet m) s fun t =>
         Answered s t 0x02 0x01 m .success 0 [[]] ∧ t.mb.goalPower = 70 ∧ t.mb.goalTemp = 55 ∧ t.mb.goalRead = 100 ∧ t.mb.goalLag = 1 ∧ t.va = s.va)
  ∧ (∀ (m : MsgReq) (s : State),
      (messageOk 0x02 0x02 m s = true) → (m.payload = []) →
      Completes (.goalGet m) s fun t =>
         Answered s t 0x02 0x02 m .success 0 [leBytes 2 s.mb.goalPower ++ leBytes 1 s.mb.goalTemp ++ [0] ++ leBytes 4 s.mb.goalRead ++ leBytes 4 s.mb.goalLag
           ++ leBytes 4 0] ∧ t.mb.goalPower = s.mb.goalPower ∧ t.pw = s.pw)
  ∧ (∀ (m : MsgReq) (s : State),
      (messageOk 0x02 0x03 m s = true) → (m.payload = []) →
      Completes (.decisions m) s fun t =>
         Answered s t 0x02 0x03 m .success 0 [(List.range 9).flatMap s.decision] ∧ t.free = s.free + 9 ∧ t.mb.loops = s.mb.loops)
  ∧ (∀ (m : MsgReq) (i : CalItem) (s : State),
      (messageOk 0x03 0x01 m s = true) → (m.payload = [0, 3, 1, 0]) → (s.ck.factory = [i]) → (i.item = 0x300) →
      Completes (.calibGet m) s fun t => Answered s t 0x03 0x01 m .success 0 [calReply s.ck i] ∧ t.ck = s.ck)
  ∧ (∀ (m : MsgReq) (i : CalItem) (s : State),
      (messageOk 0x03 0x02 m s = true) → (m.payload = [1, 0, 0, 3, 0, 0, 5, 0, 0, 0]) → (s.ck.factory = [i]) →
      (i.item = 0x300) → (calAdjustable i.cat = true) → (s.ck.user = []) → (i.min ≤ i.value + 5) →
      (i.value + 5 ≤ i.max) →
      Completes (.calibSet m) s fun t =>
         t.ck.user = [{ item := 0x300, clamped := false, delta := 5 }] ∧ t.ck.userGen = s.ck.userGen + 1 ∧ t.ck.userTime = s.now
         ∧ Answered s t 0x03 0x02 m .success 0 [leBytes 2 0x300 ++ intBytes 4 (clampItem i (if s.ck.userApplied then 5 else 0)) ++ [0]] ∧ t.ck.factory = [i])
  ∧ (∀ (m : MsgReq) (s : State),
      (messageOk 0x03 0x03 m s = true) → (m.payload = [0]) →
      Completes (.calibClear m) s fun t =>
         Answered s t 0x03 0x03 m .success 0 [[]] ∧ t.ck.user = [] ∧ t.ck.userGen = s.ck.userGen + 1 ∧ t.ck.factory = s.ck.factory)
  ∧ (∀ (m : MsgReq) (s : State),
      (messageOk 0x03 0x04 m s = true) → (m.payload = [0, 0, 0, 0, 32, 0, 0, 0]) →
      Completes (.calibFactoryRead m) s fun t => Answered s t 0x03 0x04 m .success 0 [s.ck.factoryRecord.take 32] ∧ t.ck = s.ck)

/-- PWR_DIS_RISE of a serving drive takes the load off, FALL puts it on again and a start falls due where the supplies allow
one. HOT_SWAP_OVERCURRENT and JUNCTION_COMPARATOR_TRIP end in the tripped phase, the second with the hot-swap stage off until
JUNCTION_COMPARATOR_CLEAR. The loss of the auxiliary supply leaves service as it is; its return lets a drive that is off
start. SENSOR_SAMPLE stores eight calibrated readings; at a shutdown limit it takes the load off and holds it;
CRITICAL_CLEARED lets a held drive start. CLOCK_MONITOR_FAULT of the root lock is fatal, of a PHY drops that link.
DOMAIN_IDLE_GATE in PS0 to PS2 gates one clock domain. (R463, R469, R471, R533, R534, R536, R537) -/
def Obligations.Module_events_complete : Prop :=
  (∀ (s : State),
      (s.pw.pwrDis = false) → (s.pw.load = false) →
      Yields .pwrDisRise s { s with pw := { s.pw with pwrDis := true } })
  ∧ (∀ (s : State),
      (s.pw.phase = .serving) → (s.pw.pwrDis = false) → (s.pw.load = true) →
      Completes .pwrDisRise s fun t => t.pw.pwrDis = true ∧ t.pw.load = false ∧ t.pw.phase = .off ∧ t.bb.orderly = s.bb.orderly + 1)
  ∧ (∀ (s : State),
      (s.pw.pwrDis = true) → (s.pw.p12v = true) → (s.pw.aux = true) → (s.pw.hotSwap = true) →
      (s.pw.junctionHold = false) → (s.pw.thermalHold = false) →
      Completes .pwrDisFall s fun t => t.pw.pwrDis = false ∧ t.pw.load = true ∧ t.pw.phase = .ready ∧ t.bt.cause = 1 ∧ t.va = s.va)
  ∧ (∀ (s : State),
      (s.pw.p12v = true) →
      Completes .hotSwapOvercurrent s fun t => t.pw.phase = .tripped ∧ t.pw.p12v = false ∧ t.fl.cmds = [])
  ∧ (∀ (s : State),
      (up s = true) → (s.pw.p12v = true) →
      Completes .auxSupplyLoss s fun t =>
         t.pw.aux = false ∧ t.pw.phase = s.pw.phase ∧ t.mb.endpoint = true ∧ t.fl = s.fl ∧ t.va = s.va)
  ∧ (∀ (s : State),
      (s.pw.phase = .off) → (s.pw.p12v = true) → (s.pw.load = true) → (s.pw.hotSwap = true) → (s.pw.pwrDis = false) →
      (s.pw.junctionHold = false) → (s.pw.thermalHold = false) →
      Completes .auxSupplyGood s fun t => t.pw.aux = true ∧ t.pw.phase = .ready ∧ t.bt.cause = 1 ∧ t.mb.endpoint = true)
  ∧ (∀ (s : State),
      (s.pw.p12v = true) →
      Completes .junctionComparatorTrip s fun t =>
         t.pw.hotSwap = false ∧ t.pw.junctionHold = true ∧ t.pw.phase = .tripped ∧ t.pw.p12v = false ∧ t.fl.cmds = [])
  ∧ (∀ (s : State),
      Yields .junctionComparatorClear s { s with pw := { s.pw with hotSwap := true, junctionHold := false } })
  ∧ (∀ (readings : List Int) (s : State),
      (s.pw.phase = .off) → (s.mb.endpoint = true) → (readings.length = 8) → (s.ck.applied = []) →
      (s.pw.overThr = List.replicate 8 2000) → (s.pw.underThr = List.replicate 8 (-2000)) →
      (readings.all (fun r => decide (-2000 < r) && decide (r < 2000)) = true) →
      Yields (.sensorSample readings) s { s with pw := { s.pw with sensors := readings } })
  ∧ (∀ (readings : List Int) (s : State),
      (up s = true) → (s.mb.endpoint = true) → (readings.length = 8) → (s.ck.applied = []) →
      (atLimit readings shutdownLimits = true) →
      Completes (.sensorSample readings) s fun t =>
         t.pw.thermalHold = true ∧ t.pw.load = false ∧ t.pw.phase = .off ∧ t.pw.sensors = readings ∧ t.fl.cmds = [])
  ∧ (∀ (s : State),
      (atLimit s.pw.sensors criticalLimits = false) → (s.pw.phase = .off) → (s.pw.thermalHold = true) →
      (s.pw.pwrDis = false) → (s.pw.p12v = true) → (s.pw.aux = true) → (s.pw.hotSwap = true) →
      (s.pw.junctionHold = false) →
      Completes .criticalCleared s fun t => t.pw.thermalHold = false ∧ t.pw.load = true ∧ t.pw.phase = .ready ∧ t.pw.tempWarning = false)
  ∧ (∀ (s : State),
      (up s = true) →
      Completes (.clockMonitorFault .rootLock) s fun t => t.pw.phase = .fatal ∧ t.pw.cfs = true ∧ t.ck.rootLock = false)
  ∧ (∀ (port : Nat) (ty : PhyType) (s : State),
      (up s = true) → (port < 2) → ((s.port port).link = some ty) → ((s.port port).probe = none) →
      Completes (.clockMonitorFault (.phyPll port)) s fun t => (t.port port).link = none ∧ (t.port port).pllLocked = false ∧ t.pw.phase = s.pw.phase)
  ∧ (∀ (d : Nat) (gate : Bool) (s : State),
      (up s = true) → (d < 28) → (s.pw.psNow ≤ 2) →
      Completes (.domainIdleGate d gate) s fun t => t.ck.gated.getLsbD d = gate ∧ t.ck.gated ||| (1#40 <<< d) = s.ck.gated ||| (1#40 <<< d) ∧ t.pw = s.pw)

/-- SEAL of a blank drive blows SEALED and leaves no key, no index entry and an empty configuration behind, RETIRE of a sealed
drive that names its identifier blows RETIRED and leaves no namespace; both restart with cause 04h. ATTEST answers the
record, its two signatures and two certificates. DEBUG_CHALLENGE answers a fresh nonce that replaces the old one. DEBUG_OPEN
with the nonce gone is refused with reason 1 and counted; one whose checks pass at D1 opens the level; one at D2 on a sealed
drive draws the key curtain. KEY_CURTAIN_DEADLINE zeroes the keys and opens D2. DEBUG_CLOSE and DEBUG_SESSION_EXPIRY end a D1
session. DEBUG_KEY_SET fills a free slot with a key that decodes, DEBUG_KEY_REMOVE empties one, DEBUG_STATUS answers.
NON_OPERATIONAL_WAKE returns a sealed drive to its last operational power state and changes nothing of any other. (R443, R445,
R446, R448, R449, R451, R452, R453, R454, R456, R462, R464) -/
def Obligations.Lifecycle_and_debug_commands_complete : Prop :=
  (∀ (m : MsgReq) (s : State),
      (messageOk 0x09 0x50 m s = true) → (m.payload = []) → (s.lifecycle = .blank) → (s.li.level = 0) →
      (s.fl.cmds = []) →
      Completes (.seal m) s fun t =>
         t.li.sealedFuse = true ∧ t.ky.recs = [] ∧ t.ix.buckets = [] ∧ t.fe.hosts = [] ∧ t.cam.image = [] ∧ t.bt.cause = (if s.pw.ready then 4 else s.bt.cause)
         ∧ t.pw.phase = (if s.pw.ready then .ready else .off))
  ∧ (∀ (m : MsgReq) (s : State),
      (messageOk 0x09 0x51 m s = true) → (m.payload = s.driveId) → (s.lifecycle = .isSealed) → (s.va.ns = []) →
      (s.paired = false) → (s.sk.joinedNow = false) → (s.fl.cmds = []) →
      Completes (.retire m) s fun t =>
         t.li.retiredFuse = true ∧ t.ky.recs = [] ∧ t.va.ns = [] ∧ t.pw.phase = (if s.pw.ready then .ready else .off))
  ∧ (∀ (m : MsgReq) (s : State),
      (messageOk 0x09 0x48 m s = true) → (m.payload.length = 32) → (s.ky.signOff = false) →
      Completes (.attest m) s fun t =>
         t.free = s.signAll.free + 1 ∧ t.li = s.li ∧ ∃ a b c, Answered s t 0x09 0x48 m .success 0 [s.attestation m.payload ++ a, b, c] ∧ a.length = 96 + 3309)
  ∧ (∀ (m : MsgReq) (s : State),
      (messageOk 0x09 0x40 m s = true) → (m.payload = []) → (s.li.waitUntil ≤ s.mono) →
      Completes (.debugChallenge m) s fun t =>
         t.li = { s.li with nonce := some (Config.freeBytes s.free 32, s.mono) } ∧ t.free = s.free + 1
         ∧ Answered s t 0x09 0x40 m .success 0 [padTo 32 (Config.freeBytes s.free 32)])
  ∧ (∀ (m : MsgReq) (s : State),
      (messageOk 0x09 0x41 m s = true) → (m.payload.length = 3485) → (natAt m.payload 5 1 = 1) →
      (s.li.curtainReq = none) → (s.li.nonce = none) →
      Completes (.debugOpen m) s fun t =>
         Answered s t 0x09 0x41 m .invalidField (24 + 65536) [[]] ∧ t.li.level = s.li.level ∧ t.li.refusals = s.li.refusals + 1
         ∧ t.li.waitUntil = s.mono + refusalWait (s.li.refusals + 1) * 1000000000)
  ∧ (∀ (m : MsgReq) (s : State),
      (messageOk 0x09 0x41 m s = true) → (m.payload.length = 3485) → (natAt m.payload 5 1 = 1) →
      (s.li.curtainReq = none) →
      Completes (.debugOpen m) s fun t =>
         s.tokenCheck m.payload = none →
           Answered s t 0x09 0x41 m .success 0 [[]] ∧ t.li.level = 1 ∧ t.li.nonce = none ∧ t.li.refusals = 0
           ∧ t.li.d1End = some (s.mono + natAt m.payload 56 4 * 1000000000) ∧ t.bb.debugOpens = s.bb.debugOpens + 1)
  ∧ (∀ (m : MsgReq) (s : State),
      (messageOk 0x09 0x41 m s = true) → (m.payload.length = 3485) → (natAt m.payload 5 1 = 2) →
      (s.li.curtainReq = none) → (s.lifecycle = .isSealed) → (s.tw.role = .solo) → (s.bt.committing = false) →
      (s.fl.cmds = []) →
      Completes (.debugOpen m) s fun t =>
         s.tokenCheck m.payload = none → t.fl.curtain = true ∧ t.li.curtainReq = some (s.named m) ∧ t.li.level = s.li.level ∧ t.li.nonce = none ∧ t.ky.recs = s.ky.recs)
  ∧ (∀ (m : MsgReq) (s : State),
      (s.serving = true) → (s.li.curtainReq = some m) → (s.fl.cmds = []) → (s.og.fills = []) → (s.ky.open_ = none) →
      (s.ky.waiting = []) →
      Completes .keyCurtainDeadline s fun t =>
         t.li.level = 2 ∧ t.li.debugOpen = true ∧ t.li.curtainReq = none ∧ t.ky.kekPresent = false ∧ t.ky.cache = [] ∧ t.ky.signOff = true)
  ∧ (∀ (m : MsgReq) (s : State),
      (messageOk 0x09 0x42 m s = true) → (m.payload = []) → (s.li.level = 1) →
      Completes (.debugClose m) s fun t => Answered s t 0x09 0x42 m .success 0 [[]] ∧ t.li = { s.li with level := 0, d1End := none })
  ∧ (∀ (s : State),
      (up s = true) → (s.li.level = 1) →
      Completes .debugSessionExpiry s fun t => t.li = { s.li with level := 0, d1End := none })
  ∧ (∀ (m : MsgReq) (slot : Nat) (s : State),
      (messageOk 0x09 0x43 m s = true) → (m.payload.length = 2050) → (natAt m.payload 0 1 = slot) → (slot < 2) →
      (s.li.keys.length = 2) → (s.li.keys.getD slot none = none) →
      Completes (.debugKeySet m) s fun t =>
         if Config.keyDecodes (bytesAt m.payload 1 97) (bytesAt m.payload 98 1952)
         then Answered s t 0x09 0x43 m .success 0 [[]] ∧ t.li.keys = s.li.keys.set slot (some (bytesAt m.payload 1 97, bytesAt m.payload 98 1952))
         else Answered s t 0x09 0x43 m .invalidField 1 [[]] ∧ t.li = s.li)
  ∧ (∀ (m : MsgReq) (slot : Nat) (s : State),
      (messageOk 0x09 0x44 m s = true) → (m.payload.length = 1) → (natAt m.payload 0 1 = slot) →
      ((s.li.keys.getD slot none).isSome = true) →
      Completes (.debugKeyRemove m) s fun t => Answered s t 0x09 0x44 m .success 0 [[]] ∧ t.li = { s.li with keys := s.li.keys.set slot none })
  ∧ (∀ (m : MsgReq) (s : State),
      (messageOk 0x09 0x45 m s = true) → (m.payload = []) →
      Completes (.debugStatus m) s fun t => Answered s t 0x09 0x45 m .success 0 [s.debugStatus] ∧ t.li = s.li)
  ∧ (∀ (s : State),
      (s.serving = true) → (s.lifecycle = .isSealed) → (3 ≤ s.pw.psHost) → (s.pw.psLastOp < 3) → (s.pw.critical = false) →
      Completes .nonOperationalWake s fun t => t.pw.psHost = s.pw.psLastOp ∧ t.pw.psNow < 3 ∧ t.va = s.va)
  ∧ (∀ (s : State),
      (s.serving = true) → (s.lifecycle ≠ .isSealed) →
      Yields .nonOperationalWake s s)

/-- A request honoured at D2 or D3 freezes the drive: it latches cause, debug level and time, drops both links and takes
CHAIN_RDY low, and nothing of the volume, the cache or the queues changes; one that is not honoured is recorded and refused.
On a frozen drive whose latch holds D2 or D3, FRZ_STATUS shifts out the latch, DUMP_SEL selects a section and an offset,
DUMP_DATA shifts out that many bytes, FRZ_HBM selects lines of a stack, and FRZ_RESET starts the drive with cause 04h.
FREEZE_STATUS answers. (R472, R473, R477, R478, R479, R481) -/
def Obligations.Freeze_and_readout_commands_complete : Prop :=
  (∀ (m : MsgReq) (s : State),
      (messageOk 0x0B 0x01 m s = true) → (m.payload = []) → (2 ≤ s.li.level) →
      Completes (.freezeNow m) s fun t =>
         t.pw.phase = .frozen ∧ t.ck.fzCause = 2 ∧ t.ck.fzDebug = s.li.level ∧ t.ck.fzTime = s.now ∧ (t.port 0).link = none ∧ (t.port 1).link = none
         ∧ t.pw.chainRdy = false ∧ t.va = s.va ∧ t.mc = s.mc ∧ t.fl = s.fl ∧ t.ix = s.ix)
  ∧ (∀ (m : MsgReq) (s : State),
      (messageOk 0x0B 0x01 m s = true) → (m.payload = []) → (s.li.level < 2) →
      Completes (.freezeNow m) s fun t => Answered s t 0x0B 0x01 m .stateRefused 0 [[]] ∧ t.pw = s.pw ∧ t.ck = s.ck)
  ∧ (∀ (s : State),
      (up s = true) → (2 ≤ s.li.level) →
      Completes .snufNFall s fun t =>
         t.pw.phase = .frozen ∧ t.ck.fzCause = 1 ∧ t.ck.fzDebug = s.li.level ∧ t.pw.snufLow = true ∧ t.va = s.va ∧ t.mc = s.mc ∧ t.fl = s.fl ∧ t.ix = s.ix)
  ∧ (∀ (m : MsgReq) (s : State),
      (messageOk 0x0B 0x02 m s = true) → (m.payload = []) → (s.bb.fault = []) →
      Completes (.freezeStatus m) s fun t => Answered s t 0x0B 0x02 m .success 0 [leBytes 1 (decide (2 ≤ s.li.level)).toNat] ∧ t.ck = s.ck)
  ∧ (∀ (s : State),
      (s.pw.phase = .frozen) → (2 ≤ s.ck.fzDebug) →
      Yields .frzStatus s { s with out := s.out ++ [.tap s.latch] })
  ∧ (∀ (value : BitVec 64) (s : State),
      (s.pw.phase = .frozen) → (2 ≤ s.ck.fzDebug) →
      Yields (.dumpSel value) s { s with ck := { s.ck with dumpSection := value.toNat % 256, dumpOffset := value.toNat / 256, dumpHbm := none } })
  ∧ (∀ (count : Nat) (s : State),
      (s.pw.phase = .frozen) → (2 ≤ s.ck.fzDebug) →
      Yields (.dumpData count) s { s with out := s.out ++ [.tap ((List.range count).map s.tapByte)] })
  ∧ (∀ (value : BitVec 72) (s : State),
      (s.pw.phase = .frozen) → (2 ≤ s.ck.fzDebug) →
      Yields (.frzHbm value) s { s with ck := { s.ck with dumpHbm := some (value.toNat % 2 * 2 ^ 36 + value.toNat / 2 % 2 ^ 36, value.toNat / 2 ^ 37) } })
  ∧ (∀ (s : State),
      (s.pw.phase = .frozen) → (2 ≤ s.ck.fzDebug) → (s.pw.ready = true) →
      Completes .frzReset s fun t => t.pw.phase = .ready ∧ t.bt.cause = 4 ∧ t.bt.fails = 0 ∧ t.bt.force = 0 ∧ t.bt.skip = 0 ∧ t.fl.cmds = [])

/-- EVLOG_STATUS and EVLOG_CATALOG answer. EVLOG_READ of an empty area answers its header. EVLOG_HOLD takes the hold where none
is, and its record waits in the hold buffer; EVLOG_RELEASE by the holder ends it, and HOLD_LIMIT_EXPIRY ends it too.
EVLOG_CLEAR empties the circulating area, leaves the kept area, and counts the clear. SUPPRESSION_SECOND begins a new second.
BBOX_STATUS and BBOX_READ answer slots, BOOT_FLASH_REFRESH writes a copy of a raised generation. (R491, R494, R496, R498,
R500, R501, R508, R509) -/
def Obligations.Record_unit_commands_complete : Prop :=
  (∀ (m : MsgReq) (s : State),
      (messageOk 0x04 0x01 m s = true) → (m.payload = []) →
      Completes (.evlogStatus m) s fun t => Answered s t 0x04 0x01 m .success 0 [s.evStatus] ∧ t.ev = s.ev)
  ∧ (∀ (m : MsgReq) (s : State),
      (messageOk 0x04 0x02 m s = true) → (m.payload = [1, 0, 0, 0, 5, 0, 0, 0, 127, 0, 0, 0, 0, 0, 0, 0]) →
      (s.ev.kept = []) → (s.ev.circ = []) → (s.ev.hold = none) →
      Completes (.evlogRead m) s fun t => Answered s t 0x04 0x02 m .success 0 [List.replicate 32 0] ∧ t.ev = s.ev)
  ∧ (∀ (m : MsgReq) (s : State),
      (messageOk 0x04 0x03 m s = true) → (m.payload = []) → (s.ev.hold = none) → (s.ev.buffer = []) →
      Completes (.evlogHold m) s fun t =>
         Answered s t 0x04 0x03 m .success 0 [t.evStatus] ∧ t.ev.hold = some (srcCode m.mbox m.src, s.mono, s.mono)
         ∧ t.ev.buffer.map (·.code) = [0x1202] ∧ t.ev.kept = s.ev.kept ∧ t.ev.circ = s.ev.circ ∧ t.ev.nextSeq = s.ev.nextSeq + 1)
  ∧ (∀ (m : MsgReq) (a b : Nat) (s : State),
      (messageOk 0x04 0x04 m s = true) → (m.payload = []) → (s.ev.hold = some (srcCode m.mbox m.src, a, b)) →
      Completes (.evlogRelease m) s fun t => Answered s t 0x04 0x04 m .success 0 [t.evStatus] ∧ t.ev.hold = none ∧ t.ev.buffer = [])
  ∧ (∀ (m : MsgReq) (s : State),
      (messageOk 0x04 0x05 m s = true) → (m.payload = []) → (s.ev.hold = none) → (s.ev.kept.length = 4096) →
      Completes (.evlogClear m) s fun t =>
         Answered s t 0x04 0x05 m .success 0 [t.evStatus] ∧ t.ev.kept = s.ev.kept ∧ t.ev.circ.map (·.code) = [0x1201] ∧ t.ev.clears = s.ev.clears + 1
         ∧ t.ev.lastClearTime = s.now ∧ t.ev.lastClearSeq = s.ev.nextSeq ∧ t.ev.nextSeq = s.ev.nextSeq + 1)
  ∧ (∀ (m : MsgReq) (s : State),
      (messageOk 0x04 0x06 m s = true) → (m.payload = [1, 18, 1, 0]) →
      Completes (.evlogCatalog m) s fun t =>
         Answered s t 0x04 0x06 m .success 0 [leBytes 2 0x1201 ++ leBytes 2 0x1012 ++ padTo 60 (Config.catalogueText 0x1201)] ∧ t.ev = s.ev)
  ∧ (∀ (idle : Bool) (x : Nat × Nat × Nat) (s : State),
      (up s = true) → (s.ev.hold = some x) →
      Completes (.holdLimitExpiry idle) s fun t => t.ev.hold = none ∧ t.ev.buffer = [] ∧ t.ev.discarded = 0)
  ∧ (∀ (s : State),
      (up s = true) → (s.ev.supp = 0) →
      Yields .suppressionSecond s { s with ev := { s.ev with second := 0 } })
  ∧ (∀ (m : MsgReq) (s : State),
      (messageOk 0x05 0x01 m s = true) → (m.payload = []) →
      Completes (.bboxStatus m) s fun t => Answered s t 0x05 0x01 m .success 0 [(List.range 32).flatMap s.bbNow.slot] ∧ t.bb = s.bb)
  ∧ (∀ (m : MsgReq) (s : State),
      (messageOk 0x05 0x02 m s = true) → (m.payload = [0, 0, 0, 0, 32, 0, 2, 0]) →
      Completes (.bboxRead m) s fun t => Answered s t 0x05 0x02 m .success 0 [s.bbNow.slot 32 ++ s.bbNow.slot 33] ∧ t.bb = s.bb)
  ∧ (∀ (s : State),
      (up s = true) →
      Completes .bootFlashRefresh s fun t =>
         t.bb.copyGen = s.bb.copyGen + 1 ∧ t.bb.copyTime = s.now ∧ t.bb.flash.getLast?.map (·.gen) = some (s.bb.copyGen + 1) ∧ t.ev = s.ev)

/-- GET_LOG_PAGE of a page that the drive returns, at an offset within it, sends its bytes and then its completion entry, and
with Retain Asynchronous Event set leaves the masks; a page it does not return completes with Invalid Field in Command.
IDENTIFY of the controller sends 4,096 bytes whose vendor area follows R83. HEALTH_LOG_READ of log 01h answers the bytes
asked for. RDMA_READ_RESPONSE keeps the data of a store with its command. (R63, R64, R79, R83, R416) -/
def Obligations.Log_page_and_identify_commands_complete : Prop :=
  (∀ (a : Adm) (page offset len : Nat) (b : Bytes) (s : State),
      (adminOk a s = true) → (offset % 4 = 0) → (page ≠ 2) →
      (s.logPage a.ctrl ((s.fe.ctrl? a.ctrl).any (·.discovery)) page = some b) → (offset ≤ b.length) →
      Completes (.getLogPage a page true offset len) s fun t => Emits s t [.data a.ctrl 0 a.cid (bytesAt b offset len), adminEntry t a] ∧ t.fl = s.fl)
  ∧ (∀ (a : Adm) (page len : Nat) (rae : Bool) (s : State),
      (adminOk a s = true) → (s.logPage a.ctrl ((s.fe.ctrl? a.ctrl).any (·.discovery)) page = none) →
      Completes (.getLogPage a page rae 0 len) s fun t => Emits s t [adminCqe t a .invalidField (statusDnr .invalidField)])
  ∧ (∀ (a : Adm) (cntid : Nat) (s : State),
      (adminOk a s = true) →
      Completes (.identify a 1 0 cntid) s fun t =>
         Emits s t [.data a.ctrl 0 a.cid (s.identifyController a.ctrl), adminEntry t a] ∧ (s.identifyController a.ctrl).length = 4096
         ∧ (s.identifyController a.ctrl).drop 3072 = s.vendorArea ∧ t.va = s.va)
  ∧ (∀ (m : MsgReq) (s : State),
      (messageOk 0x0E 0x05 m s = true) → (m.payload = [1, 0, 0, 0, 64, 0, 0, 0, 0, 1, 0, 0]) →
      Completes (.healthLogRead m) s fun t => Answered s t 0x0E 0x05 m .success 0 [bytesAt (s.logErrors 0) 64 256] ∧ t.fe.errorLog = s.fe.errorLog)
  ∧ (∀ (conn cid : Nat) (data : Bytes) (c : Cmd) (s : State),
      (up s = true) → (s.awaiting conn cid = some c) → (c.got.length + data.length < c.e.cdw10.toNat) →
      (∀ x ∈ s.fl.cmds, x.fetch = c.fetch → x = c) → (c ∈ s.fl.cmds) →
      Completes (.rdmaReadResponse conn cid data) s fun t => ∃ x ∈ t.fl.cmds, x.fetch = c.fetch ∧ x.got = c.got ++ data)

/-- For every command c, every rest of a queue and every state, a step of the state whose queue is c followed by the rest is
exec of c on the state whose queue is the rest. The queue is the model's own (log 1); commands of a submission queue and
messages of a mailbox are taken in the order of their arrival. (R57, R88, R408) -/
def Obligations.Step_carries_out_the_front_command : Prop :=
  ∀ (c : Instr) (rest : List Instr) (s : State),
    Sys2Proof.Machine.step { s with pending := c :: rest } = exec c { s with pending := rest }

/-- Retention class 0 is defined with 0 days and classes 1 to 63 are not. There is no namespace, host, controller, connection or
key-scope hold, and 8,192 queue pairs are free. The goals are 70 W, 75 degrees, no read goal and a lag of 1,000 ms. The next
EV_SEQ is 1. The chain has no Beacon (255). The designated channels are C000h, the Secure Delete limit is 24 hours and the
asymmetry allowance 100 ns. The Mantle registers read 0. The drive is Untraced, alone and Blank, and the power state is PS0.
No rate class has a ceiling, and every port is configured as shipped. (R26, R45, R54, R83, R195, R204, R326, R351, R402,
R417, R442, R492) -/
def Obligations.Reset_values : Prop :=
  (State.reset.va.retention = some 0 :: List.replicate 63 none)
  ∧ (State.reset.va.ns = [] ∧ State.reset.fe.hosts = [] ∧ State.reset.fe.ctrls = [] ∧ State.reset.fe.conns = [] ∧ State.reset.va.keyHolds = [])
  ∧ State.reset.fe.qpFree = 8192
  ∧ (State.reset.mb.goalPower = 70 ∧ State.reset.mb.goalTemp = 75 ∧ State.reset.mb.goalRead = 0 ∧ State.reset.mb.goalLag = 1000)
  ∧ State.reset.ev.nextSeq = 1
  ∧ State.reset.sk.beacon = 255
  ∧ (State.reset.md.channels = 0xC000 ∧ State.reset.md.secdelHours = 24 ∧ State.reset.tm.asym = 100)
  ∧ (State.reset.mc.enable = false ∧ State.reset.mc.noalloc = false ∧ State.reset.mc.rgn = List.replicate 8 0
      ∧ State.reset.mc.hits = 0 ∧ State.reset.mc.misses = 0 ∧ State.reset.mc.lines = [])
  ∧ (State.reset.tm.st = .untraced ∧ State.reset.tw.role = .solo ∧ State.reset.lifecycle = .blank ∧ State.reset.pw.psHost = 0)
  ∧ (State.reset.va.rate.length = 16 ∧ ∀ r ∈ State.reset.va.rate, r.cps = 0 ∧ r.bps = 0)
  ∧ (State.reset.pt.a.cfg.flow = 2 ∧ State.reset.pt.a.cfg.mtu = 9000 ∧ State.reset.pt.b.cfg = State.reset.pt.a.cfg)
  ∧ State.reset.pending = []

/-- State.reset lists no byte of HBM3, so its cells are in the canonical form of the model (log 8): strictly rising addresses,
and no cell that equals what an unlisted byte reads as. (R112) -/
def Obligations.Reset_memory_is_canonical : Prop :=
  State.reset.mc.hbm = [] ∧ Memory.wf State.reset.mc.hbm = true

/-- For every state whose HBM3 cells are in the canonical form (strictly rising addresses, no cell equal to what an unlisted
byte reads as, log 8), whatever command is at the front of the queue and also on an empty queue, if a step answers a next
state then its HBM3 cells are in the canonical form too. With it, equal memories are equal data. (R112, R137, R140, R141,
R143) -/
def Obligations.Every_step_keeps_the_memory_form : Prop :=
  ∀ (s t : State), Memory.wf s.mc.hbm = true → Sys2Proof.Machine.step s = .next t → Memory.wf t.mc.hbm = true

/-- In every state every command answers a next state with the same queue, except CACHE_ACCESS of a line that does not exist: the
access stops with the fault hbm3LineOutsideSpace. With both stacks the lines below 30000000h exist, the 48 GiB of R112; after the loss
of a stack the lower half of each region does (R133, log 8). (R112) -/
def Obligations.Every_command_is_carried_out : Prop :=
  (∀ (c : Instr) (s : State), (∀ line w, c = .cacheAccess line w → hbmHas (!s.mc.twoStacks) line = true) → ∃ t, exec c s = .next t ∧ t.pending = s.pending)
  ∧ (∀ (line : Nat) (w : Option CacheWrite) (s : State), hbmHas (!s.mc.twoStacks) line = false → exec (.cacheAccess line w) s = .fault .hbm3LineOutsideSpace)
  ∧ ∀ line : Nat, hbmHas false line = true ↔ line < 0x30000000

/-- For every command other than CACHE_ACCESS, LINE_FILL_ARRIVAL and WRITE_BACK_ACCEPTED, in every state: if it answers a next
state, every byte of HBM3 reads as before, unless the command may take the drive into reset or off, after which HBM3 holds
nothing that was in it (every byte reads as an unlisted one, log 8). A CACHE_ACCESS that answers a next state leaves every
byte as it was except the bytes of its own store: those from 64 times the line plus the offset on, as many as its data has
within the line, and in a mirrored region those of its other copy; a read changes none. LINE_FILL_ARRIVAL and WRITE_BACK_ACCEPTED leave
every byte of a line for which, and for whose other copy, the cache holds no Chimney entry, no write behind one, no miss register and
no waiting access. (R112, R135, R137, R140, R141,
R143, R149, R168) -/
def Obligations.HBM3_changes_only_through_the_cache : Prop :=
  (∀ (c : Instr) (s t : State), reachesHbm c = false → exec c s = .next t →
    (∀ a, Memory.read t.mc.hbm a = Memory.read s.mc.hbm a) ∨ (mayReset c = true ∧ ∀ a, Memory.read t.mc.hbm a = Memory.blank))
  ∧ (∀ (line : Nat) (w : Option CacheWrite) (s t : State), exec (.cacheAccess line w) s = .next t →
      ∀ a, (∀ x, w = some x → a < 64 * line + x.offset ∨ 64 * line + x.offset + min x.data.length (64 - x.offset) ≤ a) →
        (∀ x, w = some x → mirrored line = true → s.mc.twoStacks = true →
          a < 64 * mirrorOf line + x.offset ∨ 64 * mirrorOf line + x.offset + min x.data.length (64 - x.offset) ≤ a) →
        Memory.read t.mc.hbm a = Memory.read s.mc.hbm a)
  ∧ (∀ (line : Nat) (s t : State), exec (.lineFillArrival line) s = .next t →
      ∀ a, s.owes (a / 64) = false → s.owes (mirrorOf (a / 64)) = false → Memory.read t.mc.hbm a = Memory.read s.mc.hbm a)
  ∧ ∀ (line : Nat) (s t : State), exec (.writeBackAccepted line) s = .next t →
      ∀ a, s.owes (a / 64) = false → s.owes (mirrorOf (a / 64)) = false → Memory.read t.mc.hbm a = Memory.read s.mc.hbm a

/-- For the 15 node bits of a set and a way below 16: after a touch of the way, the way that the node bits lead to is another
one; every node on the way's path points to the half that does not hold it, and every other node bit is as before. The victim
of a set is its lowest-numbered invalid way if there is one, and otherwise the way the node bits lead to. (R136) -/
def Obligations.Pseudo_LRU_turns_away_from_the_last_way : Prop :=
  (∀ (t : BitVec 15) (way : Nat), way < 16 →
    plruVictim (plruTouch t way) ≠ way
    ∧ (∀ n hi, (n, hi) ∈ plruPath way → (plruTouch t way).getLsbD n = !hi)
    ∧ ∀ n, n < 15 → (∀ hi, (n, hi) ∉ plruPath way) → (plruTouch t way).getLsbD n = t.getLsbD n)
  ∧ (∀ (m : Mantle) (set w : Nat), w < 16 → m.lines.lookup (set, w) = none →
      m.victim set ≤ w ∧ m.lines.lookup (set, m.victim set) = none)
  ∧ ∀ (m : Mantle) (set : Nat), (∀ w, w < 16 → (m.lines.lookup (set, w)).isSome = true) →
      m.victim set = plruVictim ((m.plru.lookup set).getD 0)

/-- In every state of a frozen drive, every command answers exactly the same state, unless it is one of those that still act
in a freeze: the supplies and comparators, the pins PWR_DIS and SNUF_N, a missing superframe, and the freeze instructions of
the debug TAP; or a cache access to a line that does not exist. Engines, caches, queues, clocks and mailboxes stand as they
were at T0. (R473, R476, R477, R478) -/
def Obligations.A_frozen_drive_stands_still : Prop :=
  ∀ (c : Instr) (s : State), s.pw.phase = .frozen → actsInFreeze c = false → (∀ line w, c = .cacheAccess line w → hbmHas (!s.mc.twoStacks) line = true) →
    exec c s = .next s

/-- On a drive that serves, an I/O command of any kind on a queue that exists, whose identifier is that of a command outstanding
on the same queue, and an admin or Fabrics command on an enabled controller whose identifier is outstanding on its admin
queue (running, held or an event request), each completes with Command ID Conflict. Nothing else leaves, and nothing else of
the state changes but the error log, the head of its submission queue (R57) and the transmit queue in which the completion stands (R336): the command is not performed, and the outstanding one is not affected. (R58) -/
def Obligations.Outstanding_identifier_conflicts : Prop :=
  (∀ (k : IoKind) (h : HostCmd) (x : Cmd) (s : State), s.serving = true → h.sq ≠ 0 → s.fe.hasQueue h.ctrl h.sq = true →
    s.cmd? h.ctrl h.sq h.e.cid = some x →
    ∃ t, exec (ioCommand k h) s = .next t ∧ Emits s t [ioEntry t h .cidConflict]
      ∧ t = { s with out := t.out, fe := { (s.fetch h.ctrl h.sq).fe with errorLog := t.fe.errorLog }, pt := s.queued { t with pt := s.pt } })
  ∧ ∀ (i : Instr) (a : Adm) (c : Ctrl) (s : State), adminRow i = some a → s.serving = true → s.fe.ctrl? a.ctrl = some c →
      c.enabled = true → s.fe.hasQueue a.ctrl 0 = true → s.adminCid a = true →
      ∃ t, exec i s = .next t ∧ Emits s t [adminCqe t a .cidConflict (statusDnr .cidConflict)]
        ∧ t = { s with out := t.out, fe := { (s.fetch a.ctrl 0).fe with errorLog := t.fe.errorLog }, pt := s.queued { t with pt := s.pt } }

/-- For a RETENTION_SET message that nothing turns away, with 8 bytes of payload, a class of 0 to 63, reserved bytes of zero and
a period of at most 36,525 days: a period below that of a defined class is refused with INVALID_FIELD and the whole record
vault stays as it was; any other period becomes that of the class and no other class changes, so that the class stays
defined, with at least its old period. No payload undefines a class. (R27) -/
def Obligations.Retention_periods_only_lengthen : Prop :=
  ∀ (m : MsgReq) (s : State), messageOk 0x01 0x04 m s = true → m.payload.length = 8 → natAt m.payload 0 1 ≤ 63 → natAt m.payload 1 3 = 0 →
    natAt m.payload 4 4 ≤ 36525 → s.va.retention.length = 64 →
    ((∀ d, s.va.retention[natAt m.payload 0 1]? = some (some d) → natAt m.payload 4 4 < d →
        Completes (.retentionSet m) s fun t => Answered s t 0x01 0x04 m .invalidField 4 [[]] ∧ t.va = s.va)
    ∧ ((∀ d, s.va.retention[natAt m.payload 0 1]? = some (some d) → d ≤ natAt m.payload 4 4) →
        Completes (.retentionSet m) s fun t => Answered s t 0x01 0x04 m .success 0 [[]]
          ∧ t.va.retention[natAt m.payload 0 1]? = some (some (natAt m.payload 4 4))
          ∧ ∀ i, i ≠ natAt m.payload 0 1 → t.va.retention[i]? = s.va.retention[i]?))

/-- SECURITY.PSK_ADD from a mailbox of a controller whose connection is not protected by TLS gets NOT_PERMITTED, and the keys
stay as they were. On a drive with no enrolled host, every Connect that reaches it, but for one of its
twin to its twin service, is answered with a status other than success and adds no controller. The sideband mailboxes have the right to send SECURITY.PSK_ADD and CONFIG.HOST_ADD. (R412) -/
def Obligations.First_host_and_key_come_over_the_sideband : Prop :=
  (∀ (m : MsgReq) (s : State), mailboxFree m.mbox s = true → m.mbox < 8 → m.tls = false → s.keptFor 0x09 0x01 m = none →
    m.len = m.payload.length →
    Completes (.pskAdd m) s fun t => Answered s t 0x09 0x01 m .notPermitted 0 [[]] ∧ t.ky = s.ky)
  ∧ (∀ (c : ConnectReq) (k : Conn) (s : State), s.fe.hosts = [] → s.listens = true → s.bt.paused = false → s.fe.conn? c.conn = some k → k.ready = true →
      k.ctrl = none → (c.subsys == s.twinNqn && s.fromTwin c) = false →
      Completes (.connect c) s fun t => t.fe = s.fe ∧ ∃ st, st ≠ .success ∧ Emits s t [.connectRsp c.conn c.cid st 0])
  ∧ ∀ (mbox src : Nat) (tls : Bool) (p : Bytes) (s : State), 8 ≤ mbox → mbox ≤ 11 →
      s.permitted mbox src tls 0x09 0x01 p = true ∧ s.permitted mbox src tls 0x01 0x01 p = true

/-- For every message row of the table, on a drive that serves and a mailbox that is free, with no kept reply for it: a length
that differs from the payload is answered with LENGTH; a source without the right with NOT_PERMITTED; a message that a
running Sanitize refuses with STATE_REFUSED; a reserved field that is not zero with INVALID_FIELD; in this order. Between the
two states only the mailboxes and what leaves through them differ. (R9, R403, R404, R405, R408, R411, R413) -/
def Obligations.Messages_turned_away_change_nothing : Prop :=
  ∀ (i : Instr) (cls op : Nat) (m : MsgReq) (s : State), messageRow i = some (cls, op, m) → mailboxFree m.mbox s = true →
    s.keptFor cls op m = none →
    (m.len ≠ m.payload.length →
      Completes i s fun t => Answered s t cls op m .length 0 [[]] ∧ OnlyAnswered s t)
    ∧ (m.len = m.payload.length → s.permitted m.mbox m.src m.tls cls op m.payload = false →
      Completes i s fun t => Answered s t cls op m .notPermitted 0 [[]] ∧ OnlyAnswered s t)
    ∧ (m.len = m.payload.length → s.permitted m.mbox m.src m.tls cls op m.payload = true → s.sanitizing = true → sanitizeRefuses cls op = true →
      Completes i s fun t => Answered s t cls op m .stateRefused 0 [[]] ∧ OnlyAnswered s t)
    ∧ (m.len = m.payload.length → s.permitted m.mbox m.src m.tls cls op m.payload = true → (s.sanitizing && sanitizeRefuses cls op) = false →
      m.reservedSet = true →
      Completes i s fun t => (∃ d, Answered s t cls op m .invalidField d [[]]) ∧ OnlyAnswered s t)

/-- For every message row of the table, on a drive that serves and a mailbox that is free, whose source has a kept reply of the
same MH_SEQ, CLASS and OP that was posted at most 60 s ago: the message is not carried out, only the mailboxes and what
leaves through them differ, and the kept reply is returned with the new MH_TAG and MH_FLAGS.REPLAY, with its status, detail
and payloads: it waits in the mailbox, or leaves as MCTP responses from mailboxes 8 to 11 and as PEER messages from mailbox
12. The replies kept stay as they were. Whenever a reply is kept, the last 8 of its source stay. (R403, R404, R408, R409) -/
def Obligations.Kept_replies_answer_repeats : Prop :=
  (∀ (i : Instr) (cls op : Nat) (m : MsgReq) (k : KeptReply) (s : State), messageRow i = some (cls, op, m) → mailboxFree m.mbox s = true →
    s.keptFor cls op m = some k →
    (k.source = s.sourceOf m.mbox m.src ∧ k.seq = m.seq ∧ k.cls = cls ∧ k.op = op ∧ s.mono ≤ k.posted + 60 * 1000000000)
    ∧ Completes i s fun t =>
      OnlyAnswered s t ∧ (t.box m.mbox).kept = (s.box m.mbox).kept
      ∧ (if 8 ≤ m.mbox ∧ m.mbox ≤ 11 then t.out = s.out ++ (k.replies s m).map fun r => .mctp r.dst m.mctpTag r.status (sbBody m.mbox r.bytes)
         else if m.mbox = 12 then
           t.sk.outbox = s.sk.outbox ++ (k.replies s m).map fun r => (9, r.dst, r.bytes.map (·.toNat))
         else (t.box m.mbox).replies = k.replies s m)
      ∧ ∀ r ∈ k.replies s m, r.tag = m.tag ∧ r.flags / 4 % 2 = 1 ∧ r.status = k.status ∧ r.time = k.time ∧ r.tq = k.tq ∧ r.payload ∈ k.payloads)
  ∧ ∀ (cls op : Nat) (m : MsgReq) (a : Answer) (s : State), m.mbox < 16 → s.mb.boxes.length = 16 →
      (∀ src, src ≠ m.who →
        ((s.reply cls op m a).box m.mbox).kept.filter (·.source == src) = (s.box m.mbox).kept.filter (·.source == src))
      ∧ ∃ k, ((s.reply cls op m a).box m.mbox).kept.filter (·.source == m.who)
          = keepLast 8 ((s.box m.mbox).kept.filter (·.source == m.who) ++ [k])

/-- Byte i of the key prefix, counted from the most significant, is byte i of the key for i below 16, and 00h where the key has
no such byte. Two keys that agree in their first 16 bytes have the same prefix, and so do a short key and the same key with
trailing 00h bytes up to 16. The lookup key of every command that names a key carries this prefix. (R17) -/
def Obligations.Key_prefix_takes_the_first_sixteen_bytes : Prop :=
  (∀ (k : Key) (i : Nat), i < 16 → (keyPrefix k).extractLsb' (8 * (15 - i)) 8 = k.getD i 0)
  ∧ (∀ a b : Key, a.take 16 = b.take 16 → keyPrefix a = keyPrefix b)
  ∧ (∀ (k : Key) (n : Nat), k.length + n ≤ 16 → keyPrefix (k ++ List.replicate n 0) = keyPrefix k)
  ∧ ∀ (kind : IoKind) (nsid group : Nat) (k : Key), kind ≠ .list → kind ≠ .filteredList → kind.nsHold = false →
      (lookupKey kind nsid k group).pfx = keyPrefix k

/-- An entry matches a lookup key when it is valid and every bit of the key whose mask bit is 1 equals the entry's bit, in the
namespace, the key prefix, the operation and the host group. Among the matching entries of one drive (of its local or of its
global entries, R248) the winner is one of them; every other has a higher CE_PRIORITY, or the same and an address that is not
lower. There is no winner only where no entry matches. (R245) -/
def Obligations.CAM_winner_has_the_lowest_priority_then_address : Prop :=
  (∀ (e : CamEntry) (k : LKey), e.hits k = true ↔
    e.valid = true ∧ (∀ i, e.nsidMask.getLsbD i = true → k.nsid.getLsbD i = e.nsid.getLsbD i)
    ∧ (∀ i, e.pfxMask.getLsbD i = true → k.pfx.getLsbD i = e.pfx.getLsbD i)
    ∧ (∀ i, e.opMask.getLsbD i = true → k.op.getLsbD i = e.op.getLsbD i)
    ∧ (∀ i, e.hgroupMask.getLsbD i = true → k.hgroup.getLsbD i = e.hgroup.getLsbD i))
  ∧ (∀ (c : Cam) (g : Bool) (k : LKey), c.winner g k = none ↔ ∀ p ∈ c.entries, ¬(p.2.isGlobal = g ∧ p.2.hits k = true))
  ∧ ∀ (c : Cam) (g : Bool) (k : LKey) (a : Nat) (e : CamEntry), c.winner g k = some (a, e) →
      (a, e) ∈ c.entries ∧ e.isGlobal = g ∧ e.hits k = true
      ∧ ∀ p ∈ c.entries, p.2.isGlobal = g → p.2.hits k = true →
          e.prio.toNat < p.2.prio.toNat ∨ (e.prio = p.2.prio ∧ a ≤ p.1)

/-- For an EVLOG.CLEAR that nothing turns away, without payload: during a hold it gets BUSY and the log and the black box stay
as they were. Otherwise a black box record of kind 04h is added, the circulating area is emptied, and a record of code 1201h
with the next EV_SEQ, the source and the number of records removed is written: to the kept area while that is not full, and
otherwise as the first record of the circulating area. EV_LAST_CLEAR_TIME, EV_LAST_CLEAR_SEQ and EV_CLEARS follow. Nothing
else of the drive changes but the mailboxes, what leaves and the model's count of free values. (R500) -/
def Obligations.Event_log_clear_empties_only_the_circulating_area : Prop :=
  ∀ (m : MsgReq) (s : State), messageOk 0x04 0x05 m s = true → m.payload = [] →
    (s.ev.hold.isSome = true →
      Completes (.evlogClear m) s fun t => Answered s t 0x04 0x05 m .busy 0 [[]] ∧ t.ev = s.ev ∧ t.bb = s.bb)
    ∧ (s.ev.hold = none →
      let r : EvRec := { code := 0x1201, unit := 0x12, sev := 1, seq := s.ev.nextSeq.toNat, time := s.now,
                         p0 := m.mbox % 16 + 16 * (m.src % 4096), p1 := s.ev.circ.length, p2 := 0, tq := s.tq }
      Completes (.evlogClear m) s fun t =>
        (if s.ev.kept.length < 4096 then t.ev.kept = s.ev.kept ++ [r] ∧ t.ev.circ = [] else t.ev.kept = s.ev.kept ∧ t.ev.circ = [r])
        ∧ t.ev.nextSeq = s.ev.nextSeq + 1 ∧ t.ev.clears = s.ev.clears + 1 ∧ t.ev.lastClearTime = s.now ∧ t.ev.lastClearSeq = s.ev.nextSeq
        ∧ t.ev.suppressed = s.ev.suppressed ∧ t.ev.overflow = s.ev.overflow
        ∧ (∃ b : BbRec, b.kind = 4 ∧ b.source = m.mbox % 16 + 16 * (m.src % 4096) ∧ b.time = s.now
            ∧ ((t.bb.perm = s.bb.perm ++ [b] ∧ t.bb.tail = s.bb.tail) ∨ (t.bb.perm = s.bb.perm ∧ b ∈ t.bb.tail)))
        ∧ t.bb.fault = s.bb.fault ∧ t.bb.permRecords = s.bb.permRecords + 1
        ∧ t = { s with ev := t.ev, bb := t.bb, mb := { s.mb with boxes := t.mb.boxes }, out := t.out, sk := { s.sk with outbox := t.sk.outbox }, free := t.free })

/-- For every write and every state, a commit takes the commit sequence that is next, and the next one is one higher; the
journal grows by a record with this sequence, the drive's present time and time quality, and the write's namespace and key;
the records written before stand. (R25, R156, R158) -/
def Obligations.Commits_take_the_next_sequence : Prop :=
  ∀ (s : State) (w : Write) (fwd : Option (Nat × Nat × Nat)),
    (s.commit w fwd).2.seq = s.va.nextSeq ∧ (s.commit w fwd).1.va.nextSeq = s.va.nextSeq + 1
    ∧ ∃ r : JRec, (s.commit w fwd).1.wx.journal = s.wx.journal ++ [r]
        ∧ r.seq = s.va.nextSeq ∧ r.time = s.now ∧ r.tq = s.tq ∧ r.nsid = w.nsid ∧ r.key = w.key

/-- For the 25 messages that only read (the STATUS, GET, LIST, READ and SUMMARY messages that readMessage names), in every
state, whether they are answered, turned away, queued or ignored: if a next state is answered, only the mailboxes and what
leaves through them differ. (R403, R404, R408, R411) -/
def Obligations.Read_messages_change_only_their_mailbox : Prop :=
  ∀ (i : Instr) (m : MsgReq) (s t : State), readMessage i = some m → exec i s = .next t → OnlyAnswered s t

/-- For the events of the two ports, of calendar time and of the chain that portEvent, timeEvent and chainEvent name, in every
state: if a next state is answered, the namespaces, the index, staging and the journal, the media, the keys, the CAM, the
Mantle cache and HBM3, the commands in flight, the micro engines, the twin, the origins, the lifecycle, the firmware and the
self-test are as before. Events of the ports leave calendar time; events of time leave the chain and the mailboxes and, but
for the Delay_Req that DELAY_REQ_INTERVAL queues on a port and the loss of its timestamp that SYNC_EXCHANGE has taken note of, the ports;
events of the chain leave the ports, calendar time and the mailboxes. The frames of what leaves stand in the transmit queues. (R312, R313, R314, R328, R338, R341, R347, R357, R360, R361) -/
def Obligations.Port_time_and_chain_events_leave_the_volume : Prop :=
  ∀ (c : Instr) (s t : State), portEvent c = true ∨ timeEvent c = true ∨ chainEvent c = true → exec c s = .next t →
    (SameVolume s t ∧ t.fl = s.fl ∧ t.me = s.me ∧ t.tw = s.tw ∧ t.og = s.og ∧ t.li = s.li ∧ t.bt = s.bt ∧ t.stt = s.stt)
    ∧ (portEvent c = true → t.tm = s.tm)
    ∧ (timeEvent c = true →
        (c ≠ .delayReqInterval → (∀ p o f l b, c ≠ .syncExchange p o f l b) → t.pt = s.queued { t with pt := s.pt }) ∧ t.sk = s.sk ∧ t.mb = s.mb)
    ∧ (chainEvent c = true → t.pt = s.queued { t with pt := s.pt } ∧ t.tm = s.tm ∧ t.mb = s.mb)

/-- For every I/O command of a host, of each of the 17 kinds, in every state, the command answers a next state in which the
lifecycle and its fuses, the boot ledger, images and records, the clocks, freeze latch and calibration, and the self-test are
as before. (R68, R71, R434, R442, R482, R516) -/
def Obligations.IO_commands_leave_lifecycle_and_firmware : Prop :=
  ∀ (k : IoKind) (h : HostCmd) (s : State), Completes (ioCommand k h) s fun t => t.li = s.li ∧ t.bt = s.bt ∧ t.ck = s.ck ∧ t.stt = s.stt

/-- In every state and for every command: if a next state is answered, a fuse SEALED that was blown is blown, and so is a fuse
RETIRED. A Retired drive therefore stays Retired, and no drive becomes Blank again. (R442, R445, R446) -/
def Obligations.Fuses_are_never_unblown : Prop :=
  ∀ (c : Instr) (s t : State), exec c s = .next t →
    (s.li.sealedFuse = true → t.li.sealedFuse = true) ∧ (s.li.retiredFuse = true → t.li.retiredFuse = true)
    ∧ (s.lifecycle = .retired → t.lifecycle = .retired) ∧ (s.lifecycle ≠ .blank → t.lifecycle ≠ .blank)
end

