-- ==== Sys2Proof/Laws/Boot.lean ====
section
/-! SUPPORT. Records in two copies (R434, R484) and the ledger of a start (R428): what writing them leaves. -/

namespace Sys2Proof.Machine

/-- The copy just written is the newer one: a write of the second copy is not read from the first. -/
theorem Copies.readsA_writeB {α : Type} {c : Copies α} (h : c.readsA = true) (x : α) :
    ({ c with b := { gen := c.gen + 1, data := x } } : Copies α).readsA = false := by
  have hg : c.gen = c.a.gen := by rw [Copies.gen, if_pos h]
  simp [Copies.readsA, hg]

/-- The copy just written is the newer one: a write of the first copy is read from it. -/
theorem Copies.readsA_writeA {α : Type} {c : Copies α} (h : ¬ c.readsA = true) (x : α) :
    ({ c with a := { gen := c.gen + 1, data := x } } : Copies α).readsA = true := by
  by_cases hb : c.b.ok = true
  · have hg : c.gen = c.b.gen := by rw [Copies.gen, if_neg h, if_pos hb]
    simp [Copies.readsA, hg]
  · simp [Copies.readsA, hb]

/-- A written record has the next generation, whichever copies were valid. -/
@[simp] theorem Copies.gen_set {α : Type} (c : Copies α) (x : α) : (c.set x).gen = c.gen + 1 := by
  by_cases h : c.readsA = true
  · rw [Copies.set, if_pos h, Copies.gen, Copies.readsA_writeB h]
    rfl
  · rw [Copies.set, if_neg h, Copies.gen, if_pos (Copies.readsA_writeA h x)]

/-- A reader finds what was written last, whichever copies were valid before. -/
@[simp] theorem Copies.get_set {α : Type} (c : Copies α) (x y : α) : (c.set x).get y = x := by
  by_cases h : c.readsA = true
  · rw [Copies.set, if_pos h, Copies.get, Copies.readsA_writeB h]
    rfl
  · rw [Copies.set, if_neg h, Copies.get, if_pos (Copies.readsA_writeA h x)]

@[simp] theorem Boot.brActive_setRecord (b : Boot) (active : Nat) (trial : Option Nat) :
    (b.setRecord active trial).brActive = active := by simp [Boot.brActive, Boot.setRecord]

@[simp] theorem Boot.brTrial_setRecord (b : Boot) (active : Nat) (trial : Option Nat) :
    (b.setRecord active trial).brTrial = trial := by simp [Boot.brTrial, Boot.setRecord]

@[simp] theorem Boot.brGen_setRecord (b : Boot) (active : Nat) (trial : Option Nat) :
    (b.setRecord active trial).brGen = b.brGen + 1 := by simp [Boot.brGen, Boot.setRecord]

/-- Writing a step's slot keeps the number of start entries. -/
@[simp] theorem State.length_writeSlot (s : State) (n : Nat) (f : StepSlot → StepSlot) :
    (s.writeSlot n f).bt.ledger.length = s.bt.ledger.length := by
  simp only [State.writeSlot, State.modBt]
  cases s.bt.ledger <;> rfl

end Sys2Proof.Machine
end

