-- ==== Sys2Proof/Laws/Bytes.lean ====
section
/-! SUPPORT. Lengths of the byte strings of records: fields, padding, and SHA-384. -/

namespace Sys2Proof.Machine

@[simp] theorem leBytes_length (n v : Nat) : (leBytes n v).length = n := by
  induction n generalizing v with
  | zero => rfl
  | succ n ih => simp [leBytes, ih]

@[simp] theorem beBytes_length (n v : Nat) : (beBytes n v).length = n := by simp [beBytes]

@[simp] theorem padTo_length (n : Nat) (b : Bytes) : (padTo n b).length = n := by simp [padTo]; omega

theorem shaRound_length (h : List W64) (k : W64) (hh : h.length = 8) : (shaRound h k).length = 8 := by
  match h, hh with
  | [_, _, _, _, _, _, _, _], _ => rfl

theorem foldl_shaRound_length (l : List W64) (h : List W64) (hh : h.length = 8) : (l.foldl shaRound h).length = 8 := by
  induction l generalizing h with
  | nil => exact hh
  | cons k l ih => exact ih _ (shaRound_length h k hh)

theorem shaBlock_length (h : List W64) (b : Bytes) (hh : h.length = 8) : (shaBlock h b).length = 8 := by
  simp [shaBlock, hh, foldl_shaRound_length]

theorem shaBlocks_length (n : Nat) (h : List W64) (b : Bytes) (hh : h.length = 8) : (shaBlocks n h b).length = 8 := by
  induction n generalizing h b with
  | zero => exact hh
  | succ n ih => exact ih _ _ (shaBlock_length h _ hh)

/-- A SHA-384 digest has 48 bytes. -/
@[simp] theorem sha384_length (m : Bytes) : (sha384 m).length = 48 := by
  unfold sha384
  simp only [List.length_flatMap, beBytes_length, List.map_const', List.sum_replicate_nat, List.length_take]
  rw [shaBlocks_length _ _ _ (by decide)]
  decide

/-- The drive's identifier has 16 bytes. -/
@[simp] theorem driveId_length (s : State) : s.driveId.length = 16 := by simp [State.driveId]

end Sys2Proof.Machine
end

