-- ==== Sys2Proof/Laws/State.lean ====
section
/-! SUPPORT. One lemma per field per update of a part of the state, so that no proof unfolds a record update. -/

namespace Sys2Proof.Machine

@[simp] theorem State.modPw_pw (s : State) (f : Power → Power) : (s.modPw f).pw = f s.pw := rfl
@[simp] theorem State.modPw_bt (s : State) (f : Power → Power) : (s.modPw f).bt = s.bt := rfl
@[simp] theorem State.modPw_fe (s : State) (f : Power → Power) : (s.modPw f).fe = s.fe := rfl
@[simp] theorem State.modPw_fl (s : State) (f : Power → Power) : (s.modPw f).fl = s.fl := rfl
@[simp] theorem State.modPw_va (s : State) (f : Power → Power) : (s.modPw f).va = s.va := rfl
@[simp] theorem State.modPw_ix (s : State) (f : Power → Power) : (s.modPw f).ix = s.ix := rfl
@[simp] theorem State.modPw_mc (s : State) (f : Power → Power) : (s.modPw f).mc = s.mc := rfl
@[simp] theorem State.modPw_wx (s : State) (f : Power → Power) : (s.modPw f).wx = s.wx := rfl
@[simp] theorem State.modPw_md (s : State) (f : Power → Power) : (s.modPw f).md = s.md := rfl
@[simp] theorem State.modPw_ky (s : State) (f : Power → Power) : (s.modPw f).ky = s.ky := rfl
@[simp] theorem State.modPw_cam (s : State) (f : Power → Power) : (s.modPw f).cam = s.cam := rfl
@[simp] theorem State.modPw_tw (s : State) (f : Power → Power) : (s.modPw f).tw = s.tw := rfl
@[simp] theorem State.modPw_og (s : State) (f : Power → Power) : (s.modPw f).og = s.og := rfl
@[simp] theorem State.modPw_sk (s : State) (f : Power → Power) : (s.modPw f).sk = s.sk := rfl
@[simp] theorem State.modPw_pt (s : State) (f : Power → Power) : (s.modPw f).pt = s.pt := rfl
@[simp] theorem State.modPw_tm (s : State) (f : Power → Power) : (s.modPw f).tm = s.tm := rfl
@[simp] theorem State.modPw_me (s : State) (f : Power → Power) : (s.modPw f).me = s.me := rfl
@[simp] theorem State.modPw_mb (s : State) (f : Power → Power) : (s.modPw f).mb = s.mb := rfl
@[simp] theorem State.modPw_li (s : State) (f : Power → Power) : (s.modPw f).li = s.li := rfl
@[simp] theorem State.modPw_ck (s : State) (f : Power → Power) : (s.modPw f).ck = s.ck := rfl
@[simp] theorem State.modPw_ev (s : State) (f : Power → Power) : (s.modPw f).ev = s.ev := rfl
@[simp] theorem State.modPw_bb (s : State) (f : Power → Power) : (s.modPw f).bb = s.bb := rfl
@[simp] theorem State.modPw_stt (s : State) (f : Power → Power) : (s.modPw f).stt = s.stt := rfl
@[simp] theorem State.modPw_out (s : State) (f : Power → Power) : (s.modPw f).out = s.out := rfl
@[simp] theorem State.modPw_free (s : State) (f : Power → Power) : (s.modPw f).free = s.free := rfl
@[simp] theorem State.modPw_pending (s : State) (f : Power → Power) : (s.modPw f).pending = s.pending := rfl
@[simp] theorem State.modBt_pw (s : State) (f : Boot → Boot) : (s.modBt f).pw = s.pw := rfl
@[simp] theorem State.modBt_bt (s : State) (f : Boot → Boot) : (s.modBt f).bt = f s.bt := rfl
@[simp] theorem State.modBt_fe (s : State) (f : Boot → Boot) : (s.modBt f).fe = s.fe := rfl
@[simp] theorem State.modBt_fl (s : State) (f : Boot → Boot) : (s.modBt f).fl = s.fl := rfl
@[simp] theorem State.modBt_va (s : State) (f : Boot → Boot) : (s.modBt f).va = s.va := rfl
@[simp] theorem State.modBt_ix (s : State) (f : Boot → Boot) : (s.modBt f).ix = s.ix := rfl
@[simp] theorem State.modBt_mc (s : State) (f : Boot → Boot) : (s.modBt f).mc = s.mc := rfl
@[simp] theorem State.modBt_wx (s : State) (f : Boot → Boot) : (s.modBt f).wx = s.wx := rfl
@[simp] theorem State.modBt_md (s : State) (f : Boot → Boot) : (s.modBt f).md = s.md := rfl
@[simp] theorem State.modBt_ky (s : State) (f : Boot → Boot) : (s.modBt f).ky = s.ky := rfl
@[simp] theorem State.modBt_cam (s : State) (f : Boot → Boot) : (s.modBt f).cam = s.cam := rfl
@[simp] theorem State.modBt_tw (s : State) (f : Boot → Boot) : (s.modBt f).tw = s.tw := rfl
@[simp] theorem State.modBt_og (s : State) (f : Boot → Boot) : (s.modBt f).og = s.og := rfl
@[simp] theorem State.modBt_sk (s : State) (f : Boot → Boot) : (s.modBt f).sk = s.sk := rfl
@[simp] theorem State.modBt_pt (s : State) (f : Boot → Boot) : (s.modBt f).pt = s.pt := rfl
@[simp] theorem State.modBt_tm (s : State) (f : Boot → Boot) : (s.modBt f).tm = s.tm := rfl
@[simp] theorem State.modBt_me (s : State) (f : Boot → Boot) : (s.modBt f).me = s.me := rfl
@[simp] theorem State.modBt_mb (s : State) (f : Boot → Boot) : (s.modBt f).mb = s.mb := rfl
@[simp] theorem State.modBt_li (s : State) (f : Boot → Boot) : (s.modBt f).li = s.li := rfl
@[simp] theorem State.modBt_ck (s : State) (f : Boot → Boot) : (s.modBt f).ck = s.ck := rfl
@[simp] theorem State.modBt_ev (s : State) (f : Boot → Boot) : (s.modBt f).ev = s.ev := rfl
@[simp] theorem State.modBt_bb (s : State) (f : Boot → Boot) : (s.modBt f).bb = s.bb := rfl
@[simp] theorem State.modBt_stt (s : State) (f : Boot → Boot) : (s.modBt f).stt = s.stt := rfl
@[simp] theorem State.modBt_out (s : State) (f : Boot → Boot) : (s.modBt f).out = s.out := rfl
@[simp] theorem State.modBt_free (s : State) (f : Boot → Boot) : (s.modBt f).free = s.free := rfl
@[simp] theorem State.modBt_pending (s : State) (f : Boot → Boot) : (s.modBt f).pending = s.pending := rfl
@[simp] theorem State.modFe_pw (s : State) (f : Front → Front) : (s.modFe f).pw = s.pw := rfl
@[simp] theorem State.modFe_bt (s : State) (f : Front → Front) : (s.modFe f).bt = s.bt := rfl
@[simp] theorem State.modFe_fe (s : State) (f : Front → Front) : (s.modFe f).fe = f s.fe := rfl
@[simp] theorem State.modFe_fl (s : State) (f : Front → Front) : (s.modFe f).fl = s.fl := rfl
@[simp] theorem State.modFe_va (s : State) (f : Front → Front) : (s.modFe f).va = s.va := rfl
@[simp] theorem State.modFe_ix (s : State) (f : Front → Front) : (s.modFe f).ix = s.ix := rfl
@[simp] theorem State.modFe_mc (s : State) (f : Front → Front) : (s.modFe f).mc = s.mc := rfl
@[simp] theorem State.modFe_wx (s : State) (f : Front → Front) : (s.modFe f).wx = s.wx := rfl
@[simp] theorem State.modFe_md (s : State) (f : Front → Front) : (s.modFe f).md = s.md := rfl
@[simp] theorem State.modFe_ky (s : State) (f : Front → Front) : (s.modFe f).ky = s.ky := rfl
@[simp] theorem State.modFe_cam (s : State) (f : Front → Front) : (s.modFe f).cam = s.cam := rfl
@[simp] theorem State.modFe_tw (s : State) (f : Front → Front) : (s.modFe f).tw = s.tw := rfl
@[simp] theorem State.modFe_og (s : State) (f : Front → Front) : (s.modFe f).og = s.og := rfl
@[simp] theorem State.modFe_sk (s : State) (f : Front → Front) : (s.modFe f).sk = s.sk := rfl
@[simp] theorem State.modFe_pt (s : State) (f : Front → Front) : (s.modFe f).pt = s.pt := rfl
@[simp] theorem State.modFe_tm (s : State) (f : Front → Front) : (s.modFe f).tm = s.tm := rfl
@[simp] theorem State.modFe_me (s : State) (f : Front → Front) : (s.modFe f).me = s.me := rfl
@[simp] theorem State.modFe_mb (s : State) (f : Front → Front) : (s.modFe f).mb = s.mb := rfl
@[simp] theorem State.modFe_li (s : State) (f : Front → Front) : (s.modFe f).li = s.li := rfl
@[simp] theorem State.modFe_ck (s : State) (f : Front → Front) : (s.modFe f).ck = s.ck := rfl
@[simp] theorem State.modFe_ev (s : State) (f : Front → Front) : (s.modFe f).ev = s.ev := rfl
@[simp] theorem State.modFe_bb (s : State) (f : Front → Front) : (s.modFe f).bb = s.bb := rfl
@[simp] theorem State.modFe_stt (s : State) (f : Front → Front) : (s.modFe f).stt = s.stt := rfl
@[simp] theorem State.modFe_out (s : State) (f : Front → Front) : (s.modFe f).out = s.out := rfl
@[simp] theorem State.modFe_free (s : State) (f : Front → Front) : (s.modFe f).free = s.free := rfl
@[simp] theorem State.modFe_pending (s : State) (f : Front → Front) : (s.modFe f).pending = s.pending := rfl
@[simp] theorem State.modFl_pw (s : State) (f : Flight → Flight) : (s.modFl f).pw = s.pw := rfl
@[simp] theorem State.modFl_bt (s : State) (f : Flight → Flight) : (s.modFl f).bt = s.bt := rfl
@[simp] theorem State.modFl_fe (s : State) (f : Flight → Flight) : (s.modFl f).fe = s.fe := rfl
@[simp] theorem State.modFl_fl (s : State) (f : Flight → Flight) : (s.modFl f).fl = f s.fl := rfl
@[simp] theorem State.modFl_va (s : State) (f : Flight → Flight) : (s.modFl f).va = s.va := rfl
@[simp] theorem State.modFl_ix (s : State) (f : Flight → Flight) : (s.modFl f).ix = s.ix := rfl
@[simp] theorem State.modFl_mc (s : State) (f : Flight → Flight) : (s.modFl f).mc = s.mc := rfl
@[simp] theorem State.modFl_wx (s : State) (f : Flight → Flight) : (s.modFl f).wx = s.wx := rfl
@[simp] theorem State.modFl_md (s : State) (f : Flight → Flight) : (s.modFl f).md = s.md := rfl
@[simp] theorem State.modFl_ky (s : State) (f : Flight → Flight) : (s.modFl f).ky = s.ky := rfl
@[simp] theorem State.modFl_cam (s : State) (f : Flight → Flight) : (s.modFl f).cam = s.cam := rfl
@[simp] theorem State.modFl_tw (s : State) (f : Flight → Flight) : (s.modFl f).tw = s.tw := rfl
@[simp] theorem State.modFl_og (s : State) (f : Flight → Flight) : (s.modFl f).og = s.og := rfl
@[simp] theorem State.modFl_sk (s : State) (f : Flight → Flight) : (s.modFl f).sk = s.sk := rfl
@[simp] theorem State.modFl_pt (s : State) (f : Flight → Flight) : (s.modFl f).pt = s.pt := rfl
@[simp] theorem State.modFl_tm (s : State) (f : Flight → Flight) : (s.modFl f).tm = s.tm := rfl
@[simp] theorem State.modFl_me (s : State) (f : Flight → Flight) : (s.modFl f).me = s.me := rfl
@[simp] theorem State.modFl_mb (s : State) (f : Flight → Flight) : (s.modFl f).mb = s.mb := rfl
@[simp] theorem State.modFl_li (s : State) (f : Flight → Flight) : (s.modFl f).li = s.li := rfl
@[simp] theorem State.modFl_ck (s : State) (f : Flight → Flight) : (s.modFl f).ck = s.ck := rfl
@[simp] theorem State.modFl_ev (s : State) (f : Flight → Flight) : (s.modFl f).ev = s.ev := rfl
@[simp] theorem State.modFl_bb (s : State) (f : Flight → Flight) : (s.modFl f).bb = s.bb := rfl
@[simp] theorem State.modFl_stt (s : State) (f : Flight → Flight) : (s.modFl f).stt = s.stt := rfl
@[simp] theorem State.modFl_out (s : State) (f : Flight → Flight) : (s.modFl f).out = s.out := rfl
@[simp] theorem State.modFl_free (s : State) (f : Flight → Flight) : (s.modFl f).free = s.free := rfl
@[simp] theorem State.modFl_pending (s : State) (f : Flight → Flight) : (s.modFl f).pending = s.pending := rfl
@[simp] theorem State.modVa_pw (s : State) (f : Vault → Vault) : (s.modVa f).pw = s.pw := rfl
@[simp] theorem State.modVa_bt (s : State) (f : Vault → Vault) : (s.modVa f).bt = s.bt := rfl
@[simp] theorem State.modVa_fe (s : State) (f : Vault → Vault) : (s.modVa f).fe = s.fe := rfl
@[simp] theorem State.modVa_fl (s : State) (f : Vault → Vault) : (s.modVa f).fl = s.fl := rfl
@[simp] theorem State.modVa_va (s : State) (f : Vault → Vault) : (s.modVa f).va = f s.va := rfl
@[simp] theorem State.modVa_ix (s : State) (f : Vault → Vault) : (s.modVa f).ix = s.ix := rfl
@[simp] theorem State.modVa_mc (s : State) (f : Vault → Vault) : (s.modVa f).mc = s.mc := rfl
@[simp] theorem State.modVa_wx (s : State) (f : Vault → Vault) : (s.modVa f).wx = s.wx := rfl
@[simp] theorem State.modVa_md (s : State) (f : Vault → Vault) : (s.modVa f).md = s.md := rfl
@[simp] theorem State.modVa_ky (s : State) (f : Vault → Vault) : (s.modVa f).ky = s.ky := rfl
@[simp] theorem State.modVa_cam (s : State) (f : Vault → Vault) : (s.modVa f).cam = s.cam := rfl
@[simp] theorem State.modVa_tw (s : State) (f : Vault → Vault) : (s.modVa f).tw = s.tw := rfl
@[simp] theorem State.modVa_og (s : State) (f : Vault → Vault) : (s.modVa f).og = s.og := rfl
@[simp] theorem State.modVa_sk (s : State) (f : Vault → Vault) : (s.modVa f).sk = s.sk := rfl
@[simp] theorem State.modVa_pt (s : State) (f : Vault → Vault) : (s.modVa f).pt = s.pt := rfl
@[simp] theorem State.modVa_tm (s : State) (f : Vault → Vault) : (s.modVa f).tm = s.tm := rfl
@[simp] theorem State.modVa_me (s : State) (f : Vault → Vault) : (s.modVa f).me = s.me := rfl
@[simp] theorem State.modVa_mb (s : State) (f : Vault → Vault) : (s.modVa f).mb = s.mb := rfl
@[simp] theorem State.modVa_li (s : State) (f : Vault → Vault) : (s.modVa f).li = s.li := rfl
@[simp] theorem State.modVa_ck (s : State) (f : Vault → Vault) : (s.modVa f).ck = s.ck := rfl
@[simp] theorem State.modVa_ev (s : State) (f : Vault → Vault) : (s.modVa f).ev = s.ev := rfl
@[simp] theorem State.modVa_bb (s : State) (f : Vault → Vault) : (s.modVa f).bb = s.bb := rfl
@[simp] theorem State.modVa_stt (s : State) (f : Vault → Vault) : (s.modVa f).stt = s.stt := rfl
@[simp] theorem State.modVa_out (s : State) (f : Vault → Vault) : (s.modVa f).out = s.out := rfl
@[simp] theorem State.modVa_free (s : State) (f : Vault → Vault) : (s.modVa f).free = s.free := rfl
@[simp] theorem State.modVa_pending (s : State) (f : Vault → Vault) : (s.modVa f).pending = s.pending := rfl
@[simp] theorem State.modIx_pw (s : State) (f : Index → Index) : (s.modIx f).pw = s.pw := rfl
@[simp] theorem State.modIx_bt (s : State) (f : Index → Index) : (s.modIx f).bt = s.bt := rfl
@[simp] theorem State.modIx_fe (s : State) (f : Index → Index) : (s.modIx f).fe = s.fe := rfl
@[simp] theorem State.modIx_fl (s : State) (f : Index → Index) : (s.modIx f).fl = s.fl := rfl
@[simp] theorem State.modIx_va (s : State) (f : Index → Index) : (s.modIx f).va = s.va := rfl
@[simp] theorem State.modIx_ix (s : State) (f : Index → Index) : (s.modIx f).ix = f s.ix := rfl
@[simp] theorem State.modIx_mc (s : State) (f : Index → Index) : (s.modIx f).mc = s.mc := rfl
@[simp] theorem State.modIx_wx (s : State) (f : Index → Index) : (s.modIx f).wx = s.wx := rfl
@[simp] theorem State.modIx_md (s : State) (f : Index → Index) : (s.modIx f).md = s.md := rfl
@[simp] theorem State.modIx_ky (s : State) (f : Index → Index) : (s.modIx f).ky = s.ky := rfl
@[simp] theorem State.modIx_cam (s : State) (f : Index → Index) : (s.modIx f).cam = s.cam := rfl
@[simp] theorem State.modIx_tw (s : State) (f : Index → Index) : (s.modIx f).tw = s.tw := rfl
@[simp] theorem State.modIx_og (s : State) (f : Index → Index) : (s.modIx f).og = s.og := rfl
@[simp] theorem State.modIx_sk (s : State) (f : Index → Index) : (s.modIx f).sk = s.sk := rfl
@[simp] theorem State.modIx_pt (s : State) (f : Index → Index) : (s.modIx f).pt = s.pt := rfl
@[simp] theorem State.modIx_tm (s : State) (f : Index → Index) : (s.modIx f).tm = s.tm := rfl
@[simp] theorem State.modIx_me (s : State) (f : Index → Index) : (s.modIx f).me = s.me := rfl
@[simp] theorem State.modIx_mb (s : State) (f : Index → Index) : (s.modIx f).mb = s.mb := rfl
@[simp] theorem State.modIx_li (s : State) (f : Index → Index) : (s.modIx f).li = s.li := rfl
@[simp] theorem State.modIx_ck (s : State) (f : Index → Index) : (s.modIx f).ck = s.ck := rfl
@[simp] theorem State.modIx_ev (s : State) (f : Index → Index) : (s.modIx f).ev = s.ev := rfl
@[simp] theorem State.modIx_bb (s : State) (f : Index → Index) : (s.modIx f).bb = s.bb := rfl
@[simp] theorem State.modIx_stt (s : State) (f : Index → Index) : (s.modIx f).stt = s.stt := rfl
@[simp] theorem State.modIx_out (s : State) (f : Index → Index) : (s.modIx f).out = s.out := rfl
@[simp] theorem State.modIx_free (s : State) (f : Index → Index) : (s.modIx f).free = s.free := rfl
@[simp] theorem State.modIx_pending (s : State) (f : Index → Index) : (s.modIx f).pending = s.pending := rfl
@[simp] theorem State.modMc_pw (s : State) (f : Mantle → Mantle) : (s.modMc f).pw = s.pw := rfl
@[simp] theorem State.modMc_bt (s : State) (f : Mantle → Mantle) : (s.modMc f).bt = s.bt := rfl
@[simp] theorem State.modMc_fe (s : State) (f : Mantle → Mantle) : (s.modMc f).fe = s.fe := rfl
@[simp] theorem State.modMc_fl (s : State) (f : Mantle → Mantle) : (s.modMc f).fl = s.fl := rfl
@[simp] theorem State.modMc_va (s : State) (f : Mantle → Mantle) : (s.modMc f).va = s.va := rfl
@[simp] theorem State.modMc_ix (s : State) (f : Mantle → Mantle) : (s.modMc f).ix = s.ix := rfl
@[simp] theorem State.modMc_mc (s : State) (f : Mantle → Mantle) : (s.modMc f).mc = f s.mc := rfl
@[simp] theorem State.modMc_wx (s : State) (f : Mantle → Mantle) : (s.modMc f).wx = s.wx := rfl
@[simp] theorem State.modMc_md (s : State) (f : Mantle → Mantle) : (s.modMc f).md = s.md := rfl
@[simp] theorem State.modMc_ky (s : State) (f : Mantle → Mantle) : (s.modMc f).ky = s.ky := rfl
@[simp] theorem State.modMc_cam (s : State) (f : Mantle → Mantle) : (s.modMc f).cam = s.cam := rfl
@[simp] theorem State.modMc_tw (s : State) (f : Mantle → Mantle) : (s.modMc f).tw = s.tw := rfl
@[simp] theorem State.modMc_og (s : State) (f : Mantle → Mantle) : (s.modMc f).og = s.og := rfl
@[simp] theorem State.modMc_sk (s : State) (f : Mantle → Mantle) : (s.modMc f).sk = s.sk := rfl
@[simp] theorem State.modMc_pt (s : State) (f : Mantle → Mantle) : (s.modMc f).pt = s.pt := rfl
@[simp] theorem State.modMc_tm (s : State) (f : Mantle → Mantle) : (s.modMc f).tm = s.tm := rfl
@[simp] theorem State.modMc_me (s : State) (f : Mantle → Mantle) : (s.modMc f).me = s.me := rfl
@[simp] theorem State.modMc_mb (s : State) (f : Mantle → Mantle) : (s.modMc f).mb = s.mb := rfl
@[simp] theorem State.modMc_li (s : State) (f : Mantle → Mantle) : (s.modMc f).li = s.li := rfl
@[simp] theorem State.modMc_ck (s : State) (f : Mantle → Mantle) : (s.modMc f).ck = s.ck := rfl
@[simp] theorem State.modMc_ev (s : State) (f : Mantle → Mantle) : (s.modMc f).ev = s.ev := rfl
@[simp] theorem State.modMc_bb (s : State) (f : Mantle → Mantle) : (s.modMc f).bb = s.bb := rfl
@[simp] theorem State.modMc_stt (s : State) (f : Mantle → Mantle) : (s.modMc f).stt = s.stt := rfl
@[simp] theorem State.modMc_out (s : State) (f : Mantle → Mantle) : (s.modMc f).out = s.out := rfl
@[simp] theorem State.modMc_free (s : State) (f : Mantle → Mantle) : (s.modMc f).free = s.free := rfl
@[simp] theorem State.modMc_pending (s : State) (f : Mantle → Mantle) : (s.modMc f).pending = s.pending := rfl
@[simp] theorem State.modWx_pw (s : State) (f : Wax → Wax) : (s.modWx f).pw = s.pw := rfl
@[simp] theorem State.modWx_bt (s : State) (f : Wax → Wax) : (s.modWx f).bt = s.bt := rfl
@[simp] theorem State.modWx_fe (s : State) (f : Wax → Wax) : (s.modWx f).fe = s.fe := rfl
@[simp] theorem State.modWx_fl (s : State) (f : Wax → Wax) : (s.modWx f).fl = s.fl := rfl
@[simp] theorem State.modWx_va (s : State) (f : Wax → Wax) : (s.modWx f).va = s.va := rfl
@[simp] theorem State.modWx_ix (s : State) (f : Wax → Wax) : (s.modWx f).ix = s.ix := rfl
@[simp] theorem State.modWx_mc (s : State) (f : Wax → Wax) : (s.modWx f).mc = s.mc := rfl
@[simp] theorem State.modWx_wx (s : State) (f : Wax → Wax) : (s.modWx f).wx = f s.wx := rfl
@[simp] theorem State.modWx_md (s : State) (f : Wax → Wax) : (s.modWx f).md = s.md := rfl
@[simp] theorem State.modWx_ky (s : State) (f : Wax → Wax) : (s.modWx f).ky = s.ky := rfl
@[simp] theorem State.modWx_cam (s : State) (f : Wax → Wax) : (s.modWx f).cam = s.cam := rfl
@[simp] theorem State.modWx_tw (s : State) (f : Wax → Wax) : (s.modWx f).tw = s.tw := rfl
@[simp] theorem State.modWx_og (s : State) (f : Wax → Wax) : (s.modWx f).og = s.og := rfl
@[simp] theorem State.modWx_sk (s : State) (f : Wax → Wax) : (s.modWx f).sk = s.sk := rfl
@[simp] theorem State.modWx_pt (s : State) (f : Wax → Wax) : (s.modWx f).pt = s.pt := rfl
@[simp] theorem State.modWx_tm (s : State) (f : Wax → Wax) : (s.modWx f).tm = s.tm := rfl
@[simp] theorem State.modWx_me (s : State) (f : Wax → Wax) : (s.modWx f).me = s.me := rfl
@[simp] theorem State.modWx_mb (s : State) (f : Wax → Wax) : (s.modWx f).mb = s.mb := rfl
@[simp] theorem State.modWx_li (s : State) (f : Wax → Wax) : (s.modWx f).li = s.li := rfl
@[simp] theorem State.modWx_ck (s : State) (f : Wax → Wax) : (s.modWx f).ck = s.ck := rfl
@[simp] theorem State.modWx_ev (s : State) (f : Wax → Wax) : (s.modWx f).ev = s.ev := rfl
@[simp] theorem State.modWx_bb (s : State) (f : Wax → Wax) : (s.modWx f).bb = s.bb := rfl
@[simp] theorem State.modWx_stt (s : State) (f : Wax → Wax) : (s.modWx f).stt = s.stt := rfl
@[simp] theorem State.modWx_out (s : State) (f : Wax → Wax) : (s.modWx f).out = s.out := rfl
@[simp] theorem State.modWx_free (s : State) (f : Wax → Wax) : (s.modWx f).free = s.free := rfl
@[simp] theorem State.modWx_pending (s : State) (f : Wax → Wax) : (s.modWx f).pending = s.pending := rfl
@[simp] theorem State.modMd_pw (s : State) (f : Media → Media) : (s.modMd f).pw = s.pw := rfl
@[simp] theorem State.modMd_bt (s : State) (f : Media → Media) : (s.modMd f).bt = s.bt := rfl
@[simp] theorem State.modMd_fe (s : State) (f : Media → Media) : (s.modMd f).fe = s.fe := rfl
@[simp] theorem State.modMd_fl (s : State) (f : Media → Media) : (s.modMd f).fl = s.fl := rfl
@[simp] theorem State.modMd_va (s : State) (f : Media → Media) : (s.modMd f).va = s.va := rfl
@[simp] theorem State.modMd_ix (s : State) (f : Media → Media) : (s.modMd f).ix = s.ix := rfl
@[simp] theorem State.modMd_mc (s : State) (f : Media → Media) : (s.modMd f).mc = s.mc := rfl
@[simp] theorem State.modMd_wx (s : State) (f : Media → Media) : (s.modMd f).wx = s.wx := rfl
@[simp] theorem State.modMd_md (s : State) (f : Media → Media) : (s.modMd f).md = f s.md := rfl
@[simp] theorem State.modMd_ky (s : State) (f : Media → Media) : (s.modMd f).ky = s.ky := rfl
@[simp] theorem State.modMd_cam (s : State) (f : Media → Media) : (s.modMd f).cam = s.cam := rfl
@[simp] theorem State.modMd_tw (s : State) (f : Media → Media) : (s.modMd f).tw = s.tw := rfl
@[simp] theorem State.modMd_og (s : State) (f : Media → Media) : (s.modMd f).og = s.og := rfl
@[simp] theorem State.modMd_sk (s : State) (f : Media → Media) : (s.modMd f).sk = s.sk := rfl
@[simp] theorem State.modMd_pt (s : State) (f : Media → Media) : (s.modMd f).pt = s.pt := rfl
@[simp] theorem State.modMd_tm (s : State) (f : Media → Media) : (s.modMd f).tm = s.tm := rfl
@[simp] theorem State.modMd_me (s : State) (f : Media → Media) : (s.modMd f).me = s.me := rfl
@[simp] theorem State.modMd_mb (s : State) (f : Media → Media) : (s.modMd f).mb = s.mb := rfl
@[simp] theorem State.modMd_li (s : State) (f : Media → Media) : (s.modMd f).li = s.li := rfl
@[simp] theorem State.modMd_ck (s : State) (f : Media → Media) : (s.modMd f).ck = s.ck := rfl
@[simp] theorem State.modMd_ev (s : State) (f : Media → Media) : (s.modMd f).ev = s.ev := rfl
@[simp] theorem State.modMd_bb (s : State) (f : Media → Media) : (s.modMd f).bb = s.bb := rfl
@[simp] theorem State.modMd_stt (s : State) (f : Media → Media) : (s.modMd f).stt = s.stt := rfl
@[simp] theorem State.modMd_out (s : State) (f : Media → Media) : (s.modMd f).out = s.out := rfl
@[simp] theorem State.modMd_free (s : State) (f : Media → Media) : (s.modMd f).free = s.free := rfl
@[simp] theorem State.modMd_pending (s : State) (f : Media → Media) : (s.modMd f).pending = s.pending := rfl
@[simp] theorem State.modKy_pw (s : State) (f : Keys → Keys) : (s.modKy f).pw = s.pw := rfl
@[simp] theorem State.modKy_bt (s : State) (f : Keys → Keys) : (s.modKy f).bt = s.bt := rfl
@[simp] theorem State.modKy_fe (s : State) (f : Keys → Keys) : (s.modKy f).fe = s.fe := rfl
@[simp] theorem State.modKy_fl (s : State) (f : Keys → Keys) : (s.modKy f).fl = s.fl := rfl
@[simp] theorem State.modKy_va (s : State) (f : Keys → Keys) : (s.modKy f).va = s.va := rfl
@[simp] theorem State.modKy_ix (s : State) (f : Keys → Keys) : (s.modKy f).ix = s.ix := rfl
@[simp] theorem State.modKy_mc (s : State) (f : Keys → Keys) : (s.modKy f).mc = s.mc := rfl
@[simp] theorem State.modKy_wx (s : State) (f : Keys → Keys) : (s.modKy f).wx = s.wx := rfl
@[simp] theorem State.modKy_md (s : State) (f : Keys → Keys) : (s.modKy f).md = s.md := rfl
@[simp] theorem State.modKy_ky (s : State) (f : Keys → Keys) : (s.modKy f).ky = f s.ky := rfl
@[simp] theorem State.modKy_cam (s : State) (f : Keys → Keys) : (s.modKy f).cam = s.cam := rfl
@[simp] theorem State.modKy_tw (s : State) (f : Keys → Keys) : (s.modKy f).tw = s.tw := rfl
@[simp] theorem State.modKy_og (s : State) (f : Keys → Keys) : (s.modKy f).og = s.og := rfl
@[simp] theorem State.modKy_sk (s : State) (f : Keys → Keys) : (s.modKy f).sk = s.sk := rfl
@[simp] theorem State.modKy_pt (s : State) (f : Keys → Keys) : (s.modKy f).pt = s.pt := rfl
@[simp] theorem State.modKy_tm (s : State) (f : Keys → Keys) : (s.modKy f).tm = s.tm := rfl
@[simp] theorem State.modKy_me (s : State) (f : Keys → Keys) : (s.modKy f).me = s.me := rfl
@[simp] theorem State.modKy_mb (s : State) (f : Keys → Keys) : (s.modKy f).mb = s.mb := rfl
@[simp] theorem State.modKy_li (s : State) (f : Keys → Keys) : (s.modKy f).li = s.li := rfl
@[simp] theorem State.modKy_ck (s : State) (f : Keys → Keys) : (s.modKy f).ck = s.ck := rfl
@[simp] theorem State.modKy_ev (s : State) (f : Keys → Keys) : (s.modKy f).ev = s.ev := rfl
@[simp] theorem State.modKy_bb (s : State) (f : Keys → Keys) : (s.modKy f).bb = s.bb := rfl
@[simp] theorem State.modKy_stt (s : State) (f : Keys → Keys) : (s.modKy f).stt = s.stt := rfl
@[simp] theorem State.modKy_out (s : State) (f : Keys → Keys) : (s.modKy f).out = s.out := rfl
@[simp] theorem State.modKy_free (s : State) (f : Keys → Keys) : (s.modKy f).free = s.free := rfl
@[simp] theorem State.modKy_pending (s : State) (f : Keys → Keys) : (s.modKy f).pending = s.pending := rfl
@[simp] theorem State.modCam_pw (s : State) (f : Cam → Cam) : (s.modCam f).pw = s.pw := rfl
@[simp] theorem State.modCam_bt (s : State) (f : Cam → Cam) : (s.modCam f).bt = s.bt := rfl
@[simp] theorem State.modCam_fe (s : State) (f : Cam → Cam) : (s.modCam f).fe = s.fe := rfl
@[simp] theorem State.modCam_fl (s : State) (f : Cam → Cam) : (s.modCam f).fl = s.fl := rfl
@[simp] theorem State.modCam_va (s : State) (f : Cam → Cam) : (s.modCam f).va = s.va := rfl
@[simp] theorem State.modCam_ix (s : State) (f : Cam → Cam) : (s.modCam f).ix = s.ix := rfl
@[simp] theorem State.modCam_mc (s : State) (f : Cam → Cam) : (s.modCam f).mc = s.mc := rfl
@[simp] theorem State.modCam_wx (s : State) (f : Cam → Cam) : (s.modCam f).wx = s.wx := rfl
@[simp] theorem State.modCam_md (s : State) (f : Cam → Cam) : (s.modCam f).md = s.md := rfl
@[simp] theorem State.modCam_ky (s : State) (f : Cam → Cam) : (s.modCam f).ky = s.ky := rfl
@[simp] theorem State.modCam_cam (s : State) (f : Cam → Cam) : (s.modCam f).cam = f s.cam := rfl
@[simp] theorem State.modCam_tw (s : State) (f : Cam → Cam) : (s.modCam f).tw = s.tw := rfl
@[simp] theorem State.modCam_og (s : State) (f : Cam → Cam) : (s.modCam f).og = s.og := rfl
@[simp] theorem State.modCam_sk (s : State) (f : Cam → Cam) : (s.modCam f).sk = s.sk := rfl
@[simp] theorem State.modCam_pt (s : State) (f : Cam → Cam) : (s.modCam f).pt = s.pt := rfl
@[simp] theorem State.modCam_tm (s : State) (f : Cam → Cam) : (s.modCam f).tm = s.tm := rfl
@[simp] theorem State.modCam_me (s : State) (f : Cam → Cam) : (s.modCam f).me = s.me := rfl
@[simp] theorem State.modCam_mb (s : State) (f : Cam → Cam) : (s.modCam f).mb = s.mb := rfl
@[simp] theorem State.modCam_li (s : State) (f : Cam → Cam) : (s.modCam f).li = s.li := rfl
@[simp] theorem State.modCam_ck (s : State) (f : Cam → Cam) : (s.modCam f).ck = s.ck := rfl
@[simp] theorem State.modCam_ev (s : State) (f : Cam → Cam) : (s.modCam f).ev = s.ev := rfl
@[simp] theorem State.modCam_bb (s : State) (f : Cam → Cam) : (s.modCam f).bb = s.bb := rfl
@[simp] theorem State.modCam_stt (s : State) (f : Cam → Cam) : (s.modCam f).stt = s.stt := rfl
@[simp] theorem State.modCam_out (s : State) (f : Cam → Cam) : (s.modCam f).out = s.out := rfl
@[simp] theorem State.modCam_free (s : State) (f : Cam → Cam) : (s.modCam f).free = s.free := rfl
@[simp] theorem State.modCam_pending (s : State) (f : Cam → Cam) : (s.modCam f).pending = s.pending := rfl
@[simp] theorem State.modTw_pw (s : State) (f : Twin → Twin) : (s.modTw f).pw = s.pw := rfl
@[simp] theorem State.modTw_bt (s : State) (f : Twin → Twin) : (s.modTw f).bt = s.bt := rfl
@[simp] theorem State.modTw_fe (s : State) (f : Twin → Twin) : (s.modTw f).fe = s.fe := rfl
@[simp] theorem State.modTw_fl (s : State) (f : Twin → Twin) : (s.modTw f).fl = s.fl := rfl
@[simp] theorem State.modTw_va (s : State) (f : Twin → Twin) : (s.modTw f).va = s.va := rfl
@[simp] theorem State.modTw_ix (s : State) (f : Twin → Twin) : (s.modTw f).ix = s.ix := rfl
@[simp] theorem State.modTw_mc (s : State) (f : Twin → Twin) : (s.modTw f).mc = s.mc := rfl
@[simp] theorem State.modTw_wx (s : State) (f : Twin → Twin) : (s.modTw f).wx = s.wx := rfl
@[simp] theorem State.modTw_md (s : State) (f : Twin → Twin) : (s.modTw f).md = s.md := rfl
@[simp] theorem State.modTw_ky (s : State) (f : Twin → Twin) : (s.modTw f).ky = s.ky := rfl
@[simp] theorem State.modTw_cam (s : State) (f : Twin → Twin) : (s.modTw f).cam = s.cam := rfl
@[simp] theorem State.modTw_tw (s : State) (f : Twin → Twin) : (s.modTw f).tw = f s.tw := rfl
@[simp] theorem State.modTw_og (s : State) (f : Twin → Twin) : (s.modTw f).og = s.og := rfl
@[simp] theorem State.modTw_sk (s : State) (f : Twin → Twin) : (s.modTw f).sk = s.sk := rfl
@[simp] theorem State.modTw_pt (s : State) (f : Twin → Twin) : (s.modTw f).pt = s.pt := rfl
@[simp] theorem State.modTw_tm (s : State) (f : Twin → Twin) : (s.modTw f).tm = s.tm := rfl
@[simp] theorem State.modTw_me (s : State) (f : Twin → Twin) : (s.modTw f).me = s.me := rfl
@[simp] theorem State.modTw_mb (s : State) (f : Twin → Twin) : (s.modTw f).mb = s.mb := rfl
@[simp] theorem State.modTw_li (s : State) (f : Twin → Twin) : (s.modTw f).li = s.li := rfl
@[simp] theorem State.modTw_ck (s : State) (f : Twin → Twin) : (s.modTw f).ck = s.ck := rfl
@[simp] theorem State.modTw_ev (s : State) (f : Twin → Twin) : (s.modTw f).ev = s.ev := rfl
@[simp] theorem State.modTw_bb (s : State) (f : Twin → Twin) : (s.modTw f).bb = s.bb := rfl
@[simp] theorem State.modTw_stt (s : State) (f : Twin → Twin) : (s.modTw f).stt = s.stt := rfl
@[simp] theorem State.modTw_out (s : State) (f : Twin → Twin) : (s.modTw f).out = s.out := rfl
@[simp] theorem State.modTw_free (s : State) (f : Twin → Twin) : (s.modTw f).free = s.free := rfl
@[simp] theorem State.modTw_pending (s : State) (f : Twin → Twin) : (s.modTw f).pending = s.pending := rfl
@[simp] theorem State.modOg_pw (s : State) (f : Origin → Origin) : (s.modOg f).pw = s.pw := rfl
@[simp] theorem State.modOg_bt (s : State) (f : Origin → Origin) : (s.modOg f).bt = s.bt := rfl
@[simp] theorem State.modOg_fe (s : State) (f : Origin → Origin) : (s.modOg f).fe = s.fe := rfl
@[simp] theorem State.modOg_fl (s : State) (f : Origin → Origin) : (s.modOg f).fl = s.fl := rfl
@[simp] theorem State.modOg_va (s : State) (f : Origin → Origin) : (s.modOg f).va = s.va := rfl
@[simp] theorem State.modOg_ix (s : State) (f : Origin → Origin) : (s.modOg f).ix = s.ix := rfl
@[simp] theorem State.modOg_mc (s : State) (f : Origin → Origin) : (s.modOg f).mc = s.mc := rfl
@[simp] theorem State.modOg_wx (s : State) (f : Origin → Origin) : (s.modOg f).wx = s.wx := rfl
@[simp] theorem State.modOg_md (s : State) (f : Origin → Origin) : (s.modOg f).md = s.md := rfl
@[simp] theorem State.modOg_ky (s : State) (f : Origin → Origin) : (s.modOg f).ky = s.ky := rfl
@[simp] theorem State.modOg_cam (s : State) (f : Origin → Origin) : (s.modOg f).cam = s.cam := rfl
@[simp] theorem State.modOg_tw (s : State) (f : Origin → Origin) : (s.modOg f).tw = s.tw := rfl
@[simp] theorem State.modOg_og (s : State) (f : Origin → Origin) : (s.modOg f).og = f s.og := rfl
@[simp] theorem State.modOg_sk (s : State) (f : Origin → Origin) : (s.modOg f).sk = s.sk := rfl
@[simp] theorem State.modOg_pt (s : State) (f : Origin → Origin) : (s.modOg f).pt = s.pt := rfl
@[simp] theorem State.modOg_tm (s : State) (f : Origin → Origin) : (s.modOg f).tm = s.tm := rfl
@[simp] theorem State.modOg_me (s : State) (f : Origin → Origin) : (s.modOg f).me = s.me := rfl
@[simp] theorem State.modOg_mb (s : State) (f : Origin → Origin) : (s.modOg f).mb = s.mb := rfl
@[simp] theorem State.modOg_li (s : State) (f : Origin → Origin) : (s.modOg f).li = s.li := rfl
@[simp] theorem State.modOg_ck (s : State) (f : Origin → Origin) : (s.modOg f).ck = s.ck := rfl
@[simp] theorem State.modOg_ev (s : State) (f : Origin → Origin) : (s.modOg f).ev = s.ev := rfl
@[simp] theorem State.modOg_bb (s : State) (f : Origin → Origin) : (s.modOg f).bb = s.bb := rfl
@[simp] theorem State.modOg_stt (s : State) (f : Origin → Origin) : (s.modOg f).stt = s.stt := rfl
@[simp] theorem State.modOg_out (s : State) (f : Origin → Origin) : (s.modOg f).out = s.out := rfl
@[simp] theorem State.modOg_free (s : State) (f : Origin → Origin) : (s.modOg f).free = s.free := rfl
@[simp] theorem State.modOg_pending (s : State) (f : Origin → Origin) : (s.modOg f).pending = s.pending := rfl
@[simp] theorem State.modSk_pw (s : State) (f : Stack → Stack) : (s.modSk f).pw = s.pw := rfl
@[simp] theorem State.modSk_bt (s : State) (f : Stack → Stack) : (s.modSk f).bt = s.bt := rfl
@[simp] theorem State.modSk_fe (s : State) (f : Stack → Stack) : (s.modSk f).fe = s.fe := rfl
@[simp] theorem State.modSk_fl (s : State) (f : Stack → Stack) : (s.modSk f).fl = s.fl := rfl
@[simp] theorem State.modSk_va (s : State) (f : Stack → Stack) : (s.modSk f).va = s.va := rfl
@[simp] theorem State.modSk_ix (s : State) (f : Stack → Stack) : (s.modSk f).ix = s.ix := rfl
@[simp] theorem State.modSk_mc (s : State) (f : Stack → Stack) : (s.modSk f).mc = s.mc := rfl
@[simp] theorem State.modSk_wx (s : State) (f : Stack → Stack) : (s.modSk f).wx = s.wx := rfl
@[simp] theorem State.modSk_md (s : State) (f : Stack → Stack) : (s.modSk f).md = s.md := rfl
@[simp] theorem State.modSk_ky (s : State) (f : Stack → Stack) : (s.modSk f).ky = s.ky := rfl
@[simp] theorem State.modSk_cam (s : State) (f : Stack → Stack) : (s.modSk f).cam = s.cam := rfl
@[simp] theorem State.modSk_tw (s : State) (f : Stack → Stack) : (s.modSk f).tw = s.tw := rfl
@[simp] theorem State.modSk_og (s : State) (f : Stack → Stack) : (s.modSk f).og = s.og := rfl
@[simp] theorem State.modSk_sk (s : State) (f : Stack → Stack) : (s.modSk f).sk = f s.sk := rfl
@[simp] theorem State.modSk_pt (s : State) (f : Stack → Stack) : (s.modSk f).pt = s.pt := rfl
@[simp] theorem State.modSk_tm (s : State) (f : Stack → Stack) : (s.modSk f).tm = s.tm := rfl
@[simp] theorem State.modSk_me (s : State) (f : Stack → Stack) : (s.modSk f).me = s.me := rfl
@[simp] theorem State.modSk_mb (s : State) (f : Stack → Stack) : (s.modSk f).mb = s.mb := rfl
@[simp] theorem State.modSk_li (s : State) (f : Stack → Stack) : (s.modSk f).li = s.li := rfl
@[simp] theorem State.modSk_ck (s : State) (f : Stack → Stack) : (s.modSk f).ck = s.ck := rfl
@[simp] theorem State.modSk_ev (s : State) (f : Stack → Stack) : (s.modSk f).ev = s.ev := rfl
@[simp] theorem State.modSk_bb (s : State) (f : Stack → Stack) : (s.modSk f).bb = s.bb := rfl
@[simp] theorem State.modSk_stt (s : State) (f : Stack → Stack) : (s.modSk f).stt = s.stt := rfl
@[simp] theorem State.modSk_out (s : State) (f : Stack → Stack) : (s.modSk f).out = s.out := rfl
@[simp] theorem State.modSk_free (s : State) (f : Stack → Stack) : (s.modSk f).free = s.free := rfl
@[simp] theorem State.modSk_pending (s : State) (f : Stack → Stack) : (s.modSk f).pending = s.pending := rfl
@[simp] theorem State.modPt_pw (s : State) (f : Ports → Ports) : (s.modPt f).pw = s.pw := rfl
@[simp] theorem State.modPt_bt (s : State) (f : Ports → Ports) : (s.modPt f).bt = s.bt := rfl
@[simp] theorem State.modPt_fe (s : State) (f : Ports → Ports) : (s.modPt f).fe = s.fe := rfl
@[simp] theorem State.modPt_fl (s : State) (f : Ports → Ports) : (s.modPt f).fl = s.fl := rfl
@[simp] theorem State.modPt_va (s : State) (f : Ports → Ports) : (s.modPt f).va = s.va := rfl
@[simp] theorem State.modPt_ix (s : State) (f : Ports → Ports) : (s.modPt f).ix = s.ix := rfl
@[simp] theorem State.modPt_mc (s : State) (f : Ports → Ports) : (s.modPt f).mc = s.mc := rfl
@[simp] theorem State.modPt_wx (s : State) (f : Ports → Ports) : (s.modPt f).wx = s.wx := rfl
@[simp] theorem State.modPt_md (s : State) (f : Ports → Ports) : (s.modPt f).md = s.md := rfl
@[simp] theorem State.modPt_ky (s : State) (f : Ports → Ports) : (s.modPt f).ky = s.ky := rfl
@[simp] theorem State.modPt_cam (s : State) (f : Ports → Ports) : (s.modPt f).cam = s.cam := rfl
@[simp] theorem State.modPt_tw (s : State) (f : Ports → Ports) : (s.modPt f).tw = s.tw := rfl
@[simp] theorem State.modPt_og (s : State) (f : Ports → Ports) : (s.modPt f).og = s.og := rfl
@[simp] theorem State.modPt_sk (s : State) (f : Ports → Ports) : (s.modPt f).sk = s.sk := rfl
@[simp] theorem State.modPt_pt (s : State) (f : Ports → Ports) : (s.modPt f).pt = f s.pt := rfl
@[simp] theorem State.modPt_tm (s : State) (f : Ports → Ports) : (s.modPt f).tm = s.tm := rfl
@[simp] theorem State.modPt_me (s : State) (f : Ports → Ports) : (s.modPt f).me = s.me := rfl
@[simp] theorem State.modPt_mb (s : State) (f : Ports → Ports) : (s.modPt f).mb = s.mb := rfl
@[simp] theorem State.modPt_li (s : State) (f : Ports → Ports) : (s.modPt f).li = s.li := rfl
@[simp] theorem State.modPt_ck (s : State) (f : Ports → Ports) : (s.modPt f).ck = s.ck := rfl
@[simp] theorem State.modPt_ev (s : State) (f : Ports → Ports) : (s.modPt f).ev = s.ev := rfl
@[simp] theorem State.modPt_bb (s : State) (f : Ports → Ports) : (s.modPt f).bb = s.bb := rfl
@[simp] theorem State.modPt_stt (s : State) (f : Ports → Ports) : (s.modPt f).stt = s.stt := rfl
@[simp] theorem State.modPt_out (s : State) (f : Ports → Ports) : (s.modPt f).out = s.out := rfl
@[simp] theorem State.modPt_free (s : State) (f : Ports → Ports) : (s.modPt f).free = s.free := rfl
@[simp] theorem State.modPt_pending (s : State) (f : Ports → Ports) : (s.modPt f).pending = s.pending := rfl
@[simp] theorem State.modTm_pw (s : State) (f : Time → Time) : (s.modTm f).pw = s.pw := rfl
@[simp] theorem State.modTm_bt (s : State) (f : Time → Time) : (s.modTm f).bt = s.bt := rfl
@[simp] theorem State.modTm_fe (s : State) (f : Time → Time) : (s.modTm f).fe = s.fe := rfl
@[simp] theorem State.modTm_fl (s : State) (f : Time → Time) : (s.modTm f).fl = s.fl := rfl
@[simp] theorem State.modTm_va (s : State) (f : Time → Time) : (s.modTm f).va = s.va := rfl
@[simp] theorem State.modTm_ix (s : State) (f : Time → Time) : (s.modTm f).ix = s.ix := rfl
@[simp] theorem State.modTm_mc (s : State) (f : Time → Time) : (s.modTm f).mc = s.mc := rfl
@[simp] theorem State.modTm_wx (s : State) (f : Time → Time) : (s.modTm f).wx = s.wx := rfl
@[simp] theorem State.modTm_md (s : State) (f : Time → Time) : (s.modTm f).md = s.md := rfl
@[simp] theorem State.modTm_ky (s : State) (f : Time → Time) : (s.modTm f).ky = s.ky := rfl
@[simp] theorem State.modTm_cam (s : State) (f : Time → Time) : (s.modTm f).cam = s.cam := rfl
@[simp] theorem State.modTm_tw (s : State) (f : Time → Time) : (s.modTm f).tw = s.tw := rfl
@[simp] theorem State.modTm_og (s : State) (f : Time → Time) : (s.modTm f).og = s.og := rfl
@[simp] theorem State.modTm_sk (s : State) (f : Time → Time) : (s.modTm f).sk = s.sk := rfl
@[simp] theorem State.modTm_pt (s : State) (f : Time → Time) : (s.modTm f).pt = s.pt := rfl
@[simp] theorem State.modTm_tm (s : State) (f : Time → Time) : (s.modTm f).tm = f s.tm := rfl
@[simp] theorem State.modTm_me (s : State) (f : Time → Time) : (s.modTm f).me = s.me := rfl
@[simp] theorem State.modTm_mb (s : State) (f : Time → Time) : (s.modTm f).mb = s.mb := rfl
@[simp] theorem State.modTm_li (s : State) (f : Time → Time) : (s.modTm f).li = s.li := rfl
@[simp] theorem State.modTm_ck (s : State) (f : Time → Time) : (s.modTm f).ck = s.ck := rfl
@[simp] theorem State.modTm_ev (s : State) (f : Time → Time) : (s.modTm f).ev = s.ev := rfl
@[simp] theorem State.modTm_bb (s : State) (f : Time → Time) : (s.modTm f).bb = s.bb := rfl
@[simp] theorem State.modTm_stt (s : State) (f : Time → Time) : (s.modTm f).stt = s.stt := rfl
@[simp] theorem State.modTm_out (s : State) (f : Time → Time) : (s.modTm f).out = s.out := rfl
@[simp] theorem State.modTm_free (s : State) (f : Time → Time) : (s.modTm f).free = s.free := rfl
@[simp] theorem State.modTm_pending (s : State) (f : Time → Time) : (s.modTm f).pending = s.pending := rfl
@[simp] theorem State.modMe_pw (s : State) (f : Micro → Micro) : (s.modMe f).pw = s.pw := rfl
@[simp] theorem State.modMe_bt (s : State) (f : Micro → Micro) : (s.modMe f).bt = s.bt := rfl
@[simp] theorem State.modMe_fe (s : State) (f : Micro → Micro) : (s.modMe f).fe = s.fe := rfl
@[simp] theorem State.modMe_fl (s : State) (f : Micro → Micro) : (s.modMe f).fl = s.fl := rfl
@[simp] theorem State.modMe_va (s : State) (f : Micro → Micro) : (s.modMe f).va = s.va := rfl
@[simp] theorem State.modMe_ix (s : State) (f : Micro → Micro) : (s.modMe f).ix = s.ix := rfl
@[simp] theorem State.modMe_mc (s : State) (f : Micro → Micro) : (s.modMe f).mc = s.mc := rfl
@[simp] theorem State.modMe_wx (s : State) (f : Micro → Micro) : (s.modMe f).wx = s.wx := rfl
@[simp] theorem State.modMe_md (s : State) (f : Micro → Micro) : (s.modMe f).md = s.md := rfl
@[simp] theorem State.modMe_ky (s : State) (f : Micro → Micro) : (s.modMe f).ky = s.ky := rfl
@[simp] theorem State.modMe_cam (s : State) (f : Micro → Micro) : (s.modMe f).cam = s.cam := rfl
@[simp] theorem State.modMe_tw (s : State) (f : Micro → Micro) : (s.modMe f).tw = s.tw := rfl
@[simp] theorem State.modMe_og (s : State) (f : Micro → Micro) : (s.modMe f).og = s.og := rfl
@[simp] theorem State.modMe_sk (s : State) (f : Micro → Micro) : (s.modMe f).sk = s.sk := rfl
@[simp] theorem State.modMe_pt (s : State) (f : Micro → Micro) : (s.modMe f).pt = s.pt := rfl
@[simp] theorem State.modMe_tm (s : State) (f : Micro → Micro) : (s.modMe f).tm = s.tm := rfl
@[simp] theorem State.modMe_me (s : State) (f : Micro → Micro) : (s.modMe f).me = f s.me := rfl
@[simp] theorem State.modMe_mb (s : State) (f : Micro → Micro) : (s.modMe f).mb = s.mb := rfl
@[simp] theorem State.modMe_li (s : State) (f : Micro → Micro) : (s.modMe f).li = s.li := rfl
@[simp] theorem State.modMe_ck (s : State) (f : Micro → Micro) : (s.modMe f).ck = s.ck := rfl
@[simp] theorem State.modMe_ev (s : State) (f : Micro → Micro) : (s.modMe f).ev = s.ev := rfl
@[simp] theorem State.modMe_bb (s : State) (f : Micro → Micro) : (s.modMe f).bb = s.bb := rfl
@[simp] theorem State.modMe_stt (s : State) (f : Micro → Micro) : (s.modMe f).stt = s.stt := rfl
@[simp] theorem State.modMe_out (s : State) (f : Micro → Micro) : (s.modMe f).out = s.out := rfl
@[simp] theorem State.modMe_free (s : State) (f : Micro → Micro) : (s.modMe f).free = s.free := rfl
@[simp] theorem State.modMe_pending (s : State) (f : Micro → Micro) : (s.modMe f).pending = s.pending := rfl
@[simp] theorem State.modMb_pw (s : State) (f : Mail → Mail) : (s.modMb f).pw = s.pw := rfl
@[simp] theorem State.modMb_bt (s : State) (f : Mail → Mail) : (s.modMb f).bt = s.bt := rfl
@[simp] theorem State.modMb_fe (s : State) (f : Mail → Mail) : (s.modMb f).fe = s.fe := rfl
@[simp] theorem State.modMb_fl (s : State) (f : Mail → Mail) : (s.modMb f).fl = s.fl := rfl
@[simp] theorem State.modMb_va (s : State) (f : Mail → Mail) : (s.modMb f).va = s.va := rfl
@[simp] theorem State.modMb_ix (s : State) (f : Mail → Mail) : (s.modMb f).ix = s.ix := rfl
@[simp] theorem State.modMb_mc (s : State) (f : Mail → Mail) : (s.modMb f).mc = s.mc := rfl
@[simp] theorem State.modMb_wx (s : State) (f : Mail → Mail) : (s.modMb f).wx = s.wx := rfl
@[simp] theorem State.modMb_md (s : State) (f : Mail → Mail) : (s.modMb f).md = s.md := rfl
@[simp] theorem State.modMb_ky (s : State) (f : Mail → Mail) : (s.modMb f).ky = s.ky := rfl
@[simp] theorem State.modMb_cam (s : State) (f : Mail → Mail) : (s.modMb f).cam = s.cam := rfl
@[simp] theorem State.modMb_tw (s : State) (f : Mail → Mail) : (s.modMb f).tw = s.tw := rfl
@[simp] theorem State.modMb_og (s : State) (f : Mail → Mail) : (s.modMb f).og = s.og := rfl
@[simp] theorem State.modMb_sk (s : State) (f : Mail → Mail) : (s.modMb f).sk = s.sk := rfl
@[simp] theorem State.modMb_pt (s : State) (f : Mail → Mail) : (s.modMb f).pt = s.pt := rfl
@[simp] theorem State.modMb_tm (s : State) (f : Mail → Mail) : (s.modMb f).tm = s.tm := rfl
@[simp] theorem State.modMb_me (s : State) (f : Mail → Mail) : (s.modMb f).me = s.me := rfl
@[simp] theorem State.modMb_mb (s : State) (f : Mail → Mail) : (s.modMb f).mb = f s.mb := rfl
@[simp] theorem State.modMb_li (s : State) (f : Mail → Mail) : (s.modMb f).li = s.li := rfl
@[simp] theorem State.modMb_ck (s : State) (f : Mail → Mail) : (s.modMb f).ck = s.ck := rfl
@[simp] theorem State.modMb_ev (s : State) (f : Mail → Mail) : (s.modMb f).ev = s.ev := rfl
@[simp] theorem State.modMb_bb (s : State) (f : Mail → Mail) : (s.modMb f).bb = s.bb := rfl
@[simp] theorem State.modMb_stt (s : State) (f : Mail → Mail) : (s.modMb f).stt = s.stt := rfl
@[simp] theorem State.modMb_out (s : State) (f : Mail → Mail) : (s.modMb f).out = s.out := rfl
@[simp] theorem State.modMb_free (s : State) (f : Mail → Mail) : (s.modMb f).free = s.free := rfl
@[simp] theorem State.modMb_pending (s : State) (f : Mail → Mail) : (s.modMb f).pending = s.pending := rfl
@[simp] theorem State.modLi_pw (s : State) (f : Life → Life) : (s.modLi f).pw = s.pw := rfl
@[simp] theorem State.modLi_bt (s : State) (f : Life → Life) : (s.modLi f).bt = s.bt := rfl
@[simp] theorem State.modLi_fe (s : State) (f : Life → Life) : (s.modLi f).fe = s.fe := rfl
@[simp] theorem State.modLi_fl (s : State) (f : Life → Life) : (s.modLi f).fl = s.fl := rfl
@[simp] theorem State.modLi_va (s : State) (f : Life → Life) : (s.modLi f).va = s.va := rfl
@[simp] theorem State.modLi_ix (s : State) (f : Life → Life) : (s.modLi f).ix = s.ix := rfl
@[simp] theorem State.modLi_mc (s : State) (f : Life → Life) : (s.modLi f).mc = s.mc := rfl
@[simp] theorem State.modLi_wx (s : State) (f : Life → Life) : (s.modLi f).wx = s.wx := rfl
@[simp] theorem State.modLi_md (s : State) (f : Life → Life) : (s.modLi f).md = s.md := rfl
@[simp] theorem State.modLi_ky (s : State) (f : Life → Life) : (s.modLi f).ky = s.ky := rfl
@[simp] theorem State.modLi_cam (s : State) (f : Life → Life) : (s.modLi f).cam = s.cam := rfl
@[simp] theorem State.modLi_tw (s : State) (f : Life → Life) : (s.modLi f).tw = s.tw := rfl
@[simp] theorem State.modLi_og (s : State) (f : Life → Life) : (s.modLi f).og = s.og := rfl
@[simp] theorem State.modLi_sk (s : State) (f : Life → Life) : (s.modLi f).sk = s.sk := rfl
@[simp] theorem State.modLi_pt (s : State) (f : Life → Life) : (s.modLi f).pt = s.pt := rfl
@[simp] theorem State.modLi_tm (s : State) (f : Life → Life) : (s.modLi f).tm = s.tm := rfl
@[simp] theorem State.modLi_me (s : State) (f : Life → Life) : (s.modLi f).me = s.me := rfl
@[simp] theorem State.modLi_mb (s : State) (f : Life → Life) : (s.modLi f).mb = s.mb := rfl
@[simp] theorem State.modLi_li (s : State) (f : Life → Life) : (s.modLi f).li = f s.li := rfl
@[simp] theorem State.modLi_ck (s : State) (f : Life → Life) : (s.modLi f).ck = s.ck := rfl
@[simp] theorem State.modLi_ev (s : State) (f : Life → Life) : (s.modLi f).ev = s.ev := rfl
@[simp] theorem State.modLi_bb (s : State) (f : Life → Life) : (s.modLi f).bb = s.bb := rfl
@[simp] theorem State.modLi_stt (s : State) (f : Life → Life) : (s.modLi f).stt = s.stt := rfl
@[simp] theorem State.modLi_out (s : State) (f : Life → Life) : (s.modLi f).out = s.out := rfl
@[simp] theorem State.modLi_free (s : State) (f : Life → Life) : (s.modLi f).free = s.free := rfl
@[simp] theorem State.modLi_pending (s : State) (f : Life → Life) : (s.modLi f).pending = s.pending := rfl
@[simp] theorem State.modCk_pw (s : State) (f : Clocks → Clocks) : (s.modCk f).pw = s.pw := rfl
@[simp] theorem State.modCk_bt (s : State) (f : Clocks → Clocks) : (s.modCk f).bt = s.bt := rfl
@[simp] theorem State.modCk_fe (s : State) (f : Clocks → Clocks) : (s.modCk f).fe = s.fe := rfl
@[simp] theorem State.modCk_fl (s : State) (f : Clocks → Clocks) : (s.modCk f).fl = s.fl := rfl
@[simp] theorem State.modCk_va (s : State) (f : Clocks → Clocks) : (s.modCk f).va = s.va := rfl
@[simp] theorem State.modCk_ix (s : State) (f : Clocks → Clocks) : (s.modCk f).ix = s.ix := rfl
@[simp] theorem State.modCk_mc (s : State) (f : Clocks → Clocks) : (s.modCk f).mc = s.mc := rfl
@[simp] theorem State.modCk_wx (s : State) (f : Clocks → Clocks) : (s.modCk f).wx = s.wx := rfl
@[simp] theorem State.modCk_md (s : State) (f : Clocks → Clocks) : (s.modCk f).md = s.md := rfl
@[simp] theorem State.modCk_ky (s : State) (f : Clocks → Clocks) : (s.modCk f).ky = s.ky := rfl
@[simp] theorem State.modCk_cam (s : State) (f : Clocks → Clocks) : (s.modCk f).cam = s.cam := rfl
@[simp] theorem State.modCk_tw (s : State) (f : Clocks → Clocks) : (s.modCk f).tw = s.tw := rfl
@[simp] theorem State.modCk_og (s : State) (f : Clocks → Clocks) : (s.modCk f).og = s.og := rfl
@[simp] theorem State.modCk_sk (s : State) (f : Clocks → Clocks) : (s.modCk f).sk = s.sk := rfl
@[simp] theorem State.modCk_pt (s : State) (f : Clocks → Clocks) : (s.modCk f).pt = s.pt := rfl
@[simp] theorem State.modCk_tm (s : State) (f : Clocks → Clocks) : (s.modCk f).tm = s.tm := rfl
@[simp] theorem State.modCk_me (s : State) (f : Clocks → Clocks) : (s.modCk f).me = s.me := rfl
@[simp] theorem State.modCk_mb (s : State) (f : Clocks → Clocks) : (s.modCk f).mb = s.mb := rfl
@[simp] theorem State.modCk_li (s : State) (f : Clocks → Clocks) : (s.modCk f).li = s.li := rfl
@[simp] theorem State.modCk_ck (s : State) (f : Clocks → Clocks) : (s.modCk f).ck = f s.ck := rfl
@[simp] theorem State.modCk_ev (s : State) (f : Clocks → Clocks) : (s.modCk f).ev = s.ev := rfl
@[simp] theorem State.modCk_bb (s : State) (f : Clocks → Clocks) : (s.modCk f).bb = s.bb := rfl
@[simp] theorem State.modCk_stt (s : State) (f : Clocks → Clocks) : (s.modCk f).stt = s.stt := rfl
@[simp] theorem State.modCk_out (s : State) (f : Clocks → Clocks) : (s.modCk f).out = s.out := rfl
@[simp] theorem State.modCk_free (s : State) (f : Clocks → Clocks) : (s.modCk f).free = s.free := rfl
@[simp] theorem State.modCk_pending (s : State) (f : Clocks → Clocks) : (s.modCk f).pending = s.pending := rfl
@[simp] theorem State.modEv_pw (s : State) (f : Evlog → Evlog) : (s.modEv f).pw = s.pw := rfl
@[simp] theorem State.modEv_bt (s : State) (f : Evlog → Evlog) : (s.modEv f).bt = s.bt := rfl
@[simp] theorem State.modEv_fe (s : State) (f : Evlog → Evlog) : (s.modEv f).fe = s.fe := rfl
@[simp] theorem State.modEv_fl (s : State) (f : Evlog → Evlog) : (s.modEv f).fl = s.fl := rfl
@[simp] theorem State.modEv_va (s : State) (f : Evlog → Evlog) : (s.modEv f).va = s.va := rfl
@[simp] theorem State.modEv_ix (s : State) (f : Evlog → Evlog) : (s.modEv f).ix = s.ix := rfl
@[simp] theorem State.modEv_mc (s : State) (f : Evlog → Evlog) : (s.modEv f).mc = s.mc := rfl
@[simp] theorem State.modEv_wx (s : State) (f : Evlog → Evlog) : (s.modEv f).wx = s.wx := rfl
@[simp] theorem State.modEv_md (s : State) (f : Evlog → Evlog) : (s.modEv f).md = s.md := rfl
@[simp] theorem State.modEv_ky (s : State) (f : Evlog → Evlog) : (s.modEv f).ky = s.ky := rfl
@[simp] theorem State.modEv_cam (s : State) (f : Evlog → Evlog) : (s.modEv f).cam = s.cam := rfl
@[simp] theorem State.modEv_tw (s : State) (f : Evlog → Evlog) : (s.modEv f).tw = s.tw := rfl
@[simp] theorem State.modEv_og (s : State) (f : Evlog → Evlog) : (s.modEv f).og = s.og := rfl
@[simp] theorem State.modEv_sk (s : State) (f : Evlog → Evlog) : (s.modEv f).sk = s.sk := rfl
@[simp] theorem State.modEv_pt (s : State) (f : Evlog → Evlog) : (s.modEv f).pt = s.pt := rfl
@[simp] theorem State.modEv_tm (s : State) (f : Evlog → Evlog) : (s.modEv f).tm = s.tm := rfl
@[simp] theorem State.modEv_me (s : State) (f : Evlog → Evlog) : (s.modEv f).me = s.me := rfl
@[simp] theorem State.modEv_mb (s : State) (f : Evlog → Evlog) : (s.modEv f).mb = s.mb := rfl
@[simp] theorem State.modEv_li (s : State) (f : Evlog → Evlog) : (s.modEv f).li = s.li := rfl
@[simp] theorem State.modEv_ck (s : State) (f : Evlog → Evlog) : (s.modEv f).ck = s.ck := rfl
@[simp] theorem State.modEv_ev (s : State) (f : Evlog → Evlog) : (s.modEv f).ev = f s.ev := rfl
@[simp] theorem State.modEv_bb (s : State) (f : Evlog → Evlog) : (s.modEv f).bb = s.bb := rfl
@[simp] theorem State.modEv_stt (s : State) (f : Evlog → Evlog) : (s.modEv f).stt = s.stt := rfl
@[simp] theorem State.modEv_out (s : State) (f : Evlog → Evlog) : (s.modEv f).out = s.out := rfl
@[simp] theorem State.modEv_free (s : State) (f : Evlog → Evlog) : (s.modEv f).free = s.free := rfl
@[simp] theorem State.modEv_pending (s : State) (f : Evlog → Evlog) : (s.modEv f).pending = s.pending := rfl
@[simp] theorem State.modBb_pw (s : State) (f : Bbox → Bbox) : (s.modBb f).pw = s.pw := rfl
@[simp] theorem State.modBb_bt (s : State) (f : Bbox → Bbox) : (s.modBb f).bt = s.bt := rfl
@[simp] theorem State.modBb_fe (s : State) (f : Bbox → Bbox) : (s.modBb f).fe = s.fe := rfl
@[simp] theorem State.modBb_fl (s : State) (f : Bbox → Bbox) : (s.modBb f).fl = s.fl := rfl
@[simp] theorem State.modBb_va (s : State) (f : Bbox → Bbox) : (s.modBb f).va = s.va := rfl
@[simp] theorem State.modBb_ix (s : State) (f : Bbox → Bbox) : (s.modBb f).ix = s.ix := rfl
@[simp] theorem State.modBb_mc (s : State) (f : Bbox → Bbox) : (s.modBb f).mc = s.mc := rfl
@[simp] theorem State.modBb_wx (s : State) (f : Bbox → Bbox) : (s.modBb f).wx = s.wx := rfl
@[simp] theorem State.modBb_md (s : State) (f : Bbox → Bbox) : (s.modBb f).md = s.md := rfl
@[simp] theorem State.modBb_ky (s : State) (f : Bbox → Bbox) : (s.modBb f).ky = s.ky := rfl
@[simp] theorem State.modBb_cam (s : State) (f : Bbox → Bbox) : (s.modBb f).cam = s.cam := rfl
@[simp] theorem State.modBb_tw (s : State) (f : Bbox → Bbox) : (s.modBb f).tw = s.tw := rfl
@[simp] theorem State.modBb_og (s : State) (f : Bbox → Bbox) : (s.modBb f).og = s.og := rfl
@[simp] theorem State.modBb_sk (s : State) (f : Bbox → Bbox) : (s.modBb f).sk = s.sk := rfl
@[simp] theorem State.modBb_pt (s : State) (f : Bbox → Bbox) : (s.modBb f).pt = s.pt := rfl
@[simp] theorem State.modBb_tm (s : State) (f : Bbox → Bbox) : (s.modBb f).tm = s.tm := rfl
@[simp] theorem State.modBb_me (s : State) (f : Bbox → Bbox) : (s.modBb f).me = s.me := rfl
@[simp] theorem State.modBb_mb (s : State) (f : Bbox → Bbox) : (s.modBb f).mb = s.mb := rfl
@[simp] theorem State.modBb_li (s : State) (f : Bbox → Bbox) : (s.modBb f).li = s.li := rfl
@[simp] theorem State.modBb_ck (s : State) (f : Bbox → Bbox) : (s.modBb f).ck = s.ck := rfl
@[simp] theorem State.modBb_ev (s : State) (f : Bbox → Bbox) : (s.modBb f).ev = s.ev := rfl
@[simp] theorem State.modBb_bb (s : State) (f : Bbox → Bbox) : (s.modBb f).bb = f s.bb := rfl
@[simp] theorem State.modBb_stt (s : State) (f : Bbox → Bbox) : (s.modBb f).stt = s.stt := rfl
@[simp] theorem State.modBb_out (s : State) (f : Bbox → Bbox) : (s.modBb f).out = s.out := rfl
@[simp] theorem State.modBb_free (s : State) (f : Bbox → Bbox) : (s.modBb f).free = s.free := rfl
@[simp] theorem State.modBb_pending (s : State) (f : Bbox → Bbox) : (s.modBb f).pending = s.pending := rfl
@[simp] theorem State.modStt_pw (s : State) (f : Selftest → Selftest) : (s.modStt f).pw = s.pw := rfl
@[simp] theorem State.modStt_bt (s : State) (f : Selftest → Selftest) : (s.modStt f).bt = s.bt := rfl
@[simp] theorem State.modStt_fe (s : State) (f : Selftest → Selftest) : (s.modStt f).fe = s.fe := rfl
@[simp] theorem State.modStt_fl (s : State) (f : Selftest → Selftest) : (s.modStt f).fl = s.fl := rfl
@[simp] theorem State.modStt_va (s : State) (f : Selftest → Selftest) : (s.modStt f).va = s.va := rfl
@[simp] theorem State.modStt_ix (s : State) (f : Selftest → Selftest) : (s.modStt f).ix = s.ix := rfl
@[simp] theorem State.modStt_mc (s : State) (f : Selftest → Selftest) : (s.modStt f).mc = s.mc := rfl
@[simp] theorem State.modStt_wx (s : State) (f : Selftest → Selftest) : (s.modStt f).wx = s.wx := rfl
@[simp] theorem State.modStt_md (s : State) (f : Selftest → Selftest) : (s.modStt f).md = s.md := rfl
@[simp] theorem State.modStt_ky (s : State) (f : Selftest → Selftest) : (s.modStt f).ky = s.ky := rfl
@[simp] theorem State.modStt_cam (s : State) (f : Selftest → Selftest) : (s.modStt f).cam = s.cam := rfl
@[simp] theorem State.modStt_tw (s : State) (f : Selftest → Selftest) : (s.modStt f).tw = s.tw := rfl
@[simp] theorem State.modStt_og (s : State) (f : Selftest → Selftest) : (s.modStt f).og = s.og := rfl
@[simp] theorem State.modStt_sk (s : State) (f : Selftest → Selftest) : (s.modStt f).sk = s.sk := rfl
@[simp] theorem State.modStt_pt (s : State) (f : Selftest → Selftest) : (s.modStt f).pt = s.pt := rfl
@[simp] theorem State.modStt_tm (s : State) (f : Selftest → Selftest) : (s.modStt f).tm = s.tm := rfl
@[simp] theorem State.modStt_me (s : State) (f : Selftest → Selftest) : (s.modStt f).me = s.me := rfl
@[simp] theorem State.modStt_mb (s : State) (f : Selftest → Selftest) : (s.modStt f).mb = s.mb := rfl
@[simp] theorem State.modStt_li (s : State) (f : Selftest → Selftest) : (s.modStt f).li = s.li := rfl
@[simp] theorem State.modStt_ck (s : State) (f : Selftest → Selftest) : (s.modStt f).ck = s.ck := rfl
@[simp] theorem State.modStt_ev (s : State) (f : Selftest → Selftest) : (s.modStt f).ev = s.ev := rfl
@[simp] theorem State.modStt_bb (s : State) (f : Selftest → Selftest) : (s.modStt f).bb = s.bb := rfl
@[simp] theorem State.modStt_stt (s : State) (f : Selftest → Selftest) : (s.modStt f).stt = f s.stt := rfl
@[simp] theorem State.modStt_out (s : State) (f : Selftest → Selftest) : (s.modStt f).out = s.out := rfl
@[simp] theorem State.modStt_free (s : State) (f : Selftest → Selftest) : (s.modStt f).free = s.free := rfl
@[simp] theorem State.modStt_pending (s : State) (f : Selftest → Selftest) : (s.modStt f).pending = s.pending := rfl

end Sys2Proof.Machine
end

