-- ==== Sys2Proof/Laws/Gates.lean ====
section
/-! SUPPORT. What the shared gates of a command answer: one lemma for the end of a command, the admin gate, the mailbox
gate and the reply. -/

namespace Sys2Proof.Machine

/-! ## The generations of the vendor logs (R80): a command's end changes nothing else -/

@[simp] theorem State.raisedLogs_subsysNqn (s t : State) : (s.raisedLogs t).subsysNqn = t.fe.subsysNqn := rfl
@[simp] theorem State.raisedLogs_hosts (s t : State) : (s.raisedLogs t).hosts = t.fe.hosts := rfl
@[simp] theorem State.raisedLogs_ctrls (s t : State) : (s.raisedLogs t).ctrls = t.fe.ctrls := rfl
@[simp] theorem State.raisedLogs_conns (s t : State) : (s.raisedLogs t).conns = t.fe.conns := rfl
@[simp] theorem State.raisedLogs_qpFree (s t : State) : (s.raisedLogs t).qpFree = t.fe.qpFree := rfl
@[simp] theorem State.raisedLogs_rrLast (s t : State) : (s.raisedLogs t).rrLast = t.fe.rrLast := rfl
@[simp] theorem State.raisedLogs_rrUsed (s t : State) : (s.raisedLogs t).rrUsed = t.fe.rrUsed := rfl
@[simp] theorem State.raisedLogs_hellos (s t : State) : (s.raisedLogs t).hellos = t.fe.hellos := rfl
@[simp] theorem State.raisedLogs_handshakes (s t : State) : (s.raisedLogs t).handshakes = t.fe.handshakes := rfl
@[simp] theorem State.raisedLogs_listening (s t : State) : (s.raisedLogs t).listening = t.fe.listening := rfl
@[simp] theorem State.raisedLogs_jobs (s t : State) : (s.raisedLogs t).jobs = t.fe.jobs := rfl
@[simp] theorem State.raisedLogs_heldAdm (s t : State) : (s.raisedLogs t).heldAdm = t.fe.heldAdm := rfl
@[simp] theorem State.raisedLogs_admEntries (s t : State) : (s.raisedLogs t).admEntries = t.fe.admEntries := rfl
@[simp] theorem State.raisedLogs_ctxWait (s t : State) : (s.raisedLogs t).ctxWait = t.fe.ctxWait := rfl
@[simp] theorem State.raisedLogs_miReplies (s t : State) : (s.raisedLogs t).miReplies = t.fe.miReplies := rfl
@[simp] theorem State.raisedLogs_errorLog (s t : State) : (s.raisedLogs t).errorLog = t.fe.errorLog := rfl

@[simp] theorem State.shownSame_self (s : State) (i : Nat) : s.shownSame s i = true := by
  unfold State.shownSame
  split <;> simp [State.shownC0, State.shownC1, State.shownC2, State.shownC3, State.shownC4, State.shownC5]

theorem map_zipIdx_fst {α : Type} (l : List α) : (l.zipIdx.map fun g => g.1) = l := by simp

/-- A log that shows the same keeps its generation (R80). -/
theorem State.raisedLogs_same {s t : State} (h : ∀ i, s.shownSame t i = true) : s.raisedLogs t = t.fe := by
  simp [State.raisedLogs, h]

@[simp] theorem State.raisedLogs_self (s : State) : s.raisedLogs s = s.fe := State.raisedLogs_same (State.shownSame_self s)

/-! ## The transmit queues (R336): only what a command puts out changes them -/

/-- A command that puts nothing out leaves the ports as it made them. -/
theorem State.queued_quiet {s t : State} (h : t.out = s.out) : s.queued t = t.pt := by
  simp [State.queued, h, sendAll]

@[simp] theorem State.queued_self (s : State) : s.queued s = s.pt := State.queued_quiet rfl

/-- Outputs that leave no frame and close no connection. -/
def Out.offPorts : Out → Bool
  | .frame .. | .advertise .. | .pause .. | .eeeTlv .. | .delayReq .. | .chain .. | .chainPass .. | .chainMsg .. | .slot .. | .cells .. | .mctp ..
  | .mi .. | .cacheData .. | .tap .. | .hbmWrite .. | .reading .. | .tlsAlert .. | .twinConnect .. | .originConnect .. => true
  | _ => false

theorem Ports.send_off (p : Ports) (f : Nat → Option Conn) (g : Nat → Nat → Option Conn) {o : Out} (h : o.offPorts = true) :
    p.send f g o = p := by
  cases o <;> simp_all [Out.offPorts, Ports.send, Out.twinBytes]

theorem sendAll_off (a b : Front) (p : Ports) (l : List Out) (h : ∀ o ∈ l, o.offPorts = true) : sendAll a b l p = p := by
  induction l generalizing p with
  | nil => rfl
  | cons o l ih =>
    rw [sendAll, Ports.send_off _ _ _ (h o (by simp))]
    exact ih p fun x hx => h x (by simp [hx])

/-- What a command puts out beside the ports leaves them as the command made them. -/
theorem State.queued_off {s t : State} {l : List Out} (h : t.out = s.out ++ l) (hl : ∀ o ∈ l, o.offPorts = true) : s.queued t = t.pt := by
  simp [State.queued, h, sendAll_off _ _ _ l hl]

/-- The transmit queues follow from the ports, the front end and what was put out alone. -/
theorem State.queued_congr {s t u : State} (hp : t.pt = u.pt) (hf : ∀ id, t.fe.conn? id = u.fe.conn? id)
    (hc : ∀ c q, t.fe.connOf c q = u.fe.connOf c q) (ho : t.out = u.out) : s.queued t = s.queued u := by
  have e : ∀ (l : List Out) (p : Ports), sendAll s.fe t.fe l p = sendAll s.fe u.fe l p := by
    intro l
    induction l with
    | nil => intro p; rfl
    | cons o l ih => intro p; simp only [sendAll, hf, hc]; exact ih _
  simp [State.queued, hp, ho, e]

/-- The state a command that does not reach HBM3 leaves: `u`, with the queue and the bytes of HBM3 as they were in `s`, new generations of the
vendor logs that show a change (R80), and its outputs in the transmit queues (R336). -/
def State.after (s u : State) : State :=
  { u with pending := s.pending, mc := { u.mc with hbm := s.mc.hbm }, fe := s.raisedLogs u, pt := s.queued u }

@[simp] theorem State.after_pw (s u : State) : (s.after u).pw = u.pw := rfl
@[simp] theorem State.after_bt (s u : State) : (s.after u).bt = u.bt := rfl
@[simp] theorem State.after_fe (s u : State) : (s.after u).fe = s.raisedLogs u := rfl
@[simp] theorem State.after_fl (s u : State) : (s.after u).fl = u.fl := rfl
@[simp] theorem State.after_va (s u : State) : (s.after u).va = u.va := rfl
@[simp] theorem State.after_ix (s u : State) : (s.after u).ix = u.ix := rfl
@[simp] theorem State.after_wx (s u : State) : (s.after u).wx = u.wx := rfl
@[simp] theorem State.after_md (s u : State) : (s.after u).md = u.md := rfl
@[simp] theorem State.after_ky (s u : State) : (s.after u).ky = u.ky := rfl
@[simp] theorem State.after_cam (s u : State) : (s.after u).cam = u.cam := rfl
@[simp] theorem State.after_tw (s u : State) : (s.after u).tw = u.tw := rfl
@[simp] theorem State.after_og (s u : State) : (s.after u).og = u.og := rfl
@[simp] theorem State.after_sk (s u : State) : (s.after u).sk = u.sk := rfl
@[simp] theorem State.after_pt (s u : State) : (s.after u).pt = s.queued u := rfl
@[simp] theorem State.after_tm (s u : State) : (s.after u).tm = u.tm := rfl
@[simp] theorem State.after_me (s u : State) : (s.after u).me = u.me := rfl
@[simp] theorem State.after_mb (s u : State) : (s.after u).mb = u.mb := rfl
@[simp] theorem State.after_li (s u : State) : (s.after u).li = u.li := rfl
@[simp] theorem State.after_ck (s u : State) : (s.after u).ck = u.ck := rfl
@[simp] theorem State.after_ev (s u : State) : (s.after u).ev = u.ev := rfl
@[simp] theorem State.after_bb (s u : State) : (s.after u).bb = u.bb := rfl
@[simp] theorem State.after_stt (s u : State) : (s.after u).stt = u.stt := rfl
@[simp] theorem State.after_out (s u : State) : (s.after u).out = u.out := rfl
@[simp] theorem State.after_free (s u : State) : (s.after u).free = u.free := rfl
@[simp] theorem State.after_pending (s u : State) : (s.after u).pending = s.pending := rfl
@[simp] theorem State.after_hbm (s u : State) : (s.after u).mc.hbm = s.mc.hbm := rfl
@[simp] theorem State.after_self (s : State) : s.after s = s := by simp [State.after]
@[simp] theorem State.box_after (s u : State) (n : Nat) : (s.after u).box n = u.box n := rfl
@[simp] theorem State.port_after (s u : State) (n : Nat) : (s.after u).port n = (s.queued u).port n := rfl
@[simp] theorem State.engine_after (s u : State) (e : EngineId) : (s.after u).engine e = u.engine e := rfl

theorem finish_eq (s t : State) : finish s t = .next (s.after t) := rfl

theorem whileUp_up {s : State} (h : up s = true) (t : State) : whileUp s t = finish s t := by
  simp only [up, State.alive] at h
  simp [whileUp, h]

/-! ## The entry of an admin command (R57): taking it changes the counts of fetched entries and the kept entries alone -/

/-- One more entry fetched from queue `q` of controller `c`. -/
def Ctrl.oneFetched (c q : Nat) (x : Ctrl) : Ctrl :=
  if x.cntlid == c then { x with queues := x.queues.map fun y => if y.qid == q then { y with fetched := y.fetched + 1 } else y } else x

theorem State.fetch_eq (s : State) (c q : Nat) :
    s.fetch c q = { s with fe := { s.fe with ctrls := s.fe.ctrls.map (Ctrl.oneFetched c q) } } := rfl

@[simp] theorem Ctrl.oneFetched_cntlid (c q : Nat) (x : Ctrl) : (x.oneFetched c q).cntlid = x.cntlid := by
  simp only [Ctrl.oneFetched]; split <;> rfl
@[simp] theorem Ctrl.oneFetched_enabled (c q : Nat) (x : Ctrl) : (x.oneFetched c q).enabled = x.enabled := by
  simp only [Ctrl.oneFetched]; split <;> rfl
@[simp] theorem Ctrl.oneFetched_aers (c q : Nat) (x : Ctrl) : (x.oneFetched c q).aers = x.aers := by
  simp only [Ctrl.oneFetched]; split <;> rfl

theorem Ctrl.oneFetched_queues (c q : Nat) (x : Ctrl) :
    ∃ g : Queue → Queue, (x.oneFetched c q).queues = x.queues.map g ∧ ∀ y, (g y).qid = y.qid ∧ (g y).conn = y.conn := by
  simp only [Ctrl.oneFetched]
  split
  · exact ⟨_, rfl, fun y => by split <;> simp⟩
  · exact ⟨id, by simp, fun y => by simp⟩

theorem Front.ctrl?_fetch (f : Front) (c q n : Nat) :
    ({ f with ctrls := f.ctrls.map (Ctrl.oneFetched c q) } : Front).ctrl? n = (f.ctrl? n).map (Ctrl.oneFetched c q) := by
  simp only [Front.ctrl?, List.find?_map]
  congr 2
  funext x
  simp

theorem Front.hasQueue_fetch (f : Front) (c q i j : Nat) :
    ({ f with ctrls := f.ctrls.map (Ctrl.oneFetched c q) } : Front).hasQueue i j = f.hasQueue i j := by
  simp only [Front.hasQueue, List.any_map]
  congr 1
  funext x
  obtain ⟨g, hg, h⟩ := x.oneFetched_queues c q
  have : (fun y => (g y).qid == j) = fun y : Queue => y.qid == j := by funext y; rw [(h y).1]
  simp [hg, List.any_map, Function.comp_def, this]

theorem Front.ioQueues_fetch (f : Front) (c q : Nat) :
    ({ f with ctrls := f.ctrls.map (Ctrl.oneFetched c q) } : Front).ioQueues = f.ioQueues := by
  simp only [Front.ioQueues, List.flatMap_map]
  congr 1
  funext x
  obtain ⟨g, hg, h⟩ := x.oneFetched_queues c q
  simp [hg, List.filter_map, Function.comp_def, (h _).1]

theorem Front.queueConn_fetch (f : Front) (c q i j : Nat) :
    (({ f with ctrls := f.ctrls.map (Ctrl.oneFetched c q) } : Front).queue? i j).map (·.conn) = (f.queue? i j).map (·.conn) := by
  simp only [Front.queue?, Front.ctrl?_fetch]
  cases f.ctrl? i with
  | none => rfl
  | some x =>
    obtain ⟨g, hg, h⟩ := x.oneFetched_queues c q
    have : (fun y : Queue => (g y).qid == j) = fun y => y.qid == j := by funext y; rw [(h y).1]
    simp [Ctrl.queue?, hg, List.find?_map, Function.comp_def, this, (h _).2]

/-- Nothing that could turn an admin command away looks at what was fetched. -/
theorem adminFree_fetch {a : Adm} {s : State} (h : adminFree a s = true) (c q : Nat) : adminFree a (s.fetch c q) = true := by
  have hc := Front.ctrl?_fetch s.fe c q a.ctrl
  have hq := Front.hasQueue_fetch s.fe c q a.ctrl 0
  have hn := Front.queueConn_fetch s.fe c q a.ctrl 0
  have hd : (s.fetch c q).adminCid a = s.adminCid a := by
    simp [State.adminCid, State.fetch_eq, Function.comp_def]
  have hg : (s.fetch c q).admSgl a = s.admSgl a := by
    have : (((s.fetch c q).fe.queue? a.ctrl 0).bind fun y => (s.fetch c q).fe.conn? y.conn)
        = (s.fe.queue? a.ctrl 0).bind fun y => s.fe.conn? y.conn := by
      have e : ∀ o : Option Queue, (o.bind fun y => s.fe.conn? y.conn) = (o.map (·.conn)).bind s.fe.conn? := by
        intro o; cases o <;> rfl
      show (Front.queue? _ _ _).bind (fun y => s.fe.conn? y.conn) = _
      rw [e, e]; exact congrArg (Option.bind · s.fe.conn?) hn
    simp only [State.admSgl, this]
  have hb : (s.fetch c q).adminBlocked a.ctrl = s.adminBlocked a.ctrl := rfl
  have hx : ((s.fetch c q).fe.ctrl? a.ctrl).any (·.enabled) = (s.fe.ctrl? a.ctrl).any (·.enabled) := by
    rw [State.fetch_eq, hc]; cases s.fe.ctrl? a.ctrl <;> simp
  have hy : (s.fetch c q).fe.hasQueue a.ctrl 0 = s.fe.hasQueue a.ctrl 0 := hq
  rw [← h]
  simp only [adminFree, hd, hg, hb, hx, hy]
  rfl

theorem adminFree_entry {a : Adm} {s : State} (h : adminFree a s = true) : adminFree a (s.admEntry a).1 = true := by
  simp only [State.admEntry]
  split
  · exact h
  · exact adminFree_fetch h _ _

theorem adminOk_free {a : Adm} {s : State} (h : adminOk a s = true) : adminFree a s = true := by
  simp only [adminOk, Bool.and_eq_true] at h; exact h.1

theorem adminOk_room {a : Adm} {s : State} (h : adminOk a s = true) : s.admRoom a = true := by
  simp only [adminOk, Bool.and_eq_true] at h; exact h.2

/-- An admin command that nothing turns away takes its entry and has its own effect (R9, R57, R58, R91, R109, R110). -/
theorem admin_ok {a : Adm} {s : State} (h : adminOk a s = true) (i : Instr) (o d p : Bool) (k : State → State) :
    s.admin i a o d p k = k (s.admEntry a).1 := by
  have hr := adminOk_room h
  have h := adminOk_free h
  have h' := adminFree_entry h
  simp only [adminFree, Bool.and_eq_true, Bool.not_eq_true', beq_iff_eq, Option.isNone_iff_eq_none] at h h'
  obtain ⟨⟨⟨⟨⟨⟨⟨⟨⟨⟨h1, h2⟩, -⟩, -⟩, -⟩, -⟩, -⟩, -⟩, -⟩, -⟩, -⟩ := h
  obtain ⟨⟨⟨⟨⟨⟨⟨⟨⟨⟨g1, -⟩, -⟩, g4⟩, g5⟩, g6⟩, g7⟩, g9⟩, g10⟩, g11⟩, g12⟩ := h'
  cases hc : s.fe.ctrl? a.ctrl with
  | none => simp [hc] at h2
  | some c =>
    have he : c.enabled = true := by simpa [hc] using h2
    simp [State.admin, State.managed, h1, hc, he, hr, g1, g4, g5, g6, g7, g9, g10, g11, g12]

/-- The completion entry of an admin command. -/
theorem admDone_ok {a : Adm} {s : State} (h : s.fe.hasQueue a.ctrl 0 = true) (dw0 : Nat) :
    s.admDone a .success dw0 = { s with out := s.out ++ [adminEntry s a dw0] } := by
  simp [State.admDone, State.post, h, adminEntry, adminCqe, statusDnr]

theorem State.box_modBox (s : State) (n : Nat) (f : Mailbox → Mailbox) (h : n < s.mb.boxes.length) :
    (s.modBox n f).box n = f (s.box n) := by
  simp [State.modBox, State.box, State.modMb, modAt, h, List.getD_eq_getElem?_getD]

theorem State.keptFor_takeIn (s : State) (cls op : Nat) (m : MsgReq) (h : m.mbox < s.mb.boxes.length) :
    (s.takeIn (s.named m) cls op).keptFor cls op (s.named m) = s.keptFor cls op m := by
  have hl : ∀ f, (s.modBox m.mbox f).mb.boxes.length = s.mb.boxes.length := by
    intro f; simp [State.modBox, State.modMb, modAt, h]
  simp only [State.keptFor, State.takeIn, State.accept, State.named]
  rw [State.box_modBox _ m.mbox _ (by rw [hl]; exact h), State.box_modBox s m.mbox _ h]
  rfl

theorem keepLast_append_singleton {α : Type} (n : Nat) (l : List α) (a : α) (h : 0 < n) : a ∈ keepLast n (l ++ [a]) := by
  simp only [keepLast, List.length_append, List.length_singleton]
  rw [List.drop_append_of_le_length (by omega)]
  simp

/-- Delivering replies keeps what is kept of every source. -/
theorem State.kept_deliver (s : State) (m : MsgReq) (rs : List Reply) :
    ((s.deliver m rs).box m.mbox).kept = (s.box m.mbox).kept := by
  have h : ∀ (u : State) (f : Mailbox → Mailbox), (∀ b, (f b).kept = b.kept) →
      ((u.modBox m.mbox f).box m.mbox).kept = (u.box m.mbox).kept := by
    intro u f hf
    by_cases hn : m.mbox < u.mb.boxes.length
    · rw [State.box_modBox _ _ _ hn, hf]
    · simp [State.modBox, State.box, State.modMb, modAt, hn, List.getD_eq_getElem?_getD]
  have hs : ∀ b : Mailbox, (Mailbox.settle { b with inFlight := b.inFlight - 1 }).kept = b.kept := by
    intro b; simp only [Mailbox.settle]; split <;> rfl
  simp only [State.deliver]
  split
  · exact h s _ fun b => rfl
  · split
    · rfl
    · split
      · exact h s _ hs
      · split
        · exact h s _ hs
        · exact h s _ fun b => rfl

/-- A message that nothing turns away is carried out at once (R402 to R413). -/
theorem message_ok {cls op : Nat} {m : MsgReq} {s : State} (h : messageOk cls op m s = true) (f : Handler) :
    s.message cls op f m = match f (s.takeIn (s.named m) cls op) (s.named m) with
      | (t, some a) => t.reply cls op (s.named m) a
      | (t, none) => t := by
  simp only [messageOk, Bool.and_eq_true, Bool.not_eq_true', beq_iff_eq, decide_eq_true_eq, List.isEmpty_iff,
    Option.isNone_iff_eq_none] at h
  obtain ⟨⟨⟨⟨⟨⟨⟨⟨⟨⟨⟨⟨⟨h1, h2⟩, h3⟩, h4⟩, h5⟩, h6⟩, h7⟩, h8⟩, h9⟩, h14⟩, h10⟩, h11⟩, h12⟩, h13⟩ := h
  have hr : s.romOnly = false := by simp [State.romOnly, h1]
  have ht : s.tooEarly m.mbox = false := by simp [State.tooEarly, State.beforeB4, h1]
  have hp : s.takesPosts m.mbox = true := by simp [State.takesPosts, hr, State.managed, h1]
  have hk : s.takes m.mbox m.src = true := by simp [State.takes, h6, h7]
  have hw : s.mustWait m.mbox = false := by simp [State.mustWait, h8, h9, h3, Mailbox.working, h7, h14]
  have hq : (s.takeIn (s.named m) cls op).keptFor cls op (s.named m) = none := by
    rw [State.keptFor_takeIn s cls op m (by omega)]; exact h10
  have hpil : ((s.takeIn (s.named m) cls op).pw.phase == Phase.pilot) = false := by
    show (s.pw.phase == Phase.pilot) = false
    rw [h1]; rfl
  have hs : (s.takeIn (s.named m) cls op).sanitizing = false := h2
  have hv : (s.takeIn (s.named m) cls op).permitted (s.named m).mbox (s.named m).src (s.named m).tls cls op (s.named m).payload = true := h12
  have hl : (s.named m).len = (s.named m).payload.length := h11
  have hz : (s.named m).reservedSet = false := h13
  simp only [State.message, ht, hp, hk, hw, State.perform, hq, hpil, hs, hv, hl, hz]
  rcases f (s.takeIn (s.named m) cls op) (s.named m) with ⟨t, _ | a⟩ <;> simp

/-- A reply is kept for its source (R404). -/
theorem reply_answered {s u : State} {cls op : Nat} {m : MsgReq} (a : Answer) (hb : m.mbox < u.mb.boxes.length)
    (hs : m.who = s.sourceOf m.mbox m.src) (hm : u.mono = s.mono) :
    Answered s (u.reply cls op m a) cls op m a.st a.detail a.body := by
  refine ⟨{ source := m.who, seq := m.seq, cls := cls, op := op, posted := u.mono, time := u.now, tq := u.tq, status := a.st.code,
            detail := a.detail, payloads := a.body }, ?_, hs, rfl, rfl, rfl, hm, rfl, rfl, rfl⟩
  rw [State.reply, State.kept_deliver, State.box_modBox _ _ _ hb]
  exact List.mem_append_right _ (keepLast_append_singleton 8 _ _ (by omega))

/-! ## How a command completes -/

theorem yields_of {c : Instr} {s u : State} (h : exec c s = finish s u) : Yields c s u := h

theorem completes_finish {c : Instr} {s u : State} {P : State → Prop} (h : exec c s = finish s u) (hp : P (s.after u)) :
    Completes c s P := ⟨_, h, hp⟩

theorem completes_up {c : Instr} {s u : State} {P : State → Prop} (h : exec c s = whileUp s u) (hu : up s = true)
    (hp : P (s.after u)) : Completes c s P := ⟨_, by rw [h, whileUp_up hu]; rfl, hp⟩

theorem completes_admin {c i : Instr} {a : Adm} {s : State} {o d p : Bool} {k : State → State} {P : State → Prop}
    (h : exec c s = finish s (s.admin i a o d p k)) (ha : adminOk a s = true) (hp : P (s.after (k (s.admEntry a).1))) : Completes c s P :=
  ⟨_, by rw [h, admin_ok ha]; rfl, hp⟩

theorem completes_message {c : Instr} {cls op : Nat} {m : MsgReq} {f : Handler} {s t : State} {a : Answer} {P : State → Prop}
    (h : exec c s = finish s (s.message cls op f m)) (ha : messageOk cls op m s = true)
    (hf : f (s.takeIn (s.named m) cls op) (s.named m) = (t, some a)) (hp : P (s.after (t.reply cls op (s.named m) a))) : Completes c s P :=
  ⟨_, by rw [h, message_ok ha, hf]; rfl, hp⟩

theorem yields_finish {c : Instr} {s u v : State} (h : exec c s = finish s v) (e : s.after v = s.after u) : Yields c s u := by
  rw [Yields, h, finish_eq, e]; rfl

theorem yields_up {c : Instr} {s u v : State} (h : exec c s = whileUp s v) (hu : up s = true) (e : s.after v = s.after u) :
    Yields c s u := yields_finish (h.trans (whileUp_up hu v)) e

theorem yields_admin {c i : Instr} {a : Adm} {s u : State} {o d p : Bool} {k : State → State}
    (h : exec c s = finish s (s.admin i a o d p k)) (ha : adminOk a s = true)
    (e : s.after (k (s.admEntry a).1) = s.after u) : Yields c s u :=
  yields_finish (h.trans (by rw [admin_ok ha])) e

/-- A change of a controller that keeps its identifier, its enable and its queues keeps where completions go. -/
theorem hasQueue_modCtrl (f : Front) (id c q : Nat) (g : Ctrl → Ctrl)
    (hg : ∀ x, (g x).cntlid = x.cntlid ∧ (g x).enabled = x.enabled ∧ (g x).queues = x.queues) :
    (f.modCtrl id g).hasQueue c q = f.hasQueue c q := by
  simp only [Front.hasQueue, Front.modCtrl, List.any_map]
  congr 1
  funext x
  simp only [Function.comp]
  split
  · simp [hg x]
  · rfl

theorem ctrl?_modCtrl (f : Front) (id : Nat) (g : Ctrl → Ctrl) (hg : ∀ x, (g x).cntlid = x.cntlid) :
    (f.modCtrl id g).ctrl? id = (f.ctrl? id).map g := by
  simp only [Front.ctrl?, Front.modCtrl]
  induction f.ctrls with
  | nil => rfl
  | cons x l ih =>
    by_cases h : x.cntlid = id
    · simp [h, hg]
    · have hb : (x.cntlid == id) = false := by simp [h]
      simp only [List.map_cons, hb, Bool.false_eq_true, if_false, List.find?_cons]
      exact ih

/-- What an admin command that nothing turns away finds. -/
theorem adminOk_facts {a : Adm} {s : State} (h : adminOk a s = true) :
    s.pw.phase = .serving ∧ s.fe.hasQueue a.ctrl 0 = true ∧ s.bt.paused = false ∧ s.adminBlocked a.ctrl = false
      ∧ (s.fe.jobs.any (·.ctrl == a.ctrl)) = false ∧ s.adminCid a = false ∧ s.sanitizing = false ∧ a.reservedSet = false
      ∧ s.admSgl a = none ∧ ∃ c, s.fe.ctrl? a.ctrl = some c ∧ c.enabled = true := by
  have h := adminOk_free h
  simp only [adminFree, Bool.and_eq_true, Bool.not_eq_true', beq_iff_eq, Option.isNone_iff_eq_none] at h
  obtain ⟨⟨⟨⟨⟨⟨⟨⟨⟨⟨h1, h2⟩, h3⟩, h4⟩, h5⟩, h6⟩, -⟩, h9⟩, h10⟩, h11⟩, h12⟩ := h
  refine ⟨h1, h3, h4, h5, h6, h9, h10, h11, h12, ?_⟩
  cases hc : s.fe.ctrl? a.ctrl with
  | none => simp [hc] at h2
  | some c => exact ⟨c, rfl, by simpa [hc] using h2⟩

theorem adminOk_queue {a : Adm} {s : State} (h : adminOk a s = true) : s.fe.hasQueue a.ctrl 0 = true := (adminOk_facts h).2.1

/-! ## Chain messages -/

/-- A message that the drive hears is sent on as it came and then takes its effect. -/
theorem chained_hears {h : ChainHdr} {s : State} (hh : s.hears h = true) (type : Nat) (body : List Nat) (f : State → State) :
    s.chained h type body f = f (s.emit (.chainPass type h body)) := by
  simp only [State.hears, Bool.and_eq_true, decide_eq_true_eq, bne_iff_ne, ne_eq] at hh
  obtain ⟨⟨⟨⟨⟨ha, hg⟩, hc⟩, hp⟩, hd⟩, hs⟩ := hh
  have hr : s.returned h = false := by simp [State.returned, hs]
  have hpass : s.passOn h type body = s.emit (.chainPass type h body) := by
    simp [State.passOn, ha, hr, Nat.not_lt.mpr hg]
  have hr' : (s.emit (.chainPass type h body)).returned h = false := by simpa [State.returned, State.emit] using hr
  have ha' : (s.emit (.chainPass type h body)).alive = true := ha
  have hp' : (s.emit (.chainPass type h body)).sk.partakes = true := hp
  rw [State.chained, hpass, State.onChain]
  simp only [ha', hr', hp', hc]
  simp [State.emit, Nat.not_lt.mpr hg]
  intro h1 h2
  simp_all

end Sys2Proof.Machine
end

