-- ==== Sys2Proof/Laws/Memory.lean ====
section
/-! SUPPORT. The laws of the HBM3 cells: every operation keeps the canonical form, and a read answers what was written last. -/

namespace Sys2Proof.Machine

theorem Memory.above_mono {lo hi : Nat} (h : lo ≤ hi) : ∀ m : Memory, Memory.above hi m = true → Memory.above lo m = true
  | [], _ => rfl
  | c :: t, hm => by
    simp only [Memory.above, Bool.and_eq_true, decide_eq_true_eq] at hm ⊢
    exact ⟨⟨by omega, hm.1.2⟩, hm.2⟩

theorem Memory.above_cons {lo a : Nat} {b : Byte} {m : Memory} (h : lo ≤ a) (hm : Memory.above (a + 1) m = true) :
    Memory.above lo (Memory.cons a b m) = true := by
  unfold Memory.cons
  split
  · exact Memory.above_mono (by omega) m hm
  · simp [Memory.above, *]

theorem Memory.above_write {lo a : Nat} (b : Byte) (h : lo ≤ a) : ∀ m : Memory, Memory.above lo m = true → Memory.above lo (m.write a b) = true
  | [], _ => Memory.above_cons h rfl
  | c :: t, hm => by
    have hc := hm
    simp only [Memory.above, Bool.and_eq_true, decide_eq_true_eq] at hc
    unfold Memory.write
    split
    · refine Memory.above_cons h ?_
      simp only [Memory.above, Bool.and_eq_true, decide_eq_true_eq]
      exact ⟨⟨by omega, hc.1.2⟩, hc.2⟩
    · split
      · rename_i e; subst e
        exact Memory.above_cons h hc.2
      · simp only [Memory.above, Bool.and_eq_true, decide_eq_true_eq]
        exact ⟨hc.1, Memory.above_write b (by omega) t hc.2⟩

/-- Writing a byte keeps the canonical form. -/
theorem Memory.wf_write {m : Memory} (h : m.wf = true) (a : Nat) (b : Byte) : (m.write a b).wf = true :=
  Memory.above_write b (Nat.zero_le a) m h

/-- Writing bytes keeps the canonical form. -/
theorem Memory.wf_writeAll {m : Memory} (h : m.wf = true) (a : Nat) (l : Bytes) : (m.writeAll a l).wf = true := by
  induction l generalizing m a with
  | nil => exact h
  | cons b t ih => exact ih (Memory.wf_write h a b) (a + 1)

theorem Memory.wf_nil : Memory.wf [] = true := rfl

theorem Memory.read_above {lo a : Nat} : ∀ m : Memory, Memory.above lo m = true → a < lo → m.read a = Memory.blank
  | [], _, _ => rfl
  | c :: t, hm, h => by
    simp only [Memory.above, Bool.and_eq_true, decide_eq_true_eq] at hm
    simp only [Memory.read, show c.1 ≠ a by omega, if_false]
    exact Memory.read_above t hm.2 (by omega)

theorem Memory.read_cons_self {a : Nat} {b : Byte} {m : Memory} (h : m.read a = Memory.blank) : (Memory.cons a b m).read a = b := by
  unfold Memory.cons
  split
  · rename_i e; rw [h, e]
  · simp [Memory.read]

theorem Memory.read_cons_ne {a c : Nat} {b : Byte} {m : Memory} (h : a ≠ c) : (Memory.cons a b m).read c = m.read c := by
  unfold Memory.cons
  split
  · rfl
  · simp [Memory.read, h]

theorem Memory.read_write_self_above {lo : Nat} (a : Nat) (b : Byte) :
    ∀ m : Memory, Memory.above lo m = true → (m.write a b).read a = b
  | [], _ => Memory.read_cons_self rfl
  | c :: t, hm => by
    have hc := hm
    simp only [Memory.above, Bool.and_eq_true, decide_eq_true_eq] at hc
    unfold Memory.write
    split
    · refine Memory.read_cons_self (Memory.read_above (lo := c.1) (c :: t) ?_ ‹_›)
      simp only [Memory.above, Bool.and_eq_true, decide_eq_true_eq]
      exact ⟨⟨Nat.le_refl _, hc.1.2⟩, hc.2⟩
    · split
      · rename_i e
        exact Memory.read_cons_self (Memory.read_above t hc.2 (by omega))
      · simp only [Memory.read, show c.1 ≠ a by omega, if_false]
        exact Memory.read_write_self_above a b t hc.2

/-- A read after a write to the same address answers the byte written. -/
theorem Memory.read_write_self {m : Memory} (h : m.wf = true) (a : Nat) (b : Byte) : (m.write a b).read a = b :=
  Memory.read_write_self_above a b m h

/-- A write leaves every other address alone. -/
theorem Memory.read_write_ne {a c : Nat} (b : Byte) (h : a ≠ c) : ∀ m : Memory, (m.write a b).read c = m.read c
  | [] => Memory.read_cons_ne h
  | x :: t => by
    unfold Memory.write
    split
    · exact Memory.read_cons_ne h
    · split
      · rename_i e
        rw [Memory.read_cons_ne h]
        simp [Memory.read, show x.1 ≠ c by omega]
      · simp only [Memory.read]
        rw [Memory.read_write_ne b h t]

/-- Writing bytes leaves every address outside them alone. -/
theorem Memory.read_writeAll_outside (l : Bytes) : ∀ (m : Memory) (a c : Nat), c < a ∨ a + l.length ≤ c → (m.writeAll a l).read c = m.read c := by
  induction l with
  | nil => intro m a c _; rfl
  | cons b t ih =>
    intro m a c h
    simp only [List.length_cons] at h
    rw [Memory.writeAll, ih _ _ _ (by omega), Memory.read_write_ne b (by omega)]

end Sys2Proof.Machine
end

