-- ==== Sys2Proof/Tests/Slice0.lean ====
section
/-! SUPPORT. The tests: the states they run on, the smoke test of WellFormed, small tests of single commands, and one witness
theorem for every statement that has hypotheses. -/

set_option maxRecDepth 20000

namespace Sys2Proof.Machine
open Sys2Proof

def host1 : Nqn := [1]
def queue0 : Queue := { qid := 0, size := 32, conn := 1 }
def queue1 : Queue := { qid := 1, size := 32, conn := 2 }
def ctrl1 : Ctrl := { cntlid := 1, host := host1, discovery := false, kato := 1000, granted := 4, queues := [queue0, queue1] }
def conn1 : Conn := { id := 1, port := 0, rdma := false, ready := true, ctrl := some (1, 0) }
def conn2 : Conn := { id := 2, port := 0, rdma := false, ready := true, ctrl := some (1, 1) }
def conn5 : Conn := { id := 5, port := 0, rdma := false, ready := true }
def conn6 : Conn := { id := 6, port := 0, rdma := false, ready := true, tls := true }
def conn7 : Conn := { id := 7, port := 1, rdma := true, ready := true }
def pskOne : Psk := { host := host1, identity := [2], kekGen := 0, nonce := 0, wrapped := [], tag := [] }
def nsOne : Ns := { nsid := 1, type := .plain, mode := .gcm, attached := [1] }
def served : State :=
  { State.reset with
    pw := { State.reset.pw with phase := .serving },
    fe := { State.reset.fe with listening := true, hosts := [{ nqn := host1, group := 0, level := 2 }], ctrls := [ctrl1], conns := [conn1, conn2, conn5, conn6, conn7],
                                qpFree := 8188 },
    ky := { State.reset.ky with kekPresent := true, psks := [pskOne] },
    va := { State.reset.va with ns := [nsOne] } }
def adm1 : Adm := { ctrl := 1, cid := 3 }
def connectAdmin : ConnectReq := { conn := 5, cid := 1, host := host1, subsys := [], cntlid := 0xFFFF, qid := 0, size := 32, kato := 600000 }
def connectIo : ConnectReq := { conn := 5, cid := 1, host := host1, subsys := [], cntlid := 1, qid := 4, size := 1024, kato := 0 }
def plainIcReq : IcReq := { pfv := 0, hpda := 0, maxr2t := 3, hdgst := true, ddgst := true }
def goodHello : ClientHello := { tls13 := true, aes256Sha384 := true, pskDheSecp384 := true, earlyData := false, host := host1, identity := [2] }
def waitingStore : Cmd := { ctrl := 1, sq := 1, fetch := 0, kind := .store, e := { cid := 7, nsid := 1, cdw10 := 4, sgl := .transport }, phase := .intake }
def storing : State := { served with fl := { served.fl with cmds := [waitingStore] } }
def ctrlAer : Ctrl := { ctrl1 with aers := [9] }
def aerHeld : State := { served with fe := { served.fe with ctrls := [ctrlAer] } }
def waiting (p : CmdPhase) : Cmd := { ctrl := 1, sq := 1, fetch := 0, kind := .flush, e := { cid := 7, nsid := 1 }, phase := p }
def waits (p : CmdPhase) : State := { served with fl := { served.fl with cmds := [waiting p] } }
def host1cmd : HostCmd := { ctrl := 1, sq := 1, e := { cid := 7, nsid := 1 } }
def admNs1 : Adm := { ctrl := 1, cid := 3, nsid := 1 }
def sealedUp : State := { served with li := { served.li with sealedFuse := true } }
def ctrl2 : Ctrl := { cntlid := 2, host := host1, discovery := false, kato := 1000, queues := [queue0] }
def twoCtrls : State := { sealedUp with fe := { sealedUp.fe with ctrls := [ctrl1, ctrl2] } }
def imageOne : FwImage := { svn := 1, floor := 1, rev := [], len := 4096, hoFormat := 1, hoMin := 1, twinProto := 1, patchVer := 1, hash := [] }
def twoImages : State := { served with bt := { served.bt with imageA := some imageOne, imageB := some imageOne } }
def activating : State := { twoImages with bt := { twoImages.bt with commit := some (1, 3, 1) } }
def pausing : State := { twoImages with bt := { twoImages.bt with commit := some (1, 3, 1), paused := true } }
def confirming : State := { twoImages with bt := { twoImages.bt with activated := some 1 } }
def testOne : SelfTest := { extended := true, ctrl := 1, nsid := 0, suspended := false }
def testing : State := { served with stt := { served.stt with running := some testOne } }
def sanitizingNow : State := { served with fl := { served.fl with sanitize := 1 } }
def msg (p : Bytes) : MsgReq := { mbox := 15, src := 0, len := p.length, payload := p }
def raw1 : RawMsg := { cls := 14, op := 3, len := 0 }
def reply1 : Reply := { dst := 1, cls := 14, op := 3, tag := 0, seq := 0, status := 0, flags := 1, detail := 0, time := 0, tq := 0, payload := [1] }
def replied (n : Nat) : State := served.modBox n fun b => { b with replies := [reply1], inFlight := 1, owned := true, owner := 1 }
def queued : State := served.modBox 15 fun b => { b with queue := [(msg [], 0x0E, 0x03, false)], inFlight := 1, owned := true }
def peerHdr : ChainHdr := { src := 3, dst := 0, gen := 0 }
def stacked : State := { sealedUp with sk := { sealedUp.sk with enabled := true, st := 2, ringUp := true, members := 9, electing := false } }
def viewOne : WitnessView :=
  { pos := 3, pairId := [5], stackMode := true, role := 1, term := 1, request := false, at_ := 0, asked := 0 }
/-- A Beacon that polls the pair of the member at position 3. -/
def polling : State := { stacked with sk := { stacked.sk with role := 1, views := [viewOne] } }
def endpointUp : State := { served with mb := { served.mb with endpoint := true } }
def miKept : State := { served with fe := { served.fe with miReplies := [(1, [0, 1])] } }
def allowAll : CamEntry := { nsid := 1, nsidMask := 0xFFFFFFFF, flags := 1, action := 0x8000 }
def keyOne : KeyRec := { nsid := 1, gen := 1, state := 1, mode := .gcm, kekGen := 0, nonce := 0, wrapped := [], tag := [], time := 0, tq := 0 }
def policed : State :=
  { sealedUp with
    cam := { sealedUp.cam with entries := [(0, allowAll)] }, ky := { sealedUp.ky with recs := [keyOne] },
    md := { sealedUp.md with bank := 1000000000 } }
def recOne : StoredRec := { nsid := 1, flags := 0, seq := 1, key := [7], value := [1, 2], keyGen := 1, mode := .gcm, mediaSeal := false, nonceCounter := 0 }
def hashOne : BitVec 64 := Config.keyedHash [] 1 [7]
def slotOne : Slot := { fp := hashFp hashOne, loc := .wax 0, lenClass := 0, stagedCopy := true, twinPend := false, fine := false, hold := false, long := false }
/-- A drive that holds one record in staging. -/
def holding : State :=
  { policed with
    va := { policed.va with nextSeq := 2 }, wx := { policed.wx with staged := [(0, recOne)], ring := [(0, 8)] },
    ix := { policed.ix with buckets := [(policed.ix.cand1 hashOne, { s0 := some slotOne })], resident := 1 } }
def foundOne : Found := { place := .slot (.prim (policed.ix.cand1 hashOne)) 0, slot := slotOne, record := recOne }
def cmdOf (e : Sqe) : HostCmd := { ctrl := 1, sq := 1, e := e }
def shortSqe (len : BitVec 32) : Sqe := { cid := 7, nsid := 1, cdw2 := 7, cdw10 := len, cdw11 := 1, sgl := if len = 0 then .none else .transport }
def longSqe (len : BitVec 32) : Sqe := { cid := 7, nsid := 1, cdw10 := len, cdw11 := 1, sgl := if len = 0 then .none else .transport, icd := 7 :: List.replicate 255 0 }
def leafOne : Leaf := { hash := [], valueHash := [], nsid := 1, key := [7], seq := 1, time := 0, tq := 0 }
def epochOne : ClosedEpoch := { number := 0, root := [], leaves := [leafOne], sigs := some ([], []) }
def receipted : State := { policed with ky := { policed.ky with store := [epochOne] } }
def receiptCmd : HostCmd := { ctrl := 1, sq := 1, e := { longSqe 0 with cdw13 := 64, sgl := .transport } }
def takenStore : Cmd :=
  { ctrl := 1, sq := 1, fetch := 0, kind := .store, e := (shortSqe 2), phase := .intake, key := [7], got := [1, 2], granule := some 0, granules := 8, action := 0x8000, keyGen := 1 }
def taken : State := { policed with fl := { policed.fl with cmds := [takenStore], nextFetch := 1 }, wx := { policed.wx with ring := [(0, 8)] } }
def nsLedger : Ns := { nsid := 1, type := .ledger, mode := .gcm, attached := [1] }
def ledgered : State := { holding with va := { holding.va with ns := [nsLedger] } }
def heldKey : State := { ledgered with va := { ledgered.va with keyHolds := [{ nsid := 1, tag := 3, seq := 1 }] } }
def heldNs : State := { ledgered with va := { ledgered.va with ns := [{ nsLedger with tags := [3] }] } }
def holdCmd (bits : BitVec 32) : HostCmd := cmdOf { longSqe 3 with cdw11 := 1 + bits, sgl := .none }
def nsHoldCmd (bits : BitVec 32) : HostCmd := cmdOf { longSqe 3 with cdw11 := bits, sgl := .none, icd := List.replicate 256 0 }
def stagedWaiter : Cmd := { takenStore with phase := .waitStaging, granule := none }
/-- A command that its rate class holds back. -/
def rated : Cmd := { takenStore with phase := .waitRate, granule := none, granules := 0, judged := true }
def ratedWait : State := { policed with fl := { policed.fl with cmds := [rated], nextFetch := 1 }, va := { policed.va with rate := [{}] } }
def stagingWait : State := { policed with fl := { policed.fl with cmds := [stagedWaiter], nextFetch := 1 }, wx := { policed.wx with waiters := [.store 0] } }
def unackedOne : State := { served with wx := { served.wx with unacked := [4] }, tw := { served.tw with role := .primary, reached := true } }
def ackAdvanced : State := { served with wx := { served.wx with acked := 1 } }
def copied : State := { holding with wx := { holding.wx with copies := [0], head := 8 } }
def condensing_ : State := { waits .waitJournal with wx := { served.wx with condensing := true } }
def failing_ : State := { served with tw := { served.tw with repairs := [(1, [7], 1)] } }
def packing : State := holding
def bandOne (n : Nat) : Band :=
  { number := 0, kind := .hostCold, state := n, openSeq := 1, openTime := 0, tq := 0, members := [(0, 0, 0)], hashes := [], slot := some 0,
    lastWrite := 0, fill := 1024 }
def banded (n : Nat) : State := { served with md := { served.md with bands := [bandOne n] } }
/-- A drive that condenses its journal while every parity slot is taken. -/
def noSlotFree : State :=
  { condensing_ with
    wx := { condensing_.wx with journal := [{ type := .store, seq := 1, nsid := 1, key := [7] }] },
    md := { condensing_.md with bands := (List.range 8).map fun i => { bandOne 2 with number := i, slot := some i } } }
/-- An epoch of `n` leaves, and a receipt store that holds it alone. -/
def epochOf (n : Nat) : ClosedEpoch := { epochOne with leaves := List.replicate n leafOne }
def storeOf (n : Nat) : State := { policed with ky := { policed.ky with store := [epochOf n] } }
theorem epochOf_storeBytes (n : Nat) : (epochOf n).storeBytes = 4096 + 128 * n + 48 * ((n + 31) / 32) := by
  simp [epochOf, ClosedEpoch.storeBytes]
theorem storeOf_full (n : Nat) (h : 2 ^ 30 ≤ n) : (storeOf n).ky.storeFull = true := by
  have e : (storeOf n).ky.storeBytes = 4096 + 128 * n + 48 * ((n + 31) / 32) := by
    simp [storeOf, Keys.storeBytes, epochOf_storeBytes]
  simp only [Keys.storeFull, e, receiptStoreSize, decide_eq_true_eq]
  omega
theorem storeOf_meets : ∃ n, up (storeOf n) = true ∧ (storeOf n).ky.storeFull = true := ⟨2 ^ 30, rfl, storeOf_full _ (Nat.le_refl _)⟩
/-- A band of internal data with record lanes on channel 0 and internal lanes on channel 1. -/
def bandFine : Band := { bandOne 1 with kind := .fineInternal, members := [(0, 0, 0), (1, 0, 0)], channels := 1 }
def checkpointing : State :=
  { served with md := { served.md with bands := [bandFine] }, ix := { served.ix with dirtyPages := [4] } }
def slotNand : Slot := { slotOne with loc := .nand 0, stagedCopy := false }
def onNand : State :=
  { policed with
    va := { policed.va with nextSeq := 2 }, md := { policed.md with nand := [(0, recOne)], bands := [bandOne 3] },
    ix := { policed.ix with buckets := [(policed.ix.cand1 hashOne, { s0 := some slotNand })], resident := 1 } }
def foundNand : Found := { place := .slot (.prim (policed.ix.cand1 hashOne)) 0, slot := slotNand, record := recOne }
def readingCmd : Cmd :=
  { ctrl := 1, sq := 1, fetch := 0, kind := .retrieve, e := { shortSqe 16 with cdw11 := 1 }, phase := .waitMedia, key := [7], loc := some (.nand 0), stage := 2 }
def reading : State := { onNand with fl := { onNand.fl with cmds := [readingCmd], nextFetch := 1 } }
def refilled : State := { served with md := { served.md with bankEmpty := true, bank := 67109152 } }
def twoBands : State := { served with md := { served.md with bands := [bandOne 3, { bandOne 3 with number := 1, members := [(0, 0, 1)] }] } }
def removing : State :=
  { served with md := { served.md with secdel := [{ slot := some 0, nsid := 1, key := [7], h := 0, bands := [0], done := 0, started := 0, total := 1, host := host1, urgent := false, overdue := false }] } }
theorem search_one {t : Slot} {cf : Slot → Bool} (hc : cf t = true) :
    (Bucket.mk (some t) none none none none .none).search t.fp cf = some 0 := by
  simp [Bucket.search, Bucket.slots, List.findIdx?_cons, hc]

theorem index_found {x : Index} {t : Slot} {cf : Slot → Bool} (hhalf : x.half = policed.ix.half) (hfp : t.fp = hashFp hashOne)
    (hb : x.buckets = [(policed.ix.cand1 hashOne, { s0 := some t })]) (hc : cf t = true) :
    x.find hashOne cf = some (.slot (.prim (policed.ix.cand1 hashOne)) 0)
      ∧ x.slotAt hashOne (.slot (.prim (policed.ix.cand1 hashOne)) 0) = some t := by
  have h1 : x.cand1 hashOne = policed.ix.cand1 hashOne := by simp only [Index.cand1, Index.rows, hhalf]
  have hg : x.get (.prim (policed.ix.cand1 hashOne)) = { s0 := some t } := by simp [Index.get, hb]
  have hn : x.chain (policed.ix.cand1 hashOne) = [.prim (policed.ix.cand1 hashOne)] := by simp [Index.chain, hg]
  refine ⟨?_, by simp [Index.slotAt, hg, Bucket.slots]⟩
  simp [Index.find, h1, hn, hg, ← hfp, search_one hc]

/-- A drive whose index holds a slot in the first candidate bucket of its key finds the slot's record. -/
theorem found_at {s : State} {t : Slot} {r : StoredRec} (hseed : s.ix.seed = []) (hhalf : s.ix.half = policed.ix.half)
    (hfp : t.fp = hashFp hashOne) (hb : s.ix.buckets = [(policed.ix.cand1 hashOne, { s0 := some t })])
    (hl : s.recAt t.loc = some r) (hc : s.confirms 1 [7] t = true) (_ : r.nsid = 1) :
    s.find 1 [7] = some { place := .slot (.prim (policed.ix.cand1 hashOne)) 0, slot := t, record := r } := by
  have hh : s.hash 1 [7] = hashOne := by rw [State.hash, hseed]; rfl
  obtain ⟨hf, ht⟩ := index_found hhalf hfp hb hc
  simp only [State.find, hh, hf, ht, hl]
  rfl

theorem found_of {s : State} (hseed : s.ix.seed = []) (hhalf : s.ix.half = policed.ix.half)
    (hb : s.ix.buckets = [(policed.ix.cand1 hashOne, { s0 := some slotOne })]) (hc : s.confirms 1 [7] slotOne = true)
    (hr : s.recAt (.wax 0) = some recOne) : s.find 1 [7] = some foundOne := found_at hseed hhalf rfl hb hr hc rfl

theorem holding_find : holding.find 1 [7] = some foundOne := found_of rfl rfl rfl (by decide) (by decide)
theorem holding_present : holding.present 1 [7] = true := by rw [State.present, holding_find]; rfl
theorem ledgered_find : ledgered.find 1 [7] = some foundOne := found_of rfl rfl rfl (by decide) (by decide)
theorem heldKey_find : heldKey.find 1 [7] = some foundOne := found_of rfl rfl rfl (by decide) (by decide)
theorem ledgered_decides : ledgered.holdDecision nsLedger (asCmd .holdKeyPlace (holdCmd 0) ledgered) = none := by
  have h : (asCmd .holdKeyPlace (holdCmd 0) ledgered).kind = .holdKeyPlace := rfl
  have k : (asCmd .holdKeyPlace (holdCmd 0) ledgered).key = [7] := by decide
  simp only [State.holdDecision, h, State.holdCheck, k]
  rw [show nsLedger.nsid = 1 from rfl, ledgered_find]
  decide
theorem heldKey_decides : heldKey.holdDecision nsLedger (asCmd .holdKeyRelease (holdCmd 512) heldKey) = none := by
  have h : (asCmd .holdKeyRelease (holdCmd 512) heldKey).kind = .holdKeyRelease := rfl
  have k : (asCmd .holdKeyRelease (holdCmd 512) heldKey).key = [7] := by decide
  simp only [State.holdDecision, h, k]
  rw [show nsLedger.nsid = 1 from rfl, heldKey_find]
  decide
theorem packing_points : packing.ix.points (.wax 0) = true := rfl
theorem onNand_slot : onNand.ix.slotFor (.nand 0) = some slotNand := rfl
def padding : State := { served with md := { served.md with bands := [{ bandOne 1 with fill := 1000 }] } }
/-- A drive with a record in staging and a band open for it. -/
def landing : State := { holding with md := { holding.md with bands := [bandOne 1] } }
theorem landing_lands : (landing.land (landing.packStream 0 recOne) (2 ^ 32) (landing.reseal recOne)).isSome = true := by decide
/-- A drive with a record on NAND and a band open for its copy. -/
def copying : State :=
  { onNand with md := { onNand.md with bands := [bandOne 3, { bandOne 1 with number := 1, kind := .gcHot, members := [(1, 0, 0)], fill := 0, slot := some 1 }] } }
theorem copying_slot : copying.ix.slotFor (.nand 0) = some slotNand := rfl
theorem copying_lands : (copying.land (copying.copyStream 0 slotNand.fine) (2 ^ 38)
    (if copying.rotates 0 recOne then copying.reseal recOne else recOne)).isSome = true := by decide
theorem reading_find : reading.find 1 [7] = some foundNand := found_at rfl rfl rfl rfl rfl (by decide) (by decide)
def inPhase_ (p : Phase) : State := { served with pw := { served.pw with phase := p } }
def trial : State := { twoImages with bt := { twoImages.bt with br := Copies.fresh { trial := some 1 }, running := 1, fails := 1 } }
def deferring : State := { served with bt := { served.bt with deferred := [10], offServices := [10] } }
def wayOne : Way := { tag := 0, dirty := false, data := List.replicate 64 3 }
def cachedRegion : State := { served with mc := { served.mc with enable := true, rgn := cacheRegions false } }
def cached : State := { cachedRegion with mc := { cachedRegion.mc with lines := [((5, 3), wayOne)] } }
def missing : State :=
  { cachedRegion with mc := { cachedRegion.mc with miss := [{ line := 5, drop := false, secondary := 0, readers := 1, merged := [] }] } }
def evicting : State :=
  { cachedRegion with mc := { cachedRegion.mc with chimney := [{ line := 5, dirty := true, valid := true, pending := true, data := List.replicate 64 1 }] } }
def pinnedOne : Chim := { line := 5, dirty := true, valid := true, pending := true, data := List.replicate 64 1 }
def pinnedLine : State := { evicting with mc := { evicting.mc with chimney := [pinnedOne] } }
def debugged : State := { served with li := { served.li with level := 2 } }
def sweeping (busy : Bool) : State := { cached with mc := { cached.mc with invBusy := busy, invLimit := 9 } }
def rotating : State :=
  { policed with ky := { policed.ky with recs := [{ keyOne with state := 2 }, { keyOne with gen := 2 }], jobs := [{ nsid := 1, kind := 0, pct := 0, started := 0 }] } }
def erasing : State :=
  { policed with ky := { policed.ky with recs := [{ keyOne with state := 3 }, { keyOne with gen := 2 }], jobs := [{ nsid := 1, kind := 1, pct := 0, started := 0 }] } }
def openOne : OpenEpoch := { number := 1, lengthMs := 10, openMono := 0, openTime := 0, debug := false, leaves := [leafOne] }
def epochOpen : State := { policed with ky := { policed.ky with open_ := some openOne, nextEpoch := 2 } }
def denyBare : CamEntry := { nsid := 1, nsidMask := 0xFFFFFFFF, flags := 1 }
def denyOne : CamEntry := { denyBare with crc := denyBare.computed }
def struck : State :=
  { policed with cam := { policed.cam with loaded := true, entries := [(9, { denyOne with nsid := 3 })], copy := [(9, denyOne)], dir := [(9, denyOne.dir)] } }
def pairedAs (r : TwinRole) : State :=
  { policed with tw := { policed.tw with role := r, reached := true, pairId := List.replicate 16 5, twinId := List.replicate 16 6, term := 2 } }
/-- A Primary whose resynchronisation covers everything up to sequence 4, with write 3 not yet acknowledged. -/
def walked : State :=
  { pairedAs .primary with tw := { (pairedAs .primary).tw with resyncTo := 4 }, wx := { (pairedAs .primary).wx with unacked := [3] } }
def losing (r : TwinRole) : State := { pairedAs r with tw := { (pairedAs r).tw with lost := true, reached := false } }
def witnessed (s : State) : State := { s with tw := { s.tw with witnessMode := 1 } }
/-- A drive with a record on NAND and an open band for what is rewritten. -/
def cold_ : State :=
  { onNand with md := { onNand.md with bands := [bandOne 3, { bandOne 1 with number := 1, kind := .gcCold, members := [(1, 0, 0)], fill := 0, slot := some 1 }] } }
def candidate : State := { losing .secondary with tw := { (losing .secondary).tw with candidate := true, witnessMode := 1 } }
def repairing : State := { cold_ with tw := { onNand.tw with repairs := [(1, [7], 0)] } }
def peerOne : PeerView :=
  { term := 1, role := 2, wasPrimary := false, fullResync := false, pairId := List.replicate 16 0, driveId := List.replicate 16 6, protoVer := 1,
    lifecycleSealed := true, namespaces := [(1, 0, 0, 3)] }
def attaching (role : Nat) : State := { policed with tw := { policed.tw with attachReq := some (List.replicate 16 5, role, none) } }
def replOne : ReplWrite := { seq := 9, kind := .store, nsid := 1, key := [7], value := [1, 2], action := 0x8000, ledger := false, leaf := false, host := host1 }
def fwdOne : FwdCmd := { ctrl := 1, sq := 1, cid := 4, kind := 4, nsid := 1, key := [7], action := 0x8000, host := host1 }
theorem repairing_lands : (repairing.landNext .gcCold (repairing.reseal { foundNand.record with value := [9] })).isSome = true := by decide
theorem repairing_find : repairing.find 1 [7] = some foundNand := found_at rfl rfl rfl rfl rfl (by decide) (by decide)
def nsMirror : Ns := { nsid := 1, type := .mirror, mode := .gcm, attached := [1] }
def originOne : OriginRec := { flags := 9, timeoutMs := 100, maxFills := 2048, tcpPort := 4420, addrA := [], addrB := [], nqn := [4] }
def bindOne : Binding := { nsid := 1, origin := 3, fallback := none, staleOk := false, ttlS := 60, negTtlS := 0, originNsid := 2 }
def mirrored_ : State :=
  { policed with va := { policed.va with ns := [nsMirror] }, og := { policed.og with origins := policed.og.origins.set 3 (some originOne) } }
def bound : State := { mirrored_ with og := { mirrored_.og with bindings := [bindOne] } }
/-- A drive that holds a record of a mirror namespace past its time. -/
def expiring : State :=
  { holding with
    pw := { holding.pw with powerOnS := 100 }, va := { holding.va with ns := [nsMirror] },
    og := { holding.og with origins := holding.og.origins.set 3 (some originOne), bindings := [bindOne] } }
def pathed (isOpen : Bool) : State :=
  { bound with og := { bound.og with paths := [{ origin := 3, port := 0, isOpen := isOpen, retryDelayS := 16 }] } }
def fillOne : Fill :=
  { nsid := 1, key := [7], origin := 3, stage := 0, repeats := 0, onFallback := false, len := 0, value := [], granule := none, granules := 0, hint := 0 }
def filling (f : Fill) : State := { pathed true with og := { (pathed true).og with fills := [f] } }
def looking : GLookup := { key := 9, gen := 0, epoch := 0, inFlight := false, cmds := [] }
def flying : GLookup := { looking with inFlight := true }
def txOne : TxFrame := { len := 64, tag := 0 }
def queuedPort : Port := { link := some .kr4, txq := [[], [], [], [txOne], [], [], [], []] }
def pausePort : Port := { queuedPort with cfg := { flow := 1, lossless := 0 } }
def xoffPort : Port := { queuedPort with xoff := [false, false, false, true, false, false, false, false] }
def goodFrame : Frame := { len := 100, fcsOk := true, dest := 0xFFFFFFFFFFFF, vlan := none }
/-- A drive whose Port B stands as given. -/
def linked (p : Port) : State := { served with pt := { served.pt with b := p } }
def announceOne : Announce := { master := 3, domain := 0, priority1 := 128, clockClass := 6, gm := 7, timeTraceable := true, utcOffsetValid := true }
def ptpTime : State := { served with tm := { served.tm with servoOn := true, ptpA := { enabled := true } } }
def mastered : State := { ptpTime with tm := { ptpTime.tm with masters := [⟨0, announceOne⟩], master := some (0, 3) } }
def ppsTime : State := { served with tm := { served.tm with servoOn := true, ppsOn := true, lastEdge := some 0, ppsEpoch := some 9 } }
def listingCmd : Cmd := { ctrl := 1, sq := 1, fetch := 0, kind := .filteredList, e := { cid := 7, nsid := 1, cdw10 := 4096, cdw12 := 1 }, phase := .running }
def wordLoop : Engine := { pc := 28673, start := 28672, running := true, prog := some 1, cmd := some (1, 1, 7) }
def factoryLoop : Engine := { wordLoop with prog := none, cmd := none }
def progOne : Program :=
  { id := 1, slot := 0, forerunner := false, micro := [0, 0], nano := [0], table := [], entry := 0, keyLimit := 65536, budget := 65536, ver := 1,
    microBase := 28672, nanoBase := 15360, tableBase := 0, loadTime := 0, draining := false, image := [] }
/-- A microword of nanoword 15,360 with the next-address operation `seq` and target 28,672. -/
def wordOf (seq : Nat) : BitVec 40 := BitVec.ofNat 40 (15360 * 2 ^ 26 + seq * 2 ^ 23 + 28672)
/-- Wick engine 5 stands at a word with the next-address operation `seq`. -/
def atWord (seq : Nat) (e : Engine) : State :=
  { served with me := { served.me with micro := [(28673, wordOf seq)], wick := [(5, e)], progs := [progOne] } }
def listingAt (seq : Nat) : State := { atWord seq wordLoop with fl := { served.fl with cmds := [listingCmd] } }
def taperWaits : State :=
  { served with me := { served.me with taperStores := List.replicate 32 { micro := [(7168, wordOf 6)] }, taper := [(3, { pc := 7168, start := 7168, running := true })] } }
def itemOne : CalItem := { item := 0x300, cat := 3, fuse := false, value := 10, min := -100, max := 100 }
def calibrated : State := { served with ck := { served.ck with factory := [itemOne] } }
def blank : State := { served with li := { served.li with sealedFuse := false } }
def emptyDrive : State := { served with va := { served.va with ns := [] } }
def frozenDrive : State := { served with pw := { served.pw with phase := .frozen }, ck := { served.ck with fzDebug := 2, fzCause := 1 } }
theorem retire_ok : messageOk 0x09 0x51 (msg emptyDrive.driveId) emptyDrive = true := by
  generalize emptyDrive.driveId = p
  have h : messageOk 0x09 0x51 (msg p) emptyDrive = (decide (p.length = p.length) && true && true) := by
    unfold messageOk
    rfl
  rw [h]; simp
def evOne : EvRec := { code := 1, unit := 1, sev := 1, seq := 1, time := 0, p0 := 0, p1 := 0, p2 := 0, tq := 0 }

/-! ## WellFormed: one ill-formed term for each check, which the check refuses, beside a well-formed one -/

theorem test_wellformed_takes : [Instr.keyUpdateSend 1, .keepAlive adm1, .flush host1cmd, .seal (msg []), .mbxAck 15, .lpiEntry 1, .inc (.wick 63),
    .inc (.taper 31), .rotationDone 1024, .census peerHdr [], .dieLost 15 31, .camSoftError 65535 0 true].all (·.wf) = true := by decide
theorem test_wellformed_ports : [Instr.icReq 1 2 plainIcReq, .icReq 1 0 { plainIcReq with mss := 0 }, .lpiEntry 2, .xoffThreshold 0 8, .originPathFailure 8 0].any (·.wf) = false := by decide
theorem test_wellformed_controllers : [Instr.keepAlive { adm1 with ctrl := 0 }, .keepAliveExpiry 81, .keepAlive { adm1 with cid := 65536 },
    .keepAlive { adm1 with nsid := 4294967296 }, .abort adm1 65536 0, .abort adm1 0 65536].any (·.wf) = false := by decide
theorem test_wellformed_commands : [Instr.flush { host1cmd with sq := 0 }, .flush { host1cmd with ctrl := 81 }, .flush { host1cmd with sq := 65536 },
    .flush { host1cmd with e := { cid := 65536, nsid := 1 } }, .flush { host1cmd with e := { cid := 1, nsid := 4294967296 } },
    .storeCommit 1 1 65536].any (·.wf) = false := by decide
theorem test_wellformed_messages : [Instr.seal { msg [] with mbox := 16 }, .seal { msg [] with tag := 65536 }, .seal { msg [] with seq := 4294967296 },
    .seal { msg [] with len := 4294967296 }, .mailboxPost adm1 0 0 { raw1 with cls := 256 }, .mailboxPost adm1 0 0 { raw1 with op := 256 },
    .mailboxPost adm1 16 0 raw1, .mbxAck 16].any (·.wf) = false := by decide
theorem test_wellformed_long_message : (Instr.seal { msg [] with payload := List.replicate 4097 0 }).wf = false := by decide +kernel
theorem test_wellformed_units : [Instr.inc (.wick 64), .inc (.taper 32), .loadReturn 64, .rotationDone 0, .rotationDone 1025,
    .census { peerHdr with src := 16 } [], .census { peerHdr with dst := 16 } [], .leave peerHdr 16, .dieLost 16 0, .dieLost 0 32,
    .waxPackageFailure 8, .hbm3StackLost 2, .camSoftError 65536 0 true, .domainIdleGate 40 true, .deferredBootStep 15,
    .mctpMessage 256 .otherType].any (·.wf) = false := by decide

/-! ## Single commands -/

/-- R112, R114: the first line outside HBM3 stops the command. -/
theorem test_cache_access_outside : (match execCacheAccess 0x30000000 none served with | .fault .hbm3LineOutsideSpace => true | _ => false) = true := by decide
/-- R50: an admin Connect with a queue below 32 entries is refused with Invalid Parameters at its size. -/
theorem test_connect_small_queue : (match execConnect { connectAdmin with size := 1 } served with
    | .next t => decide (t.fe.ctrls = served.fe.ctrls) | _ => false) = true := by decide
/-- R111: an extended KEEP_ALIVE completes with success. -/
theorem test_keep_alive : (match execKeepAlive adm1 served with
    | .next t => decide (t.out = [.cqe 1 0 3 .success false 0 0 1 none]) | _ => false) = true := by decide
/-- R50: a command on a controller that does not exist changes nothing. -/
theorem test_no_controller : (match execKeepAlive { adm1 with ctrl := 9 } served with
    | .next t => decide (t.fe = served.fe ∧ t.out = []) | _ => false) = true := by decide
/-- R201: a second loss of the same die changes nothing. -/
theorem test_die_lost_once : (match execDieLost 15 31 { served with md := { served.md with diesLost := [(15, 31)] } } with
    | .next t => decide (t.md.diesLost = [(15, 31)]) | _ => false) = true := by decide
/-- R401: an acknowledgement of a mailbox without a reply changes nothing. -/
theorem test_ack_nothing : (match execMbxAck 15 served with | .next t => decide (t.mb = served.mb) | _ => false) = true := by decide
/-- R9: a drive that has not started takes no host command. -/
theorem test_reset_takes_no_connect : (match execConnect connectAdmin State.reset with
    | .next t => decide (t.fe.ctrls = [] ∧ t.out = []) | _ => false) = true := by decide
/-- The queue: the command at the front leaves it, the rest stays. -/
theorem test_step_takes_front : (match step { served with pending := [.mbxAck 15, .keepAlive adm1] } with
    | .next t => decide (t.pending = [.keepAlive adm1]) | _ => false) = true := by decide
/-- The canonical form: writing a blank byte removes its cell, and cells stay in rising order. -/
theorem test_memory_form : (Memory.write (Memory.write (Memory.write [] 5 1) 3 2) 5 0 = [(3, 2)]) ∧ Memory.wf [(5, 1), (3, 2)] = false
    ∧ Memory.wf [(3, 0)] = false := by decide

/-! ## Witnesses of the statements -/

/-- The hypotheses of `Connection_commands_complete`, clause by clause, are met. -/
theorem witness_Connection_commands_complete :
    (∃ (c : ConnectReq) (k : Conn) (id : Nat) (s : State), (s.listens = true) ∧ (s.bt.paused = false) ∧ (s.fe.conn? c.conn = some k) ∧ (k.ready = true) ∧ (k.ctrl = none) ∧ (s.connectCheck c = .ok id) ∧ (c.qid = 0))
    ∧ (∃ (c : ConnectReq) (k : Conn) (id : Nat) (s : State), (s.listens = true) ∧ (s.bt.paused = false) ∧ (s.fe.conn? c.conn = some k) ∧ (k.ready = true) ∧ (k.ctrl = none) ∧ (s.connectCheck c = .ok id) ∧ (c.qid ≠ 0))
    ∧ (∃ (conn port : Nat) (r : IcReq) (s : State), (s.listens = true) ∧ (s.service port 0 = true) ∧ (s.service port 1 = false) ∧ (s.fe.conn? conn = none) ∧ (r.pfv = 0) ∧ (r.tcpPort = 4420 ∨ r.tcpPort = 8009))
    ∧ (∃ (conn cid offset : Nat) (data : Bytes) (c : Cmd) (s : State), (up s = true) ∧ ((s.fe.conn? conn).isSome = true) ∧ (s.awaiting conn cid = some c) ∧ (data.length ≤ 131072) ∧ (offset = c.got.length) ∧ (c.got.length + data.length < c.e.cdw10.toNat) ∧ (∀ x ∈ s.fl.cmds, x.fetch = c.fetch → x = c) ∧ (c ∈ s.fl.cmds))
    ∧ (∃ (conn port : Nat) (hello : ClientHello) (p : Psk) (s : State), (s.listens = true) ∧ (s.service port 0 = true) ∧ (s.fe.conn? conn = none) ∧ (s.fe.hellos = []) ∧ (s.fe.handshakes < 4000) ∧ (s.ky.kekPresent = true) ∧ ((hello.tls13 && hello.aes256Sha384 && hello.pskDheSecp384 && !hello.earlyData) = true) ∧ (s.ky.psks.find? (fun p => p.host == hello.host && p.identity == hello.identity) = some p) ∧ (hello.binder = pskBinder (p.tls s.ky.kek) hello.truncated))
    ∧ (∃ (conn len : Nat) (k : Conn) (s : State), (up s = true) ∧ (s.fe.conn? conn = some k) ∧ (k.tls = true) ∧ (k.ctrl = none) ∧ (len ≤ 16640) ∧ (s.bt.paused = false))
    ∧ (∃ (conn len : Nat) (s : State), (up s = true) ∧ ((s.fe.conn? conn).any (·.tls) = true) ∧ (len ≤ 16640))
    ∧ (∃ (conn : Nat) (s : State), (up s = true) ∧ ((s.fe.conn? conn).any (·.tls) = true))
    ∧ (∃ (conn : Nat) (s : State), (up s = true) ∧ ((s.fe.conn? conn).any (·.tls) = true))
    ∧ (∃ (conn port : Nat) (r : CmRequest) (s : State), (s.serving = true) ∧ (s.fe.listening = true) ∧ (r.port = 4420) ∧ (s.service port 2 = true) ∧ (s.fe.conn? conn = none)) :=
  ⟨⟨connectAdmin, conn5, 2, served, by decide⟩,
   ⟨connectIo, conn5, 1, served, by decide⟩,
   ⟨9, 0, plainIcReq, served, by decide⟩,
   ⟨2, 7, 0, [1, 2, 3], waitingStore, storing, by decide⟩,
   ⟨9, 0, { goodHello with binder := pskBinder (pskOne.tls served.ky.kek) goodHello.truncated }, pskOne, served,
    by decide, by decide, by decide, by decide, by decide, by decide, by decide, by decide, rfl⟩,
   ⟨6, 16640, conn6, served, by decide⟩,
   ⟨6, 16640, served, by decide⟩,
   ⟨6, served, by decide⟩,
   ⟨6, served, by decide⟩,
   ⟨9, 1, {}, served, by decide⟩⟩

/-- The hypotheses of `Connection_endings_reset_the_controller`, clause by clause, are met. -/
theorem witness_Connection_endings_reset_the_controller :
    (∃ (a : Adm) (c : Ctrl) (u : State) (s : State), (fabricsOk a s = true) ∧ (s.fe.ctrl? a.ctrl = some c) ∧ (u = (s.admEntry a).1))
    ∧ (∃ (conn id q : Nat) (k : Conn) (c : Ctrl) (s : State), (up s = true) ∧ (s.bt.paused = false) ∧ (s.fe.conn? conn = some k) ∧ (k.ctrl = some (id, q)) ∧ (s.fe.ctrl? id = some c))
    ∧ (∃ (id : Nat) (c : Ctrl) (s : State), (up s = true) ∧ (s.bt.paused = false) ∧ (s.fe.ctrl? id = some c))
    ∧ (∃ (conn id q : Nat) (k : Conn) (c : Ctrl) (s : State), (up s = true) ∧ (s.bt.paused = false) ∧ (s.fe.conn? conn = some k) ∧ (k.rdma = false) ∧ (k.ctrl = some (id, q)) ∧ (s.fe.ctrl? id = some c))
    ∧ (∃ (conn : Nat) (k : Conn) (s : State), (up s = true) ∧ (s.bt.paused = false) ∧ (s.fe.conn? conn = some k) ∧ (k.rdma = true) ∧ (k.ctrl = none))
    ∧ (∃ (a : Adm) (s : State), (fabricsOk a s = true) ∧ ((s.fe.ctrl? a.ctrl).isSome = true))
    ∧ (∃ (a : Adm) (c : Ctrl) (u : State) (s : State), (fabricsOk a s = true) ∧ (s.fe.ctrl? a.ctrl = some c) ∧ (c.enabled = true) ∧ (u = (s.admEntry a).1)) :=
  ⟨⟨adm1, ctrl1, (served.admEntry adm1).1, served, by decide⟩,
   ⟨2, 1, 1, conn2, ctrl1, served, by decide⟩,
   ⟨1, ctrl1, served, by decide⟩,
   ⟨2, 1, 1, conn2, ctrl1, served, by decide⟩,
   ⟨7, conn7, served, by decide⟩,
   ⟨adm1, served, by decide⟩,
   ⟨adm1, ctrl1, (served.admEntry adm1).1, served, by decide⟩⟩

/-- The hypotheses of `Controller_property_and_feature_commands_complete`, clause by clause, are met. -/
theorem witness_Controller_property_and_feature_commands_complete :
    (∃ (a : Adm) (s : State), (adminOk a s = true))
    ∧ (∃ (a : Adm) (c : Ctrl) (s : State), (fabricsOk a s = true) ∧ ((s.admEntry a).1.fe.ctrl? a.ctrl = some c))
    ∧ (∃ (a : Adm) (s : State), (adminOk a s = true))
    ∧ (∃ (a : Adm) (fid sensor : Nat) (under : Bool) (c : Ctrl) (s : State), (adminOk a s = true) ∧ (s.fe.ctrl? a.ctrl = some c) ∧ (sensor < s.pw.underThr.length ∧ sensor < s.pw.overThr.length))
    ∧ (∃ (a : Adm) (burst : Nat) (s : State), (adminOk a s = true) ∧ (burst ≤ 7))
    ∧ (∃ (a : Adm) (sensor : Nat) (value : Int) (s : State), (adminOk a s = true) ∧ (sensor < 8))
    ∧ (∃ (a : Adm) (request : Nat) (c : Ctrl) (s : State), (adminOk a s = true) ∧ (s.fe.ctrl? a.ctrl = some c) ∧ (0 < request) ∧ (0 < s.fe.qpFree + c.granted))
    ∧ (∃ (a : Adm) (kinds : List EventKind) (s : State), (adminOk a s = true))
    ∧ (∃ (a : Adm) (kato : Nat) (s : State), (adminOk a s = true) ∧ (kato ≤ 600000))
    ∧ (∃ (a : Adm) (fid : Nat) (s : State), (adminOk a s = true)) :=
  ⟨⟨adm1, served, by decide⟩,
   ⟨adm1, { ctrl1 with queues := [{ queue0 with fetched := 1 }, queue1] }, served, by decide⟩,
   ⟨adm1, served, by decide⟩,
   ⟨adm1, 4, 7, true, ctrl1, served, by decide⟩,
   ⟨adm1, 7, served, by decide⟩,
   ⟨adm1, 7, 900, served, by decide⟩,
   ⟨adm1, 1, ctrl1, served, by decide⟩,
   ⟨adm1, [.logC1], served, by decide⟩,
   ⟨adm1, 600000, served, by decide⟩,
   ⟨adm1, 6, served, by decide⟩⟩

/-- The hypotheses of `Abort_waiting_and_event_commands_complete`, clause by clause, are met. -/
theorem witness_Abort_waiting_and_event_commands_complete :
    (∃ (a : Adm) (sq cid : Nat) (s : State), (adminOk a s = true) ∧ (sq ≠ 0) ∧ (s.cmd? a.ctrl sq cid = none))
    ∧ (∃ (a : Adm) (cid : Nat) (c : Ctrl) (s : State), (adminOk a s = true) ∧ (s.fe.ctrl? a.ctrl = some c) ∧ (cid ∈ c.aers))
    ∧ (∃ (q : Nat × Nat) (c : Cmd) (rest : List Cmd) (s : State), (up s = true) ∧ (s.fe.robin.find? s.mayTake = some q) ∧ (q.2 ≠ 0) ∧ ((s.inPhase .waitContext).filter (fun c => (c.ctrl, c.sq) == q) = c :: rest) ∧ (s.fl.cmds.find? (·.fetch == c.fetch) = some c))
    ∧ (∃ (q : Nat × Nat) (cid : Nat) (s : State), (up s = true) ∧ (s.fe.robin.find? s.mayTake = some q) ∧ (q.2 = 0) ∧ ((s.fe.ctxWait.find? fun w => w.1.1 == q.1 && !w.2) = some ((q.1, cid), false)))
    ∧ (∃ (ctrl sq : Nat) (c : Cmd) (s : State), (up s = true) ∧ ((s.inPhase .heldOrd).filter (fun c => c.ctrl == ctrl && c.sq == sq) = [c]) ∧ (s.fl.cmds.find? (·.fetch == c.fetch) = some c))
    ∧ (∃ (cls : Nat) (r : RateClass) (c : Cmd) (n : Ns) (u : State) (s : State), (s.serving = true) ∧ (s.bt.paused = false) ∧ (s.va.rate[cls]? = some r) ∧ (u = { s with va := { s.va with rate := s.va.rate.set cls { r with usedC := 0, usedB := 0 } } }) ∧ ((s.inPhase .waitRate).filter (fun c => actRate c.action == cls) = [c]) ∧ (u.rateRoom c = true) ∧ (s.fl.cmds.find? (·.fetch == c.fetch) = some c) ∧ (c.phase = .waitRate) ∧ (c.judged = true) ∧ (c.kind.isFlush = false) ∧ (u.sanitizing = false) ∧ (u.fl.curtain = false) ∧ (u.ordHeld c = false) ∧ (u.held c = false) ∧ (u.contextFree c = true) ∧ (u.carrierFor c = none) ∧ (u.check c = .ok (some n)))
    ∧ (∃ (a : Adm) (c : Ctrl) (s : State), (adminOk a s = true) ∧ (s.fe.ctrl? a.ctrl = some c) ∧ (c.raised = []) ∧ (c.aers.length < 16))
    ∧ (∃ (ctrl cid : Nat) (rest : List Nat) (k : EventKind) (c : Ctrl) (s : State), (up s = true) ∧ (s.fe.ctrls = [c]) ∧ (c.cntlid = ctrl) ∧ (c.discovery = false) ∧ (k ∈ c.events) ∧ (k ∉ c.masked) ∧ (c.aers = cid :: rest))
    ∧ (∃ (c : HostCmd) (opcode : Nat) (s : State), (s.serving = true) ∧ (s.fe.hasQueue c.ctrl c.sq = true) ∧ (c.sq ≠ 0) ∧ (opcode < 256) ∧ (ioOpcode opcode c.e = none) ∧ (s.cmd? c.ctrl c.sq c.e.cid = none) ∧ (s.sanitizing = false))
    ∧ (∃ (c : HostCmd) (opcode : Nat) (a : Adm) (s : State), (c.sq = 0) ∧ (opcode < 256) ∧ (opcode ∉ adminOpcodes) ∧ (a = { ctrl := c.ctrl, cid := c.e.cid, nsid := c.e.nsid }) ∧ (adminOk a s = true))
    ∧ (∃ (c : HostCmd) (opcode : Nat) (k : IoKind) (s : State), (c.sq ≠ 0) ∧ (opcode < 256) ∧ (ioOpcode opcode c.e = some k)) :=
  ⟨⟨adm1, 1, 40, served, by decide⟩,
   ⟨adm1, 9, ctrlAer, aerHeld, by decide⟩,
   ⟨(1, 1), waiting .waitContext, [], waits .waitContext, by decide⟩,
   ⟨(1, 0), 3, { served with fe := { served.fe with ctxWait := [((1, 3), false)] } }, by decide⟩,
   ⟨1, 1, waiting .heldOrd, waits .heldOrd, by decide⟩,
   ⟨0, {}, rated, nsOne, ratedWait, ratedWait, by decide⟩,
   ⟨adm1, ctrl1, served, by decide⟩,
   ⟨1, 9, [], .logC1, ctrlAer, aerHeld, by decide⟩,
   ⟨host1cmd, 255, served, by decide⟩,
   ⟨{ host1cmd with sq := 0 }, 255, { adm1 with cid := 7, nsid := 1 }, served, by decide⟩,
   ⟨host1cmd, 0x97, .holdKeyPlace, served, by decide⟩⟩

/-- The hypotheses of `Namespace_and_firmware_commands_complete`, clause by clause, are met. -/
theorem witness_Namespace_and_firmware_commands_complete :
    (∃ (a : Adm) (nsType mode i : Nat) (ty : NsType) (m : SealMode) (s : State), (adminOk a s = true) ∧ (nsTypeOf nsType = some ty) ∧ (sealModeOf ty mode = some m) ∧ (s.lifecycle = .isSealed) ∧ (s.fl.curtain = false) ∧ (s.nsMode ≠ .refused) ∧ (s.va.ns.length < 1024) ∧ (s.freeNsid = some i) ∧ (s.nsMode = .both → s.tw.role = .primary))
    ∧ (∃ (a : Adm) (nsType mode : Nat) (ty : NsType) (m : SealMode) (s : State), (adminOk a s = true) ∧ (nsTypeOf nsType = some ty) ∧ (sealModeOf ty mode = some m) ∧ (s.lifecycle = .isSealed) ∧ (s.fl.curtain = false) ∧ (s.nsMode = .both) ∧ (s.tw.role ≠ .primary) ∧ (s.va.ns.length < 1024))
    ∧ (∃ (a : Adm) (n : Ns) (s : State), (adminOk a s = true) ∧ (s.fl.curtain = false) ∧ (s.nsOf a.nsid = some n) ∧ ((n.type == .ledger && s.ledgerBound n.nsid) = false) ∧ (s.nsMode ≠ .refused) ∧ (s.ky.sweeping n.nsid = false) ∧ (s.nsMode = .both → s.tw.role = .primary))
    ∧ (∃ (a : Adm) (ids : List Nat) (n : Ns) (s : State), (adminOk a s = true) ∧ (s.nsOf a.nsid = some n) ∧ (s.ioCtrls ids = true) ∧ (ids.all (· ∉ n.attached) = true))
    ∧ (∃ (a : Adm) (ids : List Nat) (n : Ns) (s : State), (adminOk a s = true) ∧ (s.nsOf a.nsid = some n) ∧ (s.ioCtrls ids = true) ∧ (ids.all (· ∈ n.attached) = true))
    ∧ (∃ (a : Adm) (offset : Nat) (data : Bytes) (s : State), (adminOk a s = true) ∧ (s.bt.commit = none) ∧ (s.bt.bufferOwner = some a.ctrl ∨ (s.bt.bufferOwner = none ∧ offset = 0)) ∧ (offset + data.length ≤ fwMax) ∧ (offset % 4096 = 0) ∧ (data.length % 4096 = 0))
    ∧ (∃ (a : Adm) (slot i : Nat) (b : Bytes) (s : State), (adminOk a s = true) ∧ (s.bt.commit = none) ∧ (s.bt.slotIndex slot = some i) ∧ (i ≠ s.bt.running) ∧ (s.bt.assembled = some b))
    ∧ (∃ (a : Adm) (slot i : Nat) (b : Bytes) (s : State), (adminOk a s = true) ∧ (s.bt.commit = none) ∧ (s.bt.slotIndex slot = some i) ∧ (i ≠ s.bt.running) ∧ (s.bt.assembled = some b))
    ∧ (∃ (a : Adm) (slot i : Nat) (s : State), (adminOk a s = true) ∧ (s.bt.commit = none) ∧ (s.bt.slotIndex slot = some i) ∧ (i ≠ s.bt.running) ∧ ((s.bt.slotImage i).isSome = true) ∧ (s.bt.passes i = true))
    ∧ (∃ (a : Adm) (slot i : Nat) (b : Bytes) (s : State), (adminOk a s = true) ∧ (s.bt.commit = none) ∧ (s.bt.slotIndex slot = some i) ∧ (i ≠ s.bt.running) ∧ (s.bt.assembled = some b) ∧ (s.paired = false))
    ∧ (∃ (c k i : Nat) (s : State), (s.serving = true) ∧ (s.bt.paused = false) ∧ (s.bt.commit = some (c, k, i)) ∧ (s.mb.boxes.all (fun b => !b.working) = true))
    ∧ (∃ (c k i : Nat) (g : FwImage) (s : State), (s.serving = true) ∧ (s.bt.paused = true) ∧ (s.bt.commit = some (c, k, i)) ∧ (s.bt.slotImage i = some g) ∧ (s.me.anyRuns = false) ∧ (s.fl.cmds = []) ∧ (s.fe.hasQueue c 0 = true))
    ∧ (∃ (c k i : Nat) (s : State), (s.serving = true) ∧ (s.bt.paused = true) ∧ (s.bt.commit = some (c, k, i)) ∧ (s.fl.cmds = []) ∧ (s.fe.hasQueue c 0 = true))
    ∧ (∃ (i : Nat) (s : State), (s.serving = true) ∧ (s.bt.activated = some i)) :=
  ⟨⟨adm1, 2, 1, 2, .mirror, .xts, sealedUp, by decide⟩,
   ⟨adm1, 2, 1, .mirror, .xts, { sealedUp with tw := { sealedUp.tw with role := .secondary, reached := true } }, by decide⟩,
   ⟨admNs1, nsOne, sealedUp, by decide⟩,
   ⟨admNs1, [2], nsOne, twoCtrls, by decide⟩,
   ⟨admNs1, [1], nsOne, twoCtrls, by decide⟩,
   ⟨adm1, 0, [], served, by decide⟩,
   ⟨adm1, 2, 1, [], served, by and_intros <;> first | decide | simp [Boot.assembled, served, State.reset]⟩,
   ⟨adm1, 2, 1, [], served, by and_intros <;> first | decide | simp [Boot.assembled, served, State.reset]⟩,
   ⟨adm1, 2, 1, twoImages, by decide⟩,
   ⟨adm1, 2, 1, [], served, by and_intros <;> first | decide | simp [Boot.assembled, served, State.reset]⟩,
   ⟨1, 3, 1, activating, by decide⟩,
   ⟨1, 3, 1, imageOne, pausing, by decide⟩,
   ⟨1, 3, 1, pausing, by decide⟩,
   ⟨1, confirming, by decide⟩⟩

/-- The hypotheses of `Self_test_sanitize_and_power_commands_complete`, clause by clause, are met. -/
theorem witness_Self_test_sanitize_and_power_commands_complete :
    (∃ (a : Adm) (s : State), (adminOk a s = true) ∧ (s.stt.running = none))
    ∧ (∃ (a : Adm) (s : State), (adminOk a s = true) ∧ (s.stt.running = none))
    ∧ (∃ (a : Adm) (r : SelfTest) (s : State), (adminOk a s = true) ∧ (s.stt.running = some r))
    ∧ (∃ (failed : Option Nat) (r : SelfTest) (s : State), (up s = true) ∧ (s.stt.running = some r) ∧ (r.suspended = false))
    ∧ (∃ (a : Adm) (s : State), (adminOk a s = true) ∧ ((s.va.ns.any fun n => n.type == .ledger && s.ledgerBound n.nsid) = false) ∧ (s.fl.cmds = []) ∧ (s.og.fills = []))
    ∧ (∃ (a : Adm) (s : State), (adminOk a s = true) ∧ ((s.va.ns.any fun n => n.type == .ledger && s.ledgerBound n.nsid) = false) ∧ (s.fl.cmds = []) ∧ (s.og.fills = []))
    ∧ (∃ (s : State), (up s = true) ∧ (s.fl.sanitize ≠ 0) ∧ (s.fe.jobs.any (·.what == 2) = false))
    ∧ (∃ (a : Adm) (ps : Nat) (s : State), (adminOk a s = true) ∧ (s.psRefused ps = false) ∧ (ps ≤ 2) ∧ (s.pw.critical = false) ∧ (s.fe.jobs.any (·.what == 1) = false))
    ∧ (∃ (a : Adm) (s : State), (adminOk a s = true) ∧ (s.psRefused 3 = false) ∧ (s.fl.cmds = []) ∧ (s.fe.jobs = []) ∧ (s.pw.critical = false) ∧ (s.pw.overdueWork = false)) :=
  ⟨⟨adm1, served, by decide⟩,
   ⟨adm1, served, by decide⟩,
   ⟨adm1, testOne, testing, by decide⟩,
   ⟨some 6, testOne, testing, by decide⟩,
   ⟨adm1, served, by decide⟩,
   ⟨adm1, served, by decide⟩,
   ⟨sanitizingNow, by decide⟩,
   ⟨adm1, 2, served, by decide⟩,
   ⟨adm1, sealedUp, by decide⟩⟩

/-- The hypotheses of `Mailbox_commands_complete`, clause by clause, are met. -/
theorem witness_Mailbox_commands_complete :
    (∃ (a : Adm) (mbox msgLen : Nat) (m : RawMsg) (s : State), (adminOk a s = true) ∧ (mbox ≤ 7) ∧ (32 ≤ msgLen) ∧ (msgLen ≤ 4128) ∧ (s.mb.boxes.length = 16) ∧ (s.takes mbox a.ctrl = true))
    ∧ (∃ (a : Adm) (mbox bufSize : Nat) (r : Reply) (rest : List Reply) (s : State), (adminOk a s = true) ∧ (mbox ≤ 7) ∧ (4128 ≤ bufSize) ∧ (s.mb.boxes.length = 16) ∧ ((s.box mbox).replies = r :: rest) ∧ ((s.box mbox).owned = true) ∧ ((s.box mbox).owner = a.ctrl))
    ∧ (∃ (mbox src : Nat) (m : Option RawMsg) (s : State), (s.takesPosts mbox = true) ∧ (mbox = 14 ∨ mbox = 15) ∧ (s.mb.boxes.length = 16) ∧ (s.takes mbox src = true))
    ∧ (∃ (mbox : Nat) (r : Reply) (rest : List Reply) (s : State), (s.takesPosts mbox = true) ∧ (mbox < 16) ∧ (s.mb.boxes.length = 16) ∧ ((s.box mbox).replies = r :: rest))
    ∧ (∃ (mbox cls op : Nat) (bad : Bool) (m : MsgReq) (rest : List (MsgReq × Nat × Nat × Bool)) (u : State) (s : State), (s.takesPosts mbox = true) ∧ (s.bt.paused = false) ∧ ((s.box mbox).queue = (m, cls, op, bad) :: rest) ∧ ((s.box mbox).working = false) ∧ (u = (s.modBox mbox fun b => { b with queue := rest }).carryOut m cls op bad))
    ∧ (∃ (mbox : Nat) (s : State), (up s = true) ∧ (mbox < s.mb.boxes.length))
    ∧ (∃ (h : ChainHdr) (m : RawMsg) (s : State), (s.hears h = true) ∧ (s.managed = true) ∧ (m.flags % 2 = 0) ∧ (s.mb.boxes.length = 16) ∧ (s.takes 12 h.src = true))
    ∧ (∃ (h : ChainHdr) (m : RawMsg) (v : WitnessView) (s : State), (s.hears h = true) ∧ (s.managed = true) ∧ (m.flags % 2 = 1) ∧ (s.mb.boxes.length = 16) ∧ (s.watches = true) ∧ (m.cls = 6) ∧ (m.op = 6) ∧ (m.status = 0) ∧ (s.sk.views.find? (·.pos == h.src) = some v))
    ∧ (∃ (eid mbox tag : Nat) (m : RawMsg) (s : State), (s.mb.endpoint = true) ∧ (s.pw.phase = .serving) ∧ (8 ≤ mbox) ∧ (mbox ≤ 11) ∧ (s.mb.boxes.length = 16) ∧ (s.takes mbox eid = true))
    ∧ (∃ (e : NewEid) (s : State), (s.mb.endpoint = true) ∧ (s.pw.phase ≠ .frozen) ∧ (s.pw.phase ≠ .b0Failed) ∧ (8 ≤ e.eid) ∧ (e.eid ≤ 254)) :=
  ⟨⟨adm1, 7, 4128, raw1, served, by decide⟩,
   ⟨adm1, 7, 4128, reply1, [], replied 7, by decide⟩,
   ⟨15, 0, some raw1, served, by decide⟩,
   ⟨14, reply1, [], replied 14, by decide⟩,
   ⟨15, 0x0E, 0x03, false, msg [], [], (queued.modBox 15 fun b => { b with queue := [] }).carryOut (msg []) 0x0E 0x03 false, queued, ⟨by decide, by decide, by decide, by decide, rfl⟩⟩,
   ⟨15, served, by decide⟩,
   ⟨peerHdr, raw1, stacked, by decide⟩,
   ⟨peerHdr, { cls := 6, op := 6, len := 0, flags := 1 }, viewOne, polling, by decide⟩,
   ⟨9, 11, 7, raw1, endpointUp, by decide⟩,
   ⟨⟨254, true⟩, endpointUp, by decide⟩⟩

/-- The hypotheses of `NVMe_MI_commands_complete`, clause by clause, are met. -/
theorem witness_NVMe_MI_commands_complete :
    (∃ (eid dtype : Nat) (s : State), (s.mb.endpoint = true) ∧ (s.pw.phase = .serving))
    ∧ (∃ (eid : Nat) (s : State), (s.mb.endpoint = true) ∧ (s.pw.phase = .serving))
    ∧ (∃ (eid : Nat) (s : State), (s.mb.endpoint = true) ∧ (s.pw.phase = .serving))
    ∧ (∃ (eid : Nat) (s : State), (s.mb.endpoint = true) ∧ (s.pw.phase = .serving))
    ∧ (∃ (eid value : Nat) (s : State), (s.mb.endpoint = true) ∧ (s.pw.phase = .serving) ∧ (value = 64 ∨ (s.mb.smbus = false ∧ (value = 128 ∨ value = 256))))
    ∧ (∃ (eid offset len : Nat) (s : State), (s.mb.endpoint = true) ∧ (s.pw.phase = .serving))
    ∧ (∃ (eid : Nat) (s : State), (s.mb.endpoint = true) ∧ (s.pw.phase = .serving) ∧ (s.bt.paused = false))
    ∧ (∃ (a : Adm) (s : State), (adminOk a s = true))
    ∧ (∃ (a : Adm) (len : Nat) (body : Bytes) (rest : List (Nat × Bytes)) (s : State), (adminOk a s = true) ∧ (s.fe.miReplies = (a.ctrl, body) :: rest)) :=
  ⟨⟨9, 0, endpointUp, by decide⟩,
   ⟨9, endpointUp, by decide⟩,
   ⟨9, endpointUp, by decide⟩,
   ⟨9, endpointUp, by decide⟩,
   ⟨9, 256, endpointUp, by decide⟩,
   ⟨9, 0, 0, endpointUp, by decide⟩,
   ⟨9, endpointUp, by decide⟩,
   ⟨adm1, endpointUp, by decide⟩,
   ⟨adm1, 4, [0, 1], [], miKept, by decide⟩⟩

/-- The hypotheses of `Reading_IO_commands_complete`, clause by clause, are met. -/
theorem witness_Reading_IO_commands_complete :
    (∃ (h : HostCmd) (n : Ns) (s : State), (ioPasses .flush h n s = true) ∧ ((s.va.ns.filter fun x => x.nsid == h.e.nsid && x.level == some .async) = []))
    ∧ (∃ (h : HostCmd) (n : Ns) (a : ActWord) (f : Found) (g : Nat) (s : State), (ioAllowed .retrieve h n a s = true) ∧ (n.type ≠ .mirror) ∧ (s.find n.nsid (keyFor .retrieve h) = some f) ∧ (f.slot.loc = .wax g) ∧ ((decide (g ∈ s.wx.bad) && !s.copyValid g f.record.granules) = false))
    ∧ (∃ (h : HostCmd) (n : Ns) (a : ActWord) (f : Found) (g : Nat) (s : State), (ioAllowed .longRetrieve h n a s = true) ∧ (n.type ≠ .mirror) ∧ (s.find n.nsid (keyFor .longRetrieve h) = some f) ∧ (f.slot.loc = .wax g) ∧ ((decide (g ∈ s.wx.bad) && !s.copyValid g f.record.granules) = false))
    ∧ (∃ (h : HostCmd) (n : Ns) (a : ActWord) (ks : List Key) (s : State), (ioAllowed .list h n a s = true) ∧ (ks = fitEntries listEntry ((fieldsOf .list h.e).bufSize - 4) (s.listFrom h.e.nsid (keyFor .list h) 16)))
    ∧ (∃ (h : HostCmd) (n : Ns) (a : ActWord) (s : State), (ioAllowed .exist h n a s = true))
    ∧ (∃ (h : HostCmd) (n : Ns) (a : ActWord) (s : State), (ioAllowed .longExist h n a s = true))
    ∧ (∃ (h : HostCmd) (n : Ns) (a : ActWord) (all ks : List Key) (s : State), (ioAllowed .filteredList h n a s = true) ∧ ((fieldsOf .filteredList h.e).progId = 0) ∧ (all = s.listFrom h.e.nsid (keyFor .filteredList h) 240) ∧ (ks = fitEntries flEntry ((fieldsOf .filteredList h.e).bufSize - 8) all))
    ∧ (∃ (h : HostCmd) (n : Ns) (a : ActWord) (e : ClosedEpoch) (l : Leaf) (g : Bytes × Bytes) (s : State), (ioAllowed .getReceipt h n a s = true) ∧ (s.ky.store.find? (·.number == (fieldsOf .getReceipt h.e).epoch) = some e) ∧ (e.leaves[(fieldsOf .getReceipt h.e).leaf]? = some l) ∧ (e.sigs = some g) ∧ (l.nsid = h.e.nsid) ∧ (l.key = keyFor .getReceipt h) ∧ (s.wx.pend.any (·.seq == l.seq) = false)) :=
  ⟨⟨cmdOf { cid := 7, nsid := 1 }, nsOne, policed, by decide⟩,
   ⟨cmdOf (shortSqe 4), nsOne, 0x8000, foundOne, 0, holding, ⟨by decide, by decide, holding_find, by decide, by decide⟩⟩,
   ⟨cmdOf (longSqe 4), nsOne, 0x8000, foundOne, 0, holding, ⟨by decide, by decide, holding_find, by decide, by decide⟩⟩,
   ⟨cmdOf (shortSqe 64), nsOne, 0x8000, fitEntries listEntry 60 (policed.listFrom 1 [7] 16), policed, ⟨by decide, rfl⟩⟩,
   ⟨cmdOf (shortSqe 0), nsOne, 0x8000, holding, by decide⟩,
   ⟨cmdOf (longSqe 0), nsOne, 0x8000, holding, by decide⟩,
   ⟨cmdOf (longSqe 252), nsOne, 0x8000, policed.listFrom 1 [7] 240, fitEntries flEntry 244 (policed.listFrom 1 [7] 240), policed, ⟨by decide, by decide, rfl, rfl⟩⟩,
   ⟨receiptCmd, nsOne, 0x8000, epochOne, leafOne, ([], []), receipted, by decide⟩⟩

/-- The hypotheses of `Storing_IO_commands_complete`, clause by clause, are met. -/
theorem witness_Storing_IO_commands_complete :
    (∃ (h : HostCmd) (n : Ns) (a : ActWord) (g : Nat) (s : State), (ioAllowed .store h n a s = true) ∧ (s.isPending n.nsid (keyFor .store h) = false) ∧ (s.storeCheck n (keyFor .store h) (fieldsOf .store h.e).ifExists (fieldsOf .store h.e).ifAbsent = none) ∧ (s.capacityRefuses n.nsid (keyFor .store h) (32 * recGranules n.mode (keyFor .store h).length h.e.cdw10.toNat) = false) ∧ (s.lagHolds n ((keyFor .store h).length + h.e.cdw10.toNat) = false) ∧ (leafWanted n a = true → s.hashLanes < 16) ∧ (s.wx.waiters = []) ∧ ((s.reserve (recGranules n.mode (keyFor .store h).length h.e.cdw10.toNat) false).2 = some g))
    ∧ (∃ (h : HostCmd) (n : Ns) (a : ActWord) (g : Nat) (s : State), (ioAllowed .longStore h n a s = true) ∧ (s.isPending n.nsid (keyFor .longStore h) = false) ∧ (s.storeCheck n (keyFor .longStore h) (fieldsOf .longStore h.e).ifExists (fieldsOf .longStore h.e).ifAbsent = none) ∧ (s.capacityRefuses n.nsid (keyFor .longStore h) (32 * recGranules n.mode (keyFor .longStore h).length h.e.cdw10.toNat) = false) ∧ (s.lagHolds n ((keyFor .longStore h).length + h.e.cdw10.toNat) = false) ∧ (leafWanted n a = true → s.hashLanes < 16) ∧ (s.wx.waiters = []) ∧ ((s.reserve (recGranules n.mode (keyFor .longStore h).length h.e.cdw10.toNat) false).2 = some g))
    ∧ (∃ (ctrl sq cid g : Nat) (c : Cmd) (n : Ns) (s : State), (up s = true) ∧ (s.cmd? ctrl sq cid = some c) ∧ (c.granule = some g) ∧ (s.nsOf c.e.nsid = some n) ∧ (c.phase = .intake) ∧ (c.kind.isStore = true) ∧ (c.seq = none) ∧ (c.got.length = c.e.cdw10.toNat) ∧ (c.forwardedFrom = none) ∧ (s.fe.hasQueue c.ctrl c.sq = true) ∧ (s.isPending n.nsid c.key = false) ∧ (s.storeCheck n c.key (fieldsOf c.kind c.e).ifExists (fieldsOf c.kind c.e).ifAbsent = none) ∧ (s.find n.nsid c.key = none) ∧ (n.writeLevel = .loc) ∧ (leafWanted n c.action = false) ∧ (roomFor c.key s = true) ∧ (s.journalWaits = false) ∧ (s.keyLimit n.nsid c.key = false) ∧ (s.ix.points (.wax g) = false) ∧ (c.keyGen = s.currentGen n.nsid))
    ∧ (∃ (h : HostCmd) (n : Ns) (a : ActWord) (s : State), (ioAllowed .delete h n a s = true) ∧ (s.isPending n.nsid (keyFor .delete h) = false) ∧ (n.type ≠ .ledger) ∧ (s.present n.nsid (keyFor .delete h) = true) ∧ (n.writeLevel = .loc) ∧ (roomFor (keyFor .delete h) s = true))
    ∧ (∃ (h : HostCmd) (n : Ns) (a : ActWord) (s : State), (ioAllowed .longDelete h n a s = true) ∧ (s.isPending n.nsid (keyFor .longDelete h) = false) ∧ (n.type ≠ .ledger) ∧ (s.present n.nsid (keyFor .longDelete h) = true) ∧ (n.writeLevel = .loc) ∧ (roomFor (keyFor .longDelete h) s = true))
    ∧ (∃ (h : HostCmd) (n : Ns) (a : ActWord) (i : Nat) (s : State), (ioAllowed .secureDelete h n a s = true) ∧ (s.isPending n.nsid (keyFor .secureDelete h) = false) ∧ (n.type ≠ .ledger) ∧ (s.present n.nsid (keyFor .secureDelete h) = true) ∧ (n.writeLevel = .loc) ∧ (roomFor (keyFor .secureDelete h) s = true) ∧ (64 ≤ s.fl.c1Free) ∧ (s.c1Slot = some i)) :=
  ⟨⟨cmdOf (shortSqe 4), nsOne, 0x8000, 0, policed, by decide⟩,
   ⟨cmdOf (longSqe 4), nsOne, 0x8000, 0, policed, by decide⟩,
   ⟨1, 1, 7, 0, takenStore, nsOne, taken, by decide⟩,
   ⟨cmdOf (shortSqe 0), nsOne, 0x8000, holding, ⟨by decide, by decide, by decide, holding_present, by decide, by decide⟩⟩,
   ⟨cmdOf (longSqe 0), nsOne, 0x8000, holding, ⟨by decide, by decide, by decide, holding_present, by decide, by decide⟩⟩,
   ⟨cmdOf (longSqe 0), nsOne, 0x8000, 0, holding, ⟨by decide, by decide, by decide, holding_present, by decide, by decide, by decide, by decide⟩⟩⟩

/-- The hypotheses of `Retention_hold_commands_complete`, clause by clause, are met. -/
theorem witness_Retention_hold_commands_complete :
    (∃ (h : HostCmd) (n : Ns) (a : ActWord) (f : Found) (s : State), (ioAllowed .holdKeyPlace h n a s = true) ∧ (s.isPending n.nsid (keyFor .holdKeyPlace h) = false) ∧ (s.find n.nsid (keyFor .holdKeyPlace h) = some f) ∧ (s.holdDecision n (asCmd .holdKeyPlace h s) = none) ∧ (n.writeLevel = .loc) ∧ (roomFor (keyFor .holdKeyPlace h) s = true))
    ∧ (∃ (h : HostCmd) (n : Ns) (a : ActWord) (f : Found) (s : State), (ioAllowed .holdKeyRelease h n a s = true) ∧ (s.isPending n.nsid (keyFor .holdKeyRelease h) = false) ∧ (s.find n.nsid (keyFor .holdKeyRelease h) = some f) ∧ (s.holdDecision n (asCmd .holdKeyRelease h s) = none) ∧ (n.writeLevel = .loc) ∧ (roomFor (keyFor .holdKeyRelease h) s = true))
    ∧ (∃ (h : HostCmd) (n : Ns) (a : ActWord) (s : State), (ioAllowed .holdNsPlace h n a s = true) ∧ ((fieldsOf .holdNsPlace h.e).tag ∉ n.tags) ∧ (n.tags.length < 16) ∧ (n.writeLevel = .loc) ∧ (roomFor (keyFor .holdNsPlace h) s = true))
    ∧ (∃ (h : HostCmd) (n : Ns) (a : ActWord) (s : State), (ioAllowed .holdNsRelease h n a s = true) ∧ ((fieldsOf .holdNsRelease h.e).tag ∈ n.tags) ∧ (n.writeLevel = .loc) ∧ (roomFor (keyFor .holdNsRelease h) s = true))
    ∧ (∃ (k : IoKind) (h : HostCmd) (n : Ns) (a : ActWord) (s : State), (k.isHold = true) ∧ (ioAllowed k h n a s = true) ∧ (k.nsHold = true ∨ s.isPending n.nsid (keyFor k h) = false) ∧ (s.holdDecision n (asCmd k h s) = some .success)) :=
  ⟨⟨holdCmd 0, nsLedger, 0x8000, foundOne, ledgered, ⟨by decide, by decide, ledgered_find, ledgered_decides, by decide, by decide⟩⟩,
   ⟨holdCmd 512, nsLedger, 0x8000, foundOne, heldKey, ⟨by decide, by decide, heldKey_find, heldKey_decides, by decide, by decide⟩⟩,
   ⟨nsHoldCmd 256, nsLedger, 0x8000, ledgered, by decide⟩,
   ⟨nsHoldCmd 768, { nsLedger with tags := [3] }, 0x8000, heldNs, by decide⟩,
   ⟨.holdNsPlace, nsHoldCmd 256, { nsLedger with tags := [3] }, 0x8000, heldNs, by decide⟩⟩

/-- The hypotheses of `Write_path_events_complete`, clause by clause, are met. -/
theorem witness_Write_path_events_complete :
    (∃ (x : Nat) (rest : List Waiter) (c : Cmd) (ns : Ns) (u : State) (s : State), (up s = true) ∧ (s.wx.waiters.filter s.liveWaiter = .store x :: rest) ∧ (s.fl.cmds.find? (·.fetch == x) = some c) ∧ (s.nsOf c.e.nsid = some ns) ∧ (u = s.intake c ns true) ∧ ((u.fl.cmds.find? (·.fetch == x)).any (·.phase == .waitStaging) = false))
    ∧ (∃ (c : Cmd) (rest : List Cmd) (s : State), (up s = true) ∧ (s.inPhase .waitHash = c :: rest) ∧ (s.hashLanes < 16))
    ∧ (∃ (c : Cmd) (s : State), (up s = true) ∧ (s.inPhase .waitJournal = [c]) ∧ (s.journalRoom (s.waitBlocks c) = true))
    ∧ (∃ (seq : Nat) (s : State), (up s = true) ∧ (s.paired = true) ∧ (seq ∈ s.wx.unacked) ∧ (s.wx.pend = []) ∧ (s.inPhase .waitFlush = []))
    ∧ (∃ (s : State), (up s = true) ∧ (s.wx.ackWritten < s.wx.acked) ∧ (s.journalRoom 1 = true))
    ∧ (∃ (s : State), (s.serving = true) ∧ (Figure.journalBlocks < 2 * s.wx.journalUsed ∨ s.wx.condensing = true) ∧ (s.ix.deltas + s.condensable.length < 1000000000) ∧ (s.ix.checkpointing = none) ∧ (s.condensable = [] ∨ (s.placeInternal ((List.range ((s.condensable.length + 255) / 256)).map fun i => .delta (s.wx.ctlGen + 1) i)).md.intWaits = []))
    ∧ (∃ (s : State), (s.serving = true) ∧ (Figure.journalBlocks < 2 * s.wx.journalUsed ∨ s.wx.condensing = true) ∧ (s.condensable ≠ []) ∧ ((s.placeInternal ((List.range ((s.condensable.length + 255) / 256)).map fun i => .delta (s.wx.ctlGen + 1) i)).md.intWaits ≠ []))
    ∧ (∃ (s : State), (s.serving = true))
    ∧ (∃ (p g : Nat) (b : Band) (s : State), (s.serving = true) ∧ (s.md.intWaits = []) ∧ (s.md.ecDirty = []) ∧ (s.ix.dirtyPages = [p]) ∧ (s.ix.spillCache = []) ∧ (s.md.openOf .fineInternal = some b) ∧ (b.nextInternal = some g))
    ∧ (∃ (g a : Nat) (r : StoredRec) (s : State), (up s = true) ∧ (s.stagedAt g = some (a, r)) ∧ (s.copyValid a r.granules = true))
    ∧ (∃ (package : Nat) (s : State), (up s = true) ∧ (package < 8))
    ∧ (∃ (package : Nat) (s : State), (up s = true) ∧ (package < 8) ∧ (s.tw.repairs = []) ∧ (s.wx.losses = []) ∧ (s.wx.staged = []))
    ∧ (∃ (package : Nat) (s : State), (up s = true) ∧ (package < 8) ∧ (s.tw.repairs.any (·.2.2 == 1) = true)) :=
  ⟨⟨0, [], stagedWaiter, nsOne, stagingWait.intake stagedWaiter nsOne true, stagingWait, ⟨by decide, by decide, by decide, by decide, rfl, by decide⟩⟩,
   ⟨waiting .waitHash, [], waits .waitHash, by decide⟩,
   ⟨waiting .waitJournal, waits .waitJournal, by decide⟩,
   ⟨4, unackedOne, by decide⟩,
   ⟨ackAdvanced, by decide⟩,
   ⟨condensing_, by decide⟩,
   ⟨noSlotFree, by decide⟩,
   ⟨served, by decide⟩,
   ⟨4, _, _, checkpointing, ⟨by decide, by decide, by decide, rfl, rfl, rfl, rfl⟩⟩,
   ⟨1, 0, recOne, copied, by decide⟩,
   ⟨7, served, by decide⟩,
   ⟨7, served, by decide⟩,
   ⟨7, failing_, by decide⟩⟩

/-- The hypotheses of `Packing_and_band_commands_complete`, clause by clause, are met. -/
theorem witness_Packing_and_band_commands_complete :
    (∃ (g naddr : Nat) (r : StoredRec) (u : State) (s : State), (s.mediaWork = true) ∧ (naddr < 2 ^ 42) ∧ (s.wx.staged.lookup g = some r) ∧ (s.packs g r = true) ∧ (s.packTurn g (s.packStream g r) = true) ∧ (s.journalRoom 1 = true) ∧ (s.land (s.packStream g r) naddr (s.reseal r) = some u))
    ∧ (∃ (kind : StreamKind) (b : Band) (s : State), (s.mediaWork = true) ∧ (s.md.openOf kind = some b) ∧ (unitUp b.unit b.fill ≠ b.fill))
    ∧ (∃ (band : Nat) (b : Band) (s : State), (s.mediaWork = true) ∧ (s.md.band? band = some b) ∧ (b.state = 1) ∧ (b.checked = false))
    ∧ (∃ (band : Nat) (b : Band) (s : State), (s.mediaWork = true) ∧ (s.md.band? band = some b) ∧ (b.state ≠ 1))
    ∧ (∃ (band : Nat) (b : Band) (s : State), (s.mediaWork = true) ∧ (s.md.bands = [b]) ∧ (b.number = band) ∧ (b.state = 2) ∧ (s.md.secdel = []) ∧ (b.members.any (fun x => (s.md.set x).retired) = false) ∧ (b.failed = []) ∧ (s.md.intWaits = []))
    ∧ (∃ (band p : Nat) (b : Band) (s : State), (s.mediaWork = true) ∧ (s.md.band? band = some b) ∧ (b.state = 2) ∧ (p < b.pageCount) ∧ (p ∉ b.failed) ∧ (17 < s.md.err.length))
    ∧ (∃ (b : Band) (s : State), (s.mediaWork = true) ∧ (s.md.gcMode ≠ 0) ∧ (s.bestVictim = some b))
    ∧ (∃ (src dst : Nat) (r : StoredRec) (sl : Slot) (u : State) (s : State), (s.mediaWork = true) ∧ (dst < 2 ^ 42) ∧ (src ≠ dst) ∧ (s.md.nand.lookup src = some r) ∧ (s.journalRoom 1 = true) ∧ (s.ix.slotFor (.nand src) = some sl) ∧ (s.land (s.copyStream src sl.fine) dst (if s.rotates src r then s.reseal r else r) = some u))
    ∧ (∃ (band : Nat) (b : Band) (s : State), (s.mediaWork = true) ∧ (s.md.band? band = some b) ∧ (b.state = 5) ∧ (s.md.secdel = []) ∧ (b.members.all (fun x => decide ((s.md.set x).erases < 2999)) = true) ∧ (b.members.Nodup)) :=
  ⟨⟨0, 2 ^ 32, recOne, _, landing, ⟨by decide, by decide, by decide, by decide, by decide, by decide, (Option.some_get landing_lands).symm⟩⟩,
   ⟨.hostCold, { bandOne 1 with fill := 1000 }, padding, by decide⟩,
   ⟨0, bandOne 1, banded 1, by decide⟩,
   ⟨0, bandOne 2, banded 2, by decide⟩,
   ⟨0, { bandOne 2 with checked := true }, { served with md := { served.md with bands := [{ bandOne 2 with checked := true }] } }, by decide⟩,
   ⟨0, 1, bandOne 2, banded 2, by decide⟩,
   ⟨bandOne 3, { banded 3 with md := { (banded 3).md with gcMode := 1 } }, by decide⟩,
   ⟨0, 2 ^ 38, recOne, slotNand, _, copying, ⟨by decide, by decide, by decide, by decide, by decide, copying_slot, (Option.some_get copying_lands).symm⟩⟩,
   ⟨0, bandOne 5, banded 5, by decide⟩⟩

/-- The hypotheses of `Media_health_and_wear_events_complete`, clause by clause, are met. -/
theorem witness_Media_health_and_wear_events_complete :
    (∃ (band channel : Nat) (b : Band) (x : Nat × Nat × Nat) (s : State), (s.mediaWork = true) ∧ (s.md.band? band = some b) ∧ (b.state = 5) ∧ (b.member channel = some x) ∧ ((s.md.set x).retired = false) ∧ (s.md.dieServes x = true) ∧ ((s.md.modSet x fun y => { y with retired := true }).blocks.countP (fun p => p.1.1 == x.1 && p.1.2.1 == x.2.1 && p.2.retired) < 128))
    ∧ (∃ (band channel die block : Nat) (b : Band) (x : Nat × Nat × Nat) (s : State), (s.mediaWork = true) ∧ (s.md.band? band = some b) ∧ (b.state = 1 ∨ b.state = 2) ∧ (b.member channel = some x) ∧ (die < 32) ∧ (block < 2048) ∧ (s.md.freeSet (channel, die, block) = true) ∧ ((s.md.set x).retired = false) ∧ (s.md.dieServes x = true) ∧ ((s.md.modSet x fun y => { y with retired := true }).blocks.countP (fun p => p.1.1 == x.1 && p.1.2.1 == x.2.1 && p.2.retired) < 128) ∧ (s.journalRoom (s.md.nand.countP fun p => naMember p.1 == x) = true))
    ∧ (∃ (s : State), (s.mediaWork = true))
    ∧ (∃ (s : State), (s.mediaWork = true) ∧ (s.wearVictim = none))
    ∧ (∃ (s : State), (up s = true) ∧ (s.pw.powerOnS / 3600 < 105192))
    ∧ (∃ (needed : Nat) (s : State), (up s = true) ∧ (s.md.bank < needed) ∧ (s.md.bankEmpty = false))
    ∧ (∃ (s : State), (up s = true) ∧ (s.md.bankEmpty = true) ∧ (67109152 ≤ s.md.bank))
    ∧ (∃ (band page k stage a z : Nat) (b : Band) (s : State), (s.mediaWork = true) ∧ ((s.md.bands.map (·.number)).Nodup) ∧ (s.md.band? band = some b) ∧ (b.state = 3) ∧ (s.md.patrolTurn b = true) ∧ (a ≤ b.read) ∧ (a ≤ page) ∧ (page ≤ z) ∧ (z < b.pageCount) ∧ (k < 4) ∧ (2 ≤ stage) ∧ (stage ≤ 5) ∧ (s.md.bands.any (fun x => x.state == 3 && x.number != band && decide (x.read < x.pageCount)) = true) ∧ ((b.membersOn page page).Nodup) ∧ ((b.membersOn page page).all (fun x => (s.md.set x).patrol == []) = true))
    ∧ (∃ (band a z : Nat) (b : Band) (s : State), (s.mediaWork = true) ∧ ((s.md.bands.map (·.number)).Nodup) ∧ (s.md.band? band = some b) ∧ (b.state = 3) ∧ (s.md.patrolTurn b = true) ∧ (a ≤ b.read) ∧ (a ≤ z) ∧ (z < b.pageCount) ∧ (s.md.bands.any (fun x => x.state == 3 && x.number != band && decide (x.read < x.pageCount)) = true))
    ∧ (∃ (channel die : Nat) (s : State), (up s = true) ∧ (channel < 16) ∧ (die < 32) ∧ ((channel, die) ∉ s.md.diesLost))
    ∧ (∃ (ctrl sq cid g : Nat) (c : Cmd) (f : Found) (s : State), (up s = true) ∧ (s.cmd? ctrl sq cid = some c) ∧ (c.phase = .waitMedia) ∧ (c.loc = some (.nand g)) ∧ (s.find c.e.nsid c.key = some f) ∧ (f.slot.loc = .nand g) ∧ (g ∉ s.md.badNand) ∧ (c.granule = none) ∧ (c.forwardedFrom = none) ∧ (s.fe.hasQueue c.ctrl c.sq = true))
    ∧ (∃ (ctrl sq cid g : Nat) (c : Cmd) (s : State), (up s = true) ∧ (s.cmd? ctrl sq cid = some c) ∧ (c.phase = .waitMedia ∨ c.phase = .waitTwinRepair) ∧ (c.loc = some (.nand g)) ∧ (c.granule = none) ∧ (c.forwardedFrom = none) ∧ (s.fe.hasQueue c.ctrl c.sq = true))
    ∧ (∃ (slot : Nat) (s : State), (up s = true))
    ∧ (∃ (slot : Nat) (s : State), (up s = true) ∧ (s.md.secdel.any (fun j => j.slot == some slot && !j.overdue) = true)) :=
  ⟨⟨0, 0, bandOne 5, (0, 0, 0), banded 5, by decide⟩,
   ⟨0, 0, 31, 2047, bandOne 1, (0, 0, 0), banded 1, by decide⟩,
   ⟨{ banded 3 with md := { (banded 3).md with gcMode := 1 } }, by decide⟩,
   ⟨served, by decide⟩,
   ⟨served, by decide⟩,
   ⟨1, served, by decide⟩,
   ⟨refilled, by decide⟩,
   ⟨0, 1, 2, 3, 0, 1, bandOne 3, twoBands, by decide⟩,
   ⟨0, 0, 1, bandOne 3, twoBands, by decide⟩,
   ⟨15, 31, served, by decide⟩,
   ⟨1, 1, 7, 0, readingCmd, foundNand, reading, by and_intros <;> first | decide | exact reading_find⟩,
   ⟨1, 1, 7, 0, readingCmd, reading, by decide⟩,
   ⟨0, served, by decide⟩,
   ⟨0, removing, by decide⟩⟩

/-- The hypotheses of `A_start_runs_the_boot_steps`, clause by clause, are met. -/
theorem witness_A_start_runs_the_boot_steps :
    (∃ (env : BootEnv) (s : State), (s.pw.phase = .ready) ∧ (s.pw.ready = true) ∧ (s.bt.ledgerWax = none) ∧ (env.ledgerWritable = true))
    ∧ (∃ (env : BootEnv) (s : State), (s.pw.phase = .ready) ∧ (s.pw.ready = true) ∧ (s.bt.ledger = []) ∧ (s.bt.ledgerWax = none) ∧ (s.bt.pilot = 0) ∧ (s.bt.fails = 0) ∧ (s.bt.force = 0) ∧ (s.bt.skip = 0) ∧ (s.bt.brTrial.getD s.bt.brActive < 2) ∧ (s.bt.passes (s.bt.brTrial.getD s.bt.brActive) = true) ∧ (s.tw.role = .solo) ∧ (s.sk.enabled = false) ∧ (s.me.stored = []) ∧ ((s.tm.ptpA.enabled || s.tm.ptpB.enabled || s.tm.ppsOn) = false) ∧ (env.ledgerWritable = true) ∧ (env.waxFailed = none) ∧ ((env.stack0 && env.stack1) = true) ∧ (env.hangAt = none) ∧ (env.failAt = none) ∧ (env.recordBad = []) ∧ (env.factoryBad = []))
    ∧ (∃ (env : BootEnv) (s : State), (s.pw.phase = .failedStart) ∧ (s.pw.ready = true) ∧ (s.bt.ledgerWax = none) ∧ (env.ledgerWritable = true)) :=
  ⟨⟨{}, State.reset, by decide⟩,
   ⟨{}, State.reset, by decide⟩,
   ⟨{}, inPhase_ .failedStart, by decide⟩⟩

/-- The hypotheses of `Resets_and_start_events_complete`, clause by clause, are met. -/
theorem witness_Resets_and_start_events_complete :
    (∃ (s : State), (s.pw.phase = .tripped ∨ s.pw.phase = .off) ∧ (({ s.pw with p12v := true } : Power).ready = true))
    ∧ (∃ (s : State), (s.pw.phase = .starting))
    ∧ (∃ (s : State), (up s = true) ∧ (s.li.halted = false) ∧ (s.pw.ready = true))
    ∧ (∃ (code : Nat) (s : State), (up s = true))
    ∧ (∃ (s : State), (s.serving = true) ∧ (s.bt.good = false))
    ∧ (∃ (s : State), (s.serving = true) ∧ (10 ∈ s.bt.deferred))
    ∧ (∃ (g : FwImage) (s : State), (s.serving = true) ∧ (s.bt.slotImage s.bt.running = some g) ∧ (s.bt.running = s.bt.brActive) ∧ (∀ i ∈ [0, 1], (s.bt.slotImage i).any (fun x => decide (g.floor ≤ x.svn)) = true) ∧ (s.bt.floor < g.floor) ∧ (s.bt.activeSince + 86400 ≤ s.pw.powerOnS))
    ∧ (∃ (m : MsgReq) (s : State), (messageOk 0x0A 0x40 m s = true) ∧ (m.payload.length = 8) ∧ (bootMapsBad m.payload = none) ∧ (s.tw.role ≠ .primary) ∧ (s.pw.ready = true)) :=
  ⟨⟨inPhase_ .tripped, by decide⟩,
   ⟨inPhase_ .starting, by decide⟩,
   ⟨served, by decide⟩,
   ⟨7, served, by decide⟩,
   ⟨trial, by decide⟩,
   ⟨deferring, by decide⟩,
   ⟨imageOne, { twoImages with pw := { twoImages.pw with powerOnS := 86400 } }, by decide⟩,
   ⟨msg [0, 0, 0, 4, 0, 0, 0, 0], sealedUp, by decide⟩⟩

/-- The hypotheses of `Cache_accesses_complete`, clause by clause, are met. -/
theorem witness_Cache_accesses_complete :
    (∃ (line h : Nat) (s : State), (hbmHas (!s.mc.twoStacks) line = true) ∧ (h = homeLine line) ∧ (s.pw.phase ≠ .frozen) ∧ (s.mc.enable = false))
    ∧ (∃ (line h : Nat) (w : CacheWrite) (s : State), (hbmHas (!s.mc.twoStacks) line = true) ∧ (h = homeLine line) ∧ (s.pw.phase ≠ .frozen) ∧ (s.mc.enable = false) ∧ (w.offset + w.data.length ≤ 64) ∧ (s.mc.chimney = []))
    ∧ (∃ (line h way : Nat) (y : Way) (s : State), (hbmHas (!s.mc.twoStacks) line = true) ∧ (h = homeLine line) ∧ (s.pw.phase ≠ .frozen) ∧ (s.mc.enable = true) ∧ (s.mc.attr h ≠ 3) ∧ (s.mc.way? h = some (way, y)))
    ∧ (∃ (line h way : Nat) (y : Way) (w : CacheWrite) (s : State), (hbmHas (!s.mc.twoStacks) line = true) ∧ (h = homeLine line) ∧ (s.pw.phase ≠ .frozen) ∧ (s.mc.enable = true) ∧ (s.mc.noalloc = false) ∧ (s.mc.attr h = 0) ∧ (s.mc.way? h = some (way, y)))
    ∧ (∃ (line h : Nat) (s : State), (hbmHas (!s.mc.twoStacks) line = true) ∧ (h = homeLine line) ∧ (s.pw.phase ≠ .frozen) ∧ (s.mc.enable = true) ∧ (s.mc.attr h ≠ 3) ∧ (s.mc.way? h = none) ∧ (s.mc.chimney.all (fun c => !(c.line == h && c.valid)) = true) ∧ (s.mc.miss.all (fun r => r.line != h) = true) ∧ (s.mc.miss.length < 64))
    ∧ (∃ (line h : Nat) (w : CacheWrite) (r : Miss) (s : State), (hbmHas (!s.mc.twoStacks) line = true) ∧ (h = homeLine line) ∧ (s.pw.phase ≠ .frozen) ∧ (s.mc.enable = true) ∧ (s.mc.attr h ≠ 3) ∧ (s.mc.way? h = none) ∧ (s.mc.chimney.all (fun c => !(c.line == h && c.valid)) = true) ∧ (s.mc.miss = [r]) ∧ (r.line = h) ∧ (r.secondary < 8)) :=
  ⟨⟨5, 5, served, by decide⟩,
   ⟨5, 5, { offset := 62, data := [1, 2] }, served, by decide⟩,
   ⟨5, 5, 3, wayOne, cached, by decide⟩,
   ⟨5, 5, 3, wayOne, { offset := 62, data := [1, 2] }, cached, by decide⟩,
   ⟨6, 6, cached, by decide⟩,
   ⟨5, 5, { offset := 62, data := [1, 2] }, { line := 5, drop := false, secondary := 0, readers := 1, merged := [] }, missing, by decide⟩⟩

/-- The hypotheses of `Cache_progress_commands_complete`, clause by clause, are met. -/
theorem witness_Cache_progress_commands_complete :
    (∃ (line h : Nat) (s : State), (s.pw.phase ≠ .frozen) ∧ (h = homeLine line) ∧ (s.mc.miss = [{ line := h, drop := false, secondary := 0, readers := 1, merged := [] }]) ∧ (s.mc.noalloc = false) ∧ (s.mc.attr h < 2) ∧ (s.mc.lines = []) ∧ (s.mc.waits = []) ∧ (s.mc.invTodo = []) ∧ (s.mc.rgnWrites = []))
    ∧ (∃ (line : Nat) (s : State), (s.pw.phase ≠ .frozen) ∧ (s.mc.miss.all (fun r => r.line != homeLine line) = true))
    ∧ (∃ (line h : Nat) (d : Bytes) (s : State), (s.pw.phase ≠ .frozen) ∧ (h = homeLine line) ∧ (s.mc.chimney = [{ line := h, dirty := true, valid := true, pending := true, data := d }]) ∧ (d.length = 64) ∧ (s.mc.deferredWb = []) ∧ (s.mc.miss = []) ∧ (s.mc.waits = []) ∧ (s.mc.invTodo = []) ∧ (s.mc.rgnWrites = []))
    ∧ (∃ (path : RegPath) (value : BitVec 32) (s : State), (s.reaches path = true))
    ∧ (∃ (path : RegPath) (s : State), (s.reaches path = true) ∧ (s.mc.invBusy = false))
    ∧ (∃ (path : RegPath) (s : State), (s.reaches path = true) ∧ (s.mc.invBusy = true))
    ∧ (∃ (path : RegPath) (s : State), (s.reaches path = true) ∧ (s.mc.invBusy = true))
    ∧ (∃ (path : RegPath) (s : State), (s.reaches path = true) ∧ (s.mc.invBusy = false) ∧ (s.mc.miss = []) ∧ (s.mc.chimney = []))
    ∧ (∃ (path : RegPath) (s : State), (s.reaches path = true) ∧ (s.mc.invBusy = true))
    ∧ (∃ (path : RegPath) (s : State), (s.reaches path = true) ∧ (s.mc.invBusy = false) ∧ (s.mc.miss = []))
    ∧ (∃ (m : Mantle) (s : State), (up s = true) ∧ (m = s.mc.sweepTo 65536) ∧ (m.invTodo = []) ∧ (m.invDrop = []) ∧ (m.invWb = []))
    ∧ (∃ (s : State), (up s = true) ∧ (s.mc.invOp = 1) ∧ (s.mc.invNext = 0) ∧ (s.mc.lines.all (fun e => decide (e.1.1 < 65536)) = true))
    ∧ (∃ (n : Nat) (value : BitVec 256) (s : State), (s.reaches .debugTap = true) ∧ (n < s.mc.rgn.length))
    ∧ (∃ (n : Nat) (value : BitVec 256) (s : State), (s.reaches .lamplighter = true) ∧ (n < s.mc.rgn.length) ∧ (s.mc.rgnWrites = []) ∧ (s.mc.lines = []) ∧ (s.mc.chimney = []) ∧ (s.mc.miss = []))
    ∧ (∃ (n : Nat) (value : BitVec 256) (c : Chim) (s : State), (s.reaches .lamplighter = true) ∧ (s.mc.rgnWrites = []) ∧ (c ∈ s.mc.chimney) ∧ (c.pinned = true) ∧ (s.mc.attr c.line ≠ (s.mc.setRgn n ((value.extractLsb' 0 35).setWidth 64)).attr c.line))
    ∧ (∃ (path : RegPath) (reg : Reg) (value : BitVec 256) (s : State), (reg ∈ [.mchHitCnt, .mchMissCnt, .mcvWick, .mcvTaper])) :=
  ⟨⟨5, 5, missing, by decide⟩,
   ⟨5, served, by decide⟩,
   ⟨5, 5, List.replicate 64 1, evicting, by decide⟩,
   ⟨.lamplighter, 1, served, by decide⟩,
   ⟨.lamplighter, sweeping false, by decide⟩,
   ⟨.lamplighter, sweeping true, by decide⟩,
   ⟨.lamplighter, sweeping true, by decide⟩,
   ⟨.lamplighter, served, by decide⟩,
   ⟨.lamplighter, sweeping true, by decide⟩,
   ⟨.lamplighter, served, by decide⟩,
   ⟨_, sweeping true, ⟨by decide, rfl, by decide, by decide, by decide⟩⟩,
   ⟨{ sweeping true with mc := { (sweeping true).mc with invOp := 1, invNext := 0 } }, by decide⟩,
   ⟨7, 0, debugged, by decide⟩,
   ⟨7, 0, served, by decide⟩,
   ⟨0, 0, pinnedOne, pinnedLine, by decide⟩,
   ⟨.lamplighter, .mcvWick, 1, served, by decide⟩⟩

/-- The hypotheses of `Index_and_HBM3_events_complete`, clause by clause, are met. -/
theorem witness_Index_and_HBM3_events_complete :
    (∃ (line : Nat) (s : State), (up s = true) ∧ (line < s.ix.regionLines) ∧ (hbmHas (!s.mc.twoStacks) line = true) ∧ (line / 64 ∉ s.ix.pages) ∧ (s.ix.stackErrors.length < 16))
    ∧ (∃ (page : Nat) (s : State), (up s = true) ∧ (page ∈ s.ix.pages) ∧ (s.inPhase .waitService = []))
    ∧ (∃ (stack : Nat) (s : State), (up s = true) ∧ (stack < 2) ∧ (s.ix.lost = [false, false]) ∧ (s.tw.role = .solo))
    ∧ (∃ (s : State), (up s = true) ∧ (s.ix.rebuilding = true) ∧ (s.inPhase .waitService = []))
    ∧ (∃ (s : State), (s.serving = true) ∧ (s.ix.spill = []) ∧ (s.ix.spillCache = []))
    ∧ (∃ (e : Spilled) (s : State), (s.serving = true) ∧ (s.ix.spill = [e]) ∧ (s.ix.resident < s.ix.residentMax))
    ∧ (∃ (s : State), (up s = true))
    ∧ (∃ (channel : Nat) (s : State), (up s = true) ∧ (channel < 64)) :=
  ⟨⟨0, served, by decide⟩,
   ⟨3, { served with ix := { served.ix with pages := [3] } }, by decide⟩,
   ⟨1, served, by decide⟩,
   ⟨{ served with ix := { served.ix with rebuilding := true, lost := [true, false] }, fl := { served.fl with kvStopped := true } }, by decide⟩,
   ⟨served, by decide⟩,
   ⟨{ h := 0, slot := slotOne }, { served with ix := { served.ix with spill := [{ h := 0, slot := slotOne }] } }, ⟨by decide, rfl, by decide⟩⟩,
   ⟨served, by decide⟩,
   ⟨63, served, by decide⟩⟩

/-- The hypotheses of `Key_and_epoch_commands_complete`, clause by clause, are met. -/
theorem witness_Key_and_epoch_commands_complete :
    (∃ (m : MsgReq) (n : Ns) (s : State), (messageOk 0x09 0x10 m s = true) ∧ (m.payload.length = 4) ∧ (s.ky.kekPresent = true) ∧ (s.nsOf (natAt m.payload 0 4) = some n) ∧ (s.ky.busy (natAt m.payload 0 4) = false) ∧ (n.nsid = natAt m.payload 0 4))
    ∧ (∃ (m : MsgReq) (n : Ns) (s : State), (messageOk 0x09 0x11 m s = true) ∧ (m.payload.length = 4) ∧ (s.ky.kekPresent = true) ∧ (s.nsOf (natAt m.payload 0 4) = some n) ∧ (n.nsid = natAt m.payload 0 4) ∧ (n.type ≠ .ledger ∨ s.ledgerBound n.nsid = false) ∧ (s.ky.sweeping n.nsid = false) ∧ (s.md.secdel = []))
    ∧ (∃ (nsid : Nat) (s : State), (s.mediaWork = true) ∧ (s.ky.jobs.any (fun j => j.nsid == nsid && j.kind == 0) = true) ∧ (s.recordsOf nsid s.previousGen = []) ∧ (s.sealsPrevious nsid = false))
    ∧ (∃ (nsid : Nat) (s : State), (s.mediaWork = true) ∧ (s.ky.sweeping nsid = true))
    ∧ (∃ (m : MsgReq) (n : Ns) (s : State), (messageOk 0x09 0x12 m s = true) ∧ (m.payload.length = 4) ∧ (s.nsOf (natAt m.payload 0 4) = some n))
    ∧ (∃ (m : MsgReq) (s : State), (messageOk 0x09 0x13 m s = true) ∧ (m.payload = []) ∧ (s.ky.kekPresent = true))
    ∧ (∃ (m : MsgReq) (s : State), (messageOk 0x09 0x01 m s = true) ∧ (273 ≤ m.payload.length) ∧ (s.ky.kekPresent = true) ∧ (pskIdentityOk ((m.payload.drop 224).take (m.payload.length - 272)) = true) ∧ ((s.ky.psks.filter fun k => !(k.host == trimZero (bytesAt m.payload 0 224) && k.identity == (m.payload.drop 224).take (m.payload.length - 272))).length < 256))
    ∧ (∃ (m : MsgReq) (s : State), (messageOk 0x09 0x02 m s = true) ∧ (225 ≤ m.payload.length) ∧ (s.ky.psks.any (fun k => k.host == trimZero (bytesAt m.payload 0 224) && k.identity == m.payload.drop 224) = true))
    ∧ (∃ (m : MsgReq) (s : State), (messageOk 0x09 0x20 m s = true) ∧ (m.payload.length = 2) ∧ (1 ≤ natAt m.payload 0 2) ∧ (natAt m.payload 0 2 ≤ 1000))
    ∧ (∃ (m : MsgReq) (o : OpenEpoch) (s : State), (messageOk 0x09 0x21 m s = true) ∧ (m.payload = []) ∧ (s.ky.open_ = some o))
    ∧ (∃ (o : OpenEpoch) (s : State), (up s = true) ∧ (s.ky.open_ = some o))
    ∧ (∃ (e : ClosedEpoch) (rest : List ClosedEpoch) (s : State), (up s = true) ∧ (s.ky.receiptKey = true) ∧ (s.ky.signOff = false) ∧ (s.lifecycle ≠ .retired) ∧ (s.ky.waiting = e :: rest))
    ∧ (∃ (e : ClosedEpoch) (rest : List ClosedEpoch) (s : State), (up s = true) ∧ (s.ky.store = e :: rest) ∧ (s.ky.storeFull = true))
    ∧ (∃ (m : MsgReq) (s : State), (messageOk 0x09 0x22 m s = true) ∧ (m.payload = [])) :=
  ⟨⟨msg [1, 0, 0, 0], nsOne, policed, by decide⟩,
   ⟨msg [1, 0, 0, 0], nsOne, policed, by decide⟩,
   ⟨1, rotating, by decide⟩,
   ⟨1, erasing, by decide⟩,
   ⟨msg [1, 0, 0, 0], nsOne, { policed with ky := { policed.ky with jobs := [{ nsid := 1, kind := 1, pct := 40, started := 0 }] } }, by decide⟩,
   ⟨msg [], policed, by decide⟩,
   ⟨msg (List.replicate 224 1 ++ [78, 86, 77, 101, 48, 82, 48, 49, 32, 97, 32, 98] ++ List.replicate 48 1), policed, by decide⟩,
   ⟨msg (padTo 224 host1 ++ [2]), policed, by decide⟩,
   ⟨msg [232, 3], policed, by decide⟩,
   ⟨msg [], openOne, epochOpen, by decide⟩,
   ⟨openOne, epochOpen, by decide⟩,
   ⟨epochOne, [], { policed with ky := { policed.ky with receiptKey := true, waiting := [epochOne] } }, by decide⟩,
   storeOf_meets.elim fun n h => ⟨epochOf n, [], storeOf n, h.1, rfl, h.2⟩,
   ⟨msg [], policed, by decide⟩⟩

/-- The hypotheses of `CAM_commands_complete`, clause by clause, are met. -/
theorem witness_CAM_commands_complete :
    (∃ (m : MsgReq) (fixed : List (Nat × Level)) (s : State), (messageOk 0x0D 0x01 m s = true) ∧ (1 ≤ natAt m.payload 4 4) ∧ (natAt m.payload 4 4 ≤ 63) ∧ (m.payload.length = 8 + 64 * natAt m.payload 4 4) ∧ (natAt m.payload 0 4 + natAt m.payload 4 4 ≤ 65536) ∧ (camChecks s ((camRecords m.payload).zipIdx.map fun x => (x.2, x.1.2)) [] = .ok fixed) ∧ (s.sk.change = none) ∧ (s.camGlobal 1 m.payload = false))
    ∧ (∃ (m : MsgReq) (i r : Nat) (s : State), (messageOk 0x0D 0x01 m s = true) ∧ (1 ≤ natAt m.payload 4 4) ∧ (natAt m.payload 4 4 ≤ 63) ∧ (m.payload.length = 8 + 64 * natAt m.payload 4 4) ∧ (natAt m.payload 0 4 + natAt m.payload 4 4 ≤ 65536) ∧ (camChecks s ((camRecords m.payload).zipIdx.map fun x => (x.2, x.1.2)) [] = .error (i, r)))
    ∧ (∃ (m : MsgReq) (s : State), (messageOk 0x0D 0x03 m s = true) ∧ (m.payload.length = 8) ∧ (1 ≤ natAt m.payload 4 4) ∧ (natAt m.payload 0 4 + natAt m.payload 4 4 ≤ 65536) ∧ (s.sk.change = none) ∧ (s.camGlobal 3 m.payload = false))
    ∧ (∃ (m : MsgReq) (s : State), (messageOk 0x0D 0x04 m s = true) ∧ (m.payload.length = 12) ∧ (1 ≤ natAt m.payload 8 4) ∧ (natAt m.payload 0 4 + natAt m.payload 8 4 ≤ 65536) ∧ (natAt m.payload 4 4 + natAt m.payload 8 4 ≤ 65536) ∧ (s.sk.change = none) ∧ (s.camGlobal 4 m.payload = false))
    ∧ (∃ (m : MsgReq) (s : State), (messageOk 0x0D 0x02 m s = true) ∧ (m.payload.length = 8) ∧ (1 ≤ natAt m.payload 4 4) ∧ (natAt m.payload 4 4 ≤ 63) ∧ (natAt m.payload 0 4 + natAt m.payload 4 4 ≤ 65536))
    ∧ (∃ (m : MsgReq) (s : State), (messageOk 0x0D 0x05 m s = true) ∧ (m.payload.length = 9) ∧ (1 ≤ natAt m.payload 4 4) ∧ (natAt m.payload 4 4 ≤ 1022) ∧ (natAt m.payload 0 4 + natAt m.payload 4 4 ≤ 65536) ∧ (natAt m.payload 8 1 ≤ 1))
    ∧ (∃ (m : MsgReq) (s : State), (messageOk 0x0D 0x06 m s = true) ∧ (m.payload = []) ∧ (s.cam.dir.any (·.2.disabled) = false))
    ∧ (∃ (m : MsgReq) (s : State), (messageOk 0x0D 0x07 m s = true) ∧ (m.payload.length = 24) ∧ (natAt m.payload 0 1 = 0) ∧ (s.sk.joinedNow = false))
    ∧ (∃ (m : MsgReq) (n : Ns) (s : State), (messageOk 0x0D 0x08 m s = true) ∧ (m.payload.length = 6) ∧ (s.nsOf (natAt m.payload 0 4) = some n) ∧ (natAt m.payload 4 1 = 0) ∧ (natAt m.payload 5 1 ≤ 1))
    ∧ (∃ (s : State), (up s = true) ∧ (s.cam.loaded = true) ∧ ((s.cam.entries.map (·.1) ++ s.cam.copy.map (·.1) ++ s.cam.actErr.map (·.1) ++ s.cam.copyBad).any s.cam.differs = false))
    ∧ (∃ (a : Nat) (s : State), (up s = true) ∧ (s.cam.loaded = true) ∧ (((s.cam.entries.map (·.1) ++ s.cam.copy.map (·.1) ++ s.cam.actErr.map (·.1) ++ s.cam.copyBad).eraseDups).filter s.cam.differs = [a]) ∧ ((s.cam.dirAt a).disabled = false) ∧ (a ∉ s.cam.copyBad) ∧ ((s.cam.copyAt a).computed = (s.cam.dirAt a).crc))
    ∧ (∃ (addr bit : Nat) (s : State), (up s = true))
    ∧ (∃ (addr bit : Nat) (s : State), (up s = true) ∧ (bit < 416) ∧ (addr ∉ s.cam.parityBad))
    ∧ (∃ (addr bit : Nat) (s : State), (up s = true) ∧ (416 ≤ bit) ∧ (bit < 480) ∧ (s.cam.actErr.all (fun x => x.1 != addr) = true))
    ∧ (∃ (addr bit : Nat) (x : Nat × Nat) (s : State), (up s = true) ∧ (416 ≤ bit) ∧ (bit < 480) ∧ (x ∈ s.cam.actErr) ∧ (x.1 = addr) ∧ ((addr, bit - 416) ∉ s.cam.actErr)) :=
  ⟨⟨msg (leBytes 4 9 ++ leBytes 4 1 ++ denyOne.bytes false), [(1, .loc)], policed, ⟨by decide, by decide, by decide, by decide, by decide, by decide +kernel, by decide, by decide⟩⟩,
   ⟨msg (leBytes 4 9 ++ leBytes 4 1 ++ allowAll.bytes false), 0, 2, policed, ⟨by decide, by decide, by decide, by decide, by decide, by decide +kernel⟩⟩,
   ⟨msg (leBytes 4 0 ++ leBytes 4 2), policed, by decide⟩,
   ⟨msg (leBytes 4 0 ++ leBytes 4 1 ++ leBytes 4 3), policed, by decide⟩,
   ⟨msg (leBytes 4 0 ++ leBytes 4 2), policed, by decide⟩,
   ⟨msg (leBytes 4 0 ++ leBytes 4 2 ++ [1]), { policed with cam := { policed.cam with counters := [(0, 5), (2, 7)] } }, by decide⟩,
   ⟨msg [], policed, by decide⟩,
   ⟨msg (List.replicate 24 0), policed, by decide⟩,
   ⟨msg [1, 0, 0, 0, 0, 0], nsOne, policed, by decide⟩,
   ⟨{ served with cam := { served.cam with loaded := true } }, by decide⟩,
   ⟨9, struck, ⟨by decide, by decide, by decide, by decide, by decide, by decide +kernel⟩⟩,
   ⟨0, 3, policed, by decide⟩,
   ⟨0, 415, policed, by decide⟩,
   ⟨0, 416, policed, by decide⟩,
   ⟨0, 416, (0, 3), { policed with cam := { policed.cam with actErr := [(0, 3)] } }, by decide⟩⟩

/-- The hypotheses of `Twin_heartbeat_and_loss_events_complete`, clause by clause, are met. -/
theorem witness_Twin_heartbeat_and_loss_events_complete :
    (∃ (s : State), (up s = true) ∧ (s.paired = true) ∧ (s.tw.hbStopped = false))
    ∧ (∃ (hb : Heartbeat) (s : State), (up s = true) ∧ (s.paired = true) ∧ (hb.news = []) ∧ (hb.term ≤ s.tw.term) ∧ (hb.confirm = false) ∧ (hb.staleNotice = false) ∧ (s.tw.changing = false))
    ∧ (∃ (hb : Heartbeat) (s : State), (up s = true) ∧ (hb.news = []) ∧ (s.tw.role = .primary) ∧ (s.tw.term < hb.term))
    ∧ (∃ (hb : Heartbeat) (s : State), (up s = true) ∧ (hb.news = []) ∧ (s.tw.role = .secondary) ∧ (hb.term = s.tw.term + 1) ∧ (s.tw.lost = false) ∧ (s.fl.cmds = []))
    ∧ (∃ (hb : Heartbeat) (i : Nat) (n : Ns) (s : State), (up s = true) ∧ (s.tw.role = .primary) ∧ (hb.news = [.levelFixed i 2]) ∧ (hb.term = s.tw.term) ∧ (hb.confirm = false) ∧ (s.tw.changing = false) ∧ (s.nsOf i = some n) ∧ (n.level = none) ∧ (n.type ≠ .mirror))
    ∧ (∃ (s : State), (up s = true) ∧ (s.tw.role = .primary) ∧ (s.tw.lost = false) ∧ (s.bt.paused = false) ∧ (s.tw.drain ≤ 1) ∧ (s.fl.cmds = []))
    ∧ (∃ (s : State), (up s = true) ∧ (s.tw.role = .primary) ∧ (s.tw.lost = false) ∧ (s.bt.paused = false) ∧ (s.tw.drain = 2 ∨ s.tw.drain = 3) ∧ (s.fl.cmds = []))
    ∧ (∃ (s : State), (up s = true) ∧ (s.tw.role = .secondary) ∧ (s.tw.lost = false) ∧ (s.bt.paused = false) ∧ (s.fl.cmds = []))
    ∧ (∃ (s : State), (up s = true) ∧ (s.tw.role = .primary) ∧ (s.tw.witnessMode ≠ 0) ∧ (s.tw.fenced = false) ∧ (s.fl.cmds = []) ∧ (s.wx.pend.all (fun p => !s.damaged p.loc) = true))
    ∧ (∃ (s : State), (up s = true) ∧ (s.tw.candidate = true))
    ∧ (∃ (s : State), (up s = true) ∧ (s.tw.role = .primary) ∧ (s.tw.lost = true) ∧ (s.tw.fenced = false) ∧ (s.tw.witnessMode = 0 ∨ s.tw.witnessState = 1) ∧ (s.wx.pend = []))
    ∧ (∃ (s : State), (up s = true) ∧ (s.tw.role = .primary) ∧ (s.tw.lost = false) ∧ (s.wx.unacked ≠ []))
    ∧ (∃ (s : State), (up s = true) ∧ (s.tw.role = .primary) ∧ (s.tw.impaired = true) ∧ (s.tw.staleConfirmed = false))
    ∧ (∃ (s : State), (up s = true) ∧ (s.tw.witnessMode ≠ 0))
    ∧ (∃ (nsid g d : Nat) (key : Key) (value : Bytes) (f : Found) (u : State) (s : State), (up s = true) ∧ (s.tw.repairs = [(nsid, key, 0)]) ∧ (s.find nsid key = some f) ∧ (f.slot.loc = .nand g) ∧ (f.slot.twinPend = false) ∧ (s.fl.cmds = []) ∧ (s.journalRoom 1 = true) ∧ (s.landNext .gcCold (s.reseal { f.record with value := value }) = some (u, d)))
    ∧ (∃ (nsid : Nat) (key : Key) (s : State), (up s = true) ∧ (s.tw.repairs = [(nsid, key, 0)]) ∧ (s.fl.cmds = []) ∧ (s.wx.failing = none)) :=
  ⟨⟨pairedAs .secondary, by decide⟩,
   ⟨{ path := 1, term := 2 }, pairedAs .primary, by decide⟩,
   ⟨{ path := 0, term := 3 }, pairedAs .primary, by decide⟩,
   ⟨{ path := 0, term := 3 }, pairedAs .secondary, by decide⟩,
   ⟨{ path := 0, term := 2, news := [.levelFixed 1 2] }, 1, { nsOne with level := none }, { pairedAs .primary with va := { (pairedAs .primary).va with ns := [{ nsOne with level := none }] } }, by decide⟩,
   ⟨pairedAs .primary, by decide⟩,
   ⟨{ pairedAs .primary with tw := { (pairedAs .primary).tw with drain := 2 } }, by decide⟩,
   ⟨pairedAs .secondary, by decide⟩,
   ⟨witnessed (pairedAs .primary), by decide⟩,
   ⟨candidate, by decide⟩,
   ⟨losing .primary, by decide⟩,
   ⟨unackedOne, by decide⟩,
   ⟨{ unackedOne with tw := { unackedOne.tw with impaired := true } }, by decide⟩,
   ⟨witnessed (pairedAs .primary), by decide⟩,
   ⟨1, 0, _, [7], [9], foundNand, _, repairing, ⟨by decide, by decide, repairing_find, by decide, by decide, by decide, by decide, (Option.some_get repairing_lands).symm⟩⟩,
   ⟨1, [7], repairing, by decide⟩⟩

/-- The hypotheses of `Twin_messages_complete`, clause by clause, are met. -/
theorem witness_Twin_messages_complete :
    (∃ (m : MsgReq) (s : State), (messageOk 0x06 0x01 m s = true) ∧ (17 ≤ m.payload.length) ∧ (natAt m.payload 16 1 = 1) ∧ (s.tw.attachReq = none) ∧ (s.lifecycle = .isSealed) ∧ (s.tw.pairId = List.replicate 16 0 ∨ s.tw.pairId = bytesAt m.payload 0 16) ∧ (s.pw.psNow < 3))
    ∧ (∃ (p : PeerView) (pid : Bytes) (m : Option MsgReq) (s : State), (up s = true) ∧ (11 ∉ s.bt.offServices) ∧ (s.tw.attachReq = some (pid, 1, m)) ∧ (s.attachChecks p pid 1 = none) ∧ (s.tw.pairId ≠ pid) ∧ (p.request = some (pid, 2)))
    ∧ (∃ (p : PeerView) (pid : Bytes) (role r : Nat) (m : Option MsgReq) (s : State), (up s = true) ∧ (11 ∉ s.bt.offServices) ∧ (s.tw.attachReq = some (pid, role, m)) ∧ (s.attachChecks p pid role = some r) ∧ (r ≠ 0) ∧ (s.peerAsks p pid role = true))
    ∧ (∃ (p : PeerView) (s : State), (up s = true) ∧ (11 ∉ s.bt.offServices) ∧ (s.tw.attachReq = none) ∧ (s.paired = true) ∧ (p.term < s.tw.term) ∧ (s.fl.cmds = []) ∧ (s.wx.heldRecs = []))
    ∧ (∃ (pid : Bytes) (m : Option MsgReq) (s : State), (up s = true) ∧ (s.tw.attachReq = some (pid, 2, m)))
    ∧ (∃ (m : MsgReq) (s : State), (messageOk 0x06 0x03 m s = true) ∧ (m.payload = []) ∧ (s.tw.role = .primary) ∧ (s.tw.fenced = false) ∧ (s.tw.reached = true) ∧ (s.twinGone = false) ∧ (s.tw.drain = 0) ∧ (s.wx.pend = []) ∧ (s.tw.lag = []) ∧ (s.resyncSends = false) ∧ (s.fl.cmds = []))
    ∧ (∃ (m : MsgReq) (s : State), (messageOk 0x06 0x02 m s = true) ∧ (m.payload.length = 16) ∧ (s.tw.role = .primary) ∧ (s.tw.drain = 0) ∧ (s.drained = true) ∧ (m.payload = s.tw.twinId) ∧ (s.fl.cmds = []))
    ∧ (∃ (m : MsgReq) (s : State), (messageOk 0x06 0x02 m s = true) ∧ (m.payload.length = 16) ∧ (s.tw.role = .secondary) ∧ (s.tw.reached = true) ∧ (s.tw.lost = false) ∧ (s.tw.drain = 0) ∧ (m.payload = s.tw.twinId))
    ∧ (∃ (m : MsgReq) (s : State), (messageOk 0x06 0x04 m s = true) ∧ (m.payload.length = 24) ∧ (natAt m.payload 0 1 ≤ 2) ∧ (natAt m.payload 1 1 ≤ 1) ∧ (natAt m.payload 2 2 = 0) ∧ (1000 ≤ natAt m.payload 4 4) ∧ (natAt m.payload 4 4 ≤ 25000))
    ∧ (∃ (m : MsgReq) (s : State), (messageOk 0x06 0x05 m s = true) ∧ (m.payload = []))
    ∧ (∃ (m : MsgReq) (s : State), (messageOk 0x06 0x06 m s = true) ∧ (m.mbox = 12) ∧ (m.payload.length = 25) ∧ (s.tw.witnessMode = 1) ∧ (natAt m.payload 0 16 = s.tw.witnessId) ∧ (natAt m.payload 24 1 = 0) ∧ (s.tw.role = .secondary) ∧ (s.tw.fenced = false))
    ∧ (∃ (m : MsgReq) (s : State), (messageOk 0x06 0x07 m s = true) ∧ (m.payload = []) ∧ (s.tw.role = .detachedStale))
    ∧ (∃ (m : MsgReq) (s : State), (messageOk 0x06 0x08 m s = true) ∧ (m.payload.length = 16) ∧ (m.payload = s.tw.pairId) ∧ (s.tw.role = .secondary ∨ s.tw.role = .detachedStale) ∧ (s.tw.lost = true) ∧ (s.fl.cmds = []) ∧ (s.wx.heldRecs = []))
    ∧ (∃ (m : MsgReq) (s : State), (messageOk 0x06 0x09 m s = true) ∧ (m.payload = []) ∧ (s.tw.role = .primary) ∧ (s.tw.reached = true)) :=
  ⟨⟨msg (List.replicate 16 5 ++ [1, 9]), sealedUp, by decide⟩,
   ⟨{ peerOne with request := some (List.replicate 16 5, 2) }, List.replicate 16 5, none, attaching 1, by decide⟩,
   ⟨{ peerOne with protoVer := 9, request := some (List.replicate 16 5, 1) }, List.replicate 16 5, 2, 1, none, attaching 2, by decide⟩,
   ⟨peerOne, losing .detachedStale, by decide⟩,
   ⟨List.replicate 16 5, none, attaching 2, by decide⟩,
   ⟨msg [], pairedAs .primary, by decide⟩,
   ⟨msg (List.replicate 16 6), pairedAs .primary, by decide⟩,
   ⟨msg (List.replicate 16 6), pairedAs .secondary, by decide⟩,
   ⟨msg ([2, 1, 0, 0] ++ leBytes 4 25000 ++ List.replicate 16 1), sealedUp, by decide⟩,
   ⟨msg [], sealedUp, by decide⟩,
   ⟨{ msg (List.replicate 25 0) with mbox := 12 }, witnessed (pairedAs .secondary), by decide⟩,
   ⟨msg [], losing .detachedStale, by decide⟩,
   ⟨msg (List.replicate 16 5), losing .detachedStale, by decide⟩,
   ⟨msg [], pairedAs .primary, by decide⟩⟩

/-- The hypotheses of `Twin_traffic_completes`, clause by clause, are met. -/
theorem witness_Twin_traffic_completes :
    (∃ (w : ReplWrite) (s : State), (up s = true) ∧ (s.tw.role = .secondary) ∧ (s.nsOf w.nsid = none) ∧ (s.tw.inbound = []))
    ∧ (∃ (w : ReplWrite) (n : Ns) (g : Nat) (s : State), (up s = true) ∧ (s.tw.role = .secondary) ∧ (s.nsOf w.nsid = some n) ∧ (w.kind = .store) ∧ (w.leaf = false) ∧ (s.keyLimit w.nsid w.key = false) ∧ (w.ledger = false) ∧ (w.forwarded = none) ∧ (s.tw.inbound = []) ∧ (s.wx.waiters = []) ∧ (s.journalWaits = false) ∧ (roomFor w.key s = true) ∧ ((s.reserve (recGranules n.mode w.key.length w.value.length) false).2 = some g) ∧ (s.find w.nsid w.key = none) ∧ (s.ix.points (.wax g) = false))
    ∧ (∃ (f : FwdCmd) (s : State), (up s = true) ∧ (s.tw.role = .primary) ∧ (s.tw.fenced = false) ∧ (s.cmd? (65536 + f.ctrl) f.sq f.cid = none) ∧ (s.nsOf f.nsid = none))
    ∧ (∃ (f : FwdCmd) (n : Ns) (s : State), (up s = true) ∧ (s.tw.role = .primary) ∧ (s.tw.fenced = false) ∧ (s.fl.cmds = []) ∧ (s.nsOf f.nsid = some n) ∧ (f.kind = 4) ∧ (s.find f.nsid f.key = none) ∧ (n.type = .plain))
    ∧ (∃ (ctrl sq cid : Nat) (status : Status) (read : FwdData) (c : Cmd) (s : State), (up s = true) ∧ (s.fl.cmds = [c]) ∧ (c.ctrl = ctrl ∧ c.sq = sq ∧ c.e.cid = cid) ∧ (c.phase = .forwarded) ∧ (c.forwardedFrom = none) ∧ (status ≠ .success) ∧ (s.fe.hasQueue ctrl sq = true))
    ∧ (∃ (ctrl sq cid : Nat) (read : FwdData) (c : Cmd) (s : State), (up s = true) ∧ (s.fl.cmds = [c]) ∧ (c.ctrl = ctrl ∧ c.sq = sq ∧ c.e.cid = cid) ∧ (c.phase = .forwarded) ∧ (c.forwardedFrom = none) ∧ (c.kind.writes = false) ∧ (c.kind.isExist = false) ∧ (s.fe.hasQueue ctrl sq = true))
    ∧ (∃ (s : State), (up s = true) ∧ (s.tw.resyncing = true) ∧ (s.tw.role = .detachedStale) ∧ (s.tw.fullResync = false) ∧ (s.fl.cmds = []))
    ∧ (∃ (s : State), (up s = true) ∧ (s.tw.resyncing = false) ∧ (s.tw.role = .primary) ∧ (s.tw.reached = true) ∧ (s.tw.drain = 0) ∧ (s.wx.unacked = []))
    ∧ (∃ (q : Nat) (s : State), (up s = true) ∧ (s.tw.resyncing = false) ∧ (s.tw.role = .primary) ∧ (s.tw.reached = true) ∧ (s.tw.drain = 0) ∧ (s.wx.unacked = [q]) ∧ (q ≤ s.tw.resyncTo) ∧ (s.wx.pend = []) ∧ (s.fl.cmds = [])) :=
  ⟨⟨{ replOne with nsid := 5 }, pairedAs .secondary, by decide⟩,
   ⟨replOne, nsOne, 0, pairedAs .secondary, by decide⟩,
   ⟨{ fwdOne with nsid := 5 }, pairedAs .primary, by decide⟩,
   ⟨fwdOne, nsOne, pairedAs .primary, by decide⟩,
   ⟨1, 1, 7, .keyDoesNotExist, {}, { waiting .forwarded with kind := .exist }, { waits .forwarded with fl := { (waits .forwarded).fl with cmds := [{ waiting .forwarded with kind := .exist }] } }, by decide⟩,
   ⟨1, 1, 7, {}, { waiting .forwarded with kind := .retrieve }, { waits .forwarded with fl := { (waits .forwarded).fl with cmds := [{ waiting .forwarded with kind := .retrieve }] } }, by decide⟩,
   ⟨{ pairedAs .detachedStale with tw := { (pairedAs .detachedStale).tw with resyncing := true } }, by decide⟩,
   ⟨pairedAs .primary, by decide⟩,
   ⟨3, walked, by decide⟩⟩

/-- The hypotheses of `Origin_commands_complete`, clause by clause, are met. -/
theorem witness_Origin_commands_complete :
    (∃ (m : MsgReq) (s : State), (messageOk 0x01 0x08 m s = true) ∧ (m.payload.length = 288) ∧ (originBad m.payload = none) ∧ ((natAt m.payload 1 1).testBit 0 = true) ∧ (s.og.origins.length = 8))
    ∧ (∃ (m : MsgReq) (s : State), (messageOk 0x01 0x08 m s = true) ∧ (m.payload.length = 288) ∧ (originBad m.payload = none) ∧ ((natAt m.payload 1 1).testBit 0 = false) ∧ (s.og.named (natAt m.payload 0 1) = false))
    ∧ (∃ (m : MsgReq) (s : State), (messageOk 0x01 0x09 m s = true) ∧ (m.payload.length = 32) ∧ (s.mirrorBad m.payload = none))
    ∧ (∃ (m : MsgReq) (s : State), (messageOk 0x01 0x0A m s = true) ∧ (m.payload = []) ∧ (s.og.paths = []) ∧ (s.og.fills = []))
    ∧ (∃ (origin port : Nat) (s : State), (up s = true))
    ∧ (∃ (origin port : Nat) (s : State), (up s = true) ∧ ((s.og.path? origin port).any (·.isOpen) = true) ∧ (s.og.fills = []) ∧ (s.og.paths.all (!·.retired) = true))
    ∧ (∃ (origin port : Nat) (p : OriginPath) (r : OriginRec) (s : State), (up s = true) ∧ (s.og.path? origin port = some p) ∧ (s.og.origin? origin = some r) ∧ (p.isOpen = false) ∧ (p.retired = false) ∧ (s.mayOpen r = true))
    ∧ (∃ (s : State), (up s = true))
    ∧ (∃ (nsid : Nat) (b : Binding) (s : State), (s.bindingOf nsid = some b) ∧ (b.staleOk = true))
    ∧ (∃ (nsid : Nat) (b : Binding) (s : State), (up s = true) ∧ (s.bindingOf nsid = some b) ∧ (b.staleOk = false) ∧ (s.recordsOf nsid (fun r => s.unseals r && s.mirrorExpired r) = []))
    ∧ (∃ (nsid : Nat) (b : Binding) (l : List (Loc × StoredRec)) (s : State), (up s = true) ∧ (s.bindingOf nsid = some b) ∧ (b.staleOk = false) ∧ (l = s.recordsOf nsid (fun r => s.unseals r && s.mirrorExpired r)) ∧ (s.journalWaits = false) ∧ (s.wx.journalUsed + (l.map fun p => ({ type := .delete, nsid := nsid, key := p.2.key } : JRec).blocks).sum ≤ Figure.journalBlocks))
    ∧ (∃ (nsid p g : Nat) (key : Key) (f : Fill) (n : Ns) (s : State), (up s = true) ∧ (s.og.fills = [f]) ∧ (f.nsid = nsid ∧ f.key = key) ∧ (s.nsOf nsid = some n) ∧ (f.sent = false) ∧ (f.stage = 0) ∧ (f.granule = none) ∧ (s.nextPath f = some p) ∧ (s.fillRoom f = true) ∧ (s.wx.waiters = []) ∧ ((s.reserve (recGranules n.mode key.length 65536) false).2 = some g))
    ∧ (∃ (nsid len : Nat) (key : Key) (data : Bytes) (f : Fill) (s : State), (up s = true) ∧ (s.og.fills = [f]) ∧ (f.nsid = nsid ∧ f.key = key) ∧ (f.sent = true) ∧ (f.stage = 1) ∧ (len ≤ 65536))
    ∧ (∃ (nsid : Nat) (key : Key) (f : Fill) (s : State), (up s = true) ∧ (s.og.fills = [f]) ∧ (f.nsid = nsid ∧ f.key = key) ∧ (f.sent = true) ∧ (s.find nsid key = none) ∧ (f.binding.negTtlS = 0) ∧ (s.fl.cmds = []))
    ∧ (∃ (nsid : Nat) (key : Key) (f : Fill) (s : State), (up s = true) ∧ (s.og.fills = [f]) ∧ (f.nsid = nsid ∧ f.key = key) ∧ (f.sent = true) ∧ (f.onFallback = true) ∧ (s.fl.cmds = []) ∧ (s.bt.paused = false))
    ∧ (∃ (nsid g : Nat) (key : Key) (f : Fill) (n : Ns) (s : State), (up s = true) ∧ (s.og.fills = [f]) ∧ (f.nsid = nsid ∧ f.key = key) ∧ (s.nsOf nsid = some n) ∧ (f.stage = 3) ∧ (f.granule = some g) ∧ (f.abandoned = false) ∧ (f.waitsJournal = false) ∧ (s.journalWaits = false) ∧ (roomFor key s = true) ∧ (s.find nsid key = none) ∧ (s.capacityRefuses nsid key (s.fillRecord f n g).bytes = false) ∧ (s.fl.cmds = []) ∧ (s.ix.points (.wax g) = false)) :=
  ⟨⟨msg ([7, 9, 0, 0] ++ leBytes 4 100 ++ leBytes 2 2048 ++ List.replicate 278 0), sealedUp, by decide⟩,
   ⟨msg (List.replicate 288 0), sealedUp, by decide⟩,
   ⟨msg ([1, 0, 0, 0, 3, 255, 1, 0] ++ leBytes 4 61 ++ List.replicate 20 0), mirrored_, by decide⟩,
   ⟨msg [], sealedUp, by decide⟩,
   ⟨3, 0, pathed false, by decide⟩,
   ⟨3, 0, pathed true, by decide⟩,
   ⟨3, 0, { origin := 3, port := 0, isOpen := false, retryDelayS := 16 }, originOne, pathed false, by decide⟩,
   ⟨mirrored_, by decide⟩,
   ⟨1, { bindOne with staleOk := true }, { mirrored_ with og := { mirrored_.og with bindings := [{ bindOne with staleOk := true }] } }, by decide⟩,
   ⟨1, bindOne, bound, by decide⟩,
   ⟨1, bindOne, _, expiring, ⟨by decide, by decide, by decide, rfl, by decide, by decide⟩⟩,
   ⟨1, 0, 0, [7], fillOne, nsMirror, filling fillOne, by decide⟩,
   ⟨1, 2, [7], [8, 9], { fillOne with stage := 1, sent := true }, filling { fillOne with stage := 1, sent := true }, by decide⟩,
   ⟨1, [7], { fillOne with stage := 1, sent := true }, filling { fillOne with stage := 1, sent := true }, by decide⟩,
   ⟨1, [7], { fillOne with stage := 1, sent := true, onFallback := true }, filling { fillOne with stage := 1, sent := true, onFallback := true }, by decide⟩,
   ⟨1, 0, [7], { fillOne with stage := 3, granule := some 0, granules := 8, value := [5] }, nsMirror, filling { fillOne with stage := 3, granule := some 0, granules := 8, value := [5] }, by decide⟩⟩

/-- The hypotheses of `Elections_tokens_and_windows_complete`, clause by clause, are met. -/
theorem witness_Elections_tokens_and_windows_complete :
    (∃ (s : State), (up s = true) ∧ (s.sk.partakes = true) ∧ (s.sk.gen.toNat + 1 < 2 ^ 32))
    ∧ (∃ (pos gen : Nat) (s : State), (up s = true) ∧ (s.sk.partakes = true) ∧ (s.sk.electing = true) ∧ (gen = s.sk.gen.toNat) ∧ (pos ≠ s.pw.pos))
    ∧ (∃ (pos gen : Nat) (s : State), (up s = true) ∧ (s.sk.partakes = true) ∧ (s.sk.gen.toNat < gen) ∧ (gen < 2 ^ 32) ∧ (pos ≠ s.pw.pos))
    ∧ (∃ (pos gen : Nat) (s : State), (up s = true) ∧ (s.sk.partakes = false))
    ∧ (∃ (s : State), (up s = true) ∧ (s.sk.role = 1) ∧ (s.sk.ringUp = true))
    ∧ (∃ (gen : Nat) (tok : Token) (s : State), (up s = true) ∧ (gen = s.sk.gen.toNat) ∧ (s.sk.electing = false) ∧ (s.sk.outbox = []) ∧ (tok.rot < 65536) ∧ (s.sk.role = 1 → tok.rot = s.sk.tokenRot.toNat) ∧ (s.sk.gather = 0))
    ∧ (∃ (gen ty dst : Nat) (tok : Token) (body : List Nat) (rest : List (Nat × Nat × List Nat)) (s : State), (up s = true) ∧ (gen = s.sk.gen.toNat) ∧ (s.sk.electing = false) ∧ (s.sk.partakes = true) ∧ (s.bt.paused = false) ∧ (s.sk.outbox = (ty, dst, body) :: rest) ∧ (s.sk.role = 1 → tok.rot = s.sk.tokenRot.toNat) ∧ (s.sk.gather = 0))
    ∧ (∃ (gen : Nat) (tok : Token) (s : State), (gen < s.sk.gen.toNat))
    ∧ (∃ (g : GLookup) (s : State), (up s = true) ∧ (s.sk.linked = true) ∧ (s.sk.role ≠ 1) ∧ (s.sk.pending = [g]) ∧ (g.inFlight = false) ∧ (s.sk.flushDue = false))
    ∧ (∃ (pos : Nat) (key : BitVec 192) (s : State), (up s = true) ∧ (s.sk.linked = true) ∧ (s.sk.role ≠ 1) ∧ (pos ≠ s.pw.pos))
    ∧ (∃ (polled : Bool) (pos : Nat) (key : BitVec 192) (s : State), (up s = true) ∧ (s.sk.linked = true) ∧ (s.sk.role = 1) ∧ (s.sk.nextPoll s.sk.poll ≠ s.pw.pos))
    ∧ (∃ (requester : Nat) (key : BitVec 192) (cells : BitVec 40) (s : State), (up s = true) ∧ (s.sk.st = 2))
    ∧ (∃ (requester : Nat) (key : BitVec 192) (crcOk : Bool) (cells : BitVec 40) (s : State), (up s = true) ∧ (s.sk.st ≠ 2))
    ∧ (∃ (requester : Nat) (key : BitVec 192) (cells : BitVec 40) (s : State), (up s = true) ∧ (s.sk.st = 2) ∧ (s.cam.winner true (lkeyOfBits key) = none))
    ∧ (∃ (gen : Nat) (cells : BitVec 40) (g : GLookup) (s : State), (up s = true) ∧ (gen = s.sk.gen.toNat) ∧ (s.sk.pending = [g]) ∧ (g.inFlight = true) ∧ (s.sk.readWindow cells = none))
    ∧ (∃ (gen : Nat) (cells : BitVec 40) (g : GLookup) (w : Option (Nat × Nat)) (s : State), (up s = true) ∧ (gen = s.sk.gen.toNat) ∧ (g.gen = gen) ∧ (s.sk.pending = [g]) ∧ (g.inFlight = true) ∧ (g.cmds = []) ∧ (g.msgs = []) ∧ (g.epoch = s.sk.epoch.toNat) ∧ (s.sk.readWindow cells = some w))
    ∧ (∃ (ctrl sq cid : Nat) (c : Cmd) (s : State), (up s = true) ∧ (s.cmd? ctrl sq cid = some c) ∧ (c.phase = .waitChain) ∧ (c.forwardedFrom = none) ∧ (s.fe.hasQueue c.ctrl c.sq = true))
    ∧ (∃ (s : State), (s.serving = true)) :=
  ⟨⟨stacked, by decide⟩,
   ⟨3, 0, { stacked with sk := { stacked.sk with electing := true } }, by decide⟩,
   ⟨3, 5, stacked, by decide⟩,
   ⟨3, 0, served, by decide⟩,
   ⟨{ stacked with sk := { stacked.sk with role := 1, beacon := 0 } }, by decide⟩,
   ⟨0, { rot := 77, beacon := 3 }, stacked, by decide⟩,
   ⟨0, 3, 15, { rot := 77 }, [0], [], { stacked with sk := { stacked.sk with outbox := [(3, 15, [0])] } }, by decide⟩,
   ⟨0, { rot := 77 }, { stacked with sk := { stacked.sk with gen := 1 } }, by decide⟩,
   ⟨looking, { stacked with sk := { stacked.sk with pending := [looking] } }, by decide⟩,
   ⟨3, 9, stacked, by decide⟩,
   ⟨true, 5, 9, { stacked with sk := { stacked.sk with role := 1 } }, by decide⟩,
   ⟨3, 0, 0xFFFFFFFFFF, stacked, by decide⟩,
   ⟨3, 0, true, 5, served, by decide⟩,
   ⟨3, 0, 5, stacked, by decide⟩,
   ⟨0, 0xFFFFFFFFF8, flying, { stacked with sk := { stacked.sk with pending := [flying] } }, by decide⟩,
   ⟨0, 0xFFFFFFFFFF, flying, none, { stacked with sk := { stacked.sk with pending := [flying] } }, by decide⟩,
   ⟨1, 1, 7, waiting .waitChain, waits .waitChain, by decide⟩,
   ⟨served, by decide⟩⟩

/-- The hypotheses of `Chain_messages_complete`, clause by clause, are met. -/
theorem witness_Chain_messages_complete :
    (∃ (h : ChainHdr) (s : State), (s.hears h = true) ∧ (s.sk.change = none) ∧ (s.sk.joining = 0))
    ∧ (∃ (h : ChainHdr) (driveId : Bytes) (s : State), (s.hears h = true) ∧ (s.cam.dir.any (fun p => p.2.disabled && p.2.isGlobal) = false))
    ∧ (∃ (h : ChainHdr) (pos : Nat) (s : State), (s.hears h = true) ∧ (pos ≠ s.pw.pos) ∧ (pos < 16))
    ∧ (∃ (h : ChainHdr) (a : Nat) (s : State), (s.hears h = true))
    ∧ (∃ (h : ChainHdr) (a : Nat) (w : BitVec 64) (s : State), (s.hears h = true))
    ∧ (∃ (h : ChainHdr) (s : State), (s.hears h = true) ∧ (s.sk.isMember h.src = true) ∧ (s.sk.flushDue = false) ∧ (s.sk.rows.all (·.replica) = true))
    ∧ (∃ (h : ChainHdr) (a : Nat) (n m : BitVec 32) (s : State), (s.hears h = true))
    ∧ (∃ (h : ChainHdr) (cs : List (Nat × Nat × Nat)) (s : State), (s.hears h = true) ∧ (cs.all (·.1 != s.pw.pos) = true))
    ∧ (∃ (h : ChainHdr) (a n : Nat) (s : State), (s.hears h = true))
    ∧ (∃ (s : State), (up s = true) ∧ (s.sk.linked = true) ∧ (s.sk.wins = [(3, 7, 2), (3, 7, 1)]))
    ∧ (∃ (h : ChainHdr) (ws : List (Nat × Nat × BitVec 64)) (s : State), (s.hears h = true) ∧ (s.sk.joining ≠ 1))
    ∧ (∃ (h : ChainHdr) (pos a : Nat) (w : BitVec 64) (s : State), (s.hears h = true) ∧ (s.sk.joining = 1) ∧ (s.cam.globals = []) ∧ (s.sk.gather = 0) ∧ (s.cam.dir.any (fun p => p.2.disabled && p.2.isGlobal) = false))
    ∧ (∃ (m : MsgReq) (s : State), (messageOk 0x07 0x01 m s = true) ∧ (m.payload = 1 :: List.replicate 16 5) ∧ (s.sk.enabled = false))
    ∧ (∃ (m : MsgReq) (s : State), (messageOk 0x07 0x01 m s = true) ∧ (m.payload = List.replicate 17 0) ∧ (s.mayNotLeave = false) ∧ (s.sk.partakes = true))
    ∧ (∃ (m : MsgReq) (s : State), (messageOk 0x07 0x02 m s = true) ∧ (m.payload = []))
    ∧ (∃ (m : MsgReq) (s : State), (messageOk 0x07 0x03 m s = true) ∧ (m.payload = []) ∧ (s.mayNotLeave = false) ∧ (s.sk.partakes = true)) :=
  ⟨⟨peerHdr, stacked, by decide⟩,
   ⟨peerHdr, [], stacked, by decide⟩,
   ⟨peerHdr, 3, stacked, by decide⟩,
   ⟨peerHdr, 7, stacked, by decide⟩,
   ⟨peerHdr, 7, 5, stacked, by decide⟩,
   ⟨peerHdr, stacked, by decide⟩,
   ⟨peerHdr, 7, 1, 0xFFFFFFFF, stacked, by decide⟩,
   ⟨peerHdr, [(3, 7, 2)], stacked, by decide⟩,
   ⟨peerHdr, 0, 2, { policed with sk := stacked.sk }, by decide⟩,
   ⟨{ stacked with sk := { stacked.sk with wins := [(3, 7, 2), (3, 7, 1)] } }, by decide⟩,
   ⟨peerHdr, [(3, 7, 5)], stacked, by decide⟩,
   ⟨peerHdr, 3, 7, 5, { stacked with sk := { stacked.sk with st := 1, joining := 1 } }, by decide⟩,
   ⟨msg (1 :: List.replicate 16 5), sealedUp, by decide⟩,
   ⟨msg (List.replicate 17 0), stacked, by decide⟩,
   ⟨msg [], stacked, by decide⟩,
   ⟨msg [], stacked, by decide⟩⟩

/-- The hypotheses of `Link_and_flow_control_events_complete`, clause by clause, are met. -/
theorem witness_Link_and_flow_control_events_complete :
    (∃ (port : Nat) (partner : BitVec 8) (eee : Bool) (wake : Nat) (ty : PhyType) (s : State), (up s = true) ∧ ((s.port port).startDisabled = false) ∧ ((s.port port).gatedPs4 = false) ∧ ((s.port port).cfg.types ≠ 0) ∧ ((s.port port).link = none) ∧ (commonType (s.port port).cfg.types partner = some ty))
    ∧ (∃ (port : Nat) (s : State), (up s = true) ∧ ((s.port port).startDisabled = false) ∧ ((s.port port).gatedPs4 = false) ∧ ((s.port port).cfg.types ≠ 0) ∧ ((s.port port).link = none))
    ∧ (∃ (port : Nat) (ty : PhyType) (s : State), (up s = true) ∧ ((s.port port).link = some ty) ∧ ((s.port port).probe = none))
    ∧ (∃ (port : Nat) (ty : PhyType) (s : State), (up s = true) ∧ ((s.port port).link = some ty) ∧ ((s.port port).probe = none))
    ∧ (∃ (port quanta : Nat) (ty : PhyType) (s : State), (up s = true) ∧ ((s.port port).link = some ty) ∧ ((s.port port).cfg.flow = 1) ∧ ((s.port port).broken = List.replicate 8 false))
    ∧ (∃ (port quanta : Nat) (ty : PhyType) (s : State), (up s = true) ∧ ((s.port port).link = some ty) ∧ ((s.port port).cfg.flow ≠ 1))
    ∧ (∃ (port : Nat) (enable : BitVec 8) (quanta : List Nat) (ty : PhyType) (s : State), (up s = true) ∧ ((s.port port).link = some ty) ∧ ((s.port port).cfg.flow = 2) ∧ ((s.port port).broken = List.replicate 8 false))
    ∧ (∃ (port prio : Nat) (s : State), (up s = true))
    ∧ (∃ (port prio : Nat) (ty : PhyType) (s : State), (up s = true) ∧ ((s.port port).link = some ty) ∧ ((s.port port).cfg.paces prio = true) ∧ ((s.port port).ownBroken.getD prio false = false))
    ∧ (∃ (port prio : Nat) (ty : PhyType) (s : State), (up s = true) ∧ ((s.port port).link = some ty) ∧ ((s.port port).cfg.paces prio = true) ∧ ((s.port port).xoff.getD prio false = true))
    ∧ (∃ (port prio : Nat) (s : State), (up s = true) ∧ ((s.port port).cfg.flow = 2) ∧ ((s.port port).held.getD prio false = true) ∧ ((s.port port).txq.getD prio [] ≠ []))
    ∧ (∃ (port prio : Nat) (s : State), (up s = true) ∧ ((s.port port).broken.getD prio false = true))
    ∧ (∃ (port prio : Nat) (s : State), (up s = true) ∧ ((s.port port).xoff.getD prio false = true)) :=
  ⟨⟨1, 6, true, 20, .kr2, served, by decide⟩,
   ⟨1, served, by decide⟩,
   ⟨1, .kr4, linked queuedPort, by decide⟩,
   ⟨1, .kr4, linked queuedPort, by decide⟩,
   ⟨1, 5, .kr4, linked pausePort, by decide⟩,
   ⟨1, 5, .kr4, linked queuedPort, by decide⟩,
   ⟨1, 5, [1], .kr4, linked queuedPort, by decide⟩,
   ⟨1, 3, linked queuedPort, by decide⟩,
   ⟨1, 3, .kr4, linked queuedPort, by decide⟩,
   ⟨1, 3, .kr4, linked xoffPort, by decide⟩,
   ⟨1, 3, linked { queuedPort with held := [false, false, false, true, false, false, false, false] }, by decide⟩,
   ⟨1, 3, linked { queuedPort with broken := [false, false, false, true, false, false, false, false] }, by decide⟩,
   ⟨1, 3, linked xoffPort, by decide⟩⟩

/-- The hypotheses of `Frames_and_port_messages_complete`, clause by clause, are met. -/
theorem witness_Frames_and_port_messages_complete :
    (∃ (port : Nat) (f : Frame) (ty : PhyType) (s : State), (up s = true) ∧ ((s.port port).link = some ty) ∧ (9216 < f.len))
    ∧ (∃ (port : Nat) (f : Frame) (ty : PhyType) (s : State), (up s = true) ∧ ((s.port port).link = some ty) ∧ (64 ≤ f.len) ∧ (f.len ≤ 9216) ∧ (f.fcsOk = false))
    ∧ (∃ (port : Nat) (f : Frame) (ty : PhyType) (s : State), (up s = true) ∧ ((s.port port).link = some ty) ∧ (64 ≤ f.len) ∧ (f.len ≤ 9216) ∧ (f.fcsOk = true) ∧ (f.sTag = false) ∧ (f.vlan = none) ∧ (f.dest = 0xFFFFFFFFFFFF#48) ∧ ((s.port port).cfg.paces 0 = false) ∧ (f.full = false))
    ∧ (∃ (port : Nat) (f : Frame) (ty : PhyType) (s : State), (up s = true) ∧ ((s.port port).link = some ty) ∧ (64 ≤ f.len) ∧ (f.len ≤ 9216) ∧ (f.fcsOk = true) ∧ (f.sTag = false) ∧ (f.vlan = none) ∧ (f.dest = 0xFFFFFFFFFFFF#48) ∧ ((s.port port).cfg.paces 0 = false) ∧ (f.full = true))
    ∧ (∃ (port q : Nat) (f : TxFrame) (rest : List TxFrame) (ty : PhyType) (s : State), (up s = true) ∧ ((s.port port).link = some ty) ∧ ((s.port port).nextQueue s.free = some q) ∧ ((s.port port).txq.getD q [] = f :: rest) ∧ (f.wantsTs = false) ∧ (f.probe = false) ∧ ((s.port port).probe = none))
    ∧ (∃ (port : Nat) (e : TsEntry) (rest : List TsEntry) (s : State), (up s = true) ∧ ((s.port port).tsq = e :: rest) ∧ (e.probe = false) ∧ ((s.port port).probe = none))
    ∧ (∃ (port : Nat) (ty : PhyType) (s : State), (up s = true) ∧ ((s.port port).link = some ty) ∧ ((s.port port).eee = true) ∧ ((s.port port).wakeUs ≤ s.wakeLimit port) ∧ ((s.port port).txq = List.replicate 8 []) ∧ ((s.port port).xoff = List.replicate 8 false) ∧ (3 ≤ s.pw.psNow ∨ (s.port port).cfg.services.getLsbD 3 = true))
    ∧ (∃ (conn : Nat) (k : Conn) (s : State), (up s = true) ∧ (s.fe.conn? conn = some k) ∧ (k.rdma = true) ∧ (k.cnpSent ≤ s.mono))
    ∧ (∃ (conn : Nat) (s : State), (up s = true))
    ∧ (∃ (m : MsgReq) (port n len : Nat) (ty : PhyType) (s : State), (messageOk 0x0A 0x10 m s = true) ∧ (m.payload.length = 16) ∧ (natAt m.payload 0 1 = port) ∧ (port < 2) ∧ (natAt m.payload 1 1 = 255 ∨ (s.port port).ifs.any (·.index == natAt m.payload 1 1) = true) ∧ (natAt m.payload 2 2 = n) ∧ (1 ≤ n) ∧ (n ≤ 1024) ∧ (natAt m.payload 4 2 = len) ∧ (64 ≤ len) ∧ (len ≤ 9216) ∧ (len ≤ (s.port port).cfg.mtu + 22) ∧ (natAt m.payload 12 4 = 0) ∧ ((s.port port).link = some ty) ∧ ((s.port port).probe = none))
    ∧ (∃ (m : MsgReq) (s : State), (messageOk 0x0E 0x02 m s = true) ∧ (m.payload = []) ∧ (s.pt.a.cnt.prio.length = 8) ∧ (s.pt.b.cnt.prio.length = 8))
    ∧ (∃ (m : MsgReq) (s : State), (messageOk 0x0E 0x03 m s = true) ∧ (m.payload = []))
    ∧ (∃ (m : MsgReq) (port : Nat) (c : PortCfg) (s : State), (messageOk 0x01 0x0C m s = true) ∧ (m.payload.length = 64) ∧ (portCfgBad m.payload = none) ∧ (natAt m.payload 0 1 = port) ∧ (portCfgOf m.payload = c))
    ∧ (∃ (m : MsgReq) (port : Nat) (s : State), (messageOk 0x01 0x0D m s = true) ∧ (m.payload.length = 1) ∧ (natAt m.payload 0 1 = port) ∧ (port < 2))
    ∧ (∃ (m : MsgReq) (port : Nat) (i : IpIf) (s : State), (messageOk 0x01 0x0B m s = true) ∧ (m.payload.length = 12 + 16 * natAt m.payload 9 1) ∧ (natAt m.payload 0 1 = port) ∧ (port < 2) ∧ (ipIfOf m.payload = i) ∧ (i.index < 16) ∧ (i.vlan < 4095) ∧ ((s.port port).ifs.any (fun x => x.index ≠ i.index && x.vlan == i.vlan) = false) ∧ (natAt m.payload 8 1 ≤ 32) ∧ (i.ipv6.length ≤ 4) ∧ (natAt m.payload 10 2 = 0) ∧ (s.fe.conns.all (fun k => k.port != port || decide (k.addr ∈ i.addrs port) || !decide (k.addr ∈ (s.port port).ifs.flatMap fun x => x.addrs port)) = true) ∧ ((s.tm.ptpPort port).enabled = false)) :=
  ⟨⟨1, { goodFrame with len := 9217 }, .kr4, linked queuedPort, by decide⟩,
   ⟨1, { goodFrame with fcsOk := false }, .kr4, linked queuedPort, by decide⟩,
   ⟨1, goodFrame, .kr4, linked queuedPort, by decide⟩,
   ⟨1, { goodFrame with full := true }, .kr4, linked queuedPort, by decide⟩,
   ⟨1, 3, txOne, [], .kr4, linked queuedPort, by decide⟩,
   ⟨1, { time := 1, tag := 2, queue := 3, probe := false }, [], linked { queuedPort with tsq := [{ time := 1, tag := 2, queue := 3, probe := false }] }, by decide⟩,
   ⟨1, .kr4, linked { link := some .kr4, eee := true, wakeUs := 20, cfg := { services := 9 } }, by decide⟩,
   ⟨7, conn7, served, by decide⟩,
   ⟨7, served, by decide⟩,
   ⟨msg ([1, 255, 4, 0, 100, 0, 1, 2, 3, 4, 5, 6, 0, 0, 0, 0]), 1, 4, 100, .kr4, linked queuedPort, by decide⟩,
   ⟨msg [], served, by decide⟩,
   ⟨msg [], served, by decide⟩,
   ⟨msg (({} : PortCfg).bytes 1), 1, portCfgOf (({} : PortCfg).bytes 1), served, by decide⟩,
   ⟨msg [1], 1, served, by decide⟩,
   ⟨msg [1, 3, 9, 0, 0, 0, 0, 0, 0, 0, 0, 0], 1, { index := 3, vlan := 9, ipv4 := none, ipv6 := [] }, served, by decide⟩⟩

/-- The hypotheses of `Time_events_and_messages_complete`, clause by clause, are met. -/
theorem witness_Time_events_and_messages_complete :
    (∃ (port : Nat) (an : Announce) (s : State), (up s = true) ∧ (s.tm.servoOn = true) ∧ ((s.tm.ptpPort port).enabled = true) ∧ ((s.tm.ptpPort port).usable = true) ∧ (an.domain ≠ s.tm.domain))
    ∧ (∃ (port : Nat) (an : Announce) (s : State), (up s = true) ∧ (s.tm.servoOn = true) ∧ ((s.tm.ptpPort port).enabled = true) ∧ ((s.tm.ptpPort port).usable = true) ∧ (an.domain = s.tm.domain) ∧ (an.transport = (s.tm.ptpPort port).transport) ∧ (an.iface = (s.tm.ptpPort port).iface) ∧ (0 ≤ an.logInterval) ∧ (an.logInterval ≤ 4) ∧ (s.tm.masters = []) ∧ (s.tm.master = none) ∧ (s.tm.st = .untraced) ∧ (s.tm.pps.qualified = false))
    ∧ (∃ (port : Nat) (offset phase logSync : Int) (mid : Nat) (s : State), (up s = true) ∧ (s.tm.servoOn = true) ∧ (s.tm.master = some (port, mid)) ∧ (-4 ≤ logSync) ∧ (logSync ≤ 1) ∧ (s.tm.ptp.qualified = false) ∧ (s.tm.ptp.run < 15) ∧ ((s.port port).tsMissed = false))
    ∧ (∃ (port : Nat) (offset phase logSync : Int) (mid : Nat) (s : State), (up s = true) ∧ (s.tm.servoOn = true) ∧ (s.tm.master = some (port, mid)) ∧ (-4 ≤ logSync) ∧ (logSync ≤ 1))
    ∧ (∃ (port mid : Nat) (s : State), (up s = true) ∧ (s.tm.master = some (port, mid)) ∧ (s.tm.masters.all (·.port == port) = true) ∧ (s.tm.st = .untraced) ∧ (s.tm.pps.qualified = false))
    ∧ (∃ (offset : Int) (gapMs e : Nat) (s : State), (up s = true) ∧ (s.tm.servoOn = true) ∧ (s.tm.ppsOn = true) ∧ (s.tm.lastEdge = some e) ∧ (gapMs < 500))
    ∧ (∃ (offset : Int) (gapMs e : Nat) (s : State), (up s = true) ∧ (s.tm.servoOn = true) ∧ (s.tm.ppsOn = true) ∧ (500 ≤ gapMs) ∧ (s.tm.ppsEpoch = some e) ∧ (s.tm.pps.qualified = false) ∧ (s.tm.pps.run < 15))
    ∧ (∃ (s : State), (up s = true) ∧ (s.tm.ppsOn = true) ∧ (s.tm.st = .untraced) ∧ (s.tm.ptp.qualified = false))
    ∧ (∃ (s : State), (up s = true) ∧ (s.tm.st = .holdover) ∧ (s.tm.ptp.qualified = false) ∧ (s.tm.pps.qualified = false))
    ∧ (∃ (s : State), (up s = true) ∧ (s.tm.leap = 1) ∧ (s.tm.leapNow = false) ∧ (s.tm.leapDay = none))
    ∧ (∃ (s : State), (up s = true) ∧ (s.tm.leap = 2) ∧ (s.tm.leapNow = false) ∧ (s.tm.leapDay = none))
    ∧ (∃ (port mid : Nat) (s : State), (up s = true) ∧ (s.tm.servoOn = true) ∧ (s.tm.master = some (port, mid)))
    ∧ (∃ (m : MsgReq) (s : State), (messageOk 0x0C 0x01 m s = true) ∧ (m.payload = []) ∧ (s.tm.st = .untraced))
    ∧ (∃ (m : MsgReq) (s : State), (messageOk 0x0C 0x02 m s = true) ∧ (m.payload = [0, 0, 0, 0, 9, 1, 1, 0, 200, 0, 0, 0, 0, 0, 0, 0]) ∧ (s.tm.st = .untraced) ∧ (s.tm.pps.qualified = false) ∧ (s.tm.ptp.qualified = false))
    ∧ (∃ (m : MsgReq) (e : Nat) (s : State), (messageOk 0x0C 0x03 m s = true) ∧ (m.payload = [5, 0, 0, 0, 0, 0, 0, 0, 1, 0, 0, 0, 7, 0, 0, 0]) ∧ (s.tm.ppsOn = true) ∧ (s.tm.lastEdge = some e) ∧ (s.mono ≤ e + 2000000000) ∧ (s.tm.pps.qualified = true ∨ s.tm.pps.run < 16))
    ∧ (∃ (m : MsgReq) (p : Span) (s : State), (messageOk 0x0C 0x04 m s = true) ∧ (m.payload = []) ∧ (s.tm.spans = [p]) ∧ (p.trace = none)) :=
  ⟨⟨0, { announceOne with domain := 4 }, ptpTime, by decide⟩,
   ⟨0, announceOne, ptpTime, by decide⟩,
   ⟨0, 5, -7, 0, 3, mastered, by decide⟩,
   ⟨0, 5, -7, 0, 3, mastered, by decide⟩,
   ⟨0, 3, mastered, by decide⟩,
   ⟨5, 499, 0, ppsTime, by decide⟩,
   ⟨5, 500, 9, ppsTime, by decide⟩,
   ⟨ppsTime, by decide⟩,
   ⟨{ ppsTime with tm := { ppsTime.tm with st := .holdover } }, by decide⟩,
   ⟨{ ppsTime with tm := { ppsTime.tm with leap := 1 } }, by decide⟩,
   ⟨{ ppsTime with tm := { ppsTime.tm with leap := 2 } }, by decide⟩,
   ⟨0, 3, mastered, by decide⟩,
   ⟨msg [], served, by decide⟩,
   ⟨msg [0, 0, 0, 0, 9, 1, 1, 0, 200, 0, 0, 0, 0, 0, 0, 0], served, by decide⟩,
   ⟨msg [5, 0, 0, 0, 0, 0, 0, 0, 1, 0, 0, 0, 7, 0, 0, 0], 0, ppsTime, by decide⟩,
   ⟨msg [], { first := 1, last := 4, trace := none }, { served with tm := { served.tm with spans := [{ first := 1, last := 4, trace := none }] } }, by decide⟩⟩

/-- The hypotheses of `Microwords_complete`, clause by clause, are met. -/
theorem witness_Microwords_complete :
    (∃ (u : EngineId) (s : State), (s.standsAt u 0 = true) ∧ (s.wordFails u = false) ∧ ((s.engine u).waiting = false))
    ∧ (∃ (u : EngineId) (s : State), (s.standsAt u 1 = true) ∧ (s.wordFails u = false) ∧ ((s.engine u).waiting = false) ∧ ((s.engine u).prog = none ∨ (s.engine u).forerunner = true))
    ∧ (∃ (u : EngineId) (s : State), (s.standsAt u 1 = true) ∧ (s.wordFails u = false) ∧ ((s.engine u).waiting = false) ∧ ((s.engine u).prog.isSome = true) ∧ ((s.engine u).forerunner = false) ∧ (mwTgt (s.me.word u (s.engine u).pc) < (s.engine u).pc) ∧ ((s.engine u).abortReq = false) ∧ ((s.engine u).suspendReq = true))
    ∧ (∃ (u : EngineId) (s : State), (s.standsAt u 2 = true) ∧ (s.wordFails u = false) ∧ ((s.engine u).waiting = false) ∧ ((s.engine u).abortReq = false) ∧ ((s.engine u).suspendReq = false))
    ∧ (∃ (u : EngineId) (s : State), (s.standsAt u 3 = true) ∧ (s.wordFails u = false) ∧ ((s.engine u).waiting = false) ∧ ((s.engine u).stack.length < (if (s.engine u).prog.isSome then 4 else 8)))
    ∧ (∃ (u : EngineId) (a : Nat) (rest : List Nat) (s : State), (s.standsAt u 4 = true) ∧ (s.wordFails u = false) ∧ ((s.engine u).waiting = false) ∧ ((s.engine u).stack = a :: rest))
    ∧ (∃ (u : EngineId) (s : State), (s.standsAt u 5 = true) ∧ (s.wordFails u = false) ∧ ((s.engine u).waiting = false) ∧ ((s.engine u).abortReq = false ∨ (s.engine u).forerunner = true))
    ∧ (∃ (n : Nat) (s : State), (s.standsAt (.wick n) 6 = true) ∧ (s.wordFails (.wick n) = false) ∧ ((s.engine (.wick n)).waiting = false))
    ∧ (∃ (n : Nat) (s : State), (s.standsAt (.wick n) 6 = true) ∧ ((s.engine (.wick n)).waiting = true))
    ∧ (∃ (n : Nat) (s : State), (s.standsAt (.taper n) 6 = true))
    ∧ (∃ (u : EngineId) (s : State), (s.standsAt u 7 = true) ∧ (s.wordFails u = false) ∧ ((s.engine u).waiting = false) ∧ ((s.engine u).prog = none) ∧ ((s.engine u).heldFault = none) ∧ ((s.engine u).abortReq = false) ∧ (s.fe.jobs = []) ∧ (s.me.unloads = []) ∧ (s.me.progs.all (fun p => !p.draining) = true) ∧ (s.fl.cmds = []))
    ∧ (∃ (n : Nat) (c : Cmd) (p : Program) (s : State), (s.standsAt (.wick n) 7 = true) ∧ (s.wordFails (.wick n) = false) ∧ ((s.engine (.wick n)).waiting = false) ∧ (s.me.wick.filter (fun x => x.1 != n) = []) ∧ (s.progOf (s.engine (.wick n)) = some p) ∧ (s.me.prog? (fieldsOf c.kind c.e).progId = some p) ∧ (s.servedBy (s.engine (.wick n)) = some c) ∧ ((s.engine (.wick n)).heldFault = none) ∧ ((s.engine (.wick n)).abortReq = false) ∧ ((s.engine (.wick n)).drainReq = false) ∧ (c.evals = [((s.engine (.wick n)).keyWindow, none)]) ∧ (((s.firstCycle (.wick n)).engine (.wick n)).cycles ≤ p.keyLimit) ∧ ((((s.firstCycle (.wick n)).engine (.wick n)).reg 1).getLsbD 0 = false) ∧ (s.me.progs.all (fun q => !q.draining) = true) ∧ (c.count = 0) ∧ (c.rateCharged = false) ∧ (c.forwardedFrom = none) ∧ (c.granule = none) ∧ (s.bt.paused = false) ∧ (s.listFrom c.e.nsid (s.engine (.wick n)).keyWindow 240 = []) ∧ (s.fl.cmds = [c]) ∧ (s.fe.jobs = []) ∧ (s.me.unloads = []) ∧ (s.fe.hasQueue c.ctrl c.sq = true))
    ∧ (∃ (n dst due : Nat) (x : BitVec 64) (rest : List (Nat × BitVec 64 × Nat)) (s : State), (up s = true) ∧ ((s.engine (.wick n)).loads = (dst, x, due) :: rest) ∧ ((s.engine (.wick n)).waiting = false) ∧ (dst ≠ 0) ∧ (dst < (s.engine (.wick n)).regs.length))
    ∧ (∃ (n : Nat) (s : State), (up s = true) ∧ ((s.engine (.wick n)).hashBusy = true) ∧ ((s.engine (.wick n)).waiting = false))
    ∧ (∃ (n : Nat) (c : Cmd) (s : State), (up s = true) ∧ ((s.engine (.wick n)).running = true) ∧ ((s.engine (.wick n)).prog.isSome = true) ∧ (s.overLimit (.wick n) = true ∨ (s.engine (.wick n)).waiting = true) ∧ (s.servedBy (s.engine (.wick n)) = some c) ∧ (c.forwardedFrom = none) ∧ (s.fl.cmds = [c]) ∧ (s.fe.jobs = []) ∧ (s.me.unloads = []) ∧ (s.me.progs.all (fun q => !q.draining) = true) ∧ (s.fe.hasQueue c.ctrl c.sq = true))
    ∧ (∃ (ctrl sq cid : Nat) (c : Cmd) (p : Program) (s : State), (up s = true) ∧ (s.cmd? ctrl sq cid = some c) ∧ (c.kind = .filteredList) ∧ (c.phase = .running) ∧ (0 < c.count) ∧ (c.rateCharged = false) ∧ (c.forwardedFrom = none) ∧ (s.fl.cmds = [c]) ∧ (s.me.wick = []) ∧ (s.fe.jobs = []) ∧ (s.me.unloads = []) ∧ (s.me.progs = [p]) ∧ (p.id = (fieldsOf c.kind c.e).progId) ∧ (p.draining = false) ∧ (p.budget ≤ c.spent) ∧ (s.fe.hasQueue c.ctrl c.sq = true))
    ∧ (∃ (n addr : Nat) (s : State), (up s = true) ∧ (n < 64) ∧ ((s.engine (.wick n)).running = true) ∧ ((s.engine (.wick n)).prog = none) ∧ (addr ∈ s.me.ramFetched (.wick n) (s.engine (.wick n)).pc)) :=
  ⟨⟨.wick 5, atWord 0 wordLoop, by decide⟩,
   ⟨.wick 5, atWord 1 factoryLoop, by decide⟩,
   ⟨.wick 5, atWord 1 { wordLoop with suspendReq := true }, by decide⟩,
   ⟨.wick 5, atWord 2 wordLoop, by decide⟩,
   ⟨.wick 5, atWord 3 wordLoop, by decide⟩,
   ⟨.wick 5, 28675, [], atWord 4 { wordLoop with stack := [28675] }, by decide⟩,
   ⟨.wick 5, atWord 5 { wordLoop with suspendReq := true }, by decide⟩,
   ⟨5, atWord 6 wordLoop, by decide⟩,
   ⟨5, atWord 6 { wordLoop with waiting := true }, by decide⟩,
   ⟨3, taperWaits, by decide⟩,
   ⟨.wick 5, atWord 7 factoryLoop, by decide⟩,
   ⟨5, { listingCmd with evals := [([], none)] }, progOne, { listingAt 7 with fl := { served.fl with cmds := [{ listingCmd with evals := [([], none)] }] } }, by and_intros <;> first | decide | simp [State.listFrom, State.keysOf, Index.all, listingAt, atWord, served, State.reset]⟩,
   ⟨5, 3, 9, 0x55, [], atWord 0 { wordLoop with loads := [(3, 0x55, 9)] }, by decide⟩,
   ⟨5, atWord 0 { wordLoop with hashBusy := true }, by decide⟩,
   ⟨5, listingCmd, { listingAt 0 with me := { (listingAt 0).me with wick := [(5, { wordLoop with cycles := 65537 })] } }, by decide⟩,
   ⟨1, 1, 7, { listingCmd with count := 1, spent := 65536 }, progOne, { served with fl := { served.fl with cmds := [{ listingCmd with count := 1, spent := 65536 }] }, me := { served.me with progs := [progOne] } }, by decide⟩,
   ⟨5, 28673, atWord 0 factoryLoop, by decide⟩⟩

/-- The hypotheses of `Program_messages_complete`, clause by clause, are met. -/
theorem witness_Program_messages_complete :
    (∃ (m : MsgReq) (s : State), (messageOk 0x08 0x01 m s = true) ∧ (m.payload = []) ∧ (s.me.progs = []))
    ∧ (∃ (m : MsgReq) (b : Byte) (s : State), (messageOk 0x08 0x02 m s = true) ∧ (m.payload = [5, 0, 0, 0, 1, 0, 0, 0, b]) ∧ (s.me.stagingBy = none ∨ s.me.stagingBy = some m.mbox))
    ∧ (∃ (m : MsgReq) (n : Nat) (s : State), (messageOk 0x08 0x03 m s = true) ∧ (m.payload.length = 4) ∧ (n = natAt m.payload 0 4) ∧ (n ≤ 65536))
    ∧ (∃ (m : MsgReq) (p : Program) (s : State), (messageOk 0x08 0x04 m s = true) ∧ (m.payload = [1, 0]) ∧ (s.me.progs = [p]) ∧ (p.id = 1) ∧ (s.me.wick = []) ∧ (s.me.unloads = []))
    ∧ (∃ (m : MsgReq) (s : State), (messageOk 0x08 0x05 m s = true) ∧ (m.payload = []))
    ∧ (∃ (m : MsgReq) (slot : Nat) (s : State), (messageOk 0x09 0x30 m s = true) ∧ (m.payload.length = 2050) ∧ (natAt m.payload 0 1 = slot) ∧ (slot < 4) ∧ (s.me.keys.length = 4) ∧ (s.me.keys.getD slot none = none))
    ∧ (∃ (m : MsgReq) (slot : Nat) (s : State), (messageOk 0x09 0x31 m s = true) ∧ (m.payload.length = 1) ∧ (natAt m.payload 0 1 = slot) ∧ ((s.me.keys.getD slot none).isSome = true) ∧ (s.me.progs = []) ∧ (s.me.unloads = []))
    ∧ (∃ (m : MsgReq) (s : State), (messageOk 0x09 0x32 m s = true) ∧ (m.payload = []) ∧ (s.me.keys = List.replicate 4 none)) :=
  ⟨⟨msg [], served, by decide⟩,
   ⟨msg [5, 0, 0, 0, 1, 0, 0, 0, 7], 7, served, by decide⟩,
   ⟨msg [64, 0, 0, 0], 64, served, by decide⟩,
   ⟨msg [1, 0], progOne, { served with me := { served.me with progs := [progOne] } }, by decide⟩,
   ⟨msg [], served, by decide⟩,
   ⟨msg (2 :: List.replicate 2049 0), 2, sealedUp, by decide⟩,
   ⟨msg [2], 2, { sealedUp with me := { sealedUp.me with keys := [none, none, some ([], []), none] } }, by decide⟩,
   ⟨msg [], sealedUp, by decide⟩⟩

/-- The hypotheses of `Configuration_messages_complete`, clause by clause, are met. -/
theorem witness_Configuration_messages_complete :
    (∃ (m : MsgReq) (h : HostRow) (s : State), (messageOk 0x01 0x01 m s = true) ∧ (m.payload = [5] ++ List.replicate 223 0 ++ [9, 0, 1]) ∧ (h = { nqn := [5], group := 9, level := 1 }) ∧ (s.fe.host? [5] = none) ∧ (s.fe.hosts.length < 1024))
    ∧ (∃ (m : MsgReq) (h : HostRow) (s : State), (messageOk 0x01 0x01 m s = true) ∧ (m.payload = [5] ++ List.replicate 223 0 ++ [9, 0, 1]) ∧ (h = { nqn := [5], group := 9, level := 1 }) ∧ ((s.fe.host? [5]).isSome = true))
    ∧ (∃ (m : MsgReq) (s : State), (messageOk 0x01 0x02 m s = true) ∧ (m.payload = [1] ++ List.replicate 223 0) ∧ ((s.fe.host? [1]).isSome = true) ∧ (8 ≤ m.mbox) ∧ (s.fe.ctrls.all (·.host != [1]) = true))
    ∧ (∃ (m : MsgReq) (s : State), (messageOk 0x01 0x03 m s = true) ∧ (m.payload = [0, 0]))
    ∧ (∃ (m : MsgReq) (s : State), (messageOk 0x01 0x04 m s = true) ∧ (m.payload = [63, 0, 0, 0, 10, 0, 0, 0]) ∧ ((s.va.retention.getD 63 none).getD 0 ≤ 10))
    ∧ (∃ (m : MsgReq) (s : State), (messageOk 0x01 0x05 m s = true) ∧ (m.payload = [15, 0, 0, 0, 7, 0, 0, 0, 0, 0, 0, 0, 9, 0, 0, 0, 0, 0, 0, 0]))
    ∧ (∃ (m : MsgReq) (s : State), (messageOk 0x01 0x06 m s = true) ∧ (m.payload = [3, 128]))
    ∧ (∃ (m : MsgReq) (s : State), (messageOk 0x01 0x07 m s = true) ∧ (m.payload = [168, 0]))
    ∧ (∃ (m : MsgReq) (s : State), (messageOk 0x01 0x0E m s = true) ∧ (m.payload = [7, 0, 0, 0, 0, 0, 0, 0])) :=
  ⟨⟨msg ([5] ++ List.replicate 223 0 ++ [9, 0, 1]), { nqn := [5], group := 9, level := 1 }, served, by decide⟩,
   ⟨msg ([5] ++ List.replicate 223 0 ++ [9, 0, 1]), { nqn := [5], group := 9, level := 1 }, { served with fe := { served.fe with hosts := [{ nqn := [5], group := 0, level := 2 }] } }, by decide⟩,
   ⟨msg ([1] ++ List.replicate 223 0), { served with fe := { served.fe with ctrls := [] } }, by decide⟩,
   ⟨msg [0, 0], served, by decide⟩,
   ⟨msg [63, 0, 0, 0, 10, 0, 0, 0], served, by decide⟩,
   ⟨msg [15, 0, 0, 0, 7, 0, 0, 0, 0, 0, 0, 0, 9, 0, 0, 0, 0, 0, 0, 0], served, by decide⟩,
   ⟨msg [3, 128], served, by decide⟩,
   ⟨msg [168, 0], served, by decide⟩,
   ⟨msg [7, 0, 0, 0, 0, 0, 0, 0], served, by decide⟩⟩

/-- The hypotheses of `Health_and_goal_messages_complete`, clause by clause, are met. -/
theorem witness_Health_and_goal_messages_complete :
    (∃ (m : MsgReq) (s : State), (messageOk 0x0E 0x01 m s = true) ∧ (m.payload = []))
    ∧ (∃ (m : MsgReq) (s : State), (messageOk 0x0E 0x04 m s = true) ∧ (m.payload = []))
    ∧ (∃ (m : MsgReq) (s : State), (messageOk 0x02 0x01 m s = true) ∧ (m.payload = [70, 0, 55, 0, 100, 0, 0, 0, 1, 0, 0, 0, 0, 0, 0, 0]))
    ∧ (∃ (m : MsgReq) (s : State), (messageOk 0x02 0x02 m s = true) ∧ (m.payload = []))
    ∧ (∃ (m : MsgReq) (s : State), (messageOk 0x02 0x03 m s = true) ∧ (m.payload = []))
    ∧ (∃ (m : MsgReq) (i : CalItem) (s : State), (messageOk 0x03 0x01 m s = true) ∧ (m.payload = [0, 3, 1, 0]) ∧ (s.ck.factory = [i]) ∧ (i.item = 0x300))
    ∧ (∃ (m : MsgReq) (i : CalItem) (s : State), (messageOk 0x03 0x02 m s = true) ∧ (m.payload = [1, 0, 0, 3, 0, 0, 5, 0, 0, 0]) ∧ (s.ck.factory = [i]) ∧ (i.item = 0x300) ∧ (calAdjustable i.cat = true) ∧ (s.ck.user = []) ∧ (i.min ≤ i.value + 5) ∧ (i.value + 5 ≤ i.max))
    ∧ (∃ (m : MsgReq) (s : State), (messageOk 0x03 0x03 m s = true) ∧ (m.payload = [0]))
    ∧ (∃ (m : MsgReq) (s : State), (messageOk 0x03 0x04 m s = true) ∧ (m.payload = [0, 0, 0, 0, 32, 0, 0, 0])) :=
  ⟨⟨msg [], served, by decide⟩,
   ⟨msg [], served, by decide⟩,
   ⟨msg [70, 0, 55, 0, 100, 0, 0, 0, 1, 0, 0, 0, 0, 0, 0, 0], served, by decide⟩,
   ⟨msg [], served, by decide⟩,
   ⟨msg [], served, by decide⟩,
   ⟨msg [0, 3, 1, 0], itemOne, calibrated, by decide⟩,
   ⟨msg [1, 0, 0, 3, 0, 0, 5, 0, 0, 0], itemOne, calibrated, by decide⟩,
   ⟨msg [0], calibrated, by decide⟩,
   ⟨msg [0, 0, 0, 0, 32, 0, 0, 0], calibrated, by decide⟩⟩

/-- The hypotheses of `Module_events_complete`, clause by clause, are met. -/
theorem witness_Module_events_complete :
    (∃ (s : State), (s.pw.pwrDis = false) ∧ (s.pw.load = false))
    ∧ (∃ (s : State), (s.pw.phase = .serving) ∧ (s.pw.pwrDis = false) ∧ (s.pw.load = true))
    ∧ (∃ (s : State), (s.pw.pwrDis = true) ∧ (s.pw.p12v = true) ∧ (s.pw.aux = true) ∧ (s.pw.hotSwap = true) ∧ (s.pw.junctionHold = false) ∧ (s.pw.thermalHold = false))
    ∧ (∃ (s : State), (s.pw.p12v = true))
    ∧ (∃ (s : State), (up s = true) ∧ (s.pw.p12v = true))
    ∧ (∃ (s : State), (s.pw.phase = .off) ∧ (s.pw.p12v = true) ∧ (s.pw.load = true) ∧ (s.pw.hotSwap = true) ∧ (s.pw.pwrDis = false) ∧ (s.pw.junctionHold = false) ∧ (s.pw.thermalHold = false))
    ∧ (∃ (s : State), (s.pw.p12v = true))
    ∧ (∃ (readings : List Int) (s : State), (s.pw.phase = .off) ∧ (s.mb.endpoint = true) ∧ (readings.length = 8) ∧ (s.ck.applied = []) ∧ (s.pw.overThr = List.replicate 8 2000) ∧ (s.pw.underThr = List.replicate 8 (-2000)) ∧ (readings.all (fun r => decide (-2000 < r) && decide (r < 2000)) = true))
    ∧ (∃ (readings : List Int) (s : State), (up s = true) ∧ (s.mb.endpoint = true) ∧ (readings.length = 8) ∧ (s.ck.applied = []) ∧ (atLimit readings shutdownLimits = true))
    ∧ (∃ (s : State), (atLimit s.pw.sensors criticalLimits = false) ∧ (s.pw.phase = .off) ∧ (s.pw.thermalHold = true) ∧ (s.pw.pwrDis = false) ∧ (s.pw.p12v = true) ∧ (s.pw.aux = true) ∧ (s.pw.hotSwap = true) ∧ (s.pw.junctionHold = false))
    ∧ (∃ (s : State), (up s = true))
    ∧ (∃ (port : Nat) (ty : PhyType) (s : State), (up s = true) ∧ (port < 2) ∧ ((s.port port).link = some ty) ∧ ((s.port port).probe = none))
    ∧ (∃ (d : Nat) (gate : Bool) (s : State), (up s = true) ∧ (d < 28) ∧ (s.pw.psNow ≤ 2)) :=
  ⟨⟨{ served with pw := { served.pw with load := false } }, by decide⟩,
   ⟨served, by decide⟩,
   ⟨{ served with pw := { served.pw with pwrDis := true, load := false, phase := .off, p12v := true, aux := true, hotSwap := true } }, by decide⟩,
   ⟨{ served with pw := { served.pw with p12v := true } }, by decide⟩,
   ⟨{ served with pw := { served.pw with p12v := true } }, by decide⟩,
   ⟨{ served with pw := { served.pw with phase := .off, p12v := true, load := true, hotSwap := true } }, by decide⟩,
   ⟨{ served with pw := { served.pw with p12v := true } }, by decide⟩,
   ⟨List.replicate 8 300, { served with pw := { served.pw with phase := .off, overThr := List.replicate 8 2000, underThr := List.replicate 8 (-2000) } }, by decide⟩,
   ⟨[300, 300, 300, 300, 300, 300, 300, 600], served, by decide⟩,
   ⟨{ served with pw := { served.pw with phase := .off, thermalHold := true, p12v := true, aux := true, hotSwap := true } }, by decide⟩,
   ⟨served, by decide⟩,
   ⟨1, .kr4, linked queuedPort, by decide⟩,
   ⟨27, true, served, by decide⟩⟩

/-- The hypotheses of `Lifecycle_and_debug_commands_complete`, clause by clause, are met. -/
theorem witness_Lifecycle_and_debug_commands_complete :
    (∃ (m : MsgReq) (s : State), (messageOk 0x09 0x50 m s = true) ∧ (m.payload = []) ∧ (s.lifecycle = .blank) ∧ (s.li.level = 0) ∧ (s.fl.cmds = []))
    ∧ (∃ (m : MsgReq) (s : State), (messageOk 0x09 0x51 m s = true) ∧ (m.payload = s.driveId) ∧ (s.lifecycle = .isSealed) ∧ (s.va.ns = []) ∧ (s.paired = false) ∧ (s.sk.joinedNow = false) ∧ (s.fl.cmds = []))
    ∧ (∃ (m : MsgReq) (s : State), (messageOk 0x09 0x48 m s = true) ∧ (m.payload.length = 32) ∧ (s.ky.signOff = false))
    ∧ (∃ (m : MsgReq) (s : State), (messageOk 0x09 0x40 m s = true) ∧ (m.payload = []) ∧ (s.li.waitUntil ≤ s.mono))
    ∧ (∃ (m : MsgReq) (s : State), (messageOk 0x09 0x41 m s = true) ∧ (m.payload.length = 3485) ∧ (natAt m.payload 5 1 = 1) ∧ (s.li.curtainReq = none) ∧ (s.li.nonce = none))
    ∧ (∃ (m : MsgReq) (s : State), (messageOk 0x09 0x41 m s = true) ∧ (m.payload.length = 3485) ∧ (natAt m.payload 5 1 = 1) ∧ (s.li.curtainReq = none))
    ∧ (∃ (m : MsgReq) (s : State), (messageOk 0x09 0x41 m s = true) ∧ (m.payload.length = 3485) ∧ (natAt m.payload 5 1 = 2) ∧ (s.li.curtainReq = none) ∧ (s.lifecycle = .isSealed) ∧ (s.tw.role = .solo) ∧ (s.bt.committing = false) ∧ (s.fl.cmds = []))
    ∧ (∃ (m : MsgReq) (s : State), (s.serving = true) ∧ (s.li.curtainReq = some m) ∧ (s.fl.cmds = []) ∧ (s.og.fills = []) ∧ (s.ky.open_ = none) ∧ (s.ky.waiting = []))
    ∧ (∃ (m : MsgReq) (s : State), (messageOk 0x09 0x42 m s = true) ∧ (m.payload = []) ∧ (s.li.level = 1))
    ∧ (∃ (s : State), (up s = true) ∧ (s.li.level = 1))
    ∧ (∃ (m : MsgReq) (slot : Nat) (s : State), (messageOk 0x09 0x43 m s = true) ∧ (m.payload.length = 2050) ∧ (natAt m.payload 0 1 = slot) ∧ (slot < 2) ∧ (s.li.keys.length = 2) ∧ (s.li.keys.getD slot none = none))
    ∧ (∃ (m : MsgReq) (slot : Nat) (s : State), (messageOk 0x09 0x44 m s = true) ∧ (m.payload.length = 1) ∧ (natAt m.payload 0 1 = slot) ∧ ((s.li.keys.getD slot none).isSome = true))
    ∧ (∃ (m : MsgReq) (s : State), (messageOk 0x09 0x45 m s = true) ∧ (m.payload = []))
    ∧ (∃ (s : State), (s.serving = true) ∧ (s.lifecycle = .isSealed) ∧ (3 ≤ s.pw.psHost) ∧ (s.pw.psLastOp < 3) ∧ (s.pw.critical = false))
    ∧ (∃ (s : State), (s.serving = true) ∧ (s.lifecycle ≠ .isSealed)) :=
  ⟨⟨msg [], blank, by decide⟩,
   ⟨msg emptyDrive.driveId, emptyDrive, ⟨retire_ok, rfl, by decide, by decide, by decide, by decide, by decide⟩⟩,
   ⟨msg (List.replicate 32 0), served, by decide⟩,
   ⟨msg [], served, by decide⟩,
   ⟨msg (List.replicate 5 0 ++ [1] ++ List.replicate 3479 0), served, by decide⟩,
   ⟨msg (List.replicate 5 0 ++ [1] ++ List.replicate 3479 0), served, by decide⟩,
   ⟨msg (List.replicate 5 0 ++ [2] ++ List.replicate 3479 0), served, by decide⟩,
   ⟨msg (List.replicate 5 0 ++ [2] ++ List.replicate 3479 0), { served with fl := { served.fl with curtain := true }, li := { served.li with curtainReq := some (msg (List.replicate 5 0 ++ [2] ++ List.replicate 3479 0)) } }, by decide⟩,
   ⟨msg [], { served with li := { served.li with level := 1, d1End := some 5 } }, by decide⟩,
   ⟨{ served with li := { served.li with level := 1, d1End := some 5 } }, by decide⟩,
   ⟨msg (1 :: List.replicate 2049 0), 1, served, by decide⟩,
   ⟨msg [1], 1, { served with li := { served.li with keys := [none, some ([], [])] } }, by decide⟩,
   ⟨msg [], served, by decide⟩,
   ⟨{ served with pw := { served.pw with psHost := 3, psNow := 3, psLastOp := 1 } }, by decide⟩,
   ⟨blank, by decide⟩⟩

/-- The hypotheses of `Freeze_and_readout_commands_complete`, clause by clause, are met. -/
theorem witness_Freeze_and_readout_commands_complete :
    (∃ (m : MsgReq) (s : State), (messageOk 0x0B 0x01 m s = true) ∧ (m.payload = []) ∧ (2 ≤ s.li.level))
    ∧ (∃ (m : MsgReq) (s : State), (messageOk 0x0B 0x01 m s = true) ∧ (m.payload = []) ∧ (s.li.level < 2))
    ∧ (∃ (s : State), (up s = true) ∧ (2 ≤ s.li.level))
    ∧ (∃ (m : MsgReq) (s : State), (messageOk 0x0B 0x02 m s = true) ∧ (m.payload = []) ∧ (s.bb.fault = []))
    ∧ (∃ (s : State), (s.pw.phase = .frozen) ∧ (2 ≤ s.ck.fzDebug))
    ∧ (∃ (value : BitVec 64) (s : State), (s.pw.phase = .frozen) ∧ (2 ≤ s.ck.fzDebug))
    ∧ (∃ (count : Nat) (s : State), (s.pw.phase = .frozen) ∧ (2 ≤ s.ck.fzDebug))
    ∧ (∃ (value : BitVec 72) (s : State), (s.pw.phase = .frozen) ∧ (2 ≤ s.ck.fzDebug))
    ∧ (∃ (s : State), (s.pw.phase = .frozen) ∧ (2 ≤ s.ck.fzDebug) ∧ (s.pw.ready = true)) :=
  ⟨⟨msg [], { served with li := { served.li with level := 2, debugOpen := true } }, by decide⟩,
   ⟨msg [], served, by decide⟩,
   ⟨{ served with li := { served.li with level := 2, debugOpen := true } }, by decide⟩,
   ⟨msg [], served, by decide⟩,
   ⟨frozenDrive, by decide⟩,
   ⟨0x108, frozenDrive, by decide⟩,
   ⟨4, frozenDrive, by decide⟩,
   ⟨0x108, frozenDrive, by decide⟩,
   ⟨{ frozenDrive with pw := { frozenDrive.pw with p12v := true, aux := true, load := true, hotSwap := true } }, by decide⟩⟩

/-- The hypotheses of `Record_unit_commands_complete`, clause by clause, are met. -/
theorem witness_Record_unit_commands_complete :
    (∃ (m : MsgReq) (s : State), (messageOk 0x04 0x01 m s = true) ∧ (m.payload = []))
    ∧ (∃ (m : MsgReq) (s : State), (messageOk 0x04 0x02 m s = true) ∧ (m.payload = [1, 0, 0, 0, 5, 0, 0, 0, 127, 0, 0, 0, 0, 0, 0, 0]) ∧ (s.ev.kept = []) ∧ (s.ev.circ = []) ∧ (s.ev.hold = none))
    ∧ (∃ (m : MsgReq) (s : State), (messageOk 0x04 0x03 m s = true) ∧ (m.payload = []) ∧ (s.ev.hold = none) ∧ (s.ev.buffer = []))
    ∧ (∃ (m : MsgReq) (a b : Nat) (s : State), (messageOk 0x04 0x04 m s = true) ∧ (m.payload = []) ∧ (s.ev.hold = some (srcCode m.mbox m.src, a, b)))
    ∧ (∃ (m : MsgReq) (s : State), (messageOk 0x04 0x05 m s = true) ∧ (m.payload = []) ∧ (s.ev.hold = none) ∧ (s.ev.kept.length = 4096))
    ∧ (∃ (m : MsgReq) (s : State), (messageOk 0x04 0x06 m s = true) ∧ (m.payload = [1, 18, 1, 0]))
    ∧ (∃ (idle : Bool) (x : Nat × Nat × Nat) (s : State), (up s = true) ∧ (s.ev.hold = some x))
    ∧ (∃ (s : State), (up s = true) ∧ (s.ev.supp = 0))
    ∧ (∃ (m : MsgReq) (s : State), (messageOk 0x05 0x01 m s = true) ∧ (m.payload = []))
    ∧ (∃ (m : MsgReq) (s : State), (messageOk 0x05 0x02 m s = true) ∧ (m.payload = [0, 0, 0, 0, 32, 0, 2, 0]))
    ∧ (∃ (s : State), (up s = true)) :=
  ⟨⟨msg [], served, by decide⟩,
   ⟨msg [1, 0, 0, 0, 5, 0, 0, 0, 127, 0, 0, 0, 0, 0, 0, 0], served, by decide⟩,
   ⟨msg [], served, by decide⟩,
   ⟨msg [], 0, 0, { served with ev := { served.ev with hold := some (15, 0, 0) } }, by decide⟩,
   ⟨msg [], { served with ev := { served.ev with kept := List.replicate 4096 evOne } }, ⟨by decide, by decide, by decide, List.length_replicate⟩⟩,
   ⟨msg [1, 18, 1, 0], served, by decide⟩,
   ⟨true, (15, 0, 0), { served with ev := { served.ev with hold := some (15, 0, 0) } }, by decide⟩,
   ⟨{ served with ev := { served.ev with second := 12 } }, by decide⟩,
   ⟨msg [], served, by decide⟩,
   ⟨msg [0, 0, 0, 0, 32, 0, 2, 0], served, by decide⟩,
   ⟨served, by decide⟩⟩

/-- The hypotheses of `Log_page_and_identify_commands_complete`, clause by clause, are met. -/
theorem witness_Log_page_and_identify_commands_complete :
    (∃ (a : Adm) (page offset len : Nat) (b : Bytes) (s : State), (adminOk a s = true) ∧ (offset % 4 = 0) ∧ (page ≠ 2) ∧ (s.logPage a.ctrl ((s.fe.ctrl? a.ctrl).any (·.discovery)) page = some b) ∧ (offset ≤ b.length))
    ∧ (∃ (a : Adm) (page len : Nat) (rae : Bool) (s : State), (adminOk a s = true) ∧ (s.logPage a.ctrl ((s.fe.ctrl? a.ctrl).any (·.discovery)) page = none))
    ∧ (∃ (a : Adm) (cntid : Nat) (s : State), (adminOk a s = true))
    ∧ (∃ (m : MsgReq) (s : State), (messageOk 0x0E 0x05 m s = true) ∧ (m.payload = [1, 0, 0, 0, 64, 0, 0, 0, 0, 1, 0, 0]))
    ∧ (∃ (conn cid : Nat) (data : Bytes) (c : Cmd) (s : State), (up s = true) ∧ (s.awaiting conn cid = some c) ∧ (c.got.length + data.length < c.e.cdw10.toNat) ∧ (∀ x ∈ s.fl.cmds, x.fetch = c.fetch → x = c) ∧ (c ∈ s.fl.cmds)) :=
  ⟨⟨adm1, 0xC4, 64, 512, sealedUp.logC4, sealedUp, ⟨by decide, by decide, by decide, rfl, by decide⟩⟩,
   ⟨adm1, 4, 512, true, sealedUp, by decide⟩,
   ⟨adm1, 0, sealedUp, by decide⟩,
   ⟨msg [1, 0, 0, 0, 64, 0, 0, 0, 0, 1, 0, 0], served, by decide⟩,
   ⟨2, 7, [5], waitingStore, storing, by decide⟩⟩

/-- A state with a byte of HBM3 written and a cache access waiting meets the hypotheses of `Every_step_keeps_the_memory_form`. -/
theorem witness_Every_step_keeps_the_memory_form :
    ∃ s t : State, (Memory.wf s.mc.hbm = true) ∧ (Sys2Proof.Machine.step s = .next t) :=
  ⟨{ served with mc := { served.mc with hbm := [(64, 3)] }, pending := [.cacheAccess 1 (some { offset := 1, data := [5] })] }, _, by decide, rfl⟩

/-- The hypotheses of `Every_command_is_carried_out` are met, clause by clause, at the boundary line. -/
theorem witness_Every_command_is_carried_out :
    (∃ (c : Instr) (s : State), ∀ line w, c = .cacheAccess line w → hbmHas (!s.mc.twoStacks) line = true)
    ∧ ∃ (line : Nat) (s : State), hbmHas (!s.mc.twoStacks) line = false :=
  ⟨⟨.cacheAccess 0x2FFFFFFF none, served, fun _ _ h => by cases h; decide⟩, ⟨0x30000000, served, by decide⟩⟩

/-- The hypotheses of `HBM3_changes_only_through_the_cache` are met, clause by clause, at the last byte before the stored ones. -/
theorem witness_HBM3_changes_only_through_the_cache :
    (∃ (c : Instr) (s t : State), (reachesHbm c = false) ∧ (exec c s = .next t))
    ∧ (∃ (line : Nat) (w : Option CacheWrite) (s t : State) (a : Nat), (exec (.cacheAccess line w) s = .next t)
      ∧ (∀ x, w = some x → a < 64 * line + x.offset ∨ 64 * line + x.offset + min x.data.length (64 - x.offset) ≤ a)
      ∧ (∀ x, w = some x → mirrored line = true → s.mc.twoStacks = true →
          a < 64 * mirrorOf line + x.offset ∨ 64 * mirrorOf line + x.offset + min x.data.length (64 - x.offset) ≤ a))
    ∧ (∃ (line : Nat) (s t : State) (a : Nat), (exec (.lineFillArrival line) s = .next t) ∧ (s.owes (a / 64) = false) ∧ (s.owes (mirrorOf (a / 64)) = false))
    ∧ ∃ (line : Nat) (s t : State) (a : Nat), (exec (.writeBackAccepted line) s = .next t) ∧ (s.owes (a / 64) = false)
      ∧ (s.owes (mirrorOf (a / 64)) = false) :=
  ⟨⟨.retentionSet (msg []), served, _, rfl, rfl⟩, ⟨5, some { offset := 2, data := [1, 1] }, served, _, 321, rfl, fun _ h => by cases h; decide,
    fun _ h => by cases h; decide⟩,
   ⟨5, missing, _, 319, rfl, by decide, by decide⟩, ⟨5, evicting, _, 319, rfl, by decide, by decide⟩⟩

/-- The hypotheses of `Pseudo_LRU_turns_away_from_the_last_way` are met, clause by clause. -/
theorem witness_Pseudo_LRU_turns_away_from_the_last_way :
    (∃ way : Nat, way < 16) ∧ (∃ (m : Mantle) (set w : Nat), (w < 16) ∧ (m.lines.lookup (set, w) = none))
    ∧ ∃ (m : Mantle) (set : Nat), ∀ w, w < 16 → (m.lines.lookup (set, w)).isSome = true :=
  ⟨⟨15, by decide⟩, ⟨cached.mc, 5, 0, by decide, by decide⟩,
   ⟨{ cached.mc with lines := (List.range 16).map fun w => ((5, w), wayOne) }, 5, by decide⟩⟩

/-- The hypotheses of `A_frozen_drive_stands_still` are met. -/
theorem witness_A_frozen_drive_stands_still :
    ∃ (c : Instr) (s : State), (s.pw.phase = .frozen) ∧ (actsInFreeze c = false)
      ∧ (∀ line w, c = .cacheAccess line w → hbmHas (!s.mc.twoStacks) line = true) :=
  ⟨.store (cmdOf (shortSqe 2)), frozenDrive, rfl, rfl, fun _ _ h => by cases h⟩

/-- The hypotheses of `Outstanding_identifier_conflicts` are met, clause by clause. -/
theorem witness_Outstanding_identifier_conflicts :
    (∃ (k : IoKind) (h : HostCmd) (x : Cmd) (s : State), (s.serving = true) ∧ (h.sq ≠ 0) ∧ (s.fe.hasQueue h.ctrl h.sq = true)
      ∧ (s.cmd? h.ctrl h.sq h.e.cid = some x))
    ∧ ∃ (i : Instr) (a : Adm) (c : Ctrl) (s : State), (adminRow i = some a) ∧ (s.serving = true) ∧ (s.fe.ctrl? a.ctrl = some c)
      ∧ (c.enabled = true) ∧ (s.fe.hasQueue a.ctrl 0 = true) ∧ (s.adminCid a = true) :=
  ⟨⟨.retrieve, cmdOf (shortSqe 4), waitingStore, storing, by decide⟩,
   ⟨.identify { ctrl := 1, cid := 9 } 1 0 0, { ctrl := 1, cid := 9 }, ctrlAer, aerHeld, rfl, by decide⟩⟩

/-- The hypotheses of `Retention_periods_only_lengthen` are met, with a shorter period, and with one that is not. -/
theorem witness_Retention_periods_only_lengthen :
    let s : State := { served with va := { served.va with retention := some 9 :: List.replicate 63 none } }
    let ok (m : MsgReq) : Prop := messageOk 0x01 0x04 m s = true ∧ m.payload.length = 8 ∧ natAt m.payload 0 1 ≤ 63 ∧ natAt m.payload 1 3 = 0
      ∧ natAt m.payload 4 4 ≤ 36525 ∧ s.va.retention.length = 64
    (∃ m d, ok m ∧ s.va.retention[natAt m.payload 0 1]? = some (some d) ∧ natAt m.payload 4 4 < d)
    ∧ ∃ m, ok m ∧ ∀ d, s.va.retention[natAt m.payload 0 1]? = some (some d) → d ≤ natAt m.payload 4 4 :=
  ⟨⟨msg [0, 0, 0, 0, 8, 0, 0, 0], 9, by decide⟩, ⟨msg [0, 0, 0, 0, 9, 0, 0, 0], by decide, fun d h => by cases h; decide⟩⟩

/-- The hypotheses of `First_host_and_key_come_over_the_sideband` are met, clause by clause. -/
theorem witness_First_host_and_key_come_over_the_sideband :
    (∃ (m : MsgReq) (s : State), (mailboxFree m.mbox s = true) ∧ (m.mbox < 8) ∧ (m.tls = false) ∧ (s.keptFor 0x09 0x01 m = none)
      ∧ (m.len = m.payload.length))
    ∧ (∃ (c : ConnectReq) (k : Conn) (s : State), (s.fe.hosts = []) ∧ (s.listens = true) ∧ (s.bt.paused = false) ∧ (s.fe.conn? c.conn = some k)
      ∧ (k.ready = true) ∧ (k.ctrl = none) ∧ ((c.subsys == s.twinNqn && s.fromTwin c) = false))
    ∧ ∃ mbox : Nat, (8 ≤ mbox) ∧ (mbox ≤ 11) :=
  ⟨⟨{ msg [] with mbox := 7, src := 1 }, served, by decide⟩,
   ⟨connectAdmin, conn5, { served with fe := { served.fe with hosts := [] } }, by decide⟩, ⟨11, by decide⟩⟩

/-- The hypotheses of `Messages_turned_away_change_nothing` are met, clause by clause. -/
theorem witness_Messages_turned_away_change_nothing :
    let ok (i : Instr) (cls op : Nat) (m : MsgReq) (s : State) : Prop :=
      messageRow i = some (cls, op, m) ∧ mailboxFree m.mbox s = true ∧ s.keptFor cls op m = none
    (∃ i cls op m s, ok i cls op m s ∧ m.len ≠ m.payload.length)
    ∧ (∃ i cls op m s, ok i cls op m s ∧ m.len = m.payload.length ∧ s.permitted m.mbox m.src m.tls cls op m.payload = false)
    ∧ (∃ i cls op m s, ok i cls op m s ∧ m.len = m.payload.length ∧ s.permitted m.mbox m.src m.tls cls op m.payload = true
        ∧ s.sanitizing = true ∧ sanitizeRefuses cls op = true)
    ∧ ∃ i cls op m s, ok i cls op m s ∧ m.len = m.payload.length ∧ s.permitted m.mbox m.src m.tls cls op m.payload = true
        ∧ (s.sanitizing && sanitizeRefuses cls op) = false ∧ m.reservedSet = true :=
  ⟨⟨.hostList { msg [] with len := 1 }, 1, 3, { msg [] with len := 1 }, served, ⟨rfl, by decide⟩, by decide⟩,
   ⟨.freezeNow { msg [] with mbox := 0, src := 1 }, 0x0B, 1, { msg [] with mbox := 0, src := 1 }, served, ⟨rfl, by decide⟩, by decide⟩,
   ⟨.kekRotate (msg []), 9, 0x13, msg [], sanitizingNow, ⟨rfl, by decide⟩, by decide⟩,
   ⟨.goalGet { msg [] with reservedSet := true }, 2, 2, { msg [] with reservedSet := true }, served, ⟨rfl, by decide⟩, by decide⟩⟩

/-- A reply that mailbox 15 keeps. -/
def keptOne : KeptReply := { source := [0], seq := 5, cls := 2, op := 2, posted := 0, time := 0, tq := 0, status := 0, detail := 0, payloads := [[1]] }
/-- The hypotheses of `Kept_replies_answer_repeats` are met, clause by clause, 60 s after the reply was posted. -/
theorem witness_Kept_replies_answer_repeats :
    (∃ (i : Instr) (cls op : Nat) (m : MsgReq) (k : KeptReply) (s : State), (messageRow i = some (cls, op, m)) ∧ (mailboxFree m.mbox s = true)
      ∧ (s.keptFor cls op m = some k))
    ∧ ∃ (m : MsgReq) (s : State), (m.mbox < 16) ∧ (s.mb.boxes.length = 16) :=
  ⟨⟨.goalGet { msg [] with seq := 5 }, 2, 2, { msg [] with seq := 5 }, keptOne,
    { served.modBox 15 (fun b => { b with kept := [keptOne] }) with tm := { served.tm with mono := 60000000000 } }, rfl, by decide⟩,
   ⟨msg [], served, by decide⟩⟩

/-- The hypotheses of `Key_prefix_takes_the_first_sixteen_bytes` are met, clause by clause, at the last byte. -/
theorem witness_Key_prefix_takes_the_first_sixteen_bytes :
    (∃ i : Nat, i < 16) ∧ (∃ a b : Key, a ≠ b ∧ a.take 16 = b.take 16) ∧ (∃ (k : Key) (n : Nat), k.length + n ≤ 16 ∧ 0 < n)
    ∧ ∃ kind : IoKind, (kind ≠ .list) ∧ (kind ≠ .filteredList) ∧ (kind.nsHold = false) :=
  ⟨⟨15, by decide⟩, ⟨List.replicate 17 1, List.replicate 16 1, by decide⟩, ⟨[7], 15, by decide⟩, ⟨.longStore, by decide⟩⟩

/-- The hypothesis of `CAM_winner_has_the_lowest_priority_then_address` is met: of two entries that match, one wins. -/
theorem witness_CAM_winner_has_the_lowest_priority_then_address :
    ∃ (c : Cam) (g : Bool) (k : LKey) (a : Nat) (e : CamEntry), c.winner g k = some (a, e) :=
  ⟨{ policed.cam with entries := [(5, { allowAll with prio := 3 }), (9, { allowAll with prio := 2 })] }, false,
   { nsid := 1, pfx := 0, op := 0, hgroup := 0 }, 9, { allowAll with prio := 2 }, by decide⟩

/-- The hypotheses of `Event_log_clear_empties_only_the_circulating_area` are met, in a hold and without one. -/
theorem witness_Event_log_clear_empties_only_the_circulating_area :
    (∃ (m : MsgReq) (s : State), (messageOk 0x04 0x05 m s = true) ∧ (m.payload = []) ∧ (s.ev.hold.isSome = true))
    ∧ ∃ (m : MsgReq) (s : State), (messageOk 0x04 0x05 m s = true) ∧ (m.payload = []) ∧ (s.ev.hold = none) :=
  ⟨⟨msg [], { served with ev := { served.ev with hold := some (15, 0, 0) } }, by decide⟩, ⟨msg [], served, by decide⟩⟩

/-- The hypotheses of `Read_messages_change_only_their_mailbox` are met. -/
theorem witness_Read_messages_change_only_their_mailbox :
    ∃ (i : Instr) (m : MsgReq) (s t : State), (readMessage i = some m) ∧ (exec i s = .next t) :=
  ⟨.goalGet (msg []), msg [], served, _, rfl, rfl⟩

/-- The hypotheses of `Port_time_and_chain_events_leave_the_volume` are met for each kind of event. -/
theorem witness_Port_time_and_chain_events_leave_the_volume :
    (∃ (c : Instr) (s t : State), (portEvent c = true) ∧ (exec c s = .next t)) ∧ (∃ (c : Instr) (s t : State), (timeEvent c = true) ∧ (exec c s = .next t))
    ∧ ∃ (c : Instr) (s t : State), (chainEvent c = true) ∧ (exec c s = .next t) :=
  ⟨⟨.frameReceived 1 goodFrame, linked queuedPort, _, rfl, rfl⟩, ⟨.ppsTimeout, ppsTime, _, rfl, rfl⟩, ⟨.superframeTimeout, stacked, _, rfl, rfl⟩⟩

/-- The hypotheses of `Fuses_are_never_unblown` are met on a sealed drive. -/
theorem witness_Fuses_are_never_unblown :
    ∃ (c : Instr) (s t : State), (exec c s = .next t) ∧ (s.li.sealedFuse = true) ∧ (s.lifecycle ≠ .blank) :=
  ⟨.ppsTimeout, sealedUp, _, rfl, by decide, by decide⟩

end Sys2Proof.Machine
end

section
/-! SUPPORT. Messages that are turned away (R403 to R413): the reply is all they leave, so that only the mailboxes and what leaves through
them differ. -/

namespace Sys2Proof.Machine

/-! ## What stays outside the mailboxes -/

/-- Between the two states only the mailboxes differ, and what has left through them: MCTP responses, which are no frames, and PEER messages
(R403, R409). -/
def State.MailOnly (s t : State) : Prop :=
  ∃ boxes sent outbox, (∀ o ∈ sent, Out.offPorts o = true)
    ∧ t = { s with mb := { s.mb with boxes := boxes }, out := s.out ++ sent, sk := { s.sk with outbox := outbox } }

@[simp] theorem length_modAt {α : Type} (l : List α) (i : Nat) (f : α → α) : (modAt l i f).length = l.length := by
  unfold modAt
  split <;> simp

@[simp] theorem State.length_boxes_modBox (s : State) (n : Nat) (f : Mailbox → Mailbox) :
    (s.modBox n f).mb.boxes.length = s.mb.boxes.length := length_modAt _ _ _

theorem State.MailOnly.refl (s : State) : s.MailOnly s := ⟨s.mb.boxes, [], s.sk.outbox, by simp, by simp⟩

theorem State.MailOnly.trans {s t u : State} (h : s.MailOnly t) (h' : t.MailOnly u) : s.MailOnly u := by
  obtain ⟨_, sent, _, hs, rfl⟩ := h
  obtain ⟨boxes, sent', outbox, hs', rfl⟩ := h'
  refine ⟨boxes, sent ++ sent', outbox, fun o ho => ?_, by simp⟩
  exact (List.mem_append.mp ho).elim (hs o) (hs' o)

theorem State.mailOnly_modBox (s : State) (n : Nat) (f : Mailbox → Mailbox) : s.MailOnly (s.modBox n f) :=
  ⟨modAt s.mb.boxes n f, [], s.sk.outbox, by simp, by simp [State.modBox, State.modMb]⟩

theorem State.mailOnly_takeIn (s : State) (m : MsgReq) (cls op : Nat) : s.MailOnly (s.takeIn m cls op) :=
  (s.mailOnly_modBox _ _).trans (State.mailOnly_modBox _ _ _)

/-- Replies reach their source by way of its mailbox, the sideband or the chain (R403, R409). -/
theorem State.mailOnly_deliver (s : State) (m : MsgReq) (rs : List Reply) : s.MailOnly (s.deliver m rs) := by
  have hbox (f : Mailbox → Mailbox) : s.MailOnly (s.modBox m.mbox f) := s.mailOnly_modBox m.mbox f
  unfold State.deliver
  split
  · exact hbox _
  split
  · exact .refl s
  split
  · refine (hbox fun b => Mailbox.settle { b with inFlight := b.inFlight - 1 }).trans ⟨_, _, _, fun o ho => ?_, rfl⟩
    obtain ⟨r, -, rfl⟩ := List.mem_map.mp ho
    rfl
  split
  · exact (hbox fun b => Mailbox.settle { b with inFlight := b.inFlight - 1 }).trans
      ⟨_, [], _, by simp, by simp only [List.append_nil]; exact rfl⟩
  · exact hbox _

theorem State.mailOnly_reply (s : State) (cls op : Nat) (m : MsgReq) (a : Answer) : s.MailOnly (s.reply cls op m a) :=
  (s.mailOnly_modBox _ _).trans (State.mailOnly_deliver _ _ _)

/-- No vendor log shows the mailboxes (R80). -/
theorem State.MailOnly.shownSame {s t : State} (h : s.MailOnly t) (i : Nat) : s.shownSame t i = true := by
  obtain ⟨_, _, _, -, rfl⟩ := h
  exact s.shownSame_self i

theorem State.MailOnly.hbm {s t : State} (h : s.MailOnly t) : t.mc.hbm = s.mc.hbm := by
  obtain ⟨_, _, _, -, rfl⟩ := h
  rfl

/-- The end of such a command adds no generation of a vendor log and no frame. -/
theorem State.MailOnly.onlyAnswered_after {s t : State} (h : s.MailOnly t) : OnlyAnswered s (s.after t) := by
  have hfe : s.raisedLogs t = t.fe := State.raisedLogs_same h.shownSame
  obtain ⟨boxes, sent, outbox, hs, rfl⟩ := h
  have hpt : s.queued { s with mb := { s.mb with boxes := boxes }, out := s.out ++ sent, sk := { s.sk with outbox := outbox } } = s.pt :=
    State.queued_off (rfl) hs
  simp only [OnlyAnswered, State.after, hfe, hpt]

/-! ## The rows of the table -/

/-- A command that may reset the drive ends as any other where HBM3 keeps its contents. -/
theorem finishReset_of_hbm {s t : State} (h : t.mc.hbm = s.mc.hbm) : finishReset s t = finish s t := by
  have hkeep : (if s.mc.hbm = [] then [] else s.mc.hbm) = s.mc.hbm := by
    split
    · exact (‹s.mc.hbm = []›).symm
    · rfl
  simp only [finishReset, finish, h, hkeep]

/-- A message row posts its message with the handler of its class and operation (R411). -/
theorem exec_messageRow {i : Instr} {cls op : Nat} {m : MsgReq} (h : messageRow i = some (cls, op, m)) :
    ∃ f, handlerOf cls op = some f ∧ ∀ s, exec i s =
      bif mayReset i then finishReset s (s.message cls op f m) else finish s (s.message cls op f m) := by
  unfold messageRow at h
  split at h <;> cases h <;> exact ⟨_, rfl, fun _ => rfl⟩

/-- A free mailbox takes a message and starts it at once (R402, R407, R408). -/
theorem message_free {m : MsgReq} {s : State} (h : mailboxFree m.mbox s = true) (cls op : Nat) (f : Handler) :
    s.message cls op f m = (s.takeIn (s.named m) cls op).perform cls op f (s.named m) := by
  simp only [mailboxFree, Bool.and_eq_true, Bool.not_eq_true', beq_iff_eq, decide_eq_true_eq, List.isEmpty_iff] at h
  obtain ⟨⟨⟨⟨⟨⟨⟨⟨hphase, hpause⟩, -⟩, -⟩, howned⟩, hflight⟩, hqueue⟩, hreplies⟩, horphan⟩ := h
  have hrom : s.romOnly = false := by simp [State.romOnly, hphase]
  have hearly : s.tooEarly m.mbox = false := by simp [State.tooEarly, State.beforeB4, hphase]
  have hposts : s.takesPosts m.mbox = true := by simp [State.takesPosts, hrom, State.managed, hphase]
  have htakes : s.takes m.mbox m.src = true := by simp [State.takes, howned, hflight]
  have hwait : s.mustWait m.mbox = false := by
    simp [State.mustWait, hqueue, hreplies, hpause, Mailbox.working, hflight, horphan]
  simp [State.message, hearly, hposts, htakes, hwait]

theorem mailboxFree_serving {n : Nat} {s : State} (h : mailboxFree n s = true) : s.pw.phase = .serving := by
  simp only [mailboxFree, Bool.and_eq_true, beq_iff_eq] at h
  exact h.1.1.1.1.1.1.1.1

theorem mailboxFree_lt {n : Nat} {s : State} (h : mailboxFree n s = true) : n < s.mb.boxes.length := by
  simp only [mailboxFree, Bool.and_eq_true, decide_eq_true_eq] at h
  obtain ⟨⟨⟨⟨⟨⟨⟨-, hn⟩, hl⟩, -⟩, -⟩, -⟩, -⟩, -⟩ := h
  omega

/-! ## The checks of a message, in their order (R404, R405, R9) -/

section
variable {s : State} {cls op : Nat} {m : MsgReq} (f : Handler) (hkept : s.keptFor cls op m = none)
include hkept

theorem State.perform_length (hl : m.len ≠ m.payload.length) : s.perform cls op f m = s.reply cls op m (refuse .length) := by
  simp [State.perform, hkept, hl]

theorem State.perform_notPermitted (hl : m.len = m.payload.length) (hp : s.permitted m.mbox m.src m.tls cls op m.payload = false) :
    s.perform cls op f m = s.reply cls op m (refuse .notPermitted) := by
  simp [State.perform, hkept, hl, hp]

theorem State.perform_sanitizing (hl : m.len = m.payload.length) (hp : s.permitted m.mbox m.src m.tls cls op m.payload = true)
    (hs : s.sanitizing = true) (hr : sanitizeRefuses cls op = true) :
    s.perform cls op f m = s.reply cls op m (refuse .stateRefused) := by
  simp [State.perform, hkept, hl, hp, hs, hr]

theorem State.perform_reserved (hl : m.len = m.payload.length) (hp : s.permitted m.mbox m.src m.tls cls op m.payload = true)
    (hs : (s.sanitizing && sanitizeRefuses cls op) = false) (hserves : s.pw.phase = .serving) (hz : m.reservedSet = true) :
    s.perform cls op f m = s.reply cls op m (badField 0xFFFF) := by
  simp [State.perform, hkept, hl, hp, hs, hserves, hz]

end

/-! ## A message that is turned away -/

/-- A message that is answered before its handler runs leaves its reply, and nothing else (R403, R404). -/
theorem completes_turnedAway {i : Instr} {cls op : Nat} {m : MsgReq} {s : State} (a : Answer) (hrow : messageRow i = some (cls, op, m))
    (hfree : mailboxFree m.mbox s = true)
    (ha : ∀ f, (s.takeIn (s.named m) cls op).perform cls op f (s.named m) = (s.takeIn (s.named m) cls op).reply cls op (s.named m) a) :
    Completes i s fun t => Answered s t cls op m a.st a.detail a.body ∧ OnlyAnswered s t := by
  obtain ⟨f, -, hexec⟩ := exec_messageRow hrow
  have hin : s.MailOnly (s.takeIn (s.named m) cls op) := s.mailOnly_takeIn _ _ _
  have hmail := hin.trans (State.mailOnly_reply _ cls op (s.named m) a)
  have hlen : m.mbox < (s.takeIn (s.named m) cls op).mb.boxes.length := by
    simpa [State.takeIn, State.accept] using mailboxFree_lt hfree
  refine ⟨s.after ((s.takeIn (s.named m) cls op).reply cls op (s.named m) a), ?_, ?_, hmail.onlyAnswered_after⟩
  · rw [hexec, message_free hfree, ha, finishReset_of_hbm hmail.hbm, Bool.cond_self, finish_eq]
  · exact reply_answered (m := s.named m) a hlen rfl rfl

/-- Settles O51: each check answers before the handler runs. -/
theorem messagesTurnedAwayChangeNothing : Obligations.Messages_turned_away_change_nothing := by
  intro i cls op m s hrow hfree hkept
  have hkept' := (s.keptFor_takeIn cls op m (mailboxFree_lt hfree)).trans hkept
  refine ⟨fun hl => ?_, fun hl hp => ?_, fun hl hp hs hr => ?_, fun hl hp hs hz => ?_⟩
  · exact completes_turnedAway (refuse .length) hrow hfree fun f => State.perform_length f hkept' hl
  · exact completes_turnedAway (refuse .notPermitted) hrow hfree fun f => State.perform_notPermitted f hkept' hl hp
  · exact completes_turnedAway (refuse .stateRefused) hrow hfree fun f => State.perform_sanitizing f hkept' hl hp hs hr
  · have hserves := mailboxFree_serving hfree
    obtain ⟨t, ht, hanswered, honly⟩ := completes_turnedAway (badField 0xFFFF) hrow hfree fun f =>
      State.perform_reserved f hkept' hl hp hs hserves hz
    exact ⟨t, ht, ⟨_, hanswered⟩, honly⟩

end Sys2Proof.Machine
end

section
/-! SUPPORT. The Mantle cache as it goes on (R136 to R150): the commands of the register block, the invalidation sweep, region writes, and
the only fill and the only write-back on its way. -/

namespace Sys2Proof.Machine

/-! ## Commands of the register block (R146, R150) -/

/-- A command that arrives during a sweep is rejected (R150). -/
theorem Mantle.command_busy {m : Mantle} (h : m.invBusy = true) (op : Nat) : m.command op = { m with invReject := true } := by
  simp [Mantle.command, h]

theorem Mantle.command_idle {m : Mantle} (h : m.invBusy = false) {op : Nat} (hop : op ≠ 0) : m.command op = m.begin op := by
  simp [Mantle.command, h, hop]

/-- A command that finds no miss register, and no Chimney entry that it drops, only takes its range (R146). -/
theorem Mantle.begin_quiet {m : Mantle} {op : Nat} (hmiss : m.miss = []) (h : op = 3 ∨ m.chimney = []) :
    m.begin op = { m with invBusy := true, invOp := op, invLo := m.invBase.toNat, invHi := m.invLimit.toNat, invNext := 0, invDrop := [] } := by
  rcases h with rfl | h
  · simp [Mantle.begin, hmiss, Mantle.dropsClean]
  · simp [Mantle.begin, hmiss, h]

/-- The first command marks the miss registers of its range DROP (R146). -/
theorem Mantle.begin_marks (m : Mantle) (op : Nat) :
    (m.begin op).miss.all (fun r => r.drop || !(decide (m.invBase.toNat ≤ r.line) && decide (r.line ≤ m.invLimit.toNat))) = true := by
  simp only [Mantle.begin, List.all_map, List.all_eq_true, Function.comp]
  intro r _
  split
  case isTrue => rfl
  case isFalse h =>
    simp only [Mantle.inSweep, Bool.or_eq_true, not_or] at h
    simp [Bool.eq_false_iff.mpr h.1]

/-- A register write by a path that reaches the register block ends in the state it makes. -/
theorem yields_reached {c : Instr} {path : RegPath} {s u : State} (h : exec c s = finish s (if s.reaches path then u else s))
    (hr : s.reaches path = true) : Yields c s u := yields_of (h.trans (by rw [if_pos hr]))

theorem completes_reached {c : Instr} {path : RegPath} {s u : State} {P : State → Prop}
    (h : exec c s = finish s (if s.reaches path then u else s)) (hr : s.reaches path = true) (hp : P (s.after u)) : Completes c s P :=
  completes_finish (h.trans (by rw [if_pos hr])) hp

/-- ... and a command of the invalidation engine in the cache that it makes. -/
theorem yields_command {c : Instr} {path : RegPath} {s : State} {m : Mantle} (op : Nat)
    (h : exec c s = finish s (if s.reaches path then s.modMc (fun m => m.command op) else s)) (hr : s.reaches path = true)
    (hm : s.mc.command op = m) : Yields c s { s with mc := m } :=
  hm ▸ yields_reached h hr

/-! ## The sweep (R146, R147) -/

theorem lineSet_lineOf {set : Nat} (h : set < 65536) (tag : Nat) : lineSet (lineOf set tag) = set := by
  simp only [lineSet, lineOf]; omega

theorem lineTag_lineOf {set : Nat} (h : set < 65536) (tag : Nat) : lineTag (lineOf set tag) = tag := by
  simp only [lineTag, lineOf]; omega

theorem lineOf_lineSet_lineTag (line : Nat) : lineOf (lineSet line) (lineTag line) = line := by
  simp only [lineSet, lineTag, lineOf]; omega

/-- The line that an entry of the cache holds. -/
def heldLine (e : (Nat × Nat) × Way) : Nat := lineOf e.1.1 e.2.tag

/-- The lines in the cache, one for each way. -/
def Mantle.heldLines (m : Mantle) : List Nat := m.lines.map heldLine

/-- A way stands in one of the 65,536 sets (R135). -/
def Mantle.inSets (m : Mantle) : Prop := ∀ e ∈ m.lines, e.1.1 < 65536

/-- An entry of a set holds a line where its set and tag are those of the line. -/
theorem heldLine_eq_iff {e : (Nat × Nat) × Way} (h : e.1.1 < 65536) (line : Nat) :
    heldLine e = line ↔ e.1.1 = lineSet line ∧ e.2.tag = lineTag line := by
  constructor
  · rintro rfl
    exact ⟨(lineSet_lineOf h _).symm, (lineTag_lineOf h _).symm⟩
  · rintro ⟨hs, ht⟩
    rw [heldLine, hs, ht, lineOf_lineSet_lineTag]

/-- Dropping the key of the entry found drops that entry, and perhaps others. -/
theorem map_dropAssoc_sublist {α β γ : Type} [DecidableEq α] [DecidableEq γ] {g : α × β → γ} {p : α × β → Bool} {l : List (α × β)}
    {e : α × β} (hp : ∀ x ∈ l, p x = true ↔ g x = g e) (h : l.find? p = some e) :
    ((dropAssoc e.1 l).map g).Sublist ((l.map g).erase (g e)) := by
  obtain ⟨-, before, behind, rfl, hbefore⟩ := List.find?_eq_some_iff_append.mp h
  have hnot : g e ∉ before.map g := by
    intro hmem
    obtain ⟨x, hx, hg⟩ := List.mem_map.mp hmem
    have hpx := (hp x (List.mem_append_left _ hx)).mpr hg
    exact absurd (hbefore x hx) (by simp [hpx])
  have herase : ((before ++ e :: behind).map g).erase (g e) = (before ++ behind).map g := by
    simp [List.erase_append_right _ hnot]
  have hdrop : dropAssoc e.1 (before ++ e :: behind) = dropAssoc e.1 (before ++ behind) := by
    simp [dropAssoc]
  rw [herase, hdrop]
  exact List.Sublist.map g List.filter_sublist

/-- Sweeping a line under OP 01b takes it out of one way at least, and puts nothing into any (R146). -/
theorem Mantle.sweepLine_invalidate {m : Mantle} (hin : m.inSets) (line : Nat) :
    ∃ l, m.sweepLine 1 line = { m with lines := l } ∧ l.Sublist m.lines ∧ (l.map heldLine).Sublist (m.heldLines.erase line) := by
  have hp : ∀ e ∈ m.lines, (e.1.1 == lineSet line && e.2.tag == lineTag line) = true ↔ heldLine e = line := by
    intro e he
    simp [heldLine_eq_iff (hin e he)]
  cases hfind : m.lines.find? fun e => e.1.1 == lineSet line && e.2.tag == lineTag line with
  | none =>
    have hnot : line ∉ m.heldLines := by
      intro hmem
      obtain ⟨e, he, hl⟩ := List.mem_map.mp hmem
      exact List.find?_eq_none.mp hfind e he ((hp e he).mpr hl)
    exact ⟨m.lines, by simp [Mantle.sweepLine, Mantle.way?, hfind], .refl _, by rw [List.erase_of_not_mem hnot]; exact .refl _⟩
  | some e =>
    have hfound := List.find?_eq_some_iff_append.mp hfind
    have hline : heldLine e = line := (hp e (List.mem_of_find?_eq_some hfind)).mp hfound.1
    have hkey : e.1 = (lineSet line, e.1.2) :=
      Prod.ext ((heldLine_eq_iff (hin e (List.mem_of_find?_eq_some hfind)) line).mp hline).1 rfl
    refine ⟨dropAssoc e.1 m.lines, ?_, List.filter_sublist, ?_⟩
    · simp [Mantle.sweepLine, Mantle.way?, hfind, ← hkey]
    · subst hline
      exact map_dropAssoc_sublist hp hfind

/-- Sweeping lines under OP 01b takes each out as often as it is named (R146). -/
theorem Mantle.heldLines_sweep (ls : List Nat) {m : Mantle} (hop : m.invOp = 1) (hin : m.inSets) :
    (ls.foldl (fun m l => m.sweepLine m.invOp l) m).heldLines.Sublist (m.heldLines.diff ls) := by
  induction ls generalizing m with
  | nil => simp
  | cons line ls ih =>
    obtain ⟨l, hl, hsub, hheld⟩ := m.sweepLine_invalidate hin line
    rw [List.foldl_cons, hop, hl, List.diff_cons]
    exact (ih (m := { m with lines := l }) hop fun e he => hin e (hsub.subset he)).trans (hheld.diff_right)

/-- The lines that a whole sweep comes to: those that the command acts on, in sets it has still to reach (R146). -/
def Mantle.toSweep (m : Mantle) (line : Nat) : Bool :=
  m.inSweep line && decide (m.invNext ≤ lineSet line) && decide (lineSet line < 65536)

/-- At the end of a whole sweep under OP 01b no line is left that the command acts on (R146). -/
theorem Mantle.sweepTo_clears {m : Mantle} (hop : m.invOp = 1) (hnext : m.invNext = 0) (hin : m.inSets) {line : Nat}
    (h : line ∈ (m.sweepTo 65536).heldLines) : m.inSweep line = false := by
  by_contra hsweep
  rw [Bool.not_eq_false] at hsweep
  have hsub := Mantle.heldLines_sweep ((m.heldLines.filter m.toSweep).insertionSort fun a b => lineSet a ≤ lineSet b)
    (m := { m with invNext := max m.invNext 65536 }) hop hin
  have hdue : m.toSweep line = true := by simp [Mantle.toSweep, hsweep, hnext, lineSet, Nat.mod_lt]
  have hleft : 0 < (m.heldLines.diff _).count line := List.count_pos_iff.mpr (hsub.subset h)
  rw [List.count_diff, (List.perm_insertionSort _ _).count_eq, List.count_filter hdue] at hleft
  omega

/-! ## Region writes by the drive (R138) -/

@[simp] theorem Mantle.rgn_chimPush (m : Mantle) (line : Nat) (dirty valid : Bool) (d : Bytes) (swept : Bool) :
    (m.chimPush line dirty valid d swept).rgn = m.rgn := by
  simp only [Mantle.chimPush]; split <;> rfl

@[simp] theorem Mantle.rgnWrites_chimPush (m : Mantle) (line : Nat) (dirty valid : Bool) (d : Bytes) (swept : Bool) :
    (m.chimPush line dirty valid d swept).rgnWrites = m.rgnWrites := by
  simp only [Mantle.chimPush]; split <;> rfl

/-- A pinned entry stays when another one comes (R141). -/
theorem Mantle.mem_chimPush {m : Mantle} {c : Chim} (hc : c ∈ m.chimney) (hp : c.pinned = true) (line : Nat) (dirty valid : Bool)
    (d : Bytes) (swept : Bool) : c ∈ (m.chimPush line dirty valid d swept).chimney := by
  simp only [Mantle.chimPush]
  split
  · exact hc
  · refine List.mem_append_left _ ?_
    split
    · exact hc
    · exact (List.mem_eraseP_of_neg (by simp [hp])).mpr hc

/-- Writing a line back changes no region, and leaves the pinned entries in the Chimney. -/
theorem Mantle.flushLine_keeps (m : Mantle) (line : Nat) :
    (m.flushLine line).rgn = m.rgn ∧ (m.flushLine line).rgnWrites = m.rgnWrites
      ∧ ∀ c ∈ m.chimney, c.pinned = true → c ∈ (m.flushLine line).chimney := by
  unfold Mantle.flushLine
  split
  · exact ⟨rfl, rfl, fun c hc _ => hc⟩
  dsimp only
  split
  · exact ⟨rfl, rfl, fun c hc _ => hc⟩
  split
  · exact ⟨by simp, by simp, fun c hc hp => Mantle.mem_chimPush (m := { m with lines := dropAssoc _ m.lines }) hc hp _ _ _ _ _⟩
  · exact ⟨rfl, rfl, fun c hc _ => hc⟩

theorem Mantle.flushLines_keep (ls : List Nat) (m : Mantle) :
    (ls.foldl Mantle.flushLine m).rgn = m.rgn ∧ (ls.foldl Mantle.flushLine m).rgnWrites = m.rgnWrites
      ∧ ∀ c ∈ m.chimney, c.pinned = true → c ∈ (ls.foldl Mantle.flushLine m).chimney := by
  induction ls generalizing m with
  | nil => exact ⟨rfl, rfl, fun c hc _ => hc⟩
  | cons line ls ih =>
    obtain ⟨hrgn, hwrites, hchim⟩ := m.flushLine_keeps line
    obtain ⟨irgn, iwrites, ichim⟩ := ih (m.flushLine line)
    exact ⟨irgn.trans hrgn, iwrites.trans hwrites, fun c hc hp => ichim c (hchim c hc hp) hp⟩

/-- A write of a region waits while HBM3 has not accepted a line that it makes cached otherwise (R138, R143). -/
theorem Mantle.writeRgn_waits {m : Mantle} {n : Nat} {v : BitVec 64} {c : Chim} (hc : c ∈ m.chimney) (hp : c.pinned = true)
    (ha : m.attr c.line ≠ (m.setRgn n v).attr c.line) :
    (m.writeRgn n v).rgn = m.rgn ∧ (m.writeRgn n v).rgnWrites = m.rgnWrites ++ [(n, v)] := by
  have hhit : (attrIn m.rgn c.line != attrIn (m.setRgn n v).rgn c.line) = true := bne_iff_ne.mpr ha
  obtain ⟨hrgn, hwrites, hchim⟩ := m.flushLines_keep
    ((m.lines.map fun e => lineOf e.1.1 e.2.tag).filter fun line => attrIn m.rgn line != attrIn (m.setRgn n v).rgn line)
  have hc' := hchim c hc hp
  unfold Mantle.writeRgn
  dsimp only
  rw [if_pos]
  · exact ⟨hrgn, congrArg (· ++ [(n, v)]) hwrites⟩
  · rw [Bool.or_eq_true]
    exact .inr (List.any_eq_true.mpr ⟨c, List.mem_filter.mpr ⟨hc', by simp [hp]⟩, hhit⟩)

/-- With nothing in the cache or on its way a region takes its new value at once (R138). -/
theorem Mantle.writeRgn_quiet {m : Mantle} (hlines : m.lines = []) (hchim : m.chimney = []) (hmiss : m.miss = []) (n : Nat) (v : BitVec 64) :
    m.writeRgn n v = m.setRgn n v := by
  simp [Mantle.writeRgn, hlines, hchim, hmiss, Mantle.setRgn]

/-! ## The only fill and the only write-back on its way (R140, R141) -/

/-- With nothing that waits, the cache does not go on. -/
theorem State.cacheProgress_idle {s : State} (htodo : s.mc.invTodo = []) (hmiss : s.mc.miss = []) (hwaits : s.mc.waits = [])
    (hrgn : s.mc.rgnWrites = []) : s.cacheProgress = s := by
  simp only [State.cacheProgress, State.modMc, htodo, hmiss, hwaits, Mantle.retryRgn, hrgn, List.foldl_nil, List.filter_nil]
  rw [← htodo, ← hmiss, ← hwaits, ← hrgn]

/-- In an empty set the line takes way 0 (R136). -/
theorem Mantle.install_empty {m : Mantle} (h : m.lines = []) (line : Nat) (dirty : Bool) (d : Bytes) :
    m.install line dirty d = some
      ({ m with lines := [((lineSet line, 0), { tag := lineTag line, dirty := dirty, data := d })] }.touch (lineSet line) 0) := by
  have hway : m.victim (lineSet line) = 0 := by
    simp only [Mantle.victim, h]
    rfl
  simp [Mantle.install, Mantle.evict, hway, h, setAssoc]

/-- The only fill on its way, of an allocating line to which nothing was written since: the line is installed as it stands in HBM3, its readers
are answered, and the register is free (R140, R148). -/
theorem State.fill_only {s : State} {r : Miss} (hmiss : s.mc.miss = [r]) (hdrop : r.drop = false) (hmerged : r.merged = [])
    (hlines : s.mc.lines = []) (hno : s.mc.noalloc = false) (hattr : s.mc.attr r.line < 2) :
    s.fill r =
      { s with out := s.out ++ List.replicate r.readers (.cacheData r.line (s.mc.lineData r.line)),
               mc := { s.mc with miss := [], invDrop := s.mc.invDrop.filter (· ≠ r.line),
                                 lines := [((lineSet r.line, 0), { tag := lineTag r.line, dirty := false, data := s.mc.lineData r.line })]
                     }.touch (lineSet r.line) 0 } := by
  simp [State.fill, hdrop, hmerged, hno, Nat.not_le.mpr hattr, Mantle.install_empty hlines, State.releaseMiss, State.modMc, hmiss,
    Mantle.touch]

/-- ... and where nothing else waits, the cache does not go on. -/
theorem State.cacheProgress_fill_only {s : State} {r : Miss} (hmiss : s.mc.miss = [r]) (hdrop : r.drop = false) (hmerged : r.merged = [])
    (hlines : s.mc.lines = []) (hno : s.mc.noalloc = false) (hattr : s.mc.attr r.line < 2) (htodo : s.mc.invTodo = [])
    (hwaits : s.mc.waits = []) (hrgn : s.mc.rgnWrites = []) : (s.fill r).cacheProgress = s.fill r := by
  rw [State.fill_only hmiss hdrop hmerged hlines hno hattr]
  exact State.cacheProgress_idle htodo rfl hwaits hrgn

/-- The write-back that the Chimney holds of a line that has just left the cache, dirty (R141). -/
def Chim.issued (line : Nat) (d : Bytes) : Chim := { line := line, dirty := true, valid := true, pending := true, data := d }

/-- HBM3 accepts the one write-back of the Chimney: its data is in HBM3, and the entry stays, clean (R141 to R143). -/
theorem Mantle.accept_only {m : Mantle} {line : Nat} {d : Bytes} (hchim : m.chimney = [Chim.issued line d]) (hd : d.length = 64)
    (hwait : m.deferredWb = []) :
    m.accept line = { m.store line 0 d with chimney := [{ Chim.issued line d with dirty := false, pending := false }] } := by
  simp [Mantle.accept, hchim, Chim.issued, ← hd, Mantle.issueNext, Mantle.store, Chim.pinned, hwait]

/-! ## The rows -/

/-- The end of a command that leaves the state as it was. -/
theorem finishMem_self (s : State) : finishMem s s = .next s := by simp [finishMem]

theorem execLineFillArrival_miss {line : Nat} {s : State} {r : Miss} (hphase : s.pw.phase ≠ .frozen)
    (hr : s.mc.miss.find? (·.line == homeLine line) = some r) :
    exec (.lineFillArrival line) s = finishMem s (s.fill r).cacheProgress := by
  change execLineFillArrival line s = _
  simp [execLineFillArrival, hphase, hr]

theorem execLineFillArrival_none {line : Nat} {s : State} (hphase : s.pw.phase ≠ .frozen)
    (hmiss : s.mc.miss.all (fun r => r.line != homeLine line) = true) : exec (.lineFillArrival line) s = .next s := by
  have hnone : s.mc.miss.find? (·.line == homeLine line) = none := by
    rw [List.find?_eq_none]
    intro r hr
    simpa using List.all_eq_true.mp hmiss r hr
  change execLineFillArrival line s = _
  simp [execLineFillArrival, hphase, hnone, finishMem_self]

theorem execWriteBackAccepted_running {s : State} (hphase : s.pw.phase ≠ .frozen) (line : Nat) :
    exec (.writeBackAccepted line) s = finishMem s (s.modMc fun m => m.accept (homeLine line)).cacheProgress := by
  change execWriteBackAccepted line s = _
  simp [execWriteBackAccepted, hphase]

/-- MCH_INV_DONE sweeps the sets that are left, and ends INV_BUSY or leaves it (R146). -/
theorem execMchInvDone_sweeps (s : State) :
    ∃ busy, exec .mchInvDone s = whileUp s { s with mc := { s.mc.sweepTo 65536 with invBusy := busy } } := by
  change ∃ busy, execMchInvDone s = _
  cases hend : (s.mc.sweepTo 65536).invTodo.isEmpty && (s.mc.sweepTo 65536).invDrop.isEmpty && (s.mc.sweepTo 65536).invWb.isEmpty with
  | true => exact ⟨false, by simp only [execMchInvDone, State.modMc, hend, if_true]⟩
  | false => exact ⟨(s.mc.sweepTo 65536).invBusy, by simp only [execMchInvDone, State.modMc, hend, Bool.false_eq_true, if_false]⟩

/-- The drive's own write of a region, with none that waits (R138, R150). -/
theorem State.writeReg_rgn {s : State} (h : s.mc.rgnWrites = []) (n : Nat) (value : BitVec 256) :
    s.writeReg .lamplighter (.mchRgn n) value = s.modMc fun m => m.writeRgn n ((value.extractLsb' 0 35).setWidth 64) := by
  simp [State.writeReg, State.modMc, h]

/-- A write of a read-only register is ignored (R8, R150, R385). -/
theorem State.writeReg_readOnly {reg : Reg} (h : reg ∈ [.mchHitCnt, .mchMissCnt, .mcvWick, .mcvTaper]) (path : RegPath)
    (value : BitVec 256) (s : State) : s.writeReg path reg value = s := by
  simp only [List.mem_cons, List.not_mem_nil, or_false] at h
  rcases h with rfl | rfl | rfl | rfl <;> rfl

/-! ## The statement -/

/-- Settles O18: each clause by the lemma about its row's effect on the cache. -/
theorem cacheProgressCommandsComplete : Obligations.Cache_progress_commands_complete := by
  refine ⟨?fill, ?noRegister, ?accepted, ?ctrl, ?invalidate, ?invalidateBusy, ?writeBackInvalidateBusy, ?writeBackInvalidate, ?writeBackBusy,
    ?writeBack, ?done, ?swept, ?rgnByTap, ?rgnByDrive, ?rgnWaits, ?readOnly⟩
  case fill =>
    intro line h s hphase hline hmiss hno hattr hlines hwaits htodo hrgn
    subst hline
    have hfill := State.fill_only hmiss rfl rfl hlines hno hattr
    refine ⟨_, execLineFillArrival_miss hphase (by rw [hmiss]; exact List.find?_cons_of_pos (beq_self_eq_true _)), ?_⟩
    rw [State.cacheProgress_fill_only hmiss rfl rfl hlines hno hattr htodo hwaits hrgn, hfill]
    exact ⟨rfl, rfl, rfl, rfl⟩
  case noRegister => exact fun line s hphase hmiss => ⟨s, execLineFillArrival_none hphase hmiss, rfl⟩
  case accepted =>
    intro line h d s hphase hline hchim hd hwb hmiss hwaits htodo hrgn
    subst hline
    have hidle : (s.modMc fun m => m.accept (homeLine line)).cacheProgress = s.modMc fun m => m.accept (homeLine line) := by
      rw [State.modMc, Mantle.accept_only hchim hd hwb]
      exact State.cacheProgress_idle htodo hmiss hwaits hrgn
    refine ⟨_, execWriteBackAccepted_running hphase line, ?_⟩
    rw [hidle, State.modMc, Mantle.accept_only hchim hd hwb]
    exact ⟨rfl, rfl⟩
  case ctrl =>
    intro path value s hr
    exact yields_reached rfl hr
  case invalidate =>
    intro path s hr hbusy
    refine completes_reached rfl hr ?_
    rw [State.modMc, Mantle.command_idle hbusy Nat.one_ne_zero]
    exact ⟨rfl, rfl, rfl, rfl, rfl, s.mc.begin_marks 1, rfl, rfl⟩
  case invalidateBusy => exact fun path s hr hbusy => yields_command 1 rfl hr (Mantle.command_busy hbusy 1)
  case writeBackInvalidateBusy => exact fun path s hr hbusy => yields_command 2 rfl hr (Mantle.command_busy hbusy 2)
  case writeBackInvalidate =>
    intro path s hr hbusy hmiss hchim
    exact yields_command 2 rfl hr ((Mantle.command_idle hbusy (by decide)).trans (Mantle.begin_quiet hmiss (.inr hchim)))
  case writeBackBusy => exact fun path s hr hbusy => yields_command 3 rfl hr (Mantle.command_busy hbusy 3)
  case writeBack =>
    intro path s hr hbusy hmiss
    exact yields_command 3 rfl hr ((Mantle.command_idle hbusy (by decide)).trans (Mantle.begin_quiet hmiss (.inl rfl)))
  case done =>
    intro m s hup hm htodo hdrop hwb
    subst hm
    refine yields_up rfl hup (congrArg s.after ?_)
    simp [State.modMc, htodo, hdrop, hwb]
  case swept =>
    intro s hup hop hnext hin
    have hsets : s.mc.inSets := fun e he => by simpa using List.all_eq_true.mp hin e he
    obtain ⟨busy, hexec⟩ := execMchInvDone_sweeps s
    refine completes_up hexec hup ⟨List.all_eq_true.mpr fun e he => ?_, rfl⟩
    have hclear := Mantle.sweepTo_clears hop hnext hsets (List.mem_map_of_mem he)
    exact (Bool.not_eq_true' _).mpr (Bool.or_eq_false_iff.mp hclear).1
  case rgnByTap => exact fun n value s hr _ => completes_reached rfl hr ⟨rfl, rfl⟩
  case rgnByDrive =>
    intro n value s hr _ hwrites hlines hchim hmiss
    refine completes_reached rfl hr ?_
    rw [State.writeReg_rgn hwrites, State.modMc, Mantle.writeRgn_quiet hlines hchim hmiss]
    exact ⟨rfl, rfl⟩
  case rgnWaits =>
    intro n value c s hr hwrites hc hp ha
    obtain ⟨hrgn, hwait⟩ := Mantle.writeRgn_waits hc hp ha
    refine completes_reached rfl hr ?_
    rw [State.writeReg_rgn hwrites]
    rw [hwrites] at hwait
    exact ⟨hrgn, hwait, rfl⟩
  case readOnly =>
    intro path reg value s hreg
    exact completes_finish (u := s) (congrArg (finish s) (by rw [State.writeReg_readOnly hreg, ite_self])) s.after_self

end Sys2Proof.Machine
end

section
/-! SUPPORT. What a CAM lookup takes of a key, as the bytes of the key (R17, R242). -/

namespace Sys2Proof.Machine

/-! ## Bytes of a number -/

theorem leNat_lt (b : Bytes) : leNat b < 256 ^ b.length := by
  induction b with
  | nil => simp [leNat]
  | cons x b ih =>
    have hx := x.isLt
    simp only [leNat, List.length_cons, pow_succ]
    omega

/-- A byte string's number has the string's bytes as its digits to the base 256. -/
theorem leNat_digit (b : Bytes) (i : Nat) : leNat b / 256 ^ i % 256 = (b.getD i 0).toNat := by
  induction b generalizing i with
  | nil => simp [leNat]
  | cons x b ih =>
    have hx := x.isLt
    cases i with
    | zero => simpa [leNat] using hx
    | succ i =>
      have hdrop : (x.toNat + 256 * leNat b) / 256 = leNat b := by omega
      rw [leNat, pow_succ, Nat.mul_comm (256 ^ i), ← Nat.div_div_eq_div_mul, hdrop, List.getD_cons_succ]
      exact ih i

/-! ## Padding -/

/-- 00h bytes behind a string count as the bytes beyond it. -/
theorem getD_append_zeros (b : Bytes) (n i : Nat) : (b ++ List.replicate n 0).getD i 0 = b.getD i 0 := by
  by_cases hb : i < b.length
  · rw [List.getD_append _ _ _ _ hb]
  · have hlen := Nat.le_of_not_lt hb
    rw [List.getD_append_right _ _ _ _ hlen, List.getD_eq_default _ _ hlen]
    grind

theorem getD_padTo {n i : Nat} (h : i < n) (b : Bytes) : (padTo n b).getD i 0 = b.getD i 0 := by
  rw [← getD_append_zeros b (n - b.length) i, padTo, List.getD_eq_getElem?_getD, List.getD_eq_getElem?_getD, List.getElem?_take_of_lt h]

/-- Strings of one length with the same bytes, where bytes beyond a string count as 00h, are padded alike. -/
theorem padTo_congr {n : Nat} {a b : Bytes} (h : ∀ i < n, a.getD i 0 = b.getD i 0) : padTo n a = padTo n b := by
  refine List.ext_getElem (by simp) fun i hi _ => ?_
  rw [padTo_length] at hi
  have hbyte : (padTo n a).getD i 0 = (padTo n b).getD i 0 := by rw [getD_padTo hi, getD_padTo hi, h i hi]
  simpa [List.getD_eq_getElem?_getD, hi] using hbyte

/-! ## The first sixteen bytes of a key (R17) -/

/-- Byte `i` of what the lookup takes, counted from the most significant, is byte `i` of the key. -/
theorem keyPrefix_byte (k : Key) {i : Nat} (hi : i < 16) : (keyPrefix k).extractLsb' (8 * (15 - i)) 8 = k.getD i 0 := by
  have hlt : leNat (padTo 16 k).reverse < 2 ^ 128 := by simpa using leNat_lt (padTo 16 k).reverse
  have hpow : (2 : Nat) ^ (8 * (15 - i)) = 256 ^ (15 - i) := by rw [pow_mul]; rfl
  have hrev : (padTo 16 k).reverse.getD (15 - i) 0 = (padTo 16 k).getD i 0 := by
    have hback : 16 - 1 - (15 - i) = i := by omega
    rw [List.getD_eq_getElem?_getD, List.getElem?_reverse (by simp; omega), padTo_length, hback, ← List.getD_eq_getElem?_getD]
  apply BitVec.eq_of_toNat_eq
  rw [BitVec.extractLsb'_toNat, keyPrefix, BitVec.toNat_ofNat, Nat.mod_eq_of_lt hlt, Nat.shiftRight_eq_div_pow, hpow,
    show 2 ^ 8 = 256 from rfl, leNat_digit, hrev, getD_padTo hi]

theorem keyPrefix_congr {a b : Key} (h : ∀ i < 16, a.getD i 0 = b.getD i 0) : keyPrefix a = keyPrefix b := by
  rw [keyPrefix, keyPrefix, padTo_congr h]

/-- Settles O53: what the lookup takes is the number of the first 16 bytes, so it follows from them alone. -/
theorem keyPrefixTakesTheFirstSixteenBytes : Obligations.Key_prefix_takes_the_first_sixteen_bytes := by
  refine ⟨fun k i hi => keyPrefix_byte k hi, fun a b h => keyPrefix_congr fun i hi => ?_, fun k n _ => keyPrefix_congr fun i _ => getD_append_zeros k n i,
    fun kind nsid group k hlist hfiltered hhold => ?_⟩
  · have hbyte := congrArg (·[i]?) h
    simp only [List.getElem?_take, hi, if_true] at hbyte
    rw [List.getD_eq_getElem?_getD, List.getD_eq_getElem?_getD, hbyte]
  · simp [lookupKey, hlist, hfiltered, hhold]

end Sys2Proof.Machine
end

section
/-! SUPPORT. CONFIG.RETENTION_SET (R26, R27): what its handler answers to a message in form. -/

namespace Sys2Proof.Machine

/-- Posting a reply leaves the record vault. -/
theorem State.reply_va (s : State) (cls op : Nat) (m : MsgReq) (a : Answer) : (s.reply cls op m a).va = s.va := by
  obtain ⟨_, _, _, -, h⟩ := s.mailOnly_reply cls op m a
  rw [h]

theorem messageOk_free {cls op : Nat} {m : MsgReq} {s : State} (h : messageOk cls op m s = true) : mailboxFree m.mbox s = true := by
  simp only [messageOk, Bool.and_eq_true] at h
  simp [mailboxFree, h]

/-- A message whose handler leaves the mailboxes and the clock is answered with what the handler says (R403, R404). -/
theorem completes_answered {c : Instr} {cls op : Nat} {m : MsgReq} {f : Handler} {s t : State} {a : Answer} {P : State → Prop}
    (h : exec c s = finish s (s.message cls op f m)) (hok : messageOk cls op m s = true)
    (hf : f (s.takeIn (s.named m) cls op) (s.named m) = (t, some a)) (hmb : t.mb = (s.takeIn (s.named m) cls op).mb) (hmono : t.mono = s.mono)
    (hp : P (s.after (t.reply cls op (s.named m) a))) :
    Completes c s fun u => Answered s u cls op m a.st a.detail a.body ∧ P u := by
  have hlen : m.mbox < t.mb.boxes.length := by
    rw [hmb]
    simpa [State.takeIn, State.accept] using mailboxFree_lt (messageOk_free hok)
  exact completes_message h hok hf ⟨reply_answered (m := s.named m) a hlen rfl hmono, hp⟩

section
variable {s : State} {m : MsgReq} (hlen : m.payload.length = 8) (hcls : natAt m.payload 0 1 ≤ 63) (hres : natAt m.payload 1 3 = 0)
include hlen hcls hres

/-- A period below the one in force is refused (R27). -/
theorem hRetentionSet_shorter (h : natAt m.payload 4 4 < (s.va.retention.getD (natAt m.payload 0 1) none).getD 0) :
    hRetentionSet s m = (s, some (badField 4)) := by
  simp only [hRetentionSet, hlen, hres, Nat.not_lt.mpr hcls, h, or_true, if_true, if_false, ne_eq, not_true_eq_false, saying]

/-- Any other period of at most 36,525 days becomes that of the class (R26, R27). -/
theorem hRetentionSet_longer (hmax : natAt m.payload 4 4 ≤ 36525)
    (h : (s.va.retention.getD (natAt m.payload 0 1) none).getD 0 ≤ natAt m.payload 4 4) :
    hRetentionSet s m =
      (s.modVa fun v => { v with retention := v.retention.set (natAt m.payload 0 1) (some (natAt m.payload 4 4)) }, some {}) := by
  simp only [hRetentionSet, hlen, hres, Nat.not_lt.mpr hcls, Nat.not_lt.mpr hmax, Nat.not_lt.mpr h, or_self, if_false, ne_eq,
    not_true_eq_false, doing]

end

/-- Settles O49: the handler compares the period with the one in force, none counting as 0 days. -/
theorem retentionPeriodsOnlyLengthen : Obligations.Retention_periods_only_lengthen := by
  intro m s hok hlen hcls hres hmax hclasses
  refine ⟨fun d hd hshort => ?_, fun hlong => ?_⟩
  · have hold : (s.va.retention.getD (natAt m.payload 0 1) none).getD 0 = d := by
      rw [List.getD_eq_getElem?_getD, hd]; rfl
    have hf := hRetentionSet_shorter (s := s.takeIn (s.named m) 1 4) (m := s.named m) hlen hcls hres (hold ▸ hshort)
    exact completes_answered (P := fun t => t.va = s.va) rfl hok hf rfl rfl (State.reply_va _ _ _ _ _)
  · have hold : (s.va.retention.getD (natAt m.payload 0 1) none).getD 0 ≤ natAt m.payload 4 4 := by
      rw [List.getD_eq_getElem?_getD]
      match hc : s.va.retention[natAt m.payload 0 1]? with
      | some (some d) => exact hlong d hc
      | some none => exact Nat.zero_le _
      | none => exact Nat.zero_le _
    have hf := hRetentionSet_longer (s := s.takeIn (s.named m) 1 4) (m := s.named m) hlen hcls hres hmax hold
    refine completes_answered (P := fun t => t.va.retention[natAt m.payload 0 1]? = some (some (natAt m.payload 4 4))
      ∧ ∀ i, i ≠ natAt m.payload 0 1 → t.va.retention[i]? = s.va.retention[i]?) rfl hok hf rfl rfl ?_
    rw [State.after_va, State.reply_va]
    exact ⟨List.getElem?_set_self (by omega : natAt m.payload 0 1 < s.va.retention.length), fun i hi => List.getElem?_set_ne (Ne.symm hi)⟩

end Sys2Proof.Machine
end

section
/-! SUPPORT. What the upkeep of the index and of the media leaves as it was: pages of internal data that are written (R179, R180), the
spill page cache (R126), records that nothing points at any more (R162, R193), and with them the journal and the commit sequence (R25,
R158). -/

namespace Sys2Proof.Machine

/-! ## Upkeep of the media: no record moves -/

/-- Between the two states only the media differ, no record of theirs has moved, and the generation of a vendor log. -/
def State.Tended (s t : State) : Prop :=
  ∃ md gen time, md.nand = s.md.nand ∧ t = { s with md := md, fe := { s.fe with logGen := gen, logTime := time } }

theorem State.Tended.refl (s : State) : s.Tended s := ⟨s.md, s.fe.logGen, s.fe.logTime, rfl, rfl⟩

theorem State.Tended.trans {s t u : State} (h : s.Tended t) (h' : t.Tended u) : s.Tended u := by
  obtain ⟨_, _, _, hn, rfl⟩ := h
  obtain ⟨md, gen, time, hn', rfl⟩ := h'
  exact ⟨md, gen, time, hn'.trans hn, rfl⟩

theorem State.tended_modMd {s : State} {f : Media → Media} (h : (f s.md).nand = s.md.nand) : s.Tended (s.modMd f) :=
  ⟨f s.md, s.fe.logGen, s.fe.logTime, h, rfl⟩

theorem State.tended_logChanged (s : State) (n : Nat) : s.Tended (s.logChanged n) := ⟨s.md, _, _, rfl, rfl⟩

theorem State.tended_countErrs (s : State) (i n : Nat) : s.Tended (s.countErrs i n) :=
  (State.tended_modMd rfl).trans (State.tended_logChanged _ _)

theorem State.tended_openBand {s t : State} {k : StreamKind} {want : Option (Nat × Nat × Nat)} (h : s.openBand k want = some t) :
    s.Tended t := by
  unfold State.openBand at h
  split at h
  · split at h
    · cases h
    · cases h
      exact State.tended_modMd rfl
  · cases h

theorem State.tended_putInternal {s t : State} {pg : IntPage} (h : s.putInternal pg = some t) : s.Tended t := by
  simp only [State.putInternal, Option.bind_eq_some_iff, Option.map_eq_some_iff] at h
  obtain ⟨b, -, g, -, rfl⟩ := h
  exact (State.tended_modMd rfl).trans (State.tended_modMd rfl)

theorem State.tended_padBand (s : State) (b : Band) : s.Tended (s.padBand b) := by
  unfold State.padBand
  exact .trans (State.tended_modMd rfl) (State.tended_modMd rfl)

theorem State.tended_endBand (s : State) (b : Band) : s.Tended (s.endBand b) := (s.tended_padBand b).trans (State.tended_modMd rfl)

theorem State.tended_nextInternalBand {s t : State} (h : s.nextInternalBand = some t) : s.Tended t := by
  unfold State.nextInternalBand at h
  split at h
  · exact (s.tended_endBand _).trans (State.tended_openBand h)
  · exact State.tended_openBand h

theorem State.tended_drainInternal (n : Nat) (s : State) : s.Tended (s.drainInternal n) := by
  induction n generalizing s with
  | zero => exact .refl s
  | succ n ih =>
    unfold State.drainInternal
    split
    · exact .refl s
    split
    next t h =>
      refine .trans (.trans ?_ (State.tended_modMd rfl)) (ih _)
      rcases Option.or_eq_some_iff.mp h with h | ⟨-, h⟩
      · exact State.tended_putInternal h
      · obtain ⟨u, hu, ht⟩ := Option.bind_eq_some_iff.mp h
        exact (State.tended_nextInternalBand hu).trans (State.tended_putInternal ht)
    · exact .refl s

theorem State.tended_retryInternal (s : State) : s.Tended s.retryInternal := State.tended_drainInternal _ s

theorem State.tended_placeInternal (s : State) (l : List IntPage) : s.Tended (s.placeInternal l) :=
  ((s.tended_logChanged 0).trans (State.tended_modMd rfl)).trans (State.tended_retryInternal _)

theorem State.tended_settleVictims (s : State) : s.Tended s.settleVictims := by
  unfold State.settleVictims
  split
  · exact State.tended_modMd rfl
  · exact .refl s

/-! ## A change of the index (R126) -/

/-- The spill page cache keeps to its region, and leaves it once nothing is spilled (R113, R126). -/
def Index.trimmed (x : Index) : Index := if x.spill.isEmpty then { x with spillCache := [] } else { x with spillCache := x.spillCache.take x.spillPages }

theorem State.tended_spillTrim (s : State) :
    { s with ix := { s.ix with spillCache := s.ix.spillCache.take s.ix.spillPages } }.Tended s.spillTrim := by
  unfold State.spillTrim
  dsimp only
  split
  case isTrue h =>
    rw [List.take_of_length_le h]
    exact .refl s
  case isFalse => exact State.tended_placeInternal _ _

/-- A change of the index takes effect in the index, its spill page cache trimmed; beside it only the media are tended. -/
theorem State.tended_index (s : State) (f : Index → Index) : { s with ix := (f s.ix).trimmed }.Tended (s.index f) := by
  unfold State.index Index.trimmed
  dsimp only [State.modIx]
  by_cases hspill : (f s.ix).spill.isEmpty = true
  · rw [if_pos hspill, if_pos hspill]
    by_cases hcache : (f s.ix).spillCache = []
    · have hsame : ({ f s.ix with spillCache := [] } : Index) = f s.ix := by rw [← hcache]
      rw [hsame, hcache]
      exact .refl _
    · have hkept : (!(f s.ix).spillCache.isEmpty) = true := by simpa using hcache
      rw [State.whenB, if_pos hkept]
      exact State.tended_placeInternal _ _
  · rw [if_neg hspill, if_neg hspill]
    refine .trans ?_ (State.tended_spillTrim _)
    unfold State.whenB
    split
    · refine ⟨_, _, _, ?_, rfl⟩
      rfl
    · exact .refl _

end Sys2Proof.Machine
end

section
/-! SUPPORT. What leaves the commit sequence (R25) and the journal (R158) as they were, and the commit of a write. -/

namespace Sys2Proof.Machine

/-! ## Operations that commit nothing -/

/-- Between the two states nothing has committed: the next commit sequence and the journal are the same (R25, R158). -/
def State.KeepsCommits (s t : State) : Prop := t.va.nextSeq = s.va.nextSeq ∧ t.wx.journal = s.wx.journal

theorem State.KeepsCommits.refl (s : State) : s.KeepsCommits s := ⟨rfl, rfl⟩

theorem State.KeepsCommits.trans {s t u : State} (h : s.KeepsCommits t) (h' : t.KeepsCommits u) : s.KeepsCommits u :=
  ⟨h'.1.trans h.1, h'.2.trans h.2⟩

theorem State.KeepsCommits.of_ite {s t u : State} {c : Prop} [Decidable c] (ht : s.KeepsCommits t) (hu : s.KeepsCommits u) :
    s.KeepsCommits (if c then t else u) := by
  split
  · exact ht
  · exact hu

theorem State.KeepsCommits.of_foldl {α : Type} {f : State → α → State} (h : ∀ (s : State) a, s.KeepsCommits (f s a)) (l : List α) (s : State) :
    s.KeepsCommits (l.foldl f s) := by
  induction l generalizing s with
  | nil => exact .refl s
  | cons a l ih => exact (h s a).trans (ih _)

theorem State.Tended.keepsCommits {s t : State} (h : s.Tended t) : s.KeepsCommits t := by
  obtain ⟨_, _, _, -, rfl⟩ := h
  exact .refl s

theorem State.keepsCommits_index (s : State) (f : Index → Index) : s.KeepsCommits (s.index f) :=
  (State.KeepsCommits.refl s).trans (s.tended_index f).keepsCommits

theorem State.keepsCommits_endCheckpoint (s : State) : s.KeepsCommits s.endCheckpoint := by
  unfold State.endCheckpoint
  split
  · exact .of_ite (.refl s) ((State.KeepsCommits.refl s).trans (State.tended_settleVictims _).keepsCommits)
  · exact .refl s

theorem State.keepsCommits_closeBand (s : State) (b : Band) : s.KeepsCommits (s.closeBand b) :=
  .trans (.trans (.trans (⟨rfl, rfl⟩ : s.KeepsCommits ((s.modWx _).modBand _ _)) (State.tended_settleVictims _).keepsCommits)
    (State.tended_retryInternal _).keepsCommits) (State.keepsCommits_endCheckpoint _)

theorem State.keepsCommits_settleBands (s : State) : s.KeepsCommits s.settleBands :=
  s.tended_settleVictims.keepsCommits.trans (.of_foldl State.keepsCommits_closeBand _ _)

theorem State.keepsCommits_trimRing (s : State) : s.KeepsCommits s.trimRing := ⟨rfl, rfl⟩

theorem State.keepsCommits_dropRecord (s : State) (loc : Loc) (bytes : Nat) : s.KeepsCommits (s.dropRecord loc bytes) := by
  cases loc with
  | wax g => exact ⟨rfl, rfl⟩
  | nand g => exact .trans (⟨rfl, rfl⟩ : s.KeepsCommits ((s.modMd _).logChanged 0)) (State.keepsCommits_settleBands _)

theorem State.keepsCommits_release (s : State) (f : Index → Index) (nsid seq : Nat) (loc : Loc) (bytes : Nat) :
    s.KeepsCommits (((s.index f).forget nsid seq).dropRecord loc bytes) :=
  .trans (.trans (s.keepsCommits_index f) (⟨rfl, rfl⟩ : (s.index f).KeepsCommits _)) (State.keepsCommits_dropRecord _ loc bytes)

theorem State.keepsCommits_removeKey (s : State) (nsid : Nat) (key : Key) : s.KeepsCommits (s.removeKey nsid key) := by
  unfold State.removeKey
  split
  · exact s.keepsCommits_release _ _ _ _ _
  · exact .refl s

theorem State.keepsCommits_putKey (s : State) (loc : Loc) (r : StoredRec) (twinPend : Bool) : s.KeepsCommits (s.putKey loc r twinPend) := by
  unfold State.putKey
  dsimp only
  split
  · exact (s.keepsCommits_release _ _ _ _ _).trans ⟨rfl, rfl⟩
  · exact (s.keepsCommits_index _).trans ⟨rfl, rfl⟩

theorem State.keepsCommits_modSlot (s : State) (nsid : Nat) (key : Key) (f : Slot → Slot) : s.KeepsCommits (s.modSlot nsid key f) := by
  unfold State.modSlot
  split
  · exact s.keepsCommits_index _
  · exact .refl s

theorem State.keepsCommits_setC1 (s : State) (i : Nat) (f : DeRec → DeRec) : s.KeepsCommits (s.setC1 i f) := ⟨rfl, rfl⟩

theorem State.keepsCommits_secdelDone (s : State) (j : SecDelJob) : s.KeepsCommits (s.secdelDone j) := by
  unfold State.secdelDone
  dsimp only
  split <;> exact ⟨rfl, rfl⟩

theorem Wax.journal_kill (l : List Nat) (w : Wax) : (l.foldl Wax.kill w).journal = w.journal := by
  induction l generalizing w with
  | nil => rfl
  | cons g l ih => exact ih _

theorem State.keepsCommits_startSecdel (s : State) (slot : Option Nat) (seq nsid : Nat) (key : Key) (host : Nqn) :
    s.KeepsCommits (s.startSecdel slot seq nsid key host) := by
  unfold State.startSecdel
  extract_lets bs j gone runs t u
  have ht : s.KeepsCommits t := ⟨rfl, Wax.journal_kill _ _⟩
  have hu : s.KeepsCommits u := (ht.trans ⟨rfl, rfl⟩).trans (State.tended_settleVictims _).keepsCommits
  exact .of_ite (hu.trans (State.keepsCommits_secdelDone _ _)) hu

theorem State.keepsCommits_holdPends (s : State) (w : Write) (seq : Nat) (twinPend : Bool) : s.KeepsCommits (s.holdPends w seq twinPend) :=
  .of_ite ⟨rfl, rfl⟩ (.refl s)

/-- The effect of a committed write on the index, the hold tables and the commit time table commits nothing. -/
theorem State.keepsCommits_applyWrite (s : State) (w : Write) (seq time : Nat) (tq : BitVec 8) (twinPend : Bool) :
    s.KeepsCommits (s.applyWrite w seq time tq twinPend) := by
  have hremoved := s.keepsCommits_removeKey w.nsid w.key
  unfold State.applyWrite
  split
  case h_1 =>
    split
    next r l _ _ =>
      refine .of_ite (hremoved.trans (State.keepsCommits_dropRecord _ _ _)) ?_
      have hput := s.keepsCommits_putKey l { r with seq := seq } twinPend
      cases l <;> exact .of_ite (hput.trans ⟨rfl, rfl⟩) (hput.trans ⟨rfl, rfl⟩)
    · exact .refl s
  case h_2 | h_3 =>
    refine .of_ite hremoved (.of_ite ?_ (hremoved.trans (State.keepsCommits_startSecdel _ _ _ _ _ _)))
    split
    exact (hremoved.trans (State.keepsCommits_setC1 _ _ _)).trans (State.keepsCommits_startSecdel _ _ _ _ _ _)
  case h_4 | h_5 =>
    split
    · exact .trans (.trans (⟨rfl, rfl⟩ : s.KeepsCommits (s.modVa _)) (State.keepsCommits_holdPends _ _ _ _)) (State.keepsCommits_modSlot _ _ _ _)
    · exact .refl s
  case h_6 | h_7 => exact ⟨rfl, rfl⟩

theorem State.keepsCommits_closeEpoch (s : State) (flags : Nat) : s.KeepsCommits (s.closeEpoch flags) := by
  unfold State.closeEpoch
  split
  · exact .refl s
  · exact ⟨rfl, rfl⟩

theorem State.keepsCommits_addLeaf (s : State) (nsid : Nat) (key : Key) (value : Bytes) (seq : Nat) :
    s.KeepsCommits (s.addLeaf nsid key value seq).1 :=
  .of_ite (.trans ⟨rfl, rfl⟩ (State.keepsCommits_closeEpoch _ _)) ⟨rfl, rfl⟩

theorem State.keepsCommits_sendTwin (s : State) (w : ReplWrite) (hosted : Bool) : s.KeepsCommits (s.sendTwin w hosted) :=
  .of_ite ⟨rfl, rfl⟩ (.of_ite ⟨rfl, rfl⟩ ⟨rfl, rfl⟩)

theorem State.keepsCommits_noteBase (s : State) (nsid : Nat) (key : Key) : s.KeepsCommits (s.noteBase nsid key) :=
  .of_ite (.refl s) ⟨rfl, rfl⟩

end Sys2Proof.Machine
end

section
/-! SUPPORT. What the commit of a write takes and records. -/

namespace Sys2Proof.Machine

/-! ## The commit of a write (R25, R156, R158) -/

/-- A journal record is written behind those that stand, with H of its key; the commit sequence is not taken by it (R158). -/
theorem State.writeJournal_appends (s : State) (r : JRec) :
    (s.writeJournal r).va.nextSeq = s.va.nextSeq ∧ ∃ h, (s.writeJournal r).wx.journal = s.wx.journal ++ [{ r with h := h }] := by
  unfold State.writeJournal
  split
  · exact ⟨rfl, r.h, rfl⟩
  · obtain ⟨hseq, hjournal⟩ := s.keepsCommits_noteBase r.nsid r.key
    exact ⟨hseq, _, congrArg (· ++ _) hjournal⟩

/-- What a commit answers: the sequence that was next is taken, and one record with it, with the time and its quality and with the write's key,
stands behind those of the journal. -/
def State.CommitsAs (s : State) (w : Write) (p : State × Committed) : Prop :=
  p.2.seq = s.va.nextSeq ∧ p.1.va.nextSeq = s.va.nextSeq + 1
    ∧ ∃ r : JRec, p.1.wx.journal = s.wx.journal ++ [r] ∧ r.seq = s.va.nextSeq ∧ r.time = s.now ∧ r.tq = s.tq ∧ r.nsid = w.nsid ∧ r.key = w.key

theorem State.CommitsAs.of_writeJournal {s t : State} {w : Write} {r : JRec} {c : Committed} (hnext : t.va.nextSeq = s.va.nextSeq + 1)
    (hjournal : t.wx.journal = s.wx.journal) (hc : c.seq = s.va.nextSeq)
    (hr : r.seq = s.va.nextSeq ∧ r.time = s.now ∧ r.tq = s.tq ∧ r.nsid = w.nsid ∧ r.key = w.key) : s.CommitsAs w (t.writeJournal r, c) := by
  obtain ⟨hseq, h, happends⟩ := t.writeJournal_appends r
  exact ⟨hc, hseq.trans hnext, _, happends.trans (congrArg (· ++ _) hjournal), hr⟩

/-- What follows the journal record of a commit commits nothing more. -/
theorem State.CommitsAs.then_keeps {s t u : State} {w : Write} {c d : Committed} (h : s.CommitsAs w (t, c)) (hu : t.KeepsCommits u)
    (hd : d.seq = c.seq) : s.CommitsAs w (u, d) := by
  obtain ⟨hseq, hnext, r, hjournal, hr⟩ := h
  exact ⟨hd.trans hseq, hu.1.trans hnext, r, hu.2.trans hjournal, hr⟩

theorem State.commit_commitsAs (s : State) (w : Write) (fwd : Option (Nat × Nat × Nat)) : s.CommitsAs w (s.commit w fwd) := by
  unfold State.commit
  extract_lets seq part time tq early
  split
  next s₁ lf lh hleaf =>
  have hleafKeeps : s.KeepsCommits s₁ := by
    split at hleaf
    · generalize hadd : s.addLeaf w.nsid w.key _ seq = added at hleaf
      obtain ⟨t, e, i, h⟩ := added
      cases hleaf
      have hkeeps := s.keepsCommits_addLeaf w.nsid w.key ((w.srec.map (·.value)).getD []) seq
      rwa [hadd] at hkeeps
    · cases hleaf
      exact .refl s
  extract_lets numbered
  split
  next e i _ =>
  extract_lets journaled owned sent listed lagged early' staged
  have hjournaled : s.CommitsAs w (journaled, { seq := seq, waits := false, leaf := lf }) :=
    .of_writeJournal rfl hleafKeeps.2 rfl ⟨rfl, rfl, rfl, rfl, rfl⟩
  have howned : journaled.KeepsCommits owned := by
    unfold owned
    split
    · exact ⟨rfl, rfl⟩
    · exact .of_ite ⟨rfl, rfl⟩ (.refl _)
  have hsent : owned.KeepsCommits sent :=
    .of_ite (.trans (⟨rfl, rfl⟩ : owned.KeepsCommits (owned.modWx _)) (State.keepsCommits_sendTwin _ _ _)) (.of_ite ⟨rfl, rfl⟩ (.refl _))
  have hlagged : journaled.KeepsCommits lagged :=
    ((howned.trans hsent).trans (⟨rfl, rfl⟩ : sent.KeepsCommits listed)).trans (.of_ite ⟨rfl, rfl⟩ (.refl _))
  split
  · have hearly : lagged.KeepsCommits early' := .of_ite (State.keepsCommits_applyWrite _ _ _ _ _ _) (.refl _)
    exact hjournaled.then_keeps ((hlagged.trans hearly).trans ⟨rfl, rfl⟩) rfl
  · have hstaged : lagged.KeepsCommits staged := by
      unfold staged
      split
      · exact ⟨rfl, rfl⟩
      · exact .refl _
    exact hjournaled.then_keeps ((hlagged.trans hstaged).trans (State.keepsCommits_applyWrite _ _ _ _ _ _)) rfl

/-- Settles O56: the commit takes the next sequence before it writes its record, and what follows takes none. -/
theorem commitsTakeTheNextSequence : Obligations.Commits_take_the_next_sequence := fun s w fwd => s.commit_commitsAs w fwd

end Sys2Proof.Machine
end

section
/-! SUPPORT. Abort, contexts, ORD, rate classes and asynchronous events (R45, R57, R64, R66, R88, R92 to R94), and opcodes that are refused
(R47). -/

namespace Sys2Proof.Machine

/-! ## Completion entries -/

theorem Front.ctrl?_congr {f g : Front} (h : g.ctrls = f.ctrls) (n : Nat) : g.ctrl? n = f.ctrl? n := by
  simp only [Front.ctrl?, h]

/-- The head of a submission queue follows from the outstanding commands, the controllers and the kept entries (R57, R88). -/
theorem State.sqHead_congr {s t : State} (hcmds : t.fl.cmds = s.fl.cmds) (hctrls : t.fe.ctrls = s.fe.ctrls)
    (hkept : t.fe.admEntries = s.fe.admEntries) (ctrl sq : Nat) : t.sqHead ctrl sq = s.sqHead ctrl sq := by
  simp only [State.sqHead, hcmds, hkept, Front.queue?, Front.ctrl?, hctrls]

section
variable (s : State) (ctrl sq cid : Nat) (st : Status) (dw0 dw1 : Nat) (dnr : Bool) (inv : Option (BitVec 32))

@[simp] theorem State.post_fl : (s.post ctrl sq cid st dw0 dw1 dnr inv).fl = s.fl := rfl
@[simp] theorem State.post_va : (s.post ctrl sq cid st dw0 dw1 dnr inv).va = s.va := rfl
@[simp] theorem State.post_ix : (s.post ctrl sq cid st dw0 dw1 dnr inv).ix = s.ix := rfl

/-- Posting an entry notes at most a failure in the Error Information log (R79). -/
theorem State.post_fe : ∃ log, (s.post ctrl sq cid st dw0 dw1 dnr inv).fe = { s.fe with errorLog := log } := by
  by_cases h : (st == .success) = true
  · exact ⟨s.fe.errorLog, by rw [State.post, if_pos h]⟩
  · exact ⟨_, by rw [State.post, if_neg h]⟩

@[simp] theorem State.post_ctrls : (s.post ctrl sq cid st dw0 dw1 dnr inv).fe.ctrls = s.fe.ctrls := by
  obtain ⟨_, h⟩ := s.post_fe ctrl sq cid st dw0 dw1 dnr inv
  rw [h]

@[simp] theorem State.post_admEntries : (s.post ctrl sq cid st dw0 dw1 dnr inv).fe.admEntries = s.fe.admEntries := by
  obtain ⟨_, h⟩ := s.post_fe ctrl sq cid st dw0 dw1 dnr inv
  rw [h]

@[simp] theorem State.hasQueue_post (i j : Nat) : (s.post ctrl sq cid st dw0 dw1 dnr inv).fe.hasQueue i j = s.fe.hasQueue i j := by
  simp [Front.hasQueue]

/-- The end of a command and the entries it posts leave the heads of the queues (R57). -/
@[simp] theorem State.sqHead_after (t : State) (i j : Nat) : (t.after s).sqHead i j = s.sqHead i j := State.sqHead_congr rfl rfl rfl i j

@[simp] theorem State.sqHead_post (i j : Nat) : (s.post ctrl sq cid st dw0 dw1 dnr inv).sqHead i j = s.sqHead i j :=
  State.sqHead_congr (s := s) (t := s.post ctrl sq cid st dw0 dw1 dnr inv) rfl (State.post_ctrls s ctrl sq cid st dw0 dw1 dnr inv)
    (State.post_admEntries s ctrl sq cid st dw0 dw1 dnr inv) i j

variable {s ctrl sq} in
/-- An entry posted on a queue that exists is put out with the head of that queue (R57). -/
theorem State.post_out (h : s.fe.hasQueue ctrl sq = true) : (s.post ctrl sq cid st dw0 dw1 dnr inv).out =
    s.out ++ [.cqe ctrl sq cid st dnr (BitVec.ofNat 32 dw0) (BitVec.ofNat 32 dw1) (s.sqHead ctrl sq) inv] := by
  rw [State.post, h, if_pos rfl]

end

/-- The entry of an admin command names the head of its queue and nothing else of the state. -/
@[simp] theorem adminCqe_after (s t : State) (a : Adm) (st : Status) (dnr : Bool) (dw0 : Nat) :
    adminCqe (t.after s) a st dnr dw0 = adminCqe s a st dnr dw0 := by
  simp only [adminCqe, State.sqHead_after]

@[simp] theorem adminCqe_post (s : State) (a : Adm) (ctrl sq cid : Nat) (st st' : Status) (dw0 dw1 dw0' : Nat) (dnr dnr' : Bool)
    (inv : Option (BitVec 32)) : adminCqe (s.post ctrl sq cid st' dw0' dw1 dnr' inv) a st dnr dw0 = adminCqe s a st dnr dw0 := by
  simp only [adminCqe, State.sqHead_post]

/-- The completion entry of an admin command, whatever its status. -/
theorem State.admDone_out {s : State} {a : Adm} (h : s.fe.hasQueue a.ctrl 0 = true) (st : Status) (dw0 : Nat) :
    (s.admDone a st dw0).out = s.out ++ [adminCqe s a st (statusDnr st) dw0] :=
  State.post_out a.cid st dw0 0 (statusDnr st) (sglInv a.sgl) h

/-! ## The entry of an admin command -/

/-- Taking its entry, an admin command leaves all but the front end as it was. -/
theorem State.admEntry_eq (s : State) (a : Adm) : ∃ fe, (s.admEntry a).1 = { s with fe := fe } := by
  unfold State.admEntry
  split
  · exact ⟨_, rfl⟩
  · exact ⟨_, rfl⟩

@[simp] theorem State.admEntry_out (s : State) (a : Adm) : (s.admEntry a).1.out = s.out := by
  obtain ⟨_, h⟩ := s.admEntry_eq a
  rw [h]

/-- The entry of an admin command is counted on its controller, or had been kept for it (R57). -/
theorem State.ctrl?_admEntry (s : State) (a : Adm) {c : Ctrl} (h : s.fe.ctrl? a.ctrl = some c) :
    (s.admEntry a).1.fe.ctrl? a.ctrl = some c ∨ (s.admEntry a).1.fe.ctrl? a.ctrl = some (c.oneFetched a.ctrl 0) := by
  unfold State.admEntry
  split
  · exact .inl h
  · exact .inr (by rw [State.fetch_eq, Front.ctrl?_fetch, h]; rfl)

@[simp] theorem Ctrl.oneFetched_raised (c q : Nat) (x : Ctrl) : (x.oneFetched c q).raised = x.raised := by
  simp only [Ctrl.oneFetched]; split <;> rfl

theorem State.ctrl?_admEntry_events (s : State) (a : Adm) {c : Ctrl} (h : s.fe.ctrl? a.ctrl = some c) :
    ∃ x, (s.admEntry a).1.fe.ctrl? a.ctrl = some x ∧ x.aers = c.aers ∧ x.raised = c.raised := by
  rcases s.ctrl?_admEntry a h with h | h
  · exact ⟨c, h, rfl, rfl⟩
  · exact ⟨_, h, by simp, by simp⟩

theorem adminOk_entry {a : Adm} {s : State} (h : adminOk a s = true) : (s.admEntry a).1.fe.hasQueue a.ctrl 0 = true := by
  have hfree := adminFree_entry (adminOk_free h)
  simp only [adminFree, Bool.and_eq_true] at hfree
  obtain ⟨⟨⟨⟨⟨⟨⟨⟨⟨⟨-, -⟩, hq⟩, -⟩, -⟩, -⟩, -⟩, -⟩, -⟩, -⟩, -⟩ := hfree
  exact hq

/-! ## Abort (R92 to R94) -/

/-- An Abort that nothing turns away takes its entry and looks for its command. -/
theorem exec_abort {a : Adm} {s : State} (h : adminOk a s = true) (sq cid : Nat) :
    exec (.abort a sq cid) s = finish s ((s.admEntry a).1.abort a sq cid) := by
  have hroom := adminOk_room h
  obtain ⟨hserves, -, -, -, -, -, -, -, -, c, hc, hon⟩ := adminOk_facts h
  have hentry := adminFree_entry (adminOk_free h)
  simp only [adminFree, Bool.and_eq_true, Bool.not_eq_true', beq_iff_eq, Option.isNone_iff_eq_none] at hentry
  obtain ⟨⟨⟨⟨⟨⟨⟨⟨⟨⟨gserves, -⟩, -⟩, -⟩, -⟩, gjobs⟩, -⟩, gcid⟩, -⟩, gres⟩, gsgl⟩ := hentry
  have hfew : ¬ 4 ≤ (s.admEntry a).1.fe.jobs.countP (fun j => j.ctrl == a.ctrl && j.what == 5) := by
    rw [List.countP_eq_zero.mpr]
    · decide
    · intro j hj
      simpa using fun hctrl _ => absurd (List.any_eq_false.mp gjobs j hj) (by simp [hctrl])
  change execAbort a sq cid s = _
  simp [execAbort, State.managed, hserves, hc, hon, hroom, gserves, gcid, hfew, gres, gsgl]

theorem State.abort_unknown {s : State} {a : Adm} {sq cid : Nat} (hsq : sq ≠ 0) (h : s.cmd? a.ctrl sq cid = none) :
    s.abort a sq cid = s.admDone a .success 1 := by
  simp [State.abort, hsq, h]

/-- The controller with one Asynchronous Event Request more. -/
def Ctrl.withAer (cid : Nat) (c : Ctrl) : Ctrl := { c with aers := c.aers ++ [cid] }

/-- The controller with one Asynchronous Event Request the fewer. -/
def Ctrl.withoutAer (cid : Nat) (c : Ctrl) : Ctrl := { c with aers := c.aers.filter (· ≠ cid) }

/-- An outstanding Asynchronous Event Request is caught, and posts its completion before that of the Abort (R92, R94). -/
theorem State.abort_event {s : State} {a : Adm} {cid : Nat} {c : Ctrl} (hc : s.fe.ctrl? a.ctrl = some c) (h : cid ∈ c.aers) :
    s.abort a 0 cid =
      ((s.modCtrl a.ctrl (Ctrl.withoutAer cid)).post a.ctrl 0 cid .abortRequested).admDone a .success 0 := by
  rw [State.abort, if_pos rfl, hc]
  exact if_pos h

/-! ## Waiting commands that start (R45, R57, R88) -/

/-- One waiting command tries again. -/
theorem State.retryAll_one {s : State} {c : Cmd} (h : s.fl.cmds.find? (·.fetch == c.fetch) = some c) : s.retryAll [c] = s.tryStart c := by
  simp [State.retryAll, h]

/-- A freed context that goes to an I/O queue starts its oldest waiting command (R57). -/
theorem State.giveContext_io {s : State} {q : Nat × Nat} {c : Cmd} {rest : List Cmd} (hq : q.2 ≠ 0)
    (hwaits : (s.inPhase .waitContext).filter (fun c => (c.ctrl, c.sq) == q) = c :: rest)
    (hc : s.fl.cmds.find? (·.fetch == c.fetch) = some c) :
    s.giveContext q = ({ s with fe := s.fe.turn q } : State).tryStart c := by
  have hsame : ((s.modFe fun f => f.turn q).inPhase .waitContext).filter (fun c => (c.ctrl, c.sq) == q) = c :: rest := hwaits
  rw [State.giveContext, if_neg hq, hsame]
  exact State.retryAll_one hc

/-- The context goes to the first waiting admin command that the controller sent. -/
theorem mem_grantCtx {ctrl cid : Nat} {l : List ((Nat × Nat) × Bool)}
    (h : l.find? (fun w => w.1.1 == ctrl && !w.2) = some ((ctrl, cid), false)) : ((ctrl, cid), true) ∈ grantCtx ctrl l := by
  induction l with
  | nil => cases h
  | cons w l ih =>
    by_cases hw : (w.1.1 == ctrl && !w.2) = true
    · rw [List.find?_cons_of_pos (p := fun w : (Nat × Nat) × Bool => w.1.1 == ctrl && !w.2) hw] at h
      cases h
      simp [grantCtx]
    · rw [List.find?_cons_of_neg (p := fun w : (Nat × Nat) × Bool => w.1.1 == ctrl && !w.2) hw] at h
      rw [grantCtx, if_neg hw]
      exact List.mem_cons_of_mem _ (ih h)

theorem State.giveContext_admin {s : State} {q : Nat × Nat} (hq : q.2 = 0) :
    s.giveContext q = { s with fe := { s.fe.turn q with ctxWait := grantCtx q.1 s.fe.ctxWait } } := by
  rw [State.giveContext, if_pos hq]
  rfl

/-- A judged command that waited for its rate class reaches its start where nothing else holds it (R45, R88, R521). -/
theorem State.tryStart_judged {s : State} {c : Cmd} {n : Ns} (hphase : c.phase = .waitRate) (hjudged : c.judged = true)
    (hflush : c.kind.isFlush = false) (hsan : s.sanitizing = false) (hcurtain : s.fl.curtain = false) (hord : s.ordHeld c = false)
    (hheld : s.held c = false) (hctx : s.contextFree c = true) (hcarrier : s.carrierFor c = none) (hcheck : s.check c = .ok (some n)) :
    s.tryStart c = s.admitRate c n := by
  simp [State.tryStart, hphase, hjudged, hflush, hsan, hcurtain, hord, hheld, hctx, hcarrier, hcheck]

theorem modAt_eq_set {α : Type} {l : List α} {i : Nat} {a : α} (h : l[i]? = some a) (f : α → α) : modAt l i f = l.set i (f a) := by
  simp [modAt, h]

/-! ## Asynchronous events (R64, R66) -/

/-- An enabled event completes the oldest request that waits, and a vendor event is masked from then on (R66). -/
theorem Ctrl.notify_waiting {c : Ctrl} {k : EventKind} {cid : Nat} {rest : List Nat} (hdisc : c.discovery = false) (hk : k ∈ c.events)
    (hmask : k ∉ c.masked) (haers : c.aers = cid :: rest) :
    c.notify k = ({ c with masked := if vendorEvent k then k :: c.masked else c.masked, aers := rest }, [.aen c.cntlid cid k]) := by
  cases hv : vendorEvent k <;> simp [Ctrl.notify, hdisc, hk, hmask, hv, haers]

/-! ## Refused opcodes (R47) -/

theorem exec_ioCommand (k : IoKind) (h : HostCmd) (s : State) : exec (ioCommand k h) s = finish s (s.arrive k h) := by cases k <;> rfl

section
variable {c : HostCmd} {opcode : Nat} (s : State) (hop : opcode < 256)
include hop

theorem exec_opcode_admin (hsq : c.sq = 0) (hnot : opcode ∉ adminOpcodes) :
    exec (.invalidCommandOpcode c opcode) s =
      finish s (s.admin (.invalidCommandOpcode c opcode) { ctrl := c.ctrl, cid := c.e.cid, nsid := c.e.nsid } false false false
        fun s => s.admDone { ctrl := c.ctrl, cid := c.e.cid, nsid := c.e.nsid } .invalidOpcode) := by
  change execInvalidCommandOpcode c opcode s = _
  rw [execInvalidCommandOpcode, Nat.mod_eq_of_lt hop, if_pos hsq, if_neg hnot]

theorem exec_opcode_refused (hsq : c.sq ≠ 0) (hio : ioOpcode opcode c.e = none) (hserves : s.serving = true)
    (hq : s.fe.hasQueue c.ctrl c.sq = true) : exec (.invalidCommandOpcode c opcode) s = finish s (s.refuseOpcode c) := by
  change execInvalidCommandOpcode c opcode s = _
  rw [execInvalidCommandOpcode, Nat.mod_eq_of_lt hop, if_neg hsq, hio, hserves, hq]
  rfl

theorem exec_opcode_io (hsq : c.sq ≠ 0) {k : IoKind} (hio : ioOpcode opcode c.e = some k) :
    exec (.invalidCommandOpcode c opcode) s = finish s (s.arrive k c) := by
  change execInvalidCommandOpcode c opcode s = _
  rw [execInvalidCommandOpcode, Nat.mod_eq_of_lt hop, if_neg hsq, hio]

end

/-! ## The statement -/

/-- Settles O4: each clause by what its row does to the commands, contexts and requests that wait. -/
theorem abortWaitingAndEventCommandsComplete : Obligations.Abort_waiting_and_event_commands_complete := by
  refine ⟨?unknown, ?event, ?contextIo, ?contextAdmin, ?ord, ?rate, ?request, ?raise, ?ioOpcode, ?adminOpcode, ?implemented⟩
  case unknown =>
    intro a sq cid s hok hsq hcmd
    have hnone : (s.admEntry a).1.cmd? a.ctrl sq cid = none := by
      obtain ⟨_, h⟩ := s.admEntry_eq a
      rw [h]
      exact hcmd
    refine completes_finish ((exec_abort hok sq cid).trans (congrArg (finish s) (State.abort_unknown hsq hnone))) ?_
    rw [Emits, State.after_out, State.admDone_out (adminOk_entry hok), State.admEntry_out, adminEntry, adminCqe_after, State.admDone,
      adminCqe_post]
    rfl
  case event =>
    intro a cid c s hok hc hcid
    obtain ⟨x, hx, haers, -⟩ := s.ctrl?_admEntry_events a hc
    have hqueue : ((s.admEntry a).1.modCtrl a.ctrl (Ctrl.withoutAer cid)).fe.hasQueue a.ctrl 0 = true :=
      (hasQueue_modCtrl _ a.ctrl a.ctrl 0 (Ctrl.withoutAer cid) fun _ => ⟨rfl, rfl, rfl⟩).trans (adminOk_entry hok)
    refine completes_finish ((exec_abort hok 0 cid).trans (congrArg (finish s) (State.abort_event hx (haers ▸ hcid)))) ⟨?_, ?_⟩
    · rw [Emits, State.after_out, State.admDone_out (by rw [State.hasQueue_post]; exact hqueue), State.post_out _ _ _ _ _ _ hqueue]
      simp only [adminEntry, adminCqe_after, State.sqHead_after, State.admDone, adminCqe_post, State.sqHead_post]
      rw [List.append_assoc]
      exact congrArg (· ++ _) (s.admEntry_out a)
    · rw [State.after_fe, Front.ctrl?_congr (State.raisedLogs_ctrls ..), State.admDone,
        Front.ctrl?_congr (State.post_ctrls ..), Front.ctrl?_congr (State.post_ctrls ..)]
      refine (congrArg _ ((ctrl?_modCtrl (s.admEntry a).1.fe a.ctrl (Ctrl.withoutAer cid) fun _ => rfl).trans (congrArg _ hx))).trans ?_
      exact congrArg (fun l => some (l.filter (· ≠ cid))) haers
  case contextIo =>
    intro q c rest s hup hq hio hwaits hc
    refine yields_of (Eq.trans ?_ (whileUp_up hup _))
    change execContextFreed s = _
    rw [execContextFreed, hq]
    exact congrArg (whileUp s) (State.giveContext_io hio hwaits hc)
  case contextAdmin =>
    intro q cid s hup hq hadm hwait
    refine completes_up (u := s.giveContext q) ?_ hup ?_
    · change execContextFreed s = _
      rw [execContextFreed, hq]
    · rw [State.giveContext_admin hadm]
      exact ⟨List.contains_iff_mem.mpr (mem_grantCtx hwait), rfl, (List.append_nil _).symm⟩
  case ord =>
    intro ctrl sq c s hup hheld hc
    refine yields_of (Eq.trans ?_ (whileUp_up hup _))
    change execOrdRelease ctrl sq s = _
    rw [execOrdRelease, hheld, State.retryAll_one hc]
  case rate =>
    intro cls r c n u s hserves hpause hr hu hwaits _ hc hphase hjudged hflush hsan hcurtain hord hheld hctx hcarrier hcheck
    have hroom : s.classRoom cls = u.admitRate c n := by
      have hfresh : (s.modVa fun v => { v with rate := modAt v.rate cls RateClass.fresh }) = u := by
        rw [hu, State.modVa, modAt_eq_set hr]
        rfl
      have hone : (u.inPhase .waitRate).filter (fun c => actRate c.action == cls) = [c] := by rw [hu]; exact hwaits
      have hfind : u.fl.cmds.find? (·.fetch == c.fetch) = some c := by rw [hu]; exact hc
      rw [State.classRoom, hfresh, hone, State.retryAll_one hfind,
        State.tryStart_judged hphase hjudged hflush hsan hcurtain hord hheld hctx hcarrier hcheck]
    refine yields_of ?_
    change execRateClassRoom cls s = _
    rw [execRateClassRoom, hserves, hpause, ← hroom]
    rfl
  case request =>
    intro a c s hok hc hraised haers
    obtain ⟨x, hx, hxaers, hxraised⟩ := s.ctrl?_admEntry_events a hc
    refine completes_admin rfl hok ?_
    rw [State.withCtrl, hx]
    simp only [hxraised.trans hraised, hxaers, if_neg (Nat.not_le.mpr haers)]
    refine ⟨?_, (s.admEntry_out a).trans (List.append_nil _).symm⟩
    rw [State.after_fe, Front.ctrl?_congr (State.raisedLogs_ctrls ..)]
    refine (congrArg _ ((ctrl?_modCtrl (s.admEntry a).1.fe a.ctrl (Ctrl.withAer a.cid) fun _ => rfl).trans (congrArg _ hx))).trans ?_
    exact congrArg (fun l => some (l ++ [a.cid])) hxaers
  case raise =>
    intro ctrl cid rest k c s hup hctrls hctrl hdisc hk hmask haers
    subst hctrl
    have hexec : exec (.asynchronousEvent c.cntlid k) s = finish s (s.notify k fun x => x.cntlid == c.cntlid) := by
      change execAsynchronousEvent c.cntlid k s = _
      rw [execAsynchronousEvent, show s.alive = true from hup, if_pos rfl]
    refine completes_finish hexec ?_
    have hn := Ctrl.notify_waiting hdisc hk hmask haers
    have hraised : (s.notify k fun x => x.cntlid == c.cntlid).fe.ctrls = [(c.notify k).1]
        ∧ (s.notify k fun x => x.cntlid == c.cntlid).out = s.out ++ (c.notify k).2 := by
      simp [State.notify, hctrls]
    rw [hn] at hraised
    rw [State.after_fe, State.raisedLogs_ctrls, hraised.1]
    exact ⟨hraised.2, rfl, fun hv => by simp [hv]⟩
  case ioOpcode =>
    intro c opcode s hserves hq hsq hop hnone hcid hsan
    have hqueue : (s.fetch c.ctrl c.sq).fe.hasQueue c.ctrl c.sq = true := (Front.hasQueue_fetch ..).trans hq
    refine completes_finish (exec_opcode_refused s hop hsq hnone hserves hq) ?_
    rw [State.refuseOpcode, hcid, hsan, Emits, State.after_out, State.post_out _ _ _ _ _ _ hqueue]
    simp only [ioEntry, State.sqHead_after, State.sqHead_post]
    exact ⟨rfl, rfl⟩
  case adminOpcode =>
    intro c opcode a s hsq hop hnot ha hok
    subst ha
    refine completes_admin (exec_opcode_admin s hop hsq hnot) hok ?_
    rw [Emits, State.after_out, State.admDone_out (adminOk_entry hok), State.admEntry_out, adminCqe_after, State.admDone, adminCqe_post]
    rfl
  case implemented =>
    intro c opcode k s hsq hop hk
    rw [exec_opcode_io s hop hsq hk, exec_ioCommand]

end Sys2Proof.Machine
end

section
/-! SUPPORT. The way of an I/O command that nothing turns away, from its arrival to its own operation and from there to its completion
(R41 to R45, R57, R88, R97, R121, R126, R521). -/

namespace Sys2Proof.Machine

/-! ## What the policy changes (R41 to R44) -/

/-- Between the two states only what the policy counts and repairs, and the records it leaves, differ. -/
def State.Consulted (s t : State) : Prop := ∃ cam sk ev bb free, t = { s with cam := cam, sk := sk, ev := ev, bb := bb, free := free }

theorem State.Consulted.refl (s : State) : s.Consulted s := ⟨s.cam, s.sk, s.ev, s.bb, s.free, rfl⟩

theorem State.Consulted.trans {s t u : State} (h : s.Consulted t) (h' : t.Consulted u) : s.Consulted u := by
  obtain ⟨_, _, _, _, _, rfl⟩ := h
  obtain ⟨cam, sk, ev, bb, free, rfl⟩ := h'
  exact ⟨cam, sk, ev, bb, free, rfl⟩

/-- A change of a command goes with what the policy changes. -/
theorem State.Consulted.modCmd {s t : State} (h : s.Consulted t) (i : Nat) (f : Cmd → Cmd) : (s.modCmd i f).Consulted (t.modCmd i f) := by
  obtain ⟨cam, sk, ev, bb, free, rfl⟩ := h
  exact ⟨cam, sk, ev, bb, free, rfl⟩

theorem State.consulted_modCam (s : State) (f : Cam → Cam) : s.Consulted (s.modCam f) := ⟨f s.cam, s.sk, s.ev, s.bb, s.free, rfl⟩

theorem State.consulted_modSk (s : State) (f : Stack → Stack) : s.Consulted (s.modSk f) := ⟨s.cam, f s.sk, s.ev, s.bb, s.free, rfl⟩

theorem State.consulted_event (s : State) (unit : Nat) (name : String) : s.Consulted (s.event unit name) :=
  ⟨s.cam, s.sk, _, _, _, rfl⟩

theorem State.consulted_camRepair (s : State) (a : Nat) : s.Consulted (s.camRepair a) := by
  unfold State.camRepair
  dsimp only
  split
  · exact s.consulted_modCam _
  split
  · exact (s.consulted_modCam _).trans (State.consulted_event _ _ _)
  split
  · exact (s.consulted_modCam _).trans (State.consulted_event _ _ _)
  split
  · have hdisabled := (s.consulted_modCam fun c => c.disable a).trans (State.consulted_event _ 7 "CAM entry disabled")
    unfold State.whenB
    split
    · exact hdisabled.trans (State.consulted_modSk _ _)
    · exact hdisabled
  · exact (s.consulted_modCam _).trans (State.consulted_event _ _ _)

theorem State.consulted_camLookup (n : Nat) (s : State) (global : Bool) (k : LKey) : s.Consulted (s.camLookup n global k).1 := by
  induction n generalizing s with
  | zero => exact .refl s
  | succ n ih =>
    unfold State.camLookup
    split
    · split
      · exact ((s.consulted_camRepair _).trans (State.consulted_modCam _ _)).trans (ih _)
      · exact .refl s
    · exact .refl s

theorem State.consulted_countLocal (s : State) (o : Option (Nat × CamEntry)) : s.Consulted (s.countLocal o) := by
  cases o with
  | none => exact .refl s
  | some p => exact s.consulted_modCam (fun c => { c with counters := setAssoc p.1 (min (c.counter p.1 + 1) 0xFFFFFFFF) c.counters })

theorem State.consulted_countCached (s : State) (key : BitVec 192) : s.Consulted (s.countCached key) :=
  (s.consulted_modSk fun x => { x.touch key with cacheHits := x.cacheHits + 1 }).trans (State.consulted_modCam _ _)

theorem State.consulted_policy (s : State) (k : LKey) (stackScope : Bool) : s.Consulted (s.policy k stackScope).1 := by
  unfold State.policy
  dsimp only
  split
  · exact .refl s
  have hlook := s.consulted_camLookup s.cam.faults false k
  split
  · exact hlook
  have hcount := hlook.trans (State.consulted_countLocal _ (s.camLookup s.cam.faults false k).2)
  split
  · exact hcount
  split
  · exact hcount
  · exact hcount.trans (State.consulted_countCached _ _)

/-- Between the two states only what the policy counts and repairs, the records it leaves and the use of the rate classes differ: what an
admitted command has changed before it runs (R45). -/
def State.Admitted (s t : State) : Prop :=
  ∃ cam sk ev bb free rate, t = { s with cam := cam, sk := sk, ev := ev, bb := bb, free := free, va := { s.va with rate := rate } }

/-! ## What a command changes on its way -/

/-- What a command may change before it comes to its operation, beside its own place among the commands. -/
structure Wayside where
  cam : Cam
  sk : Stack
  ev : Evlog
  bb : Bbox
  free : Nat
  rate : List RateClass
  cache : List (Nat × Bool)
  md : Media
  logGen : List Nat
  logTime : List (Nat × BitVec 8)

def State.wayside (s : State) (x : Wayside) : State :=
  { s with cam := x.cam, sk := x.sk, ev := x.ev, bb := x.bb, free := x.free, va := { s.va with rate := x.rate },
           ix := { s.ix with spillCache := x.cache }, md := x.md, fe := { s.fe with logGen := x.logGen, logTime := x.logTime } }

/-- Between the two states only these differ, and no record of the media has moved. -/
def State.Readied (s t : State) : Prop := ∃ x : Wayside, x.md.nand = s.md.nand ∧ t = s.wayside x

section
variable {s t u : State}

theorem State.Admitted.readied (h : s.Admitted t) : s.Readied t := by
  obtain ⟨cam, sk, ev, bb, free, rate, rfl⟩ := h
  exact ⟨⟨cam, sk, ev, bb, free, rate, s.ix.spillCache, s.md, s.fe.logGen, s.fe.logTime⟩, rfl, rfl⟩

theorem State.Tended.readied (h : s.Tended t) : s.Readied t := by
  obtain ⟨md, gen, time, hn, rfl⟩ := h
  exact ⟨⟨s.cam, s.sk, s.ev, s.bb, s.free, s.va.rate, s.ix.spillCache, md, gen, time⟩, hn, rfl⟩

theorem State.Readied.refl (s : State) : s.Readied s := (State.Tended.refl s).readied

theorem State.Readied.trans (h : s.Readied t) (h' : t.Readied u) : s.Readied u := by
  obtain ⟨_, hn, rfl⟩ := h
  obtain ⟨x, hn', rfl⟩ := h'
  exact ⟨x, hn'.trans hn, rfl⟩

theorem Index.trimmed_eq (x : Index) : ∃ cache, x.trimmed = { x with spillCache := cache } := by
  unfold Index.trimmed
  split
  · exact ⟨_, rfl⟩
  · exact ⟨_, rfl⟩

theorem Index.trimmed_spillTouch (x : Index) (p q : Nat) :
    ∃ cache, ((x.spillTouch p false).spillTouch q false).trimmed = { x with spillCache := cache } := by
  obtain ⟨cache, h⟩ := ((x.spillTouch p false).spillTouch q false).trimmed_eq
  exact ⟨cache, h⟩

theorem State.readied_spillCache {x : Index} {cache : List (Nat × Bool)} (h : x = { s.ix with spillCache := cache }) :
    s.Readied { s with ix := x } :=
  ⟨⟨s.cam, s.sk, s.ev, s.bb, s.free, s.va.rate, cache, s.md, s.fe.logGen, s.fe.logTime⟩, rfl, by rw [h]; rfl⟩

/-- A lookup leaves its traces in the spill page cache and in the media (R121, R126). -/
theorem State.readied_look (s : State) (nsid : Nat) (key : Key) : s.Readied (s.look nsid key) := by
  unfold State.look
  extract_lets h c n s₁
  have hcounted : s.Readied s₁ := by
    unfold s₁ State.whenB
    split
    · exact (s.tended_countErrs 13 n).readied
    · exact .refl s
  refine hcounted.trans ?_
  unfold State.whenB
  split
  · obtain ⟨cache, hcache⟩ := s₁.ix.trimmed_spillTouch (spillCand2 h / 64) (spillCand1 h / 64)
    exact (State.readied_spillCache hcache).trans (State.tended_index s₁ _).readied
  · exact .refl s₁

/-- What is found follows from the records, the keys and the entries of the index (R121). -/
theorem State.find_congr {base : List BaseKey} {cache : List (Nat × Bool)} (hrec : t.recAt = s.recAt) (hky : t.ky = s.ky)
    (hix : t.ix = { s.ix with base := base, spillCache := cache }) : t.find = s.find := by
  have hconfirms : t.confirms = s.confirms := by
    funext nsid key slot
    simp only [State.confirms, State.unseals, hrec, hky]
  funext nsid key
  simp only [State.find, State.hash, hconfirms, hrec, hix]
  rfl

/-- A key is found as before: neither the index entries nor the records have changed (R121). -/
theorem State.Readied.find (h : s.Readied t) : t.find = s.find := by
  obtain ⟨x, hn, rfl⟩ := h
  refine State.find_congr (base := s.ix.base) (cache := x.cache) ?_ rfl rfl
  funext l
  cases l with
  | wax g => rfl
  | nand g => exact congrArg (·.lookup g) hn

end

/-! ## From the arrival to the operation (R57, R88, R97, R521) -/

/-- The command as it runs, allowed with an action. -/
def Cmd.allowed (c : Cmd) (a : ActWord) : Cmd := { c with action := a, phase := .running, judged := true }

/-- The command once its rate class is charged for it. -/
def Cmd.charged (c : Cmd) : Cmd := { c with rateCharged := true }

/-- The state with the command as the one that is outstanding, fetched from its queue. -/
def State.holding (s : State) (c : Cmd) : State :=
  { s with fe := (s.fetch c.ctrl c.sq).fe, fl := { s.fl with cmds := [c], nextFetch := s.fl.nextFetch + 1 } }

theorem State.enter_eq {s : State} (h : s.fl.cmds = []) (c : Cmd) : s.enter c = s.holding c := by
  have hcmds : (s.fetch c.ctrl c.sq).fl.cmds ++ [c] = [c] := congrArg (· ++ [c]) h
  unfold State.enter State.modFl
  dsimp only
  rw [hcmds]
  rfl

theorem State.modCmd_holding (s : State) (c : Cmd) (f : Cmd → Cmd) (hctrl : (f c).ctrl = c.ctrl) (hsq : (f c).sq = c.sq) :
    (s.holding c).modCmd c.fetch f = s.holding (f c) := by
  simp [State.holding, State.modCmd, State.modFl, hctrl, hsq]

/-- A namespace that the checks give is reachable on this drive (R258, R521). -/
theorem State.check_ok {s : State} {c : Cmd} {n : Ns} (h : s.check c = .ok (some n)) (hflush : c.kind.isFlush = false) :
    s.anaRefusal n = none := by
  unfold State.check at h
  simp only [hflush, Bool.false_and] at h
  split at h
  · cases h
  split at h
  · cases h
  split at h
  · cases h
  next hana =>
  split at h
  · cases h
  split at h
  · cases h
  split at h
  · cases h
  split at h
  · cases h
  · have hns : s.nsOf c.e.nsid = some n := by simpa using h
    simpa [hns] using hana

/-- What `ioAllowed` says, fact by fact. -/
theorem ioAllowed_facts {k : IoKind} {h : HostCmd} {n : Ns} {a : ActWord} {s : State} (hio : ioAllowed k h n a s = true) :
    s.serving = true ∧ h.sq ≠ 0 ∧ s.fe.hasQueue h.ctrl h.sq = true ∧ s.fl.cmds = [] ∧ s.fl.carriers = [] ∧ s.pw.psHost < 3
      ∧ (s.holding (asCmd k h s)).held (asCmd k h s) = false ∧ (s.holding (asCmd k h s)).contextFree (asCmd k h s) = true
      ∧ (s.holding (asCmd k h s)).check (asCmd k h s) = .ok (some n) ∧ s.forwards n k = false
      ∧ s.rateRoom { asCmd k h s with action := a } = true
      ∧ ((s.holding (asCmd k h s)).policy ((s.holding (asCmd k h s)).keyOf (asCmd k h s)) n.stackScope).2 = .allowed a := by
  simp only [ioAllowed, ioPasses, Bool.and_eq_true, Bool.not_eq_true', bne_iff_ne, List.isEmpty_iff, decide_eq_true_eq] at hio
  obtain ⟨⟨⟨⟨⟨⟨⟨⟨⟨⟨⟨hserves, hsq⟩, hq⟩, hcmds⟩, hcarriers⟩, hps⟩, hheld⟩, hctx⟩, hcheck⟩, hfwd⟩, hrate⟩, hpolicy⟩ := hio
  rw [State.enter_eq hcmds] at hheld hctx hcheck hpolicy
  refine ⟨hserves, hsq, hq, hcmds, hcarriers, hps, hheld, hctx, ?_, hfwd, hrate, ?_⟩
  · split at hcheck
    · next hm => rw [hm, beq_iff_eq.mp hcheck]
    · cases hcheck
  · split at hpolicy
    · next hb => rw [hb, beq_iff_eq.mp hpolicy]
    · cases hpolicy

/-- A command that nothing holds is looked up in the policy and judged (R41, R57, R88, R521). -/
theorem State.tryStart_new {s : State} {c : Cmd} {n : Ns} (hphase : c.phase = .heldOrd) (hjudged : c.judged = false)
    (hflush : c.kind.isFlush = false) (hord : s.ordHeld c = false) (hheld : s.held c = false) (hctx : s.contextFree c = true)
    (hcarrier : s.carrierFor c = none) (hcheck : s.check c = .ok (some n)) :
    s.tryStart c = (s.policy (s.keyOf c) n.stackScope).1.judge c n (s.policy (s.keyOf c) n.stackScope).2 := by
  cases hgate : s.sanitizing || s.fl.curtain <;>
    simp [State.tryStart, hgate, hphase, hjudged, hflush, hord, hheld, hctx, hcarrier, hcheck]

/-- A command is charged to its rate class (R45). -/
theorem State.admitted_charge {s t : State} (h : s.Consulted t) (c : Cmd) : (s.modCmd c.fetch Cmd.charged).Admitted (t.charge c) := by
  obtain ⟨cam, sk, ev, bb, free, rfl⟩ := h
  unfold State.charge
  dsimp only
  split
  · exact ⟨cam, sk, ev, bb, free, s.va.rate, rfl⟩
  · exact ⟨cam, sk, ev, bb, free, _, rfl⟩

/-- A command whose action the policy gives and whose rate class has room runs, charged to its class (R43, R45). -/
theorem State.judge_runs {s t : State} {c : Cmd} {n : Ns} {a : ActWord} (ht : (s.holding c).Consulted t)
    (hana : (s.holding c).anaRefusal n = none) (hcarriers : s.fl.carriers = []) (hrate : s.rateRoom { c with action := a } = true) :
    ∃ v, (s.holding (c.allowed a).charged).Admitted v ∧ t.judge c n (.allowed a) = v.run (c.allowed a).charged n := by
  have htana : t.anaRefusal n = none := by
    obtain ⟨_, _, _, _, _, rfl⟩ := ht
    exact hana
  have hu : (s.holding (c.allowed a)).Consulted (t.modCmd c.fetch fun _ => c.allowed a) := by
    rw [← s.modCmd_holding c (fun _ => c.allowed a) rfl rfl]
    exact ht.modCmd _ _
  have hjudge : t.judge c n (.allowed a) = (t.modCmd c.fetch fun _ => c.allowed a).admitRate (c.allowed a) n := by
    rw [State.judge, htana]
    rfl
  rw [hjudge]
  generalize t.modCmd c.fetch (fun _ => c.allowed a) = u at hu
  have hturn : u.rateTurn (c.allowed a) = true := by
    obtain ⟨_, _, _, _, _, rfl⟩ := hu
    simp only [State.rateTurn, Bool.and_eq_true]
    exact ⟨hrate, rfl⟩
  have hcarrier : u.carrierFor (c.allowed a) = none := by
    obtain ⟨_, _, _, _, _, rfl⟩ := hu
    simp [State.carrierFor, State.holding, hcarriers]
  rw [State.admitRate, hturn, hcarrier]
  refine ⟨u.charge (c.allowed a), ?_, rfl⟩
  rw [← s.modCmd_holding (c.allowed a) Cmd.charged rfl rfl]
  exact State.admitted_charge hu _

/-- An I/O command that nothing turns away comes to its own operation (R57, R88, R521). -/
theorem State.arrive_runs {k : IoKind} {h : HostCmd} {n : Ns} {a : ActWord} {s : State} (hio : ioAllowed k h n a s = true)
    (hflush : k.isFlush = false) :
    ∃ v, (s.holding ((asCmd k h s).allowed a).charged).Admitted v ∧ s.arrive k h = v.run ((asCmd k h s).allowed a).charged n := by
  obtain ⟨hserves, hsq, hq, hcmds, hcarriers, hps, hheld, hctx, hcheck, -, hrate, hpolicy⟩ := ioAllowed_facts hio
  have hwake : s.wakeForIo = s := by simp [State.wakeForIo, Nat.not_le.mpr hps]
  have hcid : s.cmd? h.ctrl h.sq h.e.cid = none := by simp [State.cmd?, hcmds]
  have hord : (s.holding (asCmd k h s)).ordHeld (asCmd k h s) = false := by simp [State.ordHeld, State.holding]
  have hcarrier : (s.holding (asCmd k h s)).carrierFor (asCmd k h s) = none := by simp [State.carrierFor, State.holding, hcarriers]
  have harrive : s.arrive k h = (s.holding (asCmd k h s)).tryStart (asCmd k h s) := by
    rw [State.arrive, hserves, hq, hcid, hwake, ← State.enter_eq hcmds]
    simp [hsq]
    rfl
  rw [harrive, State.tryStart_new rfl rfl hflush hord hheld hctx hcarrier hcheck, hpolicy]
  exact State.judge_runs (State.consulted_policy _ _ _) (State.check_ok hcheck hflush) hcarriers hrate

/-! ## Completion of a command that holds nothing -/

/-- A command without staging room, a hash lane, a buffer to fill or another drive that waits for it drops out and posts its entry (R57). -/
theorem State.complete_plain {c : Cmd} (s : State) (st : Status) (hgranule : c.granule = none) (hfwd : c.forwardedFrom = none)
    (hstage : c.stage = 0) (hreads : c.kind.reads = false) :
    s.complete c st = (s.dropCmd c.fetch).post c.ctrl c.sq c.e.cid st 0 0 (statusDnr st) (sglInv c.e.sgl) := by
  simp only [State.complete, State.giveBack, hgranule, hfwd, hstage, hreads, Bool.and_false]
  rfl

end Sys2Proof.Machine
end

section
/-! SUPPORT. Retention Hold: which tags are placed and released, and the commit that does it (R25, R30, R34, R35). -/

namespace Sys2Proof.Machine

/-! ## What stands beside a write -/

/-- Between the two states the tables of the record vault, the outputs and the controllers are the same. -/
def State.Undisturbed (s t : State) : Prop := t.va = s.va ∧ t.out = s.out ∧ t.fe.ctrls = s.fe.ctrls

theorem State.Tended.undisturbed {s t : State} (h : s.Tended t) : s.Undisturbed t := by
  obtain ⟨_, _, _, _, rfl⟩ := h
  exact ⟨rfl, rfl, rfl⟩

theorem State.undisturbed_modSlot (s : State) (nsid : Nat) (key : Key) (f : Slot → Slot) : s.Undisturbed (s.modSlot nsid key f) := by
  unfold State.modSlot
  split
  · exact (State.tended_index s _).undisturbed
  · exact ⟨rfl, rfl, rfl⟩

theorem Front.hasQueue_congr {f g : Front} (h : g.ctrls = f.ctrls) (ctrl sq : Nat) : g.hasQueue ctrl sq = f.hasQueue ctrl sq := by
  simp only [Front.hasQueue, h]

/-- On its way to its operation a command changes no table of the record vault but the use of the rate classes, and puts nothing out. -/
theorem State.Readied.tables {s t : State} (h : s.Readied t) :
    t.va.ns = s.va.ns ∧ t.va.keyHolds = s.va.keyHolds ∧ t.va.nextSeq = s.va.nextSeq ∧ t.out = s.out := by
  obtain ⟨_, _, rfl⟩ := h
  exact ⟨rfl, rfl, rfl, rfl⟩

/-! ## The commit of a write of the drive alone, without value or leaf -/

/-- Between the two states the tables of the record vault, the outputs, the front end and what is found are the same. -/
def State.Noted (s t : State) : Prop := t.va = s.va ∧ t.out = s.out ∧ t.fe = s.fe ∧ t.find = s.find

theorem State.Noted.refl (s : State) : s.Noted s := ⟨rfl, rfl, rfl, rfl⟩

theorem State.Noted.trans {s t u : State} (h : s.Noted t) (h' : t.Noted u) : s.Noted u := by
  obtain ⟨hva, hout, hfe, hfind⟩ := h
  obtain ⟨hva', hout', hfe', hfind'⟩ := h'
  exact ⟨hva'.trans hva, hout'.trans hout, hfe'.trans hfe, hfind'.trans hfind⟩

/-- What is noted in the write pipeline beside the staged records, and in the base, moves no record. -/
theorem State.noted_wx (s : State) {wx : Wax} (base : List BaseKey) (h : wx.staged = s.wx.staged) :
    s.Noted { s with wx := wx, ix := { s.ix with base := base } } := by
  refine ⟨rfl, rfl, rfl, State.find_congr (base := base) (cache := s.ix.spillCache) ?_ rfl rfl⟩
  funext l
  cases l with
  | wax g => exact congrArg (·.lookup g) h
  | nand g => rfl

theorem State.noted_modWx (s : State) {f : Wax → Wax} (h : (f s.wx).staged = s.wx.staged) : s.Noted (s.modWx f) :=
  s.noted_wx s.ix.base h

theorem State.noted_writeJournal (s : State) (r : JRec) : s.Noted (s.writeJournal r) := by
  unfold State.writeJournal
  split
  · exact s.noted_modWx rfl
  · refine .trans ?_ (State.noted_modWx _ rfl)
    unfold State.noteBase
    split
    · exact .refl s
    · exact s.noted_wx _ rfl

/-- The state in which the next commit sequence is taken (R25). -/
def State.sequenced (s : State) : State := s.modVa fun v => { v with nextSeq := v.nextSeq + 1 }

/-- A write of the drive alone, without value or leaf, takes the next sequence and takes effect at once (R25). -/
theorem State.commit_plain (s : State) {w : Write} (hleaf : w.leaf = false) (hrec : w.srec = none) (hlevel : w.level = .loc) :
    ∃ t, s.sequenced.Noted t ∧ s.commit w none =
      (t.applyWrite w s.va.nextSeq s.now s.tq false, { seq := s.va.nextSeq, waits := false, leaf := none }) := by
  have hpart : s.twinPart w = .none := by simp [State.twinPart, hlevel]
  unfold State.commit
  rw [hpart, hleaf, hrec]
  extract_lets seq part time tq early
  simp -zeta only [Bool.false_eq_true, if_false]
  extract_lets numbered journaled owned sent listed lagged early' staged
  have hnumbered : s.sequenced.Noted numbered := ⟨rfl, rfl, rfl, rfl⟩
  have hjournaled : numbered.Noted journaled := State.noted_writeJournal _ _
  have howned : journaled.Noted owned := by
    unfold owned
    split
    · exact journaled.noted_modWx rfl
    · exact .refl _
  have hlisted : owned.Noted listed := State.noted_modWx _ rfl
  have hstaged : listed.Noted staged := by
    unfold staged
    split
    · contradiction
    · exact .refl _
  exact ⟨staged, hnumbered.trans (hjournaled.trans (howned.trans (hlisted.trans hstaged))), rfl⟩

/-! ## The way of a Retention Hold command -/

theorem IoKind.isHold_cases {k : IoKind} (h : k.isHold = true) :
    k = .holdKeyPlace ∨ k = .holdKeyRelease ∨ k = .holdNsPlace ∨ k = .holdNsRelease := by
  revert h
  cases k <;> decide

/-- A hold is no Flush and no store, it reads nothing and takes no tracking slot. -/
theorem IoKind.isHold_excludes {k : IoKind} (h : k.isHold = true) :
    k.isFlush = false ∧ k.isStore = false ∧ k.reads = false ∧ (k == .secureDelete) = false := by
  rcases IoKind.isHold_cases h with rfl | rfl | rfl | rfl <;> decide

/-- The command of a host as it runs, allowed with an action. -/
def running (k : IoKind) (h : HostCmd) (a : ActWord) (s : State) : Cmd := ((asCmd k h s).allowed a).charged

theorem State.run_hold {s : State} {c : Cmd} {n : Ns} (hhold : c.kind.isHold = true) (hfwd : s.forwards n c.kind = false) :
    ∃ t, s.Readied t ∧ s.run c n = t.runHold c n := by
  have hfwd' : ∀ t, s.Readied t → t.forwards n c.kind = false := by
    rintro _ ⟨_, _, rfl⟩
    exact hfwd
  have hlooked : s.Readied (s.whenB (c.kind.looks && !(c.forwardedFrom.isNone && s.forwards n c.kind)) fun s => s.look n.nsid c.key) := by
    unfold State.whenB
    split
    · exact s.readied_look _ _
    · exact .refl s
  refine ⟨_, hlooked, ?_⟩
  unfold State.run
  dsimp only
  rw [hfwd' _ hlooked, Bool.and_false, if_neg Bool.false_ne_true]
  rcases IoKind.isHold_cases hhold with hk | hk | hk | hk <;> rw [hk]

/-- A Retention Hold that nothing turns away comes to its decision (R57, R88, R521). -/
theorem State.arrive_hold {k : IoKind} {h : HostCmd} {n : Ns} {a : ActWord} {s : State} (hhold : k.isHold = true)
    (hio : ioAllowed k h n a s = true) :
    ∃ v, (s.holding (running k h a s)).Readied v ∧ s.arrive k h = v.runHold (running k h a s) n := by
  obtain ⟨u, hu, harrive⟩ := State.arrive_runs hio (IoKind.isHold_excludes hhold).1
  have hfwd : u.forwards n k = false := by
    obtain ⟨_, _, _, _, _, _, rfl⟩ := hu
    obtain ⟨-, -, -, -, -, -, -, -, -, hfwd, -⟩ := ioAllowed_facts hio
    exact hfwd
  obtain ⟨v, hv, hrun⟩ := State.run_hold (c := running k h a s) hhold hfwd
  exact ⟨v, hu.readied.trans hv, harrive.trans hrun⟩

section
variable {s v : State} {k : IoKind} {h : HostCmd} {n : Ns} {a : ActWord} (hv : (s.holding (running k h a s)).Readied v)
include hv

/-- The decision about a hold is the one of the state in which the command arrived (R30, R34, R35). -/
theorem State.holdDecision_running : v.holdDecision n (running k h a s) = s.holdDecision n (asCmd k h s) := by
  have hfind : v.find = s.find := hv.find
  obtain ⟨_, _, rfl⟩ := hv
  simp only [State.holdDecision, State.holdCheck, hfind]
  rfl

theorem State.isPending_running (hcmds : s.fl.cmds = []) (nsid : Nat) (key : Key) : v.isPending nsid key = s.isPending nsid key := by
  obtain ⟨_, _, rfl⟩ := hv
  simp only [State.isPending, hcmds]
  rfl

/-- A hold that is there already, or a release of none, completes without a commit (R34). -/
theorem State.runHold_done (hfree : k.nsHold = true ∨ v.isPending n.nsid (keyFor k h) = false)
    (hdone : s.holdDecision n (asCmd k h s) = some .success) :
    v.runHold (running k h a s) n = v.complete (running k h a s) .success := by
  have hpend : (!k.nsHold && v.isPending n.nsid (keyFor k h)) = false := by rcases hfree with h | h <;> simp [h]
  rw [← State.holdDecision_running hv] at hdone
  rw [State.runHold, hdone]
  exact if_neg (by rw [Bool.not_eq_true]; exact hpend)

/-- A hold that is to be placed or released commits and completes (R25, R30, R35). -/
theorem State.runHold_commits (hfree : k.nsHold = true ∨ v.isPending n.nsid (keyFor k h) = false) (hkind : k.isHold = true)
    (hdecided : s.holdDecision n (asCmd k h s) = none) (hlevel : n.writeLevel = .loc) (hroom : roomFor (keyFor k h) s = true) :
    ∃ t, v.sequenced.Noted t ∧ v.runHold (running k h a s) n =
      (t.applyWrite (v.writeOf (running k h a s) n) v.va.nextSeq v.now v.tq false).complete
        { running k h a s with seq := some v.va.nextSeq } .success := by
  have hpend : (!k.nsHold && v.isPending n.nsid (keyFor k h)) = false := by rcases hfree with h | h <;> simp [h]
  rw [← State.holdDecision_running hv] at hdecided
  have hrun : v.runHold (running k h a s) n = v.commitCmd (running k h a s) (v.writeOf (running k h a s) n) := by
    rw [State.runHold, hdecided]
    exact if_neg (by rw [Bool.not_eq_true]; exact hpend)
  have hstrict : v.strictRefuses (v.writeOf (running k h a s) n).level = false := by
    rw [show (v.writeOf (running k h a s) n).level = .loc from hlevel]
    simp [State.strictRefuses]
  have hroom' : v.journalRoom (v.writeOf (running k h a s) n).blocks = true := by
    obtain ⟨_, _, rfl⟩ := hv
    exact hroom
  have hwaits : v.journalWaits = false := by
    obtain ⟨_, _, rfl⟩ := hv
    rfl
  have hpassed : v.passedDeletes (v.writeOf (running k h a s) n).nsid = [] := by
    obtain ⟨_, _, rfl⟩ := hv
    rfl
  obtain ⟨t, ht, hcommit⟩ := v.commit_plain (w := v.writeOf (running k h a s) n) rfl rfl hlevel
  refine ⟨t, ht, hrun.trans ?_⟩
  rw [State.commitCmd, hstrict, hroom', hwaits, hpassed]
  change (match v.commit (v.writeOf (running k h a s) n) none with
    | (u, r) => if r.waits then _ else u.finishWrite { running k h a s with seq := some r.seq } r.leaf 1022 []) = _
  rw [hcommit]
  change State.finishWrite _ _ none 1022 [] = _
  obtain ⟨-, hstore, -, hsecdel⟩ := IoKind.isHold_excludes hkind
  rw [State.finishWrite, List.isEmpty_nil, Bool.not_true, Bool.and_false, if_neg Bool.false_ne_true, State.completeWrite]
  exact (if_neg (by rw [Bool.not_eq_true]; exact hstore)).trans (if_neg (by rw [Bool.not_eq_true]; exact hsecdel))

/-- The queue of the command is there as long as the command runs. -/
theorem State.hasQueue_running (hq : s.fe.hasQueue h.ctrl h.sq = true) : v.fe.hasQueue h.ctrl h.sq = true := by
  obtain ⟨_, _, rfl⟩ := hv
  exact (Front.hasQueue_fetch ..).trans hq

end

/-- A hold command that completes puts out its entry and leaves the tables of the record vault (R57, R63). -/
theorem State.complete_hold {s t : State} {k : IoKind} {h : HostCmd} {a : ActWord} {u : State} (seq : Option Nat) (hkind : k.isHold = true)
    (hout : t.out = s.out) (hq : t.fe.hasQueue h.ctrl h.sq = true)
    (hu : u = s.after (t.complete { running k h a s with seq := seq } .success)) : u.va = t.va ∧ Emits s u [ioEntry u h] := by
  obtain ⟨-, -, hreads, -⟩ := IoKind.isHold_excludes hkind
  have hcomplete : t.complete { running k h a s with seq := seq } .success =
      (t.dropCmd (asCmd k h s).fetch).post h.ctrl h.sq h.e.cid .success 0 0 (statusDnr .success) (sglInv h.e.sgl) :=
    State.complete_plain t .success rfl rfl rfl hreads
  rw [hcomplete] at hu
  subst hu
  refine ⟨rfl, ?_⟩
  rw [Emits, State.after_out, State.post_out (s := t.dropCmd _) _ _ _ _ _ _ hq]
  simp only [ioEntry, State.sqHead_after, State.sqHead_post]
  exact congrArg (· ++ _) hout

/-- What a hold that commits leaves, where its write changes the tables of the record vault by `f` (R25, R30, R35). -/
theorem completes_hold {k : IoKind} {h : HostCmd} {n : Ns} {a : ActWord} {s : State} (f : Vault → Vault) (hkind : k.isHold = true)
    (hio : ioAllowed k h n a s = true) (hfree : k.nsHold = true ∨ s.isPending n.nsid (keyFor k h) = false)
    (hdecided : s.holdDecision n (asCmd k h s) = none) (hlevel : n.writeLevel = .loc) (hroom : roomFor (keyFor k h) s = true)
    (happly : ∀ (v t : State) (seq time : Nat) (tq : BitVec 8), t.va.keyHolds = s.va.keyHolds → t.find = s.find →
      { t with va := f t.va }.Undisturbed (t.applyWrite (v.writeOf (running k h a s) n) seq time tq false)) :
    Completes (ioCommand k h) s fun t => (∃ va, va.ns = s.va.ns ∧ va.keyHolds = s.va.keyHolds ∧ va.nextSeq = s.va.nextSeq + 1 ∧ t.va = f va)
      ∧ Emits s t [ioEntry t h] := by
  obtain ⟨v, hv, harrive⟩ := State.arrive_hold hkind hio
  obtain ⟨-, -, hq, hcmds, -⟩ := ioAllowed_facts hio
  obtain ⟨t, ht, hrun⟩ := State.runHold_commits hv (hfree.imp_right fun h => (State.isPending_running hv hcmds _ _).trans h) hkind hdecided
    hlevel hroom
  obtain ⟨htva, htout, htfe, htfind⟩ := ht
  obtain ⟨hns, hholds, hseq, hvout⟩ := hv.tables
  have hkept : t.va.keyHolds = s.va.keyHolds := (congrArg Vault.keyHolds htva).trans hholds
  obtain ⟨hva, hout, hctrls⟩ := happly v t v.va.nextSeq v.now v.tq hkept (htfind.trans hv.find)
  have hqueue : (t.applyWrite (v.writeOf (running k h a s) n) v.va.nextSeq v.now v.tq false).fe.hasQueue h.ctrl h.sq = true := by
    have hvq : v.fe.hasQueue h.ctrl h.sq = true := State.hasQueue_running hv hq
    rw [Front.hasQueue_congr hctrls, ← hvq]
    exact congrArg (·.hasQueue h.ctrl h.sq) htfe
  obtain ⟨hdone, hemits⟩ := State.complete_hold (s := s) (a := a) (some v.va.nextSeq) hkind (hout.trans (htout.trans hvout)) hqueue rfl
  refine completes_finish ((exec_ioCommand k h s).trans (congrArg (finish s) (harrive.trans hrun))) ⟨⟨t.va, ?_, hkept, ?_, ?_⟩, hemits⟩
  · exact (congrArg Vault.ns htva).trans hns
  · exact (congrArg Vault.nextSeq htva).trans (congrArg (· + 1) hseq)
  · exact hdone.trans hva

end Sys2Proof.Machine
end

section
/-! SUPPORT. The four Retention Hold forms (R30, R34, R35). -/

namespace Sys2Proof.Machine

/-! ## What a hold changes in the tables of the record vault -/

/-- The key-scope holds with one more. -/
def Vault.placeKey (k : KeyHold) (v : Vault) : Vault := { v with keyHolds := v.keyHolds ++ [k] }

/-- The key-scope holds without those of a tag on a record. -/
def Vault.releaseKey (nsid tag seq : Nat) (v : Vault) : Vault :=
  { v with keyHolds := v.keyHolds.filter fun k => !(k.nsid == nsid && k.tag == tag && k.seq == seq) }

/-- The namespaces, one with a tag placed. -/
def Vault.placeTag (nsid tag : Nat) (v : Vault) : Vault :=
  { v with ns := v.ns.map fun n => if n.nsid == nsid then { n with tags := if tag ∈ n.tags then n.tags else n.tags ++ [tag] } else n }

/-- The namespaces, one without a tag. -/
def Vault.releaseTag (nsid tag : Nat) (v : Vault) : Vault :=
  { v with ns := v.ns.map fun n => if n.nsid == nsid then { n with tags := n.tags.filter (· ≠ tag) } else n }

section
variable {s t : State} {f : Found} {w : Write} (seq time : Nat) (tq : BitVec 8)

theorem State.applyWrite_placeKey (hkind : w.kind = .holdKeyPlace) (hfind : t.find w.nsid w.key = some f)
    (hnew : { nsid := w.nsid, tag := w.tag, seq := f.record.seq } ∉ t.va.keyHolds) :
    { t with va := t.va.placeKey { nsid := w.nsid, tag := w.tag, seq := f.record.seq } }.Undisturbed
      (t.applyWrite w seq time tq false) := by
  unfold State.applyWrite
  simp only [hkind, hfind, State.modVa, if_neg hnew]
  exact State.undisturbed_modSlot _ _ _ _

theorem State.applyWrite_releaseKey (hkind : w.kind = .holdKeyRelease) (hfind : t.find w.nsid w.key = some f) :
    { t with va := t.va.releaseKey w.nsid w.tag f.record.seq }.Undisturbed (t.applyWrite w seq time tq false) := by
  unfold State.applyWrite
  simp only [hkind, hfind]
  exact State.undisturbed_modSlot _ _ _ _

theorem State.applyWrite_placeNs (hkind : w.kind = .holdNsPlace) :
    { t with va := t.va.placeTag w.nsid w.tag }.Undisturbed (t.applyWrite w seq time tq false) := by
  unfold State.applyWrite
  simp only [hkind]
  exact ⟨rfl, rfl, rfl⟩

theorem State.applyWrite_releaseNs (hkind : w.kind = .holdNsRelease) :
    { t with va := t.va.releaseTag w.nsid w.tag }.Undisturbed (t.applyWrite w seq time tq false) := by
  unfold State.applyWrite
  simp only [hkind]
  exact ⟨rfl, rfl, rfl⟩

end

/-- A tag that may be placed on a record is not there yet (R35). -/
theorem State.not_mem_of_holdCheck {s : State} {n : Ns} {c : Cmd} {tag : Nat} {f : Found} (hfind : s.find n.nsid c.key = some f)
    (hcheck : s.holdCheck n c tag = none) : { nsid := n.nsid, tag := tag, seq := f.record.seq } ∉ s.va.keyHolds := by
  intro hmem
  unfold State.holdCheck at hcheck
  simp only [hfind] at hcheck
  split at hcheck
  · cases hcheck
  next hnone =>
    refine hnone (List.any_eq_true.mpr ⟨_, List.mem_filter.mpr ⟨hmem, ?_⟩, ?_⟩) <;> simp

/-! ## The statement -/

theorem Completes.imp {c : Instr} {s : State} {P Q : State → Prop} (h : Completes c s P) (hpq : ∀ t, P t → Q t) : Completes c s Q := by
  obtain ⟨t, ht, hp⟩ := h
  exact ⟨t, ht, hpq t hp⟩

/-- Settles O11: each form changes one table of the record vault by its write, whose commit takes the next sequence. -/
theorem retentionHoldCommandsComplete : Obligations.Retention_hold_commands_complete := by
  refine ⟨?placeKey, ?releaseKey, ?placeNs, ?releaseNs, ?done⟩
  case placeKey =>
    intro h n a f s hio hpend hfind hdecided hlevel hroom
    have hnew := State.not_mem_of_holdCheck (c := asCmd .holdKeyPlace h s) hfind hdecided
    refine (completes_hold (Vault.placeKey { nsid := n.nsid, tag := (fieldsOf .holdKeyPlace h.e).tag, seq := f.record.seq }) rfl hio
      (.inr hpend) hdecided hlevel hroom ?_).imp ?_
    · intro v t seq time tq hholds htfind
      exact State.applyWrite_placeKey seq time tq rfl ((congrFun (congrFun htfind _) _).trans hfind) (hholds ▸ hnew)
    · rintro t ⟨⟨va, hns, hholds, hseq, hva⟩, hemits⟩
      rw [hva]
      exact ⟨congrArg (· ++ _) hholds, hseq, hemits⟩
  case releaseKey =>
    intro h n a f s hio hpend hfind hdecided hlevel hroom
    refine (completes_hold (Vault.releaseKey n.nsid (fieldsOf .holdKeyRelease h.e).tag f.record.seq) rfl hio (.inr hpend) hdecided hlevel
      hroom ?_).imp ?_
    · intro v t seq time tq hholds htfind
      exact State.applyWrite_releaseKey seq time tq rfl ((congrFun (congrFun htfind _) _).trans hfind)
    · rintro t ⟨⟨va, hns, hholds, hseq, hva⟩, hemits⟩
      rw [hva]
      exact ⟨congrArg (List.filter _) hholds, hseq, hemits⟩
  case placeNs =>
    intro h n a s hio hnew hfew hlevel hroom
    have hdecided : s.holdDecision n (asCmd .holdNsPlace h s) = none := (if_neg hnew).trans (if_neg (Nat.not_le.mpr hfew))
    refine (completes_hold (Vault.placeTag n.nsid (fieldsOf .holdNsPlace h.e).tag) rfl hio (.inl rfl) hdecided hlevel hroom
      fun v t seq time tq _ _ => State.applyWrite_placeNs (t := t) seq time tq rfl).imp ?_
    rintro t ⟨⟨va, hns, hholds, hseq, hva⟩, hemits⟩
    rw [hva]
    exact ⟨congrArg (List.map _) hns, hseq, hemits⟩
  case releaseNs =>
    intro h n a s hio hplaced hlevel hroom
    have hdecided : s.holdDecision n (asCmd .holdNsRelease h s) = none := if_pos hplaced
    refine (completes_hold (Vault.releaseTag n.nsid (fieldsOf .holdNsRelease h.e).tag) rfl hio (.inl rfl) hdecided hlevel hroom
      fun v t seq time tq _ _ => State.applyWrite_releaseNs (t := t) seq time tq rfl).imp ?_
    rintro t ⟨⟨va, hns, hholds, hseq, hva⟩, hemits⟩
    rw [hva]
    exact ⟨congrArg (List.map _) hns, hseq, hemits⟩
  case done =>
    intro k h n a s hkind hio hfree hdone
    obtain ⟨v, hv, harrive⟩ := State.arrive_hold hkind hio
    obtain ⟨-, -, hq, hcmds, -⟩ := ioAllowed_facts hio
    obtain ⟨hns, hholds, hseq, hvout⟩ := hv.tables
    have hrun := State.runHold_done hv (hfree.imp_right fun h => (State.isPending_running hv hcmds _ _).trans h) hdone
    obtain ⟨hva, hemits⟩ := State.complete_hold (s := s) (a := a) none hkind hvout (State.hasQueue_running hv hq) rfl
    refine completes_finish ((exec_ioCommand k h s).trans (congrArg (finish s) (harrive.trans hrun))) ⟨?_, ?_, ?_, hemits⟩
    · exact (congrArg Vault.ns hva).trans hns
    · exact (congrArg Vault.keyHolds hva).trans hholds
    · exact (congrArg Vault.nextSeq hva).trans hseq

end Sys2Proof.Machine
end

section
/-! SUPPORT. A read that brings its TLS connection to the change of its traffic keys (R73, R224). -/

namespace Sys2Proof.Machine

/-! ## Data on a TLS connection -/

/-- Data on a TLS connection take a record at least. -/
theorem Conn.recordsOf_pos (k : Conn) (htls : k.tls = true) {n : Nat} (h : 0 < n) : 0 < k.recordsOf n := by
  have hsize : ∃ d, d ∈ c2hSizes n := by
    unfold c2hSizes
    by_cases hrest : n % 131072 = 0
    · exact ⟨131072, List.mem_append_left _ (List.mem_replicate.mpr ⟨by omega, rfl⟩)⟩
    · exact ⟨n % 131072, List.mem_append_right _ (by simp [hrest])⟩
  obtain ⟨d, hd⟩ := hsize
  rw [Conn.recordsOf, if_pos htls]
  refine Nat.lt_of_lt_of_le ?_ (List.le_sum_of_mem (List.mem_map_of_mem hd))
  unfold Conn.pduBytes
  omega

section
variable {s : State} {ctrl sq : Nat} {k : Conn}

/-- Data that bring a TLS connection to 2^24 records are followed by a request to change its keys (R224). -/
theorem State.sendData_out_updated (hconn : s.fe.connOf ctrl sq = some k) (hrdma : k.rdma = false) (cid : Nat) (d : Bytes)
    (hfull : 2 ^ 24 ≤ k.txRecords + k.recordsOf d.length) :
    (s.sendData ctrl sq cid d).out = s.out ++ [.data ctrl sq cid d] ++ [.tls k.id "KeyUpdate update_requested"] := by
  have hsame : (s.emit (.data ctrl sq cid d)).fe.connOf ctrl sq = some k := hconn
  rw [State.sendData]
  simp only [hsame, Option.filter_some, hrdma, Bool.not_false, if_true, State.countRecords, if_pos hfull]
  rfl

theorem State.sendData_hasQueue (cid : Nat) (d : Bytes) (i j : Nat) : (s.sendData ctrl sq cid d).fe.hasQueue i j = s.fe.hasQueue i j := by
  unfold State.sendData State.countRecords State.whenB
  dsimp only
  repeat' split
  all_goals rfl

/-- A read that returns data puts them out before its entry. -/
theorem State.completeRead_out {c : Cmd} (hgranule : c.granule = none) (hfwd : c.forwardedFrom = none)
    (hq : s.fe.hasQueue c.ctrl c.sq = true) (hconn : s.fe.connOf c.ctrl c.sq = some k) (hrdma : k.rdma = false) {d : Bytes} (hd : d ≠ [])
    (hfull : 2 ^ 24 ≤ k.txRecords + k.recordsOf d.length) (dw0 dw1 : Nat) :
    (s.completeRead c d dw0 dw1).out.length = s.out.length + 3 := by
  rw [State.completeRead, State.complete, hgranule, hfwd]
  have hfilled : d.isEmpty = false := by simpa using hd
  simp only [hfilled, Bool.false_eq_true, if_false]
  generalize hu : ((s.dropCmd c.fetch).giveBack c d.length).modKy _ = u
  have hgiven : u.fe = s.fe ∧ u.out = s.out := by
    rw [← hu]
    unfold State.giveBack
    dsimp only
    split <;> exact ⟨rfl, rfl⟩
  obtain ⟨hfe, hout⟩ := hgiven
  rw [← hfe] at hq hconn
  rw [State.post_out _ _ _ _ _ _ ((State.sendData_hasQueue _ _ _ _).trans hq), State.sendData_out_updated hconn hrdma _ _ hfull, hout]
  simp

end

/-! ## The statement -/

/-- The connection of the I/O queue with TLS, one record short of the change of its keys (R224). -/
def connFull : Conn := { conn2 with tls := true, txRecords := 2 ^ 24 - 1 }

def listing : State := { policed with fe := { policed.fe with conns := [connFull] } }

theorem listing_allowed : ioAllowed .list (cmdOf (shortSqe 64)) nsOne 0x8000 listing = true := by decide

theorem connFull_records (n : Nat) (h : 0 < n) : 2 ^ 24 ≤ connFull.txRecords + connFull.recordsOf n := by
  have hrecords := connFull.recordsOf_pos rfl h
  have hcount : connFull.txRecords = 2 ^ 24 - 1 := rfl
  omega

/-- A List that runs in this state puts out a request for new keys beside its data and its entry. -/
theorem listing_arrive : (listing.arrive .list (cmdOf (shortSqe 64))).out.length = listing.out.length + 3 := by
  obtain ⟨v, hv, harrive⟩ := State.arrive_runs listing_allowed rfl
  have hrun : v.run (running .list (cmdOf (shortSqe 64)) 0x8000 listing) nsOne = v.runList (running .list (cmdOf (shortSqe 64)) 0x8000 listing) := by
    obtain ⟨_, _, _, _, _, _, rfl⟩ := hv
    rfl
  have hqueue : v.fe.hasQueue 1 1 = true := by
    obtain ⟨_, _, _, _, _, _, rfl⟩ := hv
    rfl
  have hconn : v.fe.connOf 1 1 = some connFull := by
    obtain ⟨_, _, _, _, _, _, rfl⟩ := hv
    rfl
  obtain ⟨-, -, -, hout⟩ := hv.readied.tables
  change v.out = listing.out at hout
  rw [harrive, ← hout]
  exact (congrArg (fun t : State => t.out.length) hrun).trans (State.completeRead_out rfl rfl hqueue hconn rfl (by simp [leBytes])
    (connFull_records _ (by simp [leBytes])) _ _)

/-- Refutes O9: a LIST whose data bring its TLS connection to 2^24 records also asks for new keys, so more goes out than the data and the
entry. -/
theorem not_readingIOCommandsComplete : ¬ Obligations.Reading_IO_commands_complete := by
  intro hall
  obtain ⟨-, -, -, hlist, -⟩ := hall
  obtain ⟨t, hexec, hemits, -, -⟩ := hlist _ _ _ _ _ listing_allowed rfl
  have ht : t = listing.after (listing.arrive .list (cmdOf (shortSqe 64))) := by
    have hsame := hexec.symm.trans (exec_ioCommand .list (cmdOf (shortSqe 64)) listing)
    rw [finish_eq] at hsame
    injection hsame
  have hlength := congrArg List.length hemits
  rw [ht, State.after_out, listing_arrive] at hlength
  simp [ioData, leBytes] at hlength

end Sys2Proof.Machine
end

section
/-! SUPPORT. A store whose lookup opens a band (R121, R126, R179, R192). -/

namespace Sys2Proof.Machine

/-! ## A lookup that reaches the spill table (R121, R126) -/

/-- An overflow that points into the spill table, in a bucket without slots. -/
def spillMarked : Bucket := { ovf := .spillMark 0x3FFFFFFF }

section
variable {x : Index} {h : BitVec 64} (hbuckets : x.buckets = [(x.cand1 h, spillMarked)]) (hpool : x.pool = [])
include hbuckets hpool

theorem Index.get_spillMarked (r : BRef) : x.get r = spillMarked ∨ x.get r = {} := by
  cases r with
  | prim n =>
    by_cases hn : n = x.cand1 h
    · exact .inl (by simp [Index.get, hbuckets, hn])
    · exact .inr (by simp [Index.get, hbuckets, List.lookup, beq_eq_false_iff_ne.mpr hn])
  | pool n => exact .inr (by simp [Index.get, hpool])

/-- A key that no bucket holds is looked for in the spill table where its bucket says so. -/
theorem Index.reachesSpill_spillMarked (confirm : Slot → Bool) : x.reachesSpill h confirm = true := by
  have hget : x.get (.prim (x.cand1 h)) = spillMarked := by simp [Index.get, hbuckets]
  have hnone : ∀ r, (x.get r).search (hashFp h) confirm = none := by
    intro r
    rcases Index.get_spillMarked hbuckets hpool r with hr | hr <;> rw [hr] <;> rfl
  have hchain : x.chain (x.cand1 h) = [.prim (x.cand1 h)] := by simp [Index.chain, hget, spillMarked]
  simp [Index.reachesSpill, hnone, Index.chainEnd, hchain, hget, spillMarked]

end

/-- The touched pages of a lookup are clean where the others are. -/
theorem Index.clean_spillTouch {x : Index} (hclean : ∀ p ∈ x.spillCache, p.2 = false) (page : Nat) :
    ∀ p ∈ (x.spillTouch page false).spillCache, p.2 = false := by
  have hwas : (x.spillCache.any fun p => p.1 == page && p.2) = false := by
    rw [List.any_eq_false]
    intro p hp
    simp [hclean p hp]
  intro p hp
  simp only [Index.spillTouch, hwas, Bool.false_or, List.mem_cons, List.mem_filter] at hp
  rcases hp with rfl | ⟨hp, -⟩
  · rfl
  · exact hclean p hp

/-- A change of an index without a spill table empties the spill page cache, and pages that wait try again (R126, R179). -/
theorem State.index_unspilled {s : State} {f : Index → Index} (hspill : (f s.ix).spill = []) (hcache : (f s.ix).spillCache ≠ [])
    (hclean : ∀ p ∈ (f s.ix).spillCache, p.2 = false) :
    s.index f = { s with ix := { f s.ix with spillCache := [] } }.placeInternal [] := by
  have hdirty : (f s.ix).spillCache.filter (·.2) = [] := List.filter_eq_nil_iff.mpr fun p hp => by simp [hclean p hp]
  have hkept : (!(f s.ix).spillCache.isEmpty) = true := by simpa using hcache
  unfold State.index State.whenB State.modIx
  dsimp only
  rw [hspill, hdirty, hkept]
  rfl

/-! ## A page of internal data that opens a band (R179) -/

/-- A page goes into an open band that has room for it; no band opens or closes. -/
theorem State.putInternal_open {s : State} {b : Band} {g : Nat} (pg : IntPage) (hopen : s.md.openOf .fineInternal = some b)
    (hroom : b.nextInternal = some g) :
    ∃ t, s.putInternal pg = some t ∧ t.md.bands.length = s.md.bands.length ∧ t.md.inService = s.md.inService
      ∧ t.md.intWaits = s.md.intWaits := by
  simp only [State.putInternal, hopen, hroom, Option.bind_some, Option.map_some]
  refine ⟨_, rfl, ?_, rfl, rfl⟩
  simp [State.modBand, State.modMd, Media.modBand, Media.program]

/-- The one page that waits opens a band where none is open for it. -/
theorem State.retryInternal_opens {s u : State} {pg : IntPage} {b : Band} {g : Nat} (hwaits : s.md.intWaits = [pg])
    (hnone : s.md.openOf .fineInternal = none) (hband : s.nextInternalBand = some u) (hopen : u.md.openOf .fineInternal = some b)
    (hroom : b.nextInternal = some g) (hsame : u.md.intWaits = s.md.intWaits) :
    s.retryInternal.md.bands.length = u.md.bands.length ∧ s.retryInternal.md.inService = u.md.inService := by
  obtain ⟨t, hput, hbands, hservice, hleft⟩ := State.putInternal_open pg hopen hroom
  have hfull : s.putInternal pg = none := by simp [State.putInternal, hnone]
  rw [State.retryInternal, State.drainInternal, hwaits]
  simp only [hfull, hband, Option.none_or, Option.bind_some, hput]
  rw [hsame, hwaits] at hleft
  rw [State.drainInternal]
  simp only [State.modMd, hleft, List.erase_cons_head]
  exact ⟨hbands, hservice⟩

/-! ## The state -/

/-- 65 bands in service, all free, a page of internal data that waits for a band, and an empty spill table to which the bucket of the key
points. -/
def marked : State :=
  { policed with
    md := { policed.md with inService := 65, intWaits := [.index 0] },
    ix := { policed.ix with buckets := [(policed.ix.cand1 hashOne, spillMarked)] } }

/-- The band that opens for the page. -/
def openedBand (time : Nat) (tq : BitVec 8) (mono : Nat) : Band :=
  { bandOne 1 with kind := .fineInternal, openTime := time, tq := tq, lastWrite := mono, channels := 0xC000, fill := 0,
                   members := (List.range 16).map fun ch => (ch, 0, 0) }

theorem nextInternalBand_marked {s : State} {err : List Nat} (hmd : s.md = { marked.md with err := err }) :
    ∃ u, s.nextInternalBand = some u ∧ u.md.openOf .fineInternal = some (openedBand s.now s.tq s.mono) ∧ u.md.bands.length = 1
      ∧ u.md.inService = 65 ∧ u.md.intWaits = [.index 0] := by
  have hs : s = { s with md := { marked.md with err := err } } := by rw [← hmd]
  rw [hs]
  exact ⟨_, rfl, rfl, rfl, rfl, rfl⟩

theorem openedBand_nextInternal (time : Nat) (tq : BitVec 8) (mono : Nat) : (openedBand time tq mono).nextInternal = some 0 :=
  (show (openedBand time tq mono).nextInternal = (openedBand 0 0 0).nextInternal from rfl).trans (by decide)

/-- The page that waits opens a band. -/
theorem placeInternal_marked {s : State} {err : List Nat} (hmd : s.md = { marked.md with err := err }) :
    (s.placeInternal []).md.freeBands = 64 := by
  generalize hw : (s.logChanged 0).modMd (fun m => m.await []) = w
  have hwmd : w.md = { marked.md with err := err } := by
    rw [← hw]
    change Media.await s.md [] = _
    rw [hmd]
    rfl
  obtain ⟨u, hband, hopen, hbands, hservice, hwaits⟩ := nextInternalBand_marked hwmd
  have hleft : w.md.intWaits = [.index 0] := by rw [hwmd]; rfl
  obtain ⟨hlength, hcount⟩ := State.retryInternal_opens hleft (by rw [hwmd]; rfl) hband hopen (openedBand_nextInternal _ _ _)
    (hwaits.trans hleft.symm)
  rw [State.placeInternal, hw, Media.freeBands, hlength, hcount, hbands, hservice]

/-- A lookup of the key opens the band. -/
theorem look_marked {s : State} (hmd : s.md = marked.md) (hix : s.ix = marked.ix) : (s.look 1 [7]).md.freeBands = 64 := by
  unfold State.look
  extract_lets h c n s₁
  have hs₁ : s₁.ix = marked.ix ∧ ∃ err, s₁.md = { marked.md with err := err } := by
    unfold s₁ State.whenB
    rw [← hix, ← hmd]
    split
    · exact ⟨rfl, _, rfl⟩
    · exact ⟨rfl, s.md.err, rfl⟩
  obtain ⟨hix₁, err, hmd₁⟩ := hs₁
  have hhash : h = hashOne := by
    unfold h State.hash
    rw [hix]
    rfl
  have hreach : s₁.ix.reachesSpill h c = true := by
    rw [hix₁, hhash]
    exact Index.reachesSpill_spillMarked rfl rfl c
  have hcache : s₁.ix.spillCache = [] := by rw [hix₁]; rfl
  have hclean : ∀ p ∈ s₁.ix.spillCache, p.2 = false := by simp [hcache]
  rw [hreach, State.whenB, if_pos rfl, State.index_unspilled (by rw [hix₁]; rfl) (by simp [Index.spillTouch])
    (Index.clean_spillTouch (Index.clean_spillTouch hclean _) _)]
  exact placeInternal_marked hmd₁

/-! ## A store that the media turn away (R192) -/

/-- With 64 bands free no host write is admitted to the media (R192). -/
theorem State.mediaAdmits_of_few {s : State} (h : s.md.freeBands = 64) (bytes : Nat) : s.mediaAdmits bytes = false := by
  simp [State.mediaAdmits, h]

theorem State.reserve_of_few {s : State} (h : s.md.freeBands = 64) (n : Nat) (granted : Bool) :
    (s.reserve n granted).2 = none ∧ (s.reserve n granted).1.fl = s.fl := by
  have hfree : (s.bankCheck (32 * n)).md.freeBands = 64 ∧ (s.bankCheck (32 * n)).fl = s.fl := by
    unfold State.bankCheck
    split
    · exact ⟨h, rfl⟩
    · exact ⟨h, rfl⟩
  rw [State.reserve, State.mediaAdmits_of_few hfree.1]
  exact ⟨rfl, hfree.2⟩

/-- A store that the media turn away takes in no data. -/
theorem State.intake_of_few {s : State} {c d : Cmd} {n : Ns} (h : s.md.freeBands = 64) (hcmds : s.fl.cmds = [d]) (hfetch : d.fetch = c.fetch)
    (hgranule : c.granule = none) (hfwd : c.forwardedFrom = none) (hstage : c.stage = 0) (hreads : c.kind.reads = false)
    (hlevel : n.level = none) : ∀ x ∈ (s.intake c n false).fl.cmds, x.phase ≠ .intake := by
  unfold State.intake
  extract_lets g bytes wait s₁
  split
  · rw [State.complete_plain s _ hgranule hfwd hstage hreads]
    simp [State.dropCmd, State.modFl, hcmds, hfetch]
  · have hs₁ : s₁ = s := by simp [s₁, State.whenB, hlevel]
    have hrefused : ∀ p, p = (if wait = true then (s₁, none) else s₁.reserve g false) → p.2 = none ∧ p.1.fl = s.fl := by
      rintro _ rfl
      rw [hs₁]
      split
      · exact ⟨rfl, rfl⟩
      · exact State.reserve_of_few h g false
    split
    next u hu =>
      obtain ⟨-, hfl⟩ := hrefused _ hu.symm
      have hsame : u.fl.cmds = [d] := (congrArg (·.cmds) hfl).trans hcmds
      simp [State.modCmd, State.modFl, State.modWx, hsame, hfetch]
    next u at_ hu => cases (hrefused _ hu.symm).1

theorem State.run_store {s : State} {c : Cmd} {n : Ns} (hkind : c.kind = .store) (hfwd : s.forwards n .store = false) :
    s.run c n = (s.look n.nsid c.key).runStore c n := by
  have hfwd' : (s.look n.nsid c.key).forwards n .store = false := by
    obtain ⟨_, _, hlook⟩ := s.readied_look n.nsid c.key
    rw [hlook]
    exact hfwd
  simp [State.run, State.whenB, hkind, hfwd, hfwd', IoKind.looks, IoKind.isStore]

/-- A store without conditions and without a pending write of its key takes its data in (R60). -/
theorem State.runStore_intake {s : State} {c : Cmd} {n : Ns} (hpend : s.isPending n.nsid c.key = false) (htype : n.type = .plain)
    (hexists : (fieldsOf c.kind c.e).ifExists = false) (habsent : (fieldsOf c.kind c.e).ifAbsent = false) :
    s.runStore c n = s.intake c n false := by
  simp [State.runStore, State.storeCheck, hpend, htype, hexists, habsent]

/-! ## The statement -/

theorem marked_allowed : ioAllowed .store (cmdOf (shortSqe 4)) nsOne 0x8000 marked = true := by decide

theorem marked_admits : marked.capacityRefuses 1 [7] (32 * recGranules nsOne.mode 1 4) = false := by
  unfold State.capacityRefuses State.keyLimit
  have hlive : marked.md.liveBytes = 0 := rfl
  have hkeys : decide (Figure.keysMax ≤ marked.keyCount) = false := by decide
  have hspace : decide (Figure.exportedBytes < 32 * recGranules nsOne.mode 1 4) = false := by decide
  have hspare : (marked.md.spareBands == 0) = false := by decide
  simp only [hlive, Nat.zero_sub, Nat.zero_add, hkeys, hspace, hspare, Bool.and_false, Bool.false_and, Bool.or_false]

/-- The store as it runs. -/
def storing4 : Cmd := running .store (cmdOf (shortSqe 4)) 0x8000 marked

theorem storing4_look {v : State} (hv : (marked.holding storing4).Admitted v) :
    (v.look 1 [7]).md.freeBands = 64 ∧ (v.look 1 [7]).fl.cmds = [storing4] := by
  have hcmds : (v.look 1 [7]).fl.cmds = v.fl.cmds := by
    obtain ⟨_, _, hlook⟩ := v.readied_look 1 [7]
    rw [hlook]
    rfl
  obtain ⟨_, _, _, _, _, _, rfl⟩ := hv
  exact ⟨look_marked rfl rfl, hcmds⟩

theorem storing4_run {v : State} (hv : (marked.holding storing4).Admitted v) :
    v.run storing4 nsOne = (v.look 1 [7]).intake storing4 nsOne false := by
  have hfwd : v.forwards nsOne .store = false := by
    obtain ⟨_, _, _, _, _, _, rfl⟩ := hv
    rfl
  have hpend : (v.look 1 [7]).isPending 1 [7] = false :=
    (State.isPending_running (hv.readied.trans (v.readied_look 1 [7])) rfl 1 [7]).trans (by decide)
  exact (State.run_store rfl hfwd).trans (State.runStore_intake hpend rfl rfl rfl)

/-- A store that runs in this state takes in no data. -/
theorem marked_arrive : ∀ x ∈ (marked.arrive .store (cmdOf (shortSqe 4))).fl.cmds, x.phase ≠ .intake := by
  obtain ⟨v, hv, harrive⟩ := State.arrive_runs marked_allowed rfl
  obtain ⟨hfree, hcmds⟩ := storing4_look hv
  rw [harrive.trans (storing4_run hv)]
  exact State.intake_of_few hfree hcmds rfl rfl rfl rfl rfl rfl

/-- Refutes O10: a store that the media would take as the command arrives is not admitted any more when its own lookup has made a page of
internal data open the 65th of the free bands. -/
theorem not_storingIOCommandsComplete : ¬ Obligations.Storing_IO_commands_complete := by
  intro hall
  obtain ⟨hstore, -⟩ := hall
  obtain ⟨t, hexec, hcmds, -⟩ := hstore (cmdOf (shortSqe 4)) nsOne 0x8000 0 marked marked_allowed (by decide) (by decide) marked_admits
    (by decide) (by decide) rfl (by decide)
  have ht : t = marked.after (marked.arrive .store (cmdOf (shortSqe 4))) := by
    have hsame := hexec.symm.trans (exec_ioCommand .store (cmdOf (shortSqe 4)) marked)
    rw [finish_eq] at hsame
    injection hsame
  have hmem : (1, 1, 7, CmdPhase.intake, some 0) ∈ t.fl.cmds.map fun x => (x.ctrl, x.sq, x.e.cid, x.phase, x.granule) := by
    rw [hcmds]
    exact List.mem_singleton.mpr rfl
  obtain ⟨x, hx, hsame⟩ := List.mem_map.mp hmem
  rw [ht, State.after_fl] at hx
  refine marked_arrive x hx ?_
  simp only [Prod.mk.injEq] at hsame
  obtain ⟨-, -, -, hphase, -⟩ := hsame
  exact hphase

end Sys2Proof.Machine
end

section
/-! SUPPORT. The step itself, and two reads that bring their TLS connections to the change of their traffic keys (R64, R88, R224, R267). -/

namespace Sys2Proof.Machine

/-- Settles O40: the step function takes the queue apart and hands its front to `exec`. -/
theorem stepCarriesOutTheFrontCommand : Obligations.Step_carries_out_the_front_command := by
  intro c rest s
  rfl

/-- What is said of the state a command completes in holds of the state it ends with. -/
theorem Completes.of_finish {c : Instr} {s u : State} {P : State → Prop} (h : Completes c s P) (hexec : exec c s = finish s u) : P (s.after u) := by
  obtain ⟨t, ht, hp⟩ := h
  have hsame := ht.symm.trans hexec
  rw [finish_eq] at hsame
  injection hsame with hsame
  exact hsame ▸ hp

/-! ## A forwarded read whose data bring their connection to the change of its keys -/

/-- A retrieve that the Primary performs for this drive. -/
def readForwarded : Cmd := { ctrl := 1, sq := 1, fetch := 0, kind := .retrieve, e := shortSqe 64, phase := .forwarded }

def forwardingRead : State := { listing with fl := { listing.fl with cmds := [readForwarded] } }

/-- What the Primary answered. -/
def readAnswer : FwdData := { dw0 := 1, dw1 := 0, data := [1] }

theorem forwardingRead_exec :
    exec (.forwardCompletion 1 1 7 .success readAnswer) forwardingRead
      = finish forwardingRead (forwardingRead.completeRead readForwarded [1] 1 0) := rfl

theorem forwardingRead_out :
    (forwardingRead.completeRead readForwarded [1] 1 0).out.length = forwardingRead.out.length + 3 :=
  State.completeRead_out (k := connFull) rfl rfl (by decide) rfl rfl (by simp) (connFull_records _ (by simp)) _ _

/-- Refutes O24: a forwarded read whose data bring their TLS connection to 2^24 records also asks for new keys, so more goes out than
the data and the entry. -/
theorem not_twinTrafficCompletes : ¬ Obligations.Twin_traffic_completes := by
  intro hall
  obtain ⟨-, -, -, -, -, hread, -⟩ := hall
  obtain ⟨hemits, -⟩ := (hread 1 1 7 readAnswer readForwarded forwardingRead (by decide) rfl ⟨rfl, rfl, rfl⟩ rfl rfl rfl rfl
    (by decide)).of_finish forwardingRead_exec
  have hlength := congrArg List.length hemits
  rw [State.after_out, forwardingRead_out] at hlength
  have hdata : readAnswer.data.take (fieldsOf readForwarded.kind readForwarded.e).bufSize = [1] := rfl
  rw [hdata] at hlength
  simp [ioData] at hlength

/-! ## A log page whose bytes bring the admin connection to the change of its keys -/

/-- The bytes of a page that the drive returns, from their start (R79). -/
theorem State.readLog_page {s : State} {ctrl nsid page len : Nat} {b : Bytes} (hphase : (s.pw.phase == .pilot) = false) (hpage : page ≠ 2)
    (hbytes : s.logPage ctrl ((s.fe.ctrl? ctrl).any (·.discovery)) page = some b) :
    s.readLog ctrl nsid page 0 len = .ok (bytesAt b 0 len) := by
  simp [State.readLog, hphase, hpage, hbytes]

/-- Get Log Page with Retain Asynchronous Event set puts out a request for new keys when its bytes use up those of its connection (R224). -/
theorem State.getLog_out_updated {s : State} {a : Adm} {page len : Nat} {b : Bytes} {k : Conn} (hphase : (s.pw.phase == .pilot) = false)
    (hpage : page ≠ 2) (hbytes : s.logPage a.ctrl ((s.fe.ctrl? a.ctrl).any (·.discovery)) page = some b)
    (hqueue : s.fe.hasQueue a.ctrl 0 = true) (hconn : s.fe.connOf a.ctrl 0 = some k) (hrdma : k.rdma = false)
    (hfull : 2 ^ 24 ≤ k.txRecords + k.recordsOf (bytesAt b 0 len).length) :
    (s.getLog a page true 0 len).out.length = s.out.length + 3 := by
  rw [State.getLog, State.readLog_page hphase hpage hbytes]
  have hsent := State.sendData_out_updated (s := s.spend) hconn hrdma a.cid (bytesAt b 0 len) hfull
  have hsame : (s.spend.sendData a.ctrl 0 a.cid (bytesAt b 0 len)).fe.hasQueue a.ctrl 0 = true :=
    (State.sendData_hasQueue _ _ _ _).trans hqueue
  simp only [if_true]
  rw [State.admDone_out hsame, hsent]
  simp [State.spend]

theorem exec_getLogPage (a : Adm) (page : Nat) (rae : Bool) (offset len : Nat) (s : State) :
    exec (.getLogPage a page rae offset len) s
      = finish s (s.admin (.getLogPage a page rae offset len) a false true true fun s => s.getLog a page rae offset len) := rfl

/-- The connection of the admin queue with TLS, one record short of the change of its keys (R224). -/
def connAdmFull : Conn := { conn1 with tls := true, txRecords := 2 ^ 24 - 1 }

def pageReading : State := { sealedUp with fe := { sealedUp.fe with conns := [connAdmFull] } }

theorem pageReading_ok : adminOk adm1 pageReading = true := by decide

theorem connAdmFull_records (n : Nat) (h : 0 < n) : 2 ^ 24 ≤ connAdmFull.txRecords + connAdmFull.recordsOf n := by
  have hrecords := connAdmFull.recordsOf_pos rfl h
  have hcount : connAdmFull.txRecords = 2 ^ 24 - 1 := rfl
  omega

/-- Reading four bytes of log 03h in this state puts out a request for new keys beside the bytes and the entry. -/
theorem pageReading_out : ((pageReading.admEntry adm1).1.getLog adm1 3 true 0 4).out.length = pageReading.out.length + 3 :=
  State.getLog_out_updated (b := (pageReading.admEntry adm1).1.logFirmware) (k := connAdmFull) rfl (by decide) rfl (by decide) rfl rfl
    (connAdmFull_records _ (by simp [bytesAt, State.logFirmware]))

/-- Refutes O39: a log page whose bytes bring the TLS connection of the admin queue to 2^24 records also asks for new keys, so more goes
out than the bytes and the entry. -/
theorem not_logPageAndIdentifyCommandsComplete : ¬ Obligations.Log_page_and_identify_commands_complete := by
  intro hall
  obtain ⟨hpage, -⟩ := hall
  obtain ⟨hemits, -⟩ := (hpage adm1 3 0 4 pageReading.logFirmware pageReading pageReading_ok rfl (by decide) rfl (Nat.zero_le _)).of_finish
    ((exec_getLogPage adm1 3 true 0 4 pageReading).trans (by rw [admin_ok pageReading_ok]))
  have hlength := congrArg List.length hemits
  rw [State.after_out, pageReading_out] at hlength
  simp at hlength

end Sys2Proof.Machine
end

section
/-! SUPPORT. Commands with the identifier of an outstanding command of their queue (R58). -/

namespace Sys2Proof.Machine

/-! ## The identifier of an outstanding command (R58) -/

/-- What the Command ID Conflict of an entry of a queue changes: its fetched entry, the error log and what is put out. -/
def State.conflict (s : State) (ctrl sq cid : Nat) (inv : Option (BitVec 32)) : State :=
  (s.fetch ctrl sq).post ctrl sq cid .cidConflict (inv := inv)

theorem State.conflict_fe (s : State) (ctrl sq cid : Nat) (inv : Option (BitVec 32)) :
    (s.conflict ctrl sq cid inv).fe = { (s.fetch ctrl sq).fe with errorLog := (s.conflict ctrl sq cid inv).fe.errorLog } := by
  obtain ⟨log, hlog⟩ := (s.fetch ctrl sq).post_fe ctrl sq cid .cidConflict 0 0 (statusDnr .cidConflict) inv
  rw [State.conflict, hlog]

theorem State.conflict_eq (s : State) (ctrl sq cid : Nat) (inv : Option (BitVec 32)) :
    s.conflict ctrl sq cid inv = { s with
      out := (s.conflict ctrl sq cid inv).out
      fe := (s.conflict ctrl sq cid inv).fe } := rfl

/-- The vendor logs show nothing of the entries fetched and put out, or of the error log (R80). -/
theorem State.raisedLogs_conflict (s : State) (ctrl sq cid : Nat) (inv : Option (BitVec 32)) :
    s.raisedLogs (s.conflict ctrl sq cid inv) = (s.conflict ctrl sq cid inv).fe :=
  State.raisedLogs_same fun i => by
    rw [s.conflict_eq]
    exact s.shownSame_self i

/-- A command refused with Command ID Conflict puts its entry out and changes the counts of its queue, the error log and the transmit queues
alone. -/
theorem State.finish_conflict {s : State} {ctrl sq : Nat} (hqueue : s.fe.hasQueue ctrl sq = true) (cid : Nat) (inv : Option (BitVec 32)) :
    ∃ t, finish s (s.conflict ctrl sq cid inv) = .next t
      ∧ Emits s t [.cqe ctrl sq cid .cidConflict (statusDnr .cidConflict) (BitVec.ofNat 32 0) (BitVec.ofNat 32 0) (t.sqHead ctrl sq) inv]
      ∧ t = { s with out := t.out, fe := { (s.fetch ctrl sq).fe with errorLog := t.fe.errorLog }, pt := s.queued { t with pt := s.pt } } := by
  have hfetched : (s.fetch ctrl sq).fe.hasQueue ctrl sq = true := (Front.hasQueue_fetch s.fe ctrl sq ctrl sq).trans hqueue
  refine ⟨s.after (s.conflict ctrl sq cid inv), finish_eq _ _, ?_, ?_⟩
  · rw [Emits, State.after_out, State.sqHead_after, State.conflict, State.sqHead_post, State.post_out _ _ _ _ _ _ hfetched]
    rfl
  · rw [State.after, s.raisedLogs_conflict, ← s.conflict_fe]
    rfl

section
variable {s : State} {a : Adm} {c : Ctrl}

theorem State.adminCid_fetch (s : State) (ctrl sq : Nat) (a : Adm) : (s.fetch ctrl sq).adminCid a = s.adminCid a := by
  simp [State.adminCid, State.fetch_eq, Function.comp_def]

/-- An admin command whose identifier is outstanding is another entry of its queue (R58). -/
theorem State.admEntry_outstanding (h : s.adminCid a = true) : (s.admEntry a).1 = s.fetch a.ctrl 0 := by
  rw [State.admEntry, if_pos h]

theorem State.fabrics_conflict (hcid : s.adminCid a = true) (i : Instr) (k : State → State) :
    s.fabrics i a k = s.conflict a.ctrl 0 a.cid (sglInv a.sgl) := by
  simp [State.fabrics, State.admEntry_outstanding hcid, State.adminCid_fetch, hcid, State.admDone, State.conflict]

variable (hserves : s.serving = true)
include hserves

theorem State.managed_of_serving : s.managed = true := by
  simp_all [State.serving, State.managed]

theorem State.not_pilot_of_serving : (s.pw.phase == .pilot) = false := by
  simp_all [State.serving]

variable (hc : s.fe.ctrl? a.ctrl = some c) (hon : c.enabled = true) (hcid : s.adminCid a = true)
include hc hon hcid

theorem State.admin_conflict (i : Instr) (o d p : Bool) (k : State → State) (w : Bool) :
    s.admin i a o d p k w = s.conflict a.ctrl 0 a.cid (sglInv a.sgl) := by
  have hpilot : ((s.fetch a.ctrl 0).pw.phase == .pilot) = false := State.not_pilot_of_serving hserves
  simp [State.admin, State.managed_of_serving hserves, hc, hon, State.admEntry_outstanding hcid, State.adminCid_fetch, hcid, hpilot,
    State.admDone, State.conflict]

theorem execAbort_conflict (sq cid : Nat) : execAbort a sq cid s = finish s (s.conflict a.ctrl 0 a.cid (sglInv a.sgl)) := by
  have hpilot : ((s.fetch a.ctrl 0).pw.phase == .pilot) = false := State.not_pilot_of_serving hserves
  simp [execAbort, State.managed_of_serving hserves, hc, hon, State.admEntry_outstanding hcid, State.adminCid_fetch, hcid, hpilot,
    State.admDone, State.conflict]

/-- Every admin and Fabrics command passes the gate that refuses an outstanding identifier (R58). -/
theorem exec_adminRow_conflict {i : Instr} (hrow : adminRow i = some a) :
    exec i s = finish s (s.conflict a.ctrl 0 a.cid (sglInv a.sgl)) := by
  have hmanaged := State.managed_of_serving hserves
  unfold adminRow at hrow
  split at hrow <;> cases hrow
  case h_1 offset =>
    change execPropertyGet a offset s = _
    simp only [execPropertyGet, hmanaged, hc, State.fabrics_conflict hcid]
  case h_2 =>
    change execCcEnClear a s = _
    simp [execCcEnClear, hmanaged, hc, hon, State.fabrics_conflict hcid]
  case h_3 =>
    change execCcEnSet a s = _
    simp [execCcEnSet, hmanaged, hc, State.fabrics_conflict hcid]
  case h_4 =>
    change execNssrWrite a s = _
    simp [execNssrWrite, hmanaged, hc, State.fabrics_conflict hcid]
  case h_5 =>
    change execDisconnect a s = _
    simp [execDisconnect, hmanaged, State.fabrics_conflict hcid]
  case h_9 sq cid => exact execAbort_conflict hserves hc hon hcid sq cid
  all_goals exact congrArg (finish s) (State.admin_conflict hserves hc hon hcid _ _ _ _ _ _)

end

theorem State.arrive_conflict {s : State} {h : HostCmd} {x : Cmd} (hserves : s.serving = true) (hsq : h.sq ≠ 0)
    (hqueue : s.fe.hasQueue h.ctrl h.sq = true) (hout : s.cmd? h.ctrl h.sq h.e.cid = some x) (k : IoKind) :
    s.arrive k h = s.conflict h.ctrl h.sq h.e.cid (sglInv h.e.sgl) := by
  simp [State.arrive, hserves, hsq, hqueue, hout, State.conflict]

/-- Settles O48: both gates meet the outstanding identifier before anything else of the command. -/
theorem outstandingIdentifierConflicts : Obligations.Outstanding_identifier_conflicts := by
  constructor
  · intro k h x s hserves hsq hqueue hout
    rw [exec_ioCommand, State.arrive_conflict hserves hsq hqueue hout]
    exact State.finish_conflict hqueue _ _
  · intro i a c s hrow hserves hc hon hqueue hcid
    rw [exec_adminRow_conflict hserves hc hon hcid hrow]
    exact State.finish_conflict hqueue _ _

end Sys2Proof.Machine
end

section
/-! SUPPORT. What the path of an I/O command leaves as it is: the lifecycle, the boot state, the clocks and the self-test (R68, R71, R434,
R442, R482, R516). -/

namespace Sys2Proof.Machine

/-- The lifecycle, the boot state, the clocks and calibration, and the self-test. -/
def State.fixtures (s : State) : Life × Boot × Clocks × Selftest := (s.li, s.bt, s.ck, s.stt)

/-! ## What tends the index, and what consults the policy -/

theorem State.Tended.fixtures {s t : State} (h : s.Tended t) : t.fixtures = s.fixtures := by
  obtain ⟨_, _, _, -, rfl⟩ := h
  rfl

theorem State.Consulted.fixtures {s t : State} (h : s.Consulted t) : t.fixtures = s.fixtures := by
  obtain ⟨_, _, _, _, _, rfl⟩ := h
  rfl

theorem State.Readied.fixtures {s t : State} (h : s.Readied t) : t.fixtures = s.fixtures := by
  obtain ⟨_, -, rfl⟩ := h
  rfl

section
variable (s : State)

@[simp] theorem State.fixtures_index (f : Index → Index) : (s.index f).fixtures = s.fixtures := (s.tended_index f).fixtures
@[simp] theorem State.fixtures_look (nsid : Nat) (key : Key) : (s.look nsid key).fixtures = s.fixtures := (s.readied_look nsid key).fixtures
@[simp] theorem State.fixtures_policy (k : LKey) (stackScope : Bool) : (s.policy k stackScope).1.fixtures = s.fixtures :=
  (s.consulted_policy k stackScope).fixtures
@[simp] theorem State.fixtures_settleVictims : s.settleVictims.fixtures = s.fixtures := s.tended_settleVictims.fixtures
@[simp] theorem State.fixtures_retryInternal : s.retryInternal.fixtures = s.fixtures := s.tended_retryInternal.fixtures

/-! ## Changes of one other part -/

@[simp] theorem State.fixtures_modPw (f : Power → Power) : (s.modPw f).fixtures = s.fixtures := rfl
@[simp] theorem State.fixtures_modFl (f : Flight → Flight) : (s.modFl f).fixtures = s.fixtures := rfl
@[simp] theorem State.fixtures_modVa (f : Vault → Vault) : (s.modVa f).fixtures = s.fixtures := rfl
@[simp] theorem State.fixtures_modIx (f : Index → Index) : (s.modIx f).fixtures = s.fixtures := rfl
@[simp] theorem State.fixtures_modWx (f : Wax → Wax) : (s.modWx f).fixtures = s.fixtures := rfl
@[simp] theorem State.fixtures_modMd (f : Media → Media) : (s.modMd f).fixtures = s.fixtures := rfl
@[simp] theorem State.fixtures_modKy (f : Keys → Keys) : (s.modKy f).fixtures = s.fixtures := rfl
@[simp] theorem State.fixtures_modTw (f : Twin → Twin) : (s.modTw f).fixtures = s.fixtures := rfl
@[simp] theorem State.fixtures_modOg (f : Origin → Origin) : (s.modOg f).fixtures = s.fixtures := rfl
@[simp] theorem State.fixtures_modSk (f : Stack → Stack) : (s.modSk f).fixtures = s.fixtures := rfl
@[simp] theorem State.fixtures_modTm (f : Time → Time) : (s.modTm f).fixtures = s.fixtures := rfl
@[simp] theorem State.fixtures_modPort (n : Nat) (f : Port → Port) : (s.modPort n f).fixtures = s.fixtures := rfl
@[simp] theorem State.fixtures_modBand (n : Nat) (f : Band → Band) : (s.modBand n f).fixtures = s.fixtures := rfl
@[simp] theorem State.fixtures_modCmd (fetch : Nat) (f : Cmd → Cmd) : (s.modCmd fetch f).fixtures = s.fixtures := rfl
@[simp] theorem State.fixtures_phase (c : Cmd) (p : CmdPhase) : (s.phase c p).fixtures = s.fixtures := rfl
@[simp] theorem State.fixtures_dropCmd (fetch : Nat) : (s.dropCmd fetch).fixtures = s.fixtures := rfl
@[simp] theorem State.fixtures_fetch (ctrl sq : Nat) : (s.fetch ctrl sq).fixtures = s.fixtures := rfl
@[simp] theorem State.fixtures_emit (o : Out) : (s.emit o).fixtures = s.fixtures := rfl
@[simp] theorem State.fixtures_logChanged (n : Nat) : (s.logChanged n).fixtures = s.fixtures := rfl
@[simp] theorem State.fixtures_event (unit : Nat) (name : String) : (s.event unit name).fixtures = s.fixtures := rfl
@[simp] theorem State.fixtures_eventP (unit : Nat) (name : String) (p q r : Nat) : (s.eventP unit name p q r).fixtures = s.fixtures := rfl
@[simp] theorem State.fixtures_notifyAll (k : EventKind) : (s.notifyAll k).fixtures = s.fixtures := rfl
@[simp] theorem State.fixtures_notifyHost (host : Nqn) : (s.notifyHost host).fixtures = s.fixtures := rfl
@[simp] theorem State.fixtures_setC1 (i : Nat) (f : DeRec → DeRec) : (s.setC1 i f).fixtures = s.fixtures := rfl
@[simp] theorem State.fixtures_trimRing : s.trimRing.fixtures = s.fixtures := rfl
@[simp] theorem State.fixtures_forget (nsid seq : Nat) : (s.forget nsid seq).fixtures = s.fixtures := rfl
@[simp] theorem State.fixtures_waitBucket (c : Cmd) : (s.waitBucket c).fixtures = s.fixtures := rfl
@[simp] theorem State.fixtures_waitJournal (c : Cmd) : (s.waitJournal c).fixtures = s.fixtures := rfl

@[simp] theorem State.fixtures_post (ctrl sq cid : Nat) (st : Status) (dw0 dw1 : Nat) (dnr : Bool) (inv : Option (BitVec 32)) :
    (s.post ctrl sq cid st dw0 dw1 dnr inv).fixtures = s.fixtures := rfl

theorem State.fixtures_whenB {s : State} (c : Bool) {f : State → State} (h : ∀ s, (f s).fixtures = s.fixtures) :
    (s.whenB c f).fixtures = s.fixtures := by
  unfold State.whenB
  split
  · exact h s
  · rfl

theorem State.fixtures_foldl {α : Type} {f : State → α → State} (h : ∀ s a, (f s a).fixtures = s.fixtures) (l : List α) (s : State) :
    (l.foldl f s).fixtures = s.fixtures := by
  induction l generalizing s with
  | nil => rfl
  | cons a l ih => exact (ih _).trans (h s a)

@[simp] theorem State.fixtures_ite {c : Prop} [Decidable c] (t u : State) :
    (if c then t else u).fixtures = if c then t.fixtures else u.fixtures := apply_ite State.fixtures c t u

/-! ## The completion of a command -/

@[simp] theorem State.fixtures_sendData (ctrl sq cid : Nat) (d : Bytes) : (s.sendData ctrl sq cid d).fixtures = s.fixtures := by
  unfold State.sendData
  dsimp only
  split
  · unfold State.countRecords
    split
    · rfl
    · exact State.fixtures_whenB _ fun s => rfl
  · rfl

@[simp] theorem State.fixtures_giveBack (c : Cmd) (sent : Nat) : (s.giveBack c sent).fixtures = s.fixtures := by
  unfold State.giveBack
  dsimp only
  split <;> rfl

@[simp] theorem State.fixtures_complete (c : Cmd) (st : Status) (dw0 dw1 : Nat) (data : Bytes) (dnr : Bool) :
    (s.complete c st dw0 dw1 data dnr).fixtures = s.fixtures := by
  unfold State.complete
  extract_lets given freed hashed sent
  have hgiven : given.fixtures = s.fixtures := by simp [given]
  have hfreed : freed.fixtures = s.fixtures := by
    unfold freed
    split
    · exact hgiven
    · exact hgiven
  have hhashed : hashed.fixtures = s.fixtures := hfreed
  split
  · exact hhashed
  · simp only [State.fixtures_post, sent]
    split
    · exact hhashed
    · exact (State.fixtures_sendData _ _ _ _ _).trans hhashed

@[simp] theorem State.fixtures_completeRead (c : Cmd) (data : Bytes) (dw0 dw1 : Nat) :
    (s.completeRead c data dw0 dw1).fixtures = s.fixtures := s.fixtures_complete c .success dw0 dw1 data _

@[simp] theorem State.fixtures_completeWrite (c : Cmd) (leaf : Option (Nat × Nat)) (slot : Nat) :
    (s.completeWrite c leaf slot).fixtures = s.fixtures := by
  unfold State.completeWrite
  split
  · simp
  split <;> simp

@[simp] theorem State.fixtures_finishWrite (c : Cmd) (leaf : Option (Nat × Nat)) (slot : Nat) (after : List Nat) :
    (s.finishWrite c leaf slot after).fixtures = s.fixtures := by
  unfold State.finishWrite
  split <;> simp

/-! ## The index update of a committed write -/

@[simp] theorem State.fixtures_endCheckpoint : s.endCheckpoint.fixtures = s.fixtures := by
  unfold State.endCheckpoint
  split
  · split <;> simp
  · rfl

@[simp] theorem State.fixtures_closeBand (b : Band) : (s.closeBand b).fixtures = s.fixtures := by simp [State.closeBand]

@[simp] theorem State.fixtures_settleBands : s.settleBands.fixtures = s.fixtures :=
  (State.fixtures_foldl State.fixtures_closeBand _ _).trans s.fixtures_settleVictims

@[simp] theorem State.fixtures_dropRecord (loc : Loc) (bytes : Nat) : (s.dropRecord loc bytes).fixtures = s.fixtures := by
  cases loc <;> simp [State.dropRecord]

@[simp] theorem State.fixtures_removeKey (nsid : Nat) (key : Key) : (s.removeKey nsid key).fixtures = s.fixtures := by
  unfold State.removeKey
  split <;> simp

@[simp] theorem State.fixtures_putKey (loc : Loc) (r : StoredRec) (twinPend : Bool) : (s.putKey loc r twinPend).fixtures = s.fixtures := by
  unfold State.putKey
  dsimp only
  split <;> simp

@[simp] theorem State.fixtures_modSlot (nsid : Nat) (key : Key) (f : Slot → Slot) : (s.modSlot nsid key f).fixtures = s.fixtures := by
  unfold State.modSlot
  split <;> simp

@[simp] theorem State.fixtures_secdelDone (j : SecDelJob) : (s.secdelDone j).fixtures = s.fixtures := by
  unfold State.secdelDone
  dsimp only
  split <;> simp

@[simp] theorem State.fixtures_startSecdel (slot : Option Nat) (seq nsid : Nat) (key : Key) (host : Nqn) :
    (s.startSecdel slot seq nsid key host).fixtures = s.fixtures := by
  unfold State.startSecdel
  dsimp only
  split <;> simp

@[simp] theorem State.fixtures_holdPends (w : Write) (seq : Nat) (twinPend : Bool) : (s.holdPends w seq twinPend).fixtures = s.fixtures :=
  State.fixtures_whenB _ fun _ => rfl

@[simp] theorem State.fixtures_applyWrite (w : Write) (seq time : Nat) (tq : BitVec 8) (twinPend : Bool) :
    (s.applyWrite w seq time tq twinPend).fixtures = s.fixtures := by
  unfold State.applyWrite
  split
  case h_1 =>
    split
    next r l _ _ =>
      split
      · simp
      · cases l <;> simp only [] <;> split <;> simp
    · rfl
  case h_2 | h_3 =>
    dsimp only
    split
    · simp
    split <;> simp
  case h_4 | h_5 => split <;> simp
  case h_6 | h_7 => rfl

/-! ## The commit of a write -/

@[simp] theorem State.fixtures_closeEpoch (flags : Nat) : (s.closeEpoch flags).fixtures = s.fixtures := by
  unfold State.closeEpoch
  split <;> rfl

@[simp] theorem State.fixtures_addLeaf (nsid : Nat) (key : Key) (value : Bytes) (seq : Nat) :
    (s.addLeaf nsid key value seq).1.fixtures = s.fixtures := by
  simp [State.addLeaf]

@[simp] theorem State.fixtures_writeJournal (r : JRec) : (s.writeJournal r).fixtures = s.fixtures := by
  unfold State.writeJournal State.noteBase
  split
  · rfl
  split <;> rfl

@[simp] theorem State.fixtures_sendTwin (w : ReplWrite) (hosted : Bool) : (s.sendTwin w hosted).fixtures = s.fixtures := by
  unfold State.sendTwin
  split
  · rfl
  split <;> rfl

@[simp] theorem State.fixtures_commit (w : Write) (fwd : Option (Nat × Nat × Nat)) : (s.commit w fwd).1.fixtures = s.fixtures := by
  unfold State.commit
  extract_lets seq part time tq early
  split
  next s₁ lf lh hleaf =>
  have hleafed : s₁.fixtures = s.fixtures := by
    split at hleaf
    · generalize hadd : s.addLeaf w.nsid w.key _ seq = added at hleaf
      obtain ⟨t, e, i, h⟩ := added
      cases hleaf
      simpa [hadd] using s.fixtures_addLeaf w.nsid w.key ((w.srec.map (·.value)).getD []) seq
    · cases hleaf
      rfl
  extract_lets numbered
  split
  next e i _ =>
  extract_lets journaled owned sent listed lagged early' staged
  have hjournaled : journaled.fixtures = s.fixtures := (State.fixtures_writeJournal _ _).trans hleafed
  have howned : owned.fixtures = s.fixtures := by
    unfold owned
    split <;> simp [hjournaled]
  have hlagged : lagged.fixtures = s.fixtures := by simp [lagged, listed, sent, howned]
  have hstaged : staged.fixtures = s.fixtures := by
    unfold staged
    split <;> simp [hlagged]
  split
  · simp [early', hlagged]
  · simp [hstaged]

@[simp] theorem State.fixtures_commitCmd (c : Cmd) (w : Write) : (s.commitCmd c w).fixtures = s.fixtures := by
  unfold State.commitCmd
  split
  · simp
  split
  · simp
  dsimp only
  split <;> simp

/-! ## The start of each command -/

@[simp] theorem State.fixtures_streamData (c : Cmd) (d : Bytes) : (s.streamData c d).fixtures = s.fixtures :=
  State.fixtures_whenB _ fun _ => rfl

@[simp] theorem State.fixtures_requestData (c : Cmd) : (s.requestData c).fixtures = s.fixtures := by
  unfold State.requestData
  dsimp only
  split
  · simp
  split
  · rfl
  · rfl
  · simp

@[simp] theorem State.fixtures_startIntake (c : Cmd) (lane : Bool) : (s.startIntake c lane).fixtures = s.fixtures := by
  simp [State.startIntake]

@[simp] theorem State.fixtures_bankCheck (bytes : Nat) : (s.bankCheck bytes).fixtures = s.fixtures := by simp [State.bankCheck]

@[simp] theorem State.fixtures_reserve (n : Nat) (granted : Bool) : (s.reserve n granted).1.fixtures = s.fixtures := by
  unfold State.reserve
  dsimp only
  split
  · simp
  split <;> simp

@[simp] theorem State.fixtures_intake (c : Cmd) (n : Ns) (granted : Bool) : (s.intake c n granted).fixtures = s.fixtures := by
  unfold State.intake
  extract_lets g bytes wait credited
  have hcredited : credited.fixtures = s.fixtures := State.fixtures_whenB _ fun _ => rfl
  have hreserved : (if wait then (credited, none) else credited.reserve g granted).1.fixtures = s.fixtures := by
    split <;> simp [hcredited]
  split
  · simp
  split
  next u hu =>
    rw [hu] at hreserved
    simpa using hreserved
  next u at_ hu =>
    rw [hu] at hreserved
    simpa using hreserved

@[simp] theorem State.fixtures_runStore (c : Cmd) (n : Ns) : (s.runStore c n).fixtures = s.fixtures := by
  unfold State.runStore
  dsimp only
  split
  · simp
  split <;> simp

@[simp] theorem State.fixtures_serve (c : Cmd) (r : StoredRec) : (s.serve c r).fixtures = s.fixtures := by simp [State.serve]

@[simp] theorem State.fixtures_fetchRecord (c : Cmd) (t : Slot) (r : StoredRec) : (s.fetchRecord c t r).fixtures = s.fixtures := by
  unfold State.fetchRecord
  split <;> simp

@[simp] theorem State.fixtures_unreachable (c : Cmd) (b : Option Binding) : (s.unreachable c b).fixtures = s.fixtures := by
  unfold State.unreachable
  split <;> simp

@[simp] theorem State.fixtures_noteError (i : Nat) : (s.noteError i).fixtures = s.fixtures := by simp [State.noteError]

@[simp] theorem State.fixtures_miss (c : Cmd) (expired : Bool) : (s.miss c expired).fixtures = s.fixtures := by
  unfold State.miss
  split
  · simp
  extract_lets usable first noted
  have hnoted : noted.fixtures = s.fixtures := State.fixtures_whenB _ fun s => s.fixtures_noteError first
  split
  · simp
  split
  · simp
  split
  · simp
  split <;> simp [hnoted]

@[simp] theorem State.fixtures_runRetrieve (c : Cmd) (n : Ns) : (s.runRetrieve c n).fixtures = s.fixtures := by
  unfold State.runRetrieve
  split <;> simp

@[simp] theorem State.fixtures_runList (c : Cmd) : (s.runList c).fixtures = s.fixtures := by simp [State.runList]

@[simp] theorem State.fixtures_release (u : EngineId) : (s.release u).fixtures = s.fixtures := rfl

@[simp] theorem State.fixtures_releaseAll (c : Cmd) : (s.releaseAll c).fixtures = s.fixtures := by
  refine State.fixtures_foldl (fun s e => ?_) _ s
  exact s.fixtures_release (.wick e.1)

@[simp] theorem State.fixtures_endListing (c : Cmd) (more budget : Bool) : (s.endListing c more budget).fixtures = s.fixtures := by
  simp [State.endListing]

@[simp] theorem State.fixtures_evaluate (c : Cmd) (p : Program) (k : Key) (n : Nat) : (s.evaluate c p k n).fixtures = s.fixtures := by
  unfold State.evaluate
  split <;> rfl

@[simp] theorem State.fixtures_nextKey (c : Cmd) : (s.nextKey c).fixtures = s.fixtures := by
  unfold State.nextKey
  extract_lets p ks
  clear_value p
  split
  · rfl
  split
  · simp
  split
  · simp
  cases p with
  | some p =>
    refine State.fixtures_foldl (fun s e => ?_) _ s
    exact s.fixtures_evaluate c p e.1 e.2
  | none => rfl

@[simp] theorem State.fixtures_runFilter (c : Cmd) : (s.runFilter c).fixtures = s.fixtures := by
  unfold State.runFilter
  dsimp only
  split
  · simp
  split <;> simp

@[simp] theorem State.fixtures_runReceipt (c : Cmd) : (s.runReceipt c).fixtures = s.fixtures := by
  unfold State.runReceipt
  dsimp only
  split
  · split <;> simp
  split
  · simp
  split <;> simp

@[simp] theorem State.fixtures_runHold (c : Cmd) (n : Ns) : (s.runHold c n).fixtures = s.fixtures := by
  unfold State.runHold
  split
  · simp
  split <;> simp

@[simp] theorem State.fixtures_runDelete (c : Cmd) (n : Ns) : (s.runDelete c n).fixtures = s.fixtures := by
  unfold State.runDelete
  dsimp only
  split
  · simp
  split
  · simp
  split
  · simp
  split
  · split <;> simp
  · simp

@[simp] theorem State.fixtures_runFlush (c : Cmd) : (s.runFlush c).fixtures = s.fixtures := by simp [State.runFlush]

@[simp] theorem State.fixtures_forward (c : Cmd) : (s.forward c).fixtures = s.fixtures := by simp [State.forward]

@[simp] theorem State.fixtures_run (c : Cmd) (n : Ns) : (s.run c n).fixtures = s.fixtures := by
  unfold State.run
  extract_lets looked
  have hlooked : looked.fixtures = s.fixtures := State.fixtures_whenB _ fun s => s.fixtures_look n.nsid c.key
  split
  · simp [hlooked]
  split <;> simp [hlooked]

/-! ## The arrival of a command -/

@[simp] theorem State.fixtures_carry (c : Cmd) (i : Nat) (k : Carrier) : (s.carry c i k).fixtures = s.fixtures := by
  unfold State.carry
  cases k.record <;> simp

@[simp] theorem State.fixtures_charge (c : Cmd) : (s.charge c).fixtures = s.fixtures := by simp [State.charge]

@[simp] theorem State.fixtures_admitRate (c : Cmd) (n : Ns) : (s.admitRate c n).fixtures = s.fixtures := by
  unfold State.admitRate
  split
  · simp
  split <;> simp

@[simp] theorem State.fixtures_judge (c : Cmd) (n : Ns) (p : Policy) : (s.judge c n p).fixtures = s.fixtures := by
  unfold State.judge
  split
  · simp
  cases p <;> simp

@[simp] theorem State.fixtures_lpiCheck (was : State) : (was.lpiCheck s).fixtures = s.fixtures := by
  refine State.fixtures_foldl (fun s port => ?_) _ s
  exact (State.fixtures_whenB _ fun s => s.fixtures_modPort port Port.rouse).trans
    (State.fixtures_whenB _ fun s => s.fixtures_event (unitOfPort port) "LPI wake time above the limit")

@[simp] theorem State.fixtures_wake : s.wake.fixtures = s.fixtures := by
  unfold State.wake
  split
  · rfl
  · exact State.fixtures_lpiCheck _ s

@[simp] theorem State.fixtures_wakeForIo : s.wakeForIo.fixtures = s.fixtures := by simp [State.wakeForIo, State.autoEvent]

@[simp] theorem State.fixtures_tryStart (c : Cmd) : (s.tryStart c).fixtures = s.fixtures := by
  unfold State.tryStart
  split
  · simp
  split
  · simp
  split
  · simp
  rw [State.fixtures_ite, State.fixtures_phase]
  refine ite_eq_left_iff.mpr fun _ => ?_
  split
  · simp
  split
  · simp
  · simp
  · simp

theorem State.fixtures_arrive (k : IoKind) (h : HostCmd) : (s.arrive k h).fixtures = s.fixtures := by simp [State.arrive]

end

/-- Settles O59: every function on the path of an I/O command leaves these four parts of the state. -/
theorem ioCommandsLeaveLifecycleAndFirmware : Obligations.IO_commands_leave_lifecycle_and_firmware := by
  intro k h s
  refine completes_finish (exec_ioCommand k h s) ?_
  have hsame := s.fixtures_arrive k h
  simp only [State.fixtures, Prod.mk.injEq] at hsame
  exact hsame

end Sys2Proof.Machine
end

section
/-! SUPPORT. The Fabrics gate, the controller's properties and its features (R53, R54, R55, R64, R65, R66, R111). -/

namespace Sys2Proof.Machine

/-! ## What the entry of an admin command leaves -/

section
variable (s : State) (a : Adm)

@[simp] theorem State.admEntry_pw : (s.admEntry a).1.pw = s.pw := by
  obtain ⟨_, h⟩ := s.admEntry_eq a
  rw [h]
@[simp] theorem State.admEntry_bt : (s.admEntry a).1.bt = s.bt := by
  obtain ⟨_, h⟩ := s.admEntry_eq a
  rw [h]
@[simp] theorem State.admEntry_tm : (s.admEntry a).1.tm = s.tm := by
  obtain ⟨_, h⟩ := s.admEntry_eq a
  rw [h]
@[simp] theorem State.admEntry_mono : (s.admEntry a).1.mono = s.mono := by
  obtain ⟨_, h⟩ := s.admEntry_eq a
  rw [h]
  rfl
@[simp] theorem State.admEntry_now : (s.admEntry a).1.now = s.now := by
  obtain ⟨_, h⟩ := s.admEntry_eq a
  rw [h]
  rfl
@[simp] theorem State.admEntry_qpFree : (s.admEntry a).1.fe.qpFree = s.fe.qpFree := by
  unfold State.admEntry
  split <;> rfl

/-- Taking its entry, an admin command changes the queues of its controller alone. -/
theorem State.ctrl?_admEntry_queues {c : Ctrl} (h : s.fe.ctrl? a.ctrl = some c) :
    ∃ queues, (s.admEntry a).1.fe.ctrl? a.ctrl = some { c with queues := queues } := by
  rcases s.ctrl?_admEntry a h with h | h
  · exact ⟨c.queues, h⟩
  · refine ⟨(c.oneFetched a.ctrl 0).queues, h.trans (congrArg some ?_)⟩
    unfold Ctrl.oneFetched
    split <;> rfl

/-! ## The gate of the Fabrics commands -/

theorem State.admSgl_fetch (ctrl sq : Nat) : (s.fetch ctrl sq).admSgl a = s.admSgl a := by
  have hbind (o : Option Queue) : (o.bind fun y => s.fe.conn? y.conn) = (o.map (·.conn)).bind s.fe.conn? := by cases o <;> rfl
  have hconn : (((s.fetch ctrl sq).fe.queue? a.ctrl 0).bind fun y => (s.fetch ctrl sq).fe.conn? y.conn)
      = (s.fe.queue? a.ctrl 0).bind fun y => s.fe.conn? y.conn := by
    change (Front.queue? _ _ _).bind (fun y => s.fe.conn? y.conn) = _
    rw [hbind, hbind]
    exact congrArg (Option.bind · s.fe.conn?) (Front.queueConn_fetch s.fe ctrl sq a.ctrl 0)
  simp only [State.admSgl, hconn]

/-- Nothing that could turn a Fabrics command away looks at its entry. -/
theorem State.admEntry_gates : (s.admEntry a).1.adminCid a = s.adminCid a ∧ (s.admEntry a).1.admSgl a = s.admSgl a
    ∧ (s.admEntry a).1.adminBlocked a.ctrl = s.adminBlocked a.ctrl := by
  unfold State.admEntry
  split
  · exact ⟨rfl, rfl, rfl⟩
  · exact ⟨s.adminCid_fetch _ _ a, s.admSgl_fetch a _ _, rfl⟩

end

/-- A Fabrics command that nothing turns away takes its entry and has its own effect (R9, R57, R58, R91, R110). -/
theorem fabrics_ok {a : Adm} {s : State} (h : fabricsOk a s = true) (i : Instr) (k : State → State) :
    s.fabrics i a k = k (s.admEntry a).1 := by
  obtain ⟨hcid, hsgl, hblocked⟩ := s.admEntry_gates a
  simp only [fabricsOk, Bool.and_eq_true, Bool.not_eq_true', Option.isNone_iff_eq_none] at h
  obtain ⟨⟨⟨⟨⟨⟨-, hpaused⟩, hfree⟩, hroom⟩, hnew⟩, hreserved⟩, hpointer⟩ := h
  simp [State.fabrics, hcid, hnew, hpaused, hblocked, hfree, hroom, hreserved, hsgl, hpointer]

theorem fabricsOk_managed {a : Adm} {s : State} (h : fabricsOk a s = true) : s.managed = true := by
  simp only [fabricsOk, Bool.and_eq_true] at h
  obtain ⟨⟨⟨⟨⟨⟨hmanaged, -⟩, -⟩, -⟩, -⟩, -⟩, -⟩ := h
  exact hmanaged

theorem adminOk_fabricsOk {a : Adm} {s : State} (h : adminOk a s = true) : fabricsOk a s = true := by
  obtain ⟨hserves, -, hpaused, hblocked, -, hcid, -, hreserved, hsgl, -⟩ := adminOk_facts h
  simp [fabricsOk, State.managed, hserves, hpaused, hblocked, adminOk_room h, hcid, hreserved, hsgl]

/-! ## What a command that only completes puts out -/

section
variable {s u : State} {a : Adm}

@[simp] theorem State.admDone_ctrls (st : Status) (dw0 : Nat) : (u.admDone a st dw0).fe.ctrls = u.fe.ctrls := by simp [State.admDone]
@[simp] theorem State.admDone_qpFree (st : Status) (dw0 : Nat) : (u.admDone a st dw0).fe.qpFree = u.fe.qpFree := by
  obtain ⟨_, h⟩ := u.post_fe a.ctrl 0 a.cid st dw0 0 (statusDnr st) (sglInv a.sgl)
  rw [State.admDone, h]

/-- A completion leaves the controllers. -/
theorem State.ctrl?_after_admDone (st : Status) (dw0 n : Nat) : (s.after (u.admDone a st dw0)).fe.ctrl? n = u.fe.ctrl? n :=
  Front.ctrl?_congr (by simp) n

theorem State.withCtrl_of {c : Ctrl} (h : s.fe.ctrl? a.ctrl = some c) (k : State → Ctrl → State) : s.withCtrl a k = k s c := by
  rw [State.withCtrl, h]

@[simp] theorem State.admDone_pw (st : Status) (dw0 : Nat) : (u.admDone a st dw0).pw = u.pw := rfl

variable (hqueue : u.fe.hasQueue a.ctrl 0 = true) (hout : u.out = s.out)
include hqueue hout

theorem State.emits_admDone (st : Status) (dw0 : Nat) :
    Emits s (s.after (u.admDone a st dw0)) [adminCqe (s.after (u.admDone a st dw0)) a st (statusDnr st) dw0] := by
  rw [Emits, State.after_out, State.admDone_out hqueue, hout, adminCqe_after, State.admDone, adminCqe_post]

theorem State.emits_admRead (name : String) (vals : List Int) :
    Emits s (s.after (u.admRead a name vals)) [.reading a.ctrl a.cid name vals, adminEntry (s.after (u.admRead a name vals)) a] := by
  have hread : (u.emit (.reading a.ctrl a.cid name vals)).fe.hasQueue a.ctrl 0 = true := hqueue
  rw [Emits, State.after_out, State.admRead, State.admDone_out hread, adminEntry, adminCqe_after, State.admDone, adminCqe_post,
    State.emit, hout, List.append_assoc]
  rfl

end

/-- An admin command whose change of its controller keeps where completions go puts out its entry alone. -/
theorem State.emits_modCtrl {s : State} {a : Adm} (hok : adminOk a s = true) {g : Ctrl → Ctrl}
    (hg : ∀ x, (g x).cntlid = x.cntlid ∧ (g x).enabled = x.enabled ∧ (g x).queues = x.queues) (dw0 : Nat) :
    Emits s (s.after (((s.admEntry a).1.modCtrl a.ctrl g).admDone a .success dw0))
      [adminEntry (s.after (((s.admEntry a).1.modCtrl a.ctrl g).admDone a .success dw0)) a dw0] :=
  State.emits_admDone (u := (s.admEntry a).1.modCtrl a.ctrl g) ((hasQueue_modCtrl _ _ _ _ _ hg).trans (adminOk_entry hok)) (s.admEntry_out a) .success dw0

/-- A command that changes its controller and completes. -/
theorem State.completes_modCtrl {c i : Instr} {s : State} {a : Adm} {o d p : Bool} (hok : adminOk a s = true) {g : State → Ctrl → Ctrl}
    (hg : ∀ u x, (g u x).cntlid = x.cntlid ∧ (g u x).enabled = x.enabled ∧ (g u x).queues = x.queues)
    (hexec : exec c s = finish s (s.admin i a o d p fun u => (u.modCtrl a.ctrl (g u)).admDone a .success)) :
    Completes c s fun t => t.fe.ctrls = ((s.admEntry a).1.fe.ctrls.map fun c => if c.cntlid == a.ctrl then g (s.admEntry a).1 c else c)
      ∧ Emits s t [adminEntry t a] :=
  completes_admin hexec hok ⟨by simp [State.modCtrl, Front.modCtrl], State.emits_modCtrl hok (hg _) 0⟩

/-! ## Get Features (R65) -/

section
variable {s u : State} {a : Adm} {c : Ctrl} (hqueue : u.fe.hasQueue a.ctrl 0 = true) (hout : u.out = s.out)
include hqueue hout

/-- A feature that has a number of its own. -/
theorem State.emits_getFeature_dw0 {fid : Nat} (dw0 sensor : Nat) (under : Bool)
    (h : u.getFeature a c fid sensor under = u.admDone a .success dw0) :
    Emits s (s.after (u.getFeature a c fid sensor under)) [adminEntry (s.after (u.getFeature a c fid sensor under)) a dw0] := by
  rw [h]
  exact State.emits_admDone hqueue hout .success dw0

/-- A feature that is returned in the buffer. -/
theorem State.emits_getFeature_read {fid : Nat} (name : String) (vals : List Int) (sensor : Nat) (under : Bool)
    (h : u.getFeature a c fid sensor under = u.admRead a name vals) :
    Emits s (s.after (u.getFeature a c fid sensor under))
      [.reading a.ctrl a.cid name vals, adminEntry (s.after (u.getFeature a c fid sensor under)) a] := by
  rw [h]
  exact State.emits_admRead hqueue hout name vals

end

theorem State.getFeature_unknown {s : State} {a : Adm} {c : Ctrl} {fid : Nat} (h : fid ∉ [0x01, 0x02, 0x04, 0x07, 0x0B, 0x0C, 0x0E, 0x0F])
    (sensor : Nat) (under : Bool) : s.getFeature a c fid sensor under = s.admDone a .invalidField := by
  unfold State.getFeature
  split
  case h_9 => rfl
  all_goals exact absurd (by decide) h

theorem completes_getFeatures {a : Adm} {c : Ctrl} {s : State} (hok : adminOk a s = true) (hc : s.fe.ctrl? a.ctrl = some c)
    (fid sensor : Nat) (under : Bool) (hsensor : sensor < s.pw.underThr.length ∧ sensor < s.pw.overThr.length) :
    Completes (.getFeatures a fid sensor under) s fun t =>
         (fid = 0x01 → Emits s t [adminEntry t a c.burst])
         ∧ (fid = 0x02 → Emits s t [adminEntry t a s.pw.psHost])
         ∧ (fid = 0x04 → ∃ v, (if under then s.pw.underThr else s.pw.overThr)[sensor]? = some v
              ∧ Emits s t [.reading a.ctrl a.cid "Temperature Threshold" [v], adminEntry t a])
         ∧ (fid = 0x07 → 0 < c.granted → Emits s t [adminEntry t a ((c.granted - 1) * 65537)])
         ∧ (fid = 0x0B → Emits s t [.reading a.ctrl a.cid "Asynchronous Event Configuration" (c.events.map EventKind.code), adminEntry t a])
         ∧ (fid = 0x0C → Emits s t [.reading a.ctrl a.cid "Autonomous Power State Transition" [0], adminEntry t a])
         ∧ (fid = 0x0E → Emits s t [.reading a.ctrl a.cid "Timestamp" [s.now / 1000000, s.tm.everTraceable.toNat, 0], adminEntry t a])
         ∧ (fid = 0x0F → Emits s t [adminEntry t a c.kato])
         ∧ (fid ∉ [0x01, 0x02, 0x04, 0x07, 0x0B, 0x0C, 0x0E, 0x0F] →
              Emits s t [adminCqe t a .invalidField (Config.dnrOf .invalidField)]) := by
  have hqueue := adminOk_entry hok
  have hout := s.admEntry_out a
  obtain ⟨queues, hentry⟩ := s.ctrl?_admEntry_queues a hc
  refine completes_admin rfl hok ?_
  rw [State.withCtrl_of hentry]
  refine ⟨?_, ?_, ?_, ?_, ?_, ?_, ?_, ?_, ?_⟩
  · rintro rfl
    exact State.emits_getFeature_dw0 hqueue hout _ _ _ rfl
  · rintro rfl
    exact State.emits_getFeature_dw0 hqueue hout _ _ _ (by simp [State.getFeature])
  · rintro rfl
    have hin : sensor < (if under then s.pw.underThr else s.pw.overThr).length := by cases under <;> simp [hsensor]
    refine ⟨_, List.getElem?_eq_getElem hin, State.emits_getFeature_read hqueue hout _ _ _ _ ?_⟩
    simp only [State.getFeature, State.admEntry_pw, List.getElem?_eq_getElem hin]
  · rintro rfl hgranted
    exact State.emits_getFeature_dw0 hqueue hout _ _ _ (by simp [State.getFeature, Nat.ne_of_gt hgranted])
  · rintro rfl
    exact State.emits_getFeature_read hqueue hout _ _ _ _ rfl
  · rintro rfl
    exact State.emits_getFeature_read hqueue hout _ _ _ _ rfl
  · rintro rfl
    exact State.emits_getFeature_read hqueue hout _ _ _ _ (by simp [State.getFeature, State.timestamp])
  · rintro rfl
    exact State.emits_getFeature_dw0 hqueue hout _ _ _ rfl
  · intro hother
    rw [State.getFeature_unknown hother]
    exact State.emits_admDone hqueue hout .invalidField 0

/-! ## The other features and the properties -/

theorem exec_propertyGet_cap {a : Adm} {s : State} (hok : adminOk a s = true) :
    exec (.propertyGet a 0) s = finish s ((s.admEntry a).1.admRead a "CAP" [1023, 2]) := by
  obtain ⟨-, -, -, -, -, -, -, -, -, c, hc, -⟩ := adminOk_facts hok
  have hfabrics := adminOk_fabricsOk hok
  change execPropertyGet a 0 s = _
  simp only [execPropertyGet, fabricsOk_managed hfabrics, hc, fabrics_ok hfabrics, State.property]

theorem exec_ccEnSet {a : Adm} {s : State} {c : Ctrl} (hok : fabricsOk a s = true) (hc : (s.admEntry a).1.fe.ctrl? a.ctrl = some c) :
    exec (.ccEnSet a) s
      = finish s (((s.admEntry a).1.modCtrl a.ctrl fun c => { c with enabled := true, ready := true }).admDone a .success) := by
  have hthere : (s.fe.ctrl? a.ctrl).isSome = true := by
    cases hnone : s.fe.ctrl? a.ctrl with
    | some x => rfl
    | none =>
      unfold State.admEntry at hc
      split at hc
      · exact absurd (hnone.symm.trans hc) (by simp)
      · simp [State.fetch_eq, Front.ctrl?_fetch, hnone] at hc
  change execCcEnSet a s = _
  simp [execCcEnSet, fabricsOk_managed hok, hthere, fabrics_ok hok]

theorem exec_setArbitration {burst : Nat} (h : burst ≤ 7) {a : Adm} {s : State} :
    exec (.setArbitration a burst) s = finish s (s.admin (.setArbitration a burst) a false true false fun u =>
      (u.modCtrl a.ctrl fun c => { c with burst := burst }).admDone a .success) := by
  change execSetArbitration a burst s = _
  simp only [execSetArbitration, if_neg (Nat.not_lt.mpr h)]

theorem exec_setKeepAliveTimer {kato : Nat} (h : kato ≤ 600000) {a : Adm} {s : State} :
    exec (.setKeepAliveTimer a kato) s = finish s (s.admin (.setKeepAliveTimer a kato) a false true false fun u =>
      (u.modCtrl a.ctrl fun c => { c with kato := katoInForce kato, kaStart := u.mono }).admDone a .success) := by
  change execSetKeepAliveTimer a kato s = _
  simp only [execSetKeepAliveTimer, if_neg (Nat.not_lt.mpr h)]

theorem completes_setNumberOfQueues {a : Adm} {request : Nat} {c : Ctrl} {s : State} (hok : adminOk a s = true)
    (hc : s.fe.ctrl? a.ctrl = some c) (hrequest : 0 < request) (hpool : 0 < s.fe.qpFree + c.granted) :
    Completes (.setNumberOfQueues a request) s fun t =>
         t.fe.qpFree = s.fe.qpFree + c.granted - min request (min (s.fe.qpFree + c.granted) 1024)
         ∧ (t.fe.ctrl? a.ctrl).map (·.granted) = some (min request (min (s.fe.qpFree + c.granted) 1024))
         ∧ Emits s t [adminEntry t a ((min request (min (s.fe.qpFree + c.granted) 1024) - 1) * 65537)] := by
  obtain ⟨queues, hentry⟩ := s.ctrl?_admEntry_queues a hc
  refine completes_admin rfl hok ?_
  rw [State.withCtrl_of hentry]
  simp only [State.admEntry_qpFree]
  generalize hn : min request (min (s.fe.qpFree + c.granted) 1024) = n
  rw [if_neg (by omega)]
  refine ⟨State.admDone_qpFree _ _, ?_, ?_⟩
  · rw [State.ctrl?_after_admDone]
    exact congrArg (Option.map _) ((ctrl?_modCtrl _ a.ctrl (fun c => { c with granted := n }) fun _ => rfl).trans
      (congrArg (Option.map _) hentry))
  · have hqueue := (hasQueue_modCtrl (s.admEntry a).1.fe a.ctrl a.ctrl 0 (fun c => { c with granted := n }) fun _ => ⟨rfl, rfl, rfl⟩).trans
      (adminOk_entry hok)
    refine State.emits_admDone ?_ ?_ .success _
    · exact hqueue
    · exact s.admEntry_out a

theorem completes_setTemperatureThreshold {a : Adm} {sensor : Nat} {s : State} (hok : adminOk a s = true) (hsensor : sensor < 8) (under : Bool)
    (value : Int) :
    Completes (.setTemperatureThreshold a sensor under value) s fun t =>
      (t.pw.underThr = if under then s.pw.underThr.set sensor value else s.pw.underThr)
        ∧ (t.pw.overThr = if under then s.pw.overThr else s.pw.overThr.set sensor value) ∧ Emits s t [adminEntry t a] := by
  refine completes_admin rfl hok ?_
  rw [if_neg (by omega)]
  refine ⟨?_, ?_, State.emits_admDone (adminOk_entry hok) (s.admEntry_out a) .success 0⟩
  · cases under <;> simp
  · cases under <;> simp

/-- Settles O3: each command meets its gate and completes with the change and the entry it names. -/
theorem controllerPropertyAndFeatureCommandsComplete : Obligations.Controller_property_and_feature_commands_complete := by
  refine ⟨fun a s hok => ?_, fun a c s hok hc => ?_, fun a s hok => ?_, fun a fid sensor under c s hok hc hsensor => ?_,
    fun a burst s hok hburst => ?_, fun a sensor value s hok hsensor => ⟨?_, ?_⟩, fun a request c s hok hc hrequest hpool => ?_,
    fun a kinds s hok => ?_, fun a kato s hok hkato => ?_, fun a fid s hok => ?_⟩
  · exact completes_finish (exec_propertyGet_cap hok) (State.emits_admRead (adminOk_entry hok) (s.admEntry_out a) _ _)
  · refine completes_finish (exec_ccEnSet hok hc) ⟨_, ?_, rfl⟩
    exact (State.ctrl?_after_admDone _ _ _).trans
      ((ctrl?_modCtrl (s.admEntry a).1.fe a.ctrl (fun c => { c with enabled := true, ready := true }) fun _ => rfl).trans
        (congrArg (Option.map _) hc))
  · simpa using State.completes_modCtrl hok (g := fun u c => { c with kaStart := u.mono }) (fun _ _ => ⟨rfl, rfl, rfl⟩) rfl
  · exact completes_getFeatures hok hc fid sensor under hsensor
  · exact State.completes_modCtrl hok (g := fun _ c => { c with burst := burst }) (fun _ _ => ⟨rfl, rfl, rfl⟩) (exec_setArbitration hburst)
  · simpa using completes_setTemperatureThreshold hok hsensor true value
  · refine (completes_setTemperatureThreshold hok hsensor false value).imp fun t ht => ?_
    obtain ⟨hunder, hover, hemits⟩ := ht
    exact ⟨hover, hunder, hemits⟩
  · exact completes_setNumberOfQueues hok hc hrequest hpool
  · exact State.completes_modCtrl hok (g := fun _ c => { c with events := kinds }) (fun _ _ => ⟨rfl, rfl, rfl⟩) rfl
  · simpa [katoInForce] using State.completes_modCtrl hok (g := fun u c => { c with kato := katoInForce kato, kaStart := u.mono })
      (fun _ _ => ⟨rfl, rfl, rfl⟩) (exec_setKeepAliveTimer hkato)
  · exact completes_admin rfl hok (State.emits_admDone (adminOk_entry hok) (s.admEntry_out a) .invalidField 0)

end Sys2Proof.Machine
end

section
/-! SUPPORT. The endings of a connection and of a controller (R53, R54, R107, R108, R111, R330). -/

namespace Sys2Proof.Machine

/-- The end of a controller and of its connections (R54, R107). -/
theorem State.tearDown_eq {s : State} {id : Nat} {c : Ctrl} (h : s.fe.ctrl? id = some c) :
    s.tearDown id = ((({ s with fe := { s.fe with ctrls := s.fe.ctrls.filter (·.cntlid ≠ id), gone := (id, c.host) :: dropAssoc id s.fe.gone,
                                                  conns := s.fe.conns.filter (fun k => k.id ∉ s.connsOf id), qpFree := s.fe.qpFree + c.granted },
                                out := s.out ++ (s.connsOf id).map Out.closed } : State).dropWork id).rechoose) := by
  rw [State.tearDown, h]
  rfl

theorem State.closeConn_ctrl {s : State} {conn id q : Nat} {k : Conn} (hconn : s.fe.conn? conn = some k) (hctrl : k.ctrl = some (id, q)) :
    s.closeConn conn = s.tearDown id := by
  simp [State.closeConn, hconn, hctrl]

theorem State.closeConn_only {s : State} {conn : Nat} {k : Conn} (hconn : s.fe.conn? conn = some k) (hctrl : k.ctrl = none) :
    s.closeConn conn = ({ s with fe := { s.fe with conns := s.fe.conns.filter (·.id ≠ conn), hellos := s.fe.hellos.filter (·.1 ≠ conn) } } : State).emit
      (.closed conn) := by
  simp [State.closeConn, hconn, hctrl]

theorem State.inWindow_open {s : State} (h : s.bt.paused = false) (i : Instr) (ctrl cid : Nat) (k : State → State) :
    s.inWindow i ctrl cid k = k s := by
  simp [State.inWindow, h]

section
variable {s : State} {conn : Nat} {k : Conn} (hup : up s = true) (hopen : s.bt.paused = false) (hconn : s.fe.conn? conn = some k)
include hup hopen hconn

theorem exec_transportConnectionLoss : exec (.transportConnectionLoss conn) s = finish s (s.closeConn conn) := by
  change execTransportConnectionLoss conn s = _
  rw [execTransportConnectionLoss, whileUp_up hup, State.inWindow_open hopen]
  simp [State.closeIf, hconn]

theorem exec_tcpRetransmitTimeout (htcp : k.rdma = false) : exec (.tcpRetransmitTimeout conn) s = finish s (s.closeConn conn) := by
  change execTcpRetransmitTimeout conn s = _
  rw [execTcpRetransmitTimeout, whileUp_up hup, State.inWindow_open hopen]
  simp [hconn, htcp]

theorem exec_roceQpFailure (hrdma : k.rdma = true) : exec (.roceQpFailure conn) s = finish s (s.closeConn conn) := by
  change execRoceQpFailure conn s = _
  rw [execRoceQpFailure, whileUp_up hup, State.inWindow_open hopen]
  simp [hconn, hrdma]

end

theorem exec_keepAliveExpiry {s : State} (hup : up s = true) (hopen : s.bt.paused = false) (id : Nat) :
    exec (.keepAliveExpiry id) s = finish s (s.tearDown id) := by
  change execKeepAliveExpiry id s = _
  rw [execKeepAliveExpiry, whileUp_up hup]
  simp [hopen]

section
variable {s : State} {a : Adm} (hok : fabricsOk a s = true)
include hok

theorem exec_disconnect : exec (.disconnect a) s = finish s ((s.admEntry a).1.tearDown a.ctrl) := by
  change execDisconnect a s = _
  simp [execDisconnect, fabricsOk_managed hok, fabrics_ok hok]

theorem exec_nssrWrite (hthere : (s.fe.ctrl? a.ctrl).isSome = true) : exec (.nssrWrite a) s = finish s (s.admEntry a).1.tearDownAll := by
  change execNssrWrite a s = _
  simp [execNssrWrite, fabricsOk_managed hok, hthere, fabrics_ok hok]

theorem exec_ccEnClear {c : Ctrl} (hc : s.fe.ctrl? a.ctrl = some c) (hon : c.enabled = true) :
    exec (.ccEnClear a) s = finish s ((s.admEntry a).1.disable a.ctrl) := by
  change execCcEnClear a s = _
  simp [execCcEnClear, fabricsOk_managed hok, hc, hon, fabrics_ok hok]

end

theorem State.disable_eq {s : State} {id : Nat} {granted : Nat} (h : (s.fe.ctrl? id).map (·.granted) = some granted) :
    s.disable id = ((({ s with fe := { s.fe with
      ctrls := s.fe.ctrls.map (fun x => if x.cntlid == id then
        { x with enabled := false, ready := false, queues := x.queues.filter (·.qid == 0), aers := [], raised := [], granted := 0 } else x),
      conns := s.fe.conns.filter (fun k => !(k.ctrl.any fun (i, q) => i == id && decide (0 < q))), qpFree := s.fe.qpFree + granted } }
        : State).dropWork id).rechoose) := by
  have hfree : s.fe.qpFree + granted = s.fe.qpFree + ((s.fe.ctrl? id).map (·.granted)).getD 0 := by
    rw [h]
    rfl
  rw [State.disable, hfree]
  rfl

/-- Settles O2: each ending comes to the teardown of the controller, or to the close of a connection that carries none. -/
theorem connectionEndingsResetTheController : Obligations.Connection_endings_reset_the_controller := by
  refine ⟨fun a c u s hok hc hu => ?_, fun conn id q k c s hup hopen hconn hctrl hc => ?_, fun id c s hup hopen hc => ?_,
    fun conn id q k c s hup hopen hconn htcp hctrl hc => ?_, fun conn k s hup hopen hconn hrdma hctrl => ?_, fun a s hok hthere => ?_,
    fun a c u s hok hc hon hu => ?_⟩
  · obtain ⟨queues, hentry⟩ := s.ctrl?_admEntry_queues a hc
    subst hu
    exact yields_of ((exec_disconnect hok).trans (congrArg (finish s) (State.tearDown_eq (c := { c with queues := queues }) hentry)))
  · exact yields_of ((exec_transportConnectionLoss hup hopen hconn).trans
      (congrArg (finish s) ((State.closeConn_ctrl hconn hctrl).trans (State.tearDown_eq hc))))
  · exact yields_of ((exec_keepAliveExpiry hup hopen id).trans (congrArg (finish s) (State.tearDown_eq hc)))
  · exact yields_of ((exec_tcpRetransmitTimeout hup hopen hconn htcp).trans
      (congrArg (finish s) ((State.closeConn_ctrl hconn hctrl).trans (State.tearDown_eq hc))))
  · refine completes_finish ((exec_roceQpFailure hup hopen hconn hrdma).trans (congrArg (finish s) (State.closeConn_only hconn hctrl))) ?_
    exact ⟨rfl, rfl, rfl⟩
  · exact completes_finish (exec_nssrWrite hok hthere) ⟨rfl, rfl⟩
  · obtain ⟨queues, hentry⟩ := s.ctrl?_admEntry_queues a hc
    subst hu
    exact yields_of ((exec_ccEnClear hok hc hon).trans (congrArg (finish s) (State.disable_eq (congrArg (Option.map _) hentry))))

end Sys2Proof.Machine
end

section
/-! SUPPORT. Connect, the connections of NVMe/TCP, TLS and RDMA, and the data of a store (R50, R59, R60, R62, R63, R223, R224). -/

namespace Sys2Proof.Machine

/-! ## Connect (R50 to R55) -/

theorem exec_connect {c : ConnectReq} {k : Conn} {id : Nat} {s : State} (hlistens : s.listens = true) (hopen : s.bt.paused = false)
    (hconn : s.fe.conn? c.conn = some k) (hready : k.ready = true) (hfree : k.ctrl = none) (hcheck : s.connectCheck c = .ok id) :
    exec (.connect c) s = finish s (s.doConnect c id) := by
  change execConnect c s = _
  simp [execConnect, hlistens, hconn, hready, hfree, State.inWindow_open hopen, hcheck]

theorem State.doConnect_admin {c : ConnectReq} (h : c.qid = 0) (s : State) (id : Nat) :
    s.doConnect c id = ((s.modConn c.conn fun k => { k with ctrl := some (id, 0) }).modFe fun f => { f with
      ctrls := f.ctrls ++ [{ cntlid := id, host := c.host, discovery := c.subsys == discoveryNqn, kato := katoInForce c.kato, kaStart := s.mono,
                             queues := [{ qid := 0, size := c.size, conn := c.conn, fetched := 1 }] }] }).emit
        (.connectRsp c.conn c.cid .success id) := by
  simp only [State.doConnect, h, if_true]
  rfl

theorem State.doConnect_io {c : ConnectReq} (h : c.qid ≠ 0) (s : State) (id : Nat) :
    s.doConnect c id = (((s.modConn c.conn fun k => { k with ctrl := some (id, c.qid) }).modCtrl id fun x =>
      { x with queues := x.queues ++ [{ qid := c.qid, size := c.size, conn := c.conn, fetched := 1 }] }).takeCarriers c.host id c.qid).emit
        (.connectRsp c.conn c.cid .success id) := by
  simp only [State.doConnect, if_neg h]

/-! ## NVMe/TCP connections and data (R59, R60, R62) -/

/-- The connection that an ICReq without TLS makes. -/
def plainConn (r : IcReq) (id port mtu : Nat) : Conn :=
  { id := id, port := port, rdma := false, ready := true, addr := r.addr, hdgst := r.hdgst, ddgst := r.ddgst, maxr2t := r.maxr2t,
    tcpPort := r.tcpPort, mss := r.mss, v6 := r.v6, options := r.options, mtu := mtu, peer := r.peer, peerPort := r.peerPort,
    wscale := r.wscale, sack := r.sack }

theorem State.listens_up {s : State} (h : s.listens = true) : up s = true := by
  simp only [State.listens, State.managed, Bool.and_eq_true, Bool.or_eq_true] at h
  simp only [up, State.alive]
  obtain ⟨h | h, -⟩ := h <;> simp [h]

theorem State.icReq_plain {conn port : Nat} {r : IcReq} {s : State} (hlistens : s.listens = true) (hservice : s.service port 0 = true)
    (hplain : s.service port 1 = false) (hnew : s.fe.conn? conn = none) (hpfv : r.pfv = 0) (hport : r.tcpPort = 4420 ∨ r.tcpPort = 8009) :
    s.icReq conn port r = (s.modFe fun f => { f with conns := (f.conns.filter (·.id ≠ conn)) ++ [plainConn r conn port (s.port port).cfg.mtu] }).emit
      (.icResp conn 0 131072) := by
  have htcp : (r.tcpPort == 4420 || r.tcpPort == 8009) = true := by simpa using hport
  simp [State.icReq, hlistens, State.takesTcp, hservice, hplain, hnew, hpfv, htcp, plainConn]

theorem State.streamData_fl (s : State) (c : Cmd) (d : Bytes) : (s.streamData c d).fl = s.fl := by
  unfold State.streamData State.whenB
  split <;> rfl

/-- Data that do not make a store whole are kept with its command. -/
theorem State.takeData_part {s : State} {c : Cmd} {d : Bytes} (h : c.got.length + d.length < c.e.cdw10.toNat) (conn : Nat) :
    ∃ keyGen, (s.takeData c conn d).fl = (s.modCmd c.fetch fun _ => { c with got := c.got ++ d, keyGen := keyGen }).fl := by
  refine ⟨if c.got.isEmpty then s.currentGen c.e.nsid else c.keyGen, ?_⟩
  have hwhole : (c.got ++ d).take c.e.cdw10.toNat = c.got ++ d := List.take_of_length_le (by simp; omega)
  unfold State.takeData
  extract_lets size c' streamed most asked sent
  have hgot : c'.got = c.got ++ d := hwhole
  have hless : ¬ size ≤ c'.got.length := by
    rw [hgot, List.length_append]
    exact Nat.not_le.mpr h
  have hsent : sent.fl = streamed.fl := by
    unfold sent
    split <;> rfl
  simp only [hless, decide_false, Bool.false_and, Bool.false_eq_true, if_false, hsent, streamed, State.streamData_fl]
  rw [← hgot]

/-- A store whose data are still to come keeps what has come. -/
theorem completes_takeData {i : Instr} {conn : Nat} {data : Bytes} {c : Cmd} {s : State} (hexec : exec i s = finish s (s.takeData c conn data))
    (hpart : c.got.length + data.length < c.e.cdw10.toNat) (hc : c ∈ s.fl.cmds) :
    Completes i s fun t => ∃ x ∈ t.fl.cmds, x.fetch = c.fetch ∧ x.got = c.got ++ data := by
  obtain ⟨keyGen, hfl⟩ := State.takeData_part (s := s) hpart conn
  refine completes_finish hexec ⟨{ c with got := c.got ++ data, keyGen := keyGen }, ?_, rfl, rfl⟩
  rw [State.after_fl, hfl]
  exact List.mem_map.mpr ⟨c, hc, by simp⟩

theorem exec_h2cData {conn cid offset : Nat} {data : Bytes} {c : Cmd} {s : State} (hup : up s = true) (hconn : (s.fe.conn? conn).isSome = true)
    (hawaits : s.awaiting conn cid = some c) (hlen : data.length ≤ 131072) (hoffset : offset = c.got.length)
    (hpart : c.got.length + data.length < c.e.cdw10.toNat) :
    exec (.h2cData conn cid true offset data) s = finish s (s.takeData c conn data) := by
  have hthere : (s.fe.conn? conn).isNone = false := by simpa [Option.isSome_iff_ne_none] using hconn
  change execH2cData conn cid true offset data s = _
  simp [execH2cData, whileUp_up hup, hthere, Nat.not_lt.mpr hlen, hawaits, hoffset, Nat.le_of_lt hpart]

/-! ## TLS connections (R62, R223, R224) -/

theorem State.handshake_done {conn port : Nat} {h : ClientHello} {p : Psk} {s : State} (hkek : s.ky.kekPresent = true)
    (hoffer : (h.tls13 && h.aes256Sha384 && h.pskDheSecp384 && !h.earlyData) = true)
    (hpsk : s.ky.psks.find? (fun p => p.host == h.host && p.identity == h.identity) = some p)
    (hbinder : h.binder = pskBinder (p.tls s.ky.kek) h.truncated) :
    s.handshake conn port h = (s.spend.spend.modFe fun f => { f with
      handshakes := f.handshakes + 1
      conns := f.conns.filter (·.id ≠ conn) ++ [s.tlsConn conn port h (p.tls s.ky.kek)] }).emit (.tls conn "Finished") := by
  simp only [Bool.and_eq_true] at hoffer
  obtain ⟨⟨⟨htls, haes⟩, hdhe⟩, hearly⟩ := hoffer
  simp [State.handshake, hkek, htls, haes, hdhe, hearly, hpsk, hbinder]

theorem exec_clientHello {conn port : Nat} {h : ClientHello} {s : State} (hlistens : s.listens = true) (hservice : s.service port 0 = true)
    (hnew : s.fe.conn? conn = none) (hnone : s.fe.hellos = []) (hrate : s.fe.handshakes < 4000) :
    exec (.clientHello conn port h) s = finish s (s.handshake conn port h) := by
  change execClientHello conn port h s = _
  simp [execClientHello, hlistens, State.takesTcp, hservice, hnew, hnone, hrate]

theorem Front.conn?_filter (f : Front) (conn : Nat) (hellos : List (Nat × Nat × ClientHello)) :
    ({ f with conns := f.conns.filter (·.id ≠ conn), hellos := hellos } : Front).conn? conn = none := by
  simp [Front.conn?]

section
variable {s : State} {conn : Nat} (hup : up s = true) (htls : (s.fe.conn? conn).any (·.tls) = true)
include hup htls

theorem exec_tlsRecord_good {len : Nat} (hlen : len ≤ 16640) : exec (.tlsRecordReceived conn len true) s = finish s s := by
  change execTlsRecordReceived conn len true s = _
  simp [execTlsRecordReceived, whileUp_up hup, htls, Nat.not_lt.mpr hlen]

theorem exec_tlsRecord_bad {len : Nat} (hlen : len ≤ 16640) (hopen : s.bt.paused = false) :
    exec (.tlsRecordReceived conn len false) s = finish s ((s.emit (.tlsAlert conn "bad_record_mac")).closeConn conn) := by
  change execTlsRecordReceived conn len false s = _
  have hstill : (s.emit (.tlsAlert conn "bad_record_mac")).bt.paused = false := hopen
  simp [execTlsRecordReceived, whileUp_up hup, htls, Nat.not_lt.mpr hlen, State.closeLater, State.inWindow_open hstill]

theorem exec_keyUpdateReceived : exec (.keyUpdateReceived conn false) s
    = finish s (s.modConn conn fun k => { k with rxGen := k.rxGen + 1, rxSecret := nextTraffic k.rxSecret }) := by
  change execKeyUpdateReceived conn false s = _
  simp [execKeyUpdateReceived, whileUp_up hup, htls]

theorem exec_keyUpdateSend :
    exec (.keyUpdateSend conn) s = finish s ((s.modConn conn Conn.update).emit (.tls conn "KeyUpdate update_requested")) := by
  change execKeyUpdateSend conn s = _
  simp [execKeyUpdateSend, whileUp_up hup, htls]

end

theorem exec_rdmaConnect {conn port : Nat} {r : CmRequest} {s : State} (hserves : s.serving = true) (hlistening : s.fe.listening = true)
    (hport : r.port = 4420) (hservice : s.service port 2 = true) (hnew : s.fe.conn? conn = none) :
    exec (.rdmaConnect conn port r) s = finish s (s.modFe fun f => { f with
      conns := f.conns ++ [{ id := conn, port := port, rdma := true, ready := true, addr := r.addr, peer := r.peer, mtu := (s.port port).cfg.mtu }] }) := by
  change execRdmaConnect conn port r s = _
  simp [execRdmaConnect, hserves, hlistening, hport, hservice, hnew]

/-- Settles O1: each command meets its conditions and makes the change to the connections and controllers that it names. -/
theorem connectionCommandsComplete : Obligations.Connection_commands_complete := by
  refine ⟨fun c k id s hlistens hopen hconn hready hfree hcheck hqid => ?_, fun c k id s hlistens hopen hconn hready hfree hcheck hqid => ?_,
    fun conn port r s hlistens hservice hplain hnew hpfv hport => ?_,
    fun conn cid offset data c s hup hconn hawaits hlen hoffset hpart _ hc => ?_,
    fun conn port hello p s hlistens hservice hnew hnone hrate hkek hoffer hpsk hbinder => ?_,
    fun conn len k s hup hconn htls hctrl hlen hopen => ?_, fun conn len s hup htls hlen => ?_, fun conn s hup htls => ?_,
    fun conn s hup htls => ?_, fun conn port r s hserves hlistening hport hservice hnew => ?_⟩
  · refine completes_finish ((exec_connect hlistens hopen hconn hready hfree hcheck).trans (congrArg (finish s) (s.doConnect_admin hqid id))) ?_
    exact ⟨rfl, rfl, rfl⟩
  · refine completes_finish ((exec_connect hlistens hopen hconn hready hfree hcheck).trans (congrArg (finish s) (s.doConnect_io hqid id))) ?_
    exact ⟨rfl, rfl⟩
  · refine completes_up rfl (State.listens_up hlistens) ?_
    rw [State.icReq_plain hlistens hservice hplain hnew hpfv hport]
    exact ⟨rfl, rfl⟩
  · exact completes_takeData (exec_h2cData hup hconn hawaits hlen hoffset hpart) hpart hc
  · refine completes_finish ((exec_clientHello hlistens hservice hnew hnone hrate).trans
      (congrArg (finish s) (State.handshake_done hkek hoffer hpsk hbinder))) ?_
    exact ⟨rfl, rfl, _, List.mem_append_right _ (List.mem_singleton.mpr rfl), rfl, rfl, rfl, rfl⟩
  · have hany : (s.fe.conn? conn).any (·.tls) = true := by simp [hconn, htls]
    have hstill : (s.emit (.tlsAlert conn "bad_record_mac")).fe.conn? conn = some k := hconn
    refine completes_finish ((exec_tlsRecord_bad hup hany hlen hopen).trans (congrArg (finish s) (State.closeConn_only hstill hctrl))) ?_
    exact ⟨List.append_assoc s.out _ _, Front.conn?_filter s.fe conn (s.fe.hellos.filter (·.1 ≠ conn))⟩
  · exact completes_finish (exec_tlsRecord_good hup htls hlen) (State.after_self s)
  · refine completes_finish (exec_keyUpdateReceived hup htls) ?_
    exact ⟨rfl, (List.append_nil s.out).symm⟩
  · exact completes_finish (exec_keyUpdateSend hup htls) ⟨rfl, rfl⟩
  · exact completes_finish (exec_rdmaConnect hserves hlistening hport hservice hnew) ⟨rfl, (List.append_nil s.out).symm⟩

end Sys2Proof.Machine
end

section
/-! SUPPORT. Namespaces that come, go, and are attached and detached (R64, R66, R67, R221, R263, R264, R543). -/

namespace Sys2Proof.Machine

/-! ## What the entry of an admin command leaves of the namespaces -/

section
variable (s : State) (a : Adm)

@[simp] theorem State.admEntry_va : (s.admEntry a).1.va = s.va := by
  obtain ⟨_, h⟩ := s.admEntry_eq a
  rw [h]
@[simp] theorem State.admEntry_fl : (s.admEntry a).1.fl = s.fl := by
  obtain ⟨_, h⟩ := s.admEntry_eq a
  rw [h]
@[simp] theorem State.admEntry_ky : (s.admEntry a).1.ky = s.ky := by
  obtain ⟨_, h⟩ := s.admEntry_eq a
  rw [h]
@[simp] theorem State.admEntry_lifecycle : (s.admEntry a).1.lifecycle = s.lifecycle := by
  obtain ⟨_, h⟩ := s.admEntry_eq a
  rw [h]
  rfl
@[simp] theorem State.admEntry_nsMode : (s.admEntry a).1.nsMode = s.nsMode := by
  obtain ⟨_, h⟩ := s.admEntry_eq a
  rw [h]
  rfl
@[simp] theorem State.admEntry_nsLeads : (s.admEntry a).1.nsLeads = s.nsLeads := by
  obtain ⟨_, h⟩ := s.admEntry_eq a
  rw [h]
  rfl
@[simp] theorem State.admEntry_nsOf (nsid : Nat) : (s.admEntry a).1.nsOf nsid = s.nsOf nsid := by
  obtain ⟨_, h⟩ := s.admEntry_eq a
  rw [h]
  rfl
@[simp] theorem State.admEntry_freeNsid : (s.admEntry a).1.freeNsid = s.freeNsid := by
  obtain ⟨_, h⟩ := s.admEntry_eq a
  rw [h]
  rfl
@[simp] theorem State.admEntry_ledgerBound (nsid : Nat) : (s.admEntry a).1.ledgerBound nsid = s.ledgerBound nsid := by
  obtain ⟨_, h⟩ := s.admEntry_eq a
  rw [h]
  rfl
@[simp] theorem State.admEntry_ioCtrls (ids : List Nat) : (s.admEntry a).1.ioCtrls ids = s.ioCtrls ids := by
  have hany (i : Nat) : ((s.admEntry a).1.fe.ctrl? i).any (fun c => !c.discovery) = (s.fe.ctrl? i).any fun c => !c.discovery := by
    unfold State.admEntry
    split
    · rfl
    · rw [State.fetch_eq, Front.ctrl?_fetch]
      cases s.fe.ctrl? i with
      | none => rfl
      | some c =>
        simp only [Option.map_some, Option.any_some, Ctrl.oneFetched]
        split <;> rfl
  simp only [State.ioCtrls, hany]

end

/-! ## A sweep of erased keys leaves the namespaces, the controllers, the twin and what is put out -/

/-- The namespaces, what is put out, the controllers and the twin. -/
def State.outlook (s : State) : List Ns × List Out × List Ctrl × Twin := (s.va.ns, s.out, s.fe.ctrls, s.tw)

theorem State.Tended.outlook {s t : State} (h : s.Tended t) : t.outlook = s.outlook := by
  obtain ⟨_, _, _, -, rfl⟩ := h
  rfl

section
variable (s : State)

theorem State.outlook_foldl {α : Type} {f : State → α → State} (h : ∀ s a, (f s a).outlook = s.outlook) (l : List α) (s : State) :
    (l.foldl f s).outlook = s.outlook := by
  induction l generalizing s with
  | nil => rfl
  | cons a l ih => exact (ih _).trans (h s a)

theorem State.outlook_endCheckpoint : s.endCheckpoint.outlook = s.outlook := by
  unfold State.endCheckpoint
  split
  · split
    · rfl
    · exact (State.tended_settleVictims _).outlook
  · rfl

theorem State.outlook_closeBand (b : Band) : (s.closeBand b).outlook = s.outlook :=
  (State.outlook_endCheckpoint _).trans ((State.tended_retryInternal _).outlook.trans (State.tended_settleVictims _).outlook)

theorem State.outlook_dropRecord (loc : Loc) (bytes : Nat) : (s.dropRecord loc bytes).outlook = s.outlook := by
  cases loc with
  | wax g => rfl
  | nand g => exact (State.outlook_foldl State.outlook_closeBand _ _).trans (State.tended_settleVictims _).outlook

theorem State.outlook_sweepErased (nsid : Nat) : (s.sweepErased nsid).outlook = s.outlook := by
  unfold State.sweepErased
  refine (State.outlook_foldl (fun s p => ?_) _ s : _ = s.outlook)
  obtain ⟨l, r⟩ := p
  dsimp only
  split
  · exact (State.outlook_dropRecord _ _ _).trans (s.tended_index _).outlook
  · rfl

end

/-- A new namespace stands behind the others, with a current key of generation 1; it puts nothing out. -/
theorem State.createNs_facts (s : State) (i : Nat) (t : NsType) (m : SealMode) (level : Option Level) :
    (s.createNs i t m level).outlook = (s.va.ns ++ [{ nsid := i, type := t, mode := m, level := level }], s.out, s.fe.ctrls, s.tw)
      ∧ (s.createNs i t m level).ky.recs.any (fun r => r.nsid == i && r.gen == 1) = true := by
  generalize hu : s.whenB (s.ky.sweeping i) (fun s => s.sweepErased i) = u
  have hswept : u.outlook = s.outlook := by
    rw [← hu, State.whenB]
    split
    · exact s.outlook_sweepErased i
    · rfl
  simp only [State.outlook, Prod.mk.injEq] at hswept
  obtain ⟨hns, hout, hctrls, htw⟩ := hswept
  rw [State.createNs, hu, ← hns, ← hout, ← hctrls, ← htw]
  refine ⟨rfl, ?_⟩
  simp [State.newKey, Keys.hold, Keys.record, KeyRec.wrap]

/-! ## Namespace creation (R67, R263, R264) -/

theorem State.nsMode_congr {s t : State} (h : t.tw = s.tw) : t.nsMode = s.nsMode := by
  unfold State.nsMode State.twinGone
  rw [h]

theorem State.nsLeads_congr {s t : State} (h : t.tw = s.tw) : t.nsLeads = s.nsLeads := by
  simp only [State.nsLeads, State.nsMode_congr h, h]

/-- The Primary of a pair whose drives reach each other leads it. -/
theorem State.nsLeads_of_primary {s : State} (h : s.nsMode = .both → s.tw.role = .primary) : s.nsLeads = (s.nsMode == .both) := by
  by_cases hboth : s.nsMode = .both
  · simp [State.nsLeads, hboth, h hboth]
  · simp [State.nsLeads, beq_eq_false_iff_ne.mpr hboth]

section
variable {s : State} {a : Adm} {nsType mode : Nat} {ty : NsType} {m : SealMode} (htype : nsTypeOf nsType = some ty)
  (hmode : sealModeOf ty mode = some m) (hsealed : s.lifecycle = .isSealed) (hcurtain : s.fl.curtain = false)
  (hfew : s.va.ns.length < 1024)
include htype hmode hsealed hcurtain hfew

theorem State.nsCreate_here {i : Nat} (hhere : s.nsMode ≠ .refused) (hfree : s.freeNsid = some i)
    (hlead : s.nsMode = .both → s.tw.role = .primary) :
    s.nsCreate a nsType mode 0 0 = if s.nsMode = .both then ((s.createNs i ty m none).emit (.twinNs true i nsType mode false)).nsJob a i true nsType mode
      else (s.createNs i ty m none).needFull.admDone a .success i := by
  obtain ⟨houtlook, -⟩ := s.createNs_facts i ty m none
  have htw : (s.createNs i ty m none).tw = s.tw := congrArg (·.2.2.2) houtlook
  have hleads := State.nsLeads_of_primary hlead
  simp [State.nsCreate, htype, hmode, hsealed, hcurtain, hhere, Nat.not_le.mpr hfew, hfree, State.nsLeads_congr htw, hleads]

theorem State.nsCreate_asks (hboth : s.nsMode = .both) (hother : s.tw.role ≠ .primary) :
    s.nsCreate a nsType mode 0 0 = (s.emit (.twinNsAsk true 0 nsType mode)).nsJob a 0 true nsType mode := by
  have hfollows : s.nsLeads = false := by simp [State.nsLeads, hother]
  simp [State.nsCreate, htype, hmode, hsealed, hcurtain, hboth, hfollows, Nat.not_le.mpr hfew]

end

/-- Asking for a full resynchronisation changes the twin alone. -/
theorem State.needFull_eq (s : State) : ∃ tw, s.needFull = { s with tw := tw } := by
  unfold State.needFull State.whenB
  split
  · exact ⟨_, rfl⟩
  · exact ⟨s.tw, rfl⟩

theorem completes_namespaceCreate {a : Adm} {nsType mode i : Nat} {ty : NsType} {m : SealMode} {s : State} (hok : adminOk a s = true)
    (htype : nsTypeOf nsType = some ty) (hmode : sealModeOf ty mode = some m) (hsealed : s.lifecycle = .isSealed)
    (hcurtain : s.fl.curtain = false) (hhere : s.nsMode ≠ .refused) (hfew : s.va.ns.length < 1024) (hfree : s.freeNsid = some i)
    (hlead : s.nsMode = .both → s.tw.role = .primary) :
    Completes (.namespaceCreate a nsType mode 0 0) s fun t =>
      t.va.ns = s.va.ns ++ [{ nsid := i, type := ty, mode := m }] ∧ t.ky.recs.any (fun r => r.nsid == i && r.gen == 1) = true
        ∧ Emits s t (if s.nsMode = .both then [.twinNs true i nsType mode false] else [adminEntry t a i]) := by
  refine completes_admin rfl hok ?_
  have hqueue := adminOk_entry hok
  have htw : (s.admEntry a).1.tw = s.tw := by
    obtain ⟨_, h⟩ := s.admEntry_eq a
    rw [h]
  rw [State.nsCreate_here htype hmode (by simpa using hsealed) (by simpa using hcurtain) (by simpa using hfew) (by simpa using hhere)
    (by simpa using hfree) (by simpa [htw] using hlead), State.admEntry_nsMode]
  obtain ⟨houtlook, hkey⟩ := (s.admEntry a).1.createNs_facts i ty m none
  generalize (s.admEntry a).1.createNs i ty m none = u at houtlook hkey
  simp only [State.outlook, Prod.mk.injEq, State.admEntry_va, State.admEntry_out] at houtlook
  obtain ⟨hns, hout, hctrls, -⟩ := houtlook
  split
  next hboth => exact ⟨hns, hkey, congrArg (· ++ _) hout⟩
  next hboth =>
    obtain ⟨tw, hfull⟩ := u.needFull_eq
    rw [hfull]
    exact ⟨hns, hkey, State.emits_admDone (u := { u with tw := tw }) ((Front.hasQueue_congr hctrls _ _).trans hqueue) hout .success i⟩

theorem completes_namespaceCreate_asks {a : Adm} {nsType mode : Nat} {ty : NsType} {m : SealMode} {s : State} (hok : adminOk a s = true)
    (htype : nsTypeOf nsType = some ty) (hmode : sealModeOf ty mode = some m) (hsealed : s.lifecycle = .isSealed)
    (hcurtain : s.fl.curtain = false) (hboth : s.nsMode = .both) (hother : s.tw.role ≠ .primary) (hfew : s.va.ns.length < 1024) :
    Completes (.namespaceCreate a nsType mode 0 0) s fun t =>
      t.va.ns = s.va.ns ∧ t.fe.jobs.any (fun j => j.ctrl == a.ctrl && j.cid == a.cid) = true ∧ Emits s t [.twinNsAsk true 0 nsType mode] := by
  refine completes_admin rfl hok ?_
  have htw : (s.admEntry a).1.tw = s.tw := by
    obtain ⟨_, h⟩ := s.admEntry_eq a
    rw [h]
  rw [State.nsCreate_asks htype hmode (by simpa using hsealed) (by simpa using hcurtain) (by simpa using hfew) (by simpa using hboth)
    (by simpa [htw] using hother)]
  refine ⟨congrArg (·.ns) (s.admEntry_va a), ?_, congrArg (· ++ _) (s.admEntry_out a)⟩
  simp [State.nsJob]

/-! ## Namespace deletion (R221, R253, R294, R304, R543) -/

/-- The namespaces with their holds, and the keys. -/
def State.tenancy (s : State) : Vault × Keys := (s.va, s.ky)

section
variable (s : State)

theorem State.tenancy_foldl {α : Type} {f : State → α → State} (h : ∀ s a, (f s a).tenancy = s.tenancy) (l : List α) (s : State) :
    (l.foldl f s).tenancy = s.tenancy := by
  induction l generalizing s with
  | nil => rfl
  | cons a l ih => exact (ih _).trans (h s a)

theorem State.tenancy_endTestIf (which : SelfTest → Bool) (result : Nat) : (s.endTestIf which result).tenancy = s.tenancy := by
  unfold State.endTestIf State.endTest
  split
  · split <;> rfl
  · rfl

theorem State.tenancy_abandonFills (p : Fill → Bool) : (s.abandonFills p).tenancy = s.tenancy := by
  refine State.tenancy_foldl (fun s f => ?_) _ s
  split <;> rfl

theorem State.tenancy_secdelErased (nsid : Nat) : (s.secdelErased nsid).tenancy = s.tenancy := by
  refine State.tenancy_foldl (fun s j => ?_) _ s
  unfold State.secdelDone
  dsimp only
  split <;> rfl

theorem State.tenancy_camForget (nsid : Nat) : (s.camForget nsid).tenancy = s.tenancy := by
  unfold State.camForget State.whenB
  extract_lets es gl blanked changed
  have hblanked : blanked.tenancy = s.tenancy := by
    refine State.tenancy_foldl (fun s a => ?_) _ s
    rfl
  split
  · exact hblanked
  · exact hblanked

theorem State.tenancy_modOg (f : Origin → Origin) : (s.modOg f).tenancy = s.tenancy := rfl

/-- Erasing the keys of a namespace leaves none of them active. -/
theorem State.eraseKeys_facts (nsid : Nat) :
    (s.eraseKeys nsid).va = s.va ∧ (s.eraseKeys nsid).ky.recs.all (fun r => r.nsid != nsid || r.state != 1) = true := by
  unfold State.eraseKeys
  extract_lets bytes trimmed erased
  have htenancy := erased.tenancy_secdelErased nsid
  simp only [State.tenancy, Prod.mk.injEq] at htenancy
  obtain ⟨hva, hky⟩ := htenancy
  refine ⟨hva, ?_⟩
  rw [hky, List.all_eq_true]
  intro r hr
  obtain ⟨x, -, rfl⟩ := List.mem_map.mp hr
  by_cases hx : x.nsid = nsid
  · simp [hx]
  · simp [hx]

/-- A namespace that goes leaves the list, and no active key of it stays. -/
theorem State.deleteNs_facts (n : Ns) :
    (s.deleteNs n).va.ns = (s.failUncommitted n.nsid).va.ns.filter (·.nsid ≠ n.nsid)
      ∧ (s.deleteNs n).ky.recs.all (fun r => r.nsid != n.nsid || r.state != 1) = true := by
  unfold State.deleteNs
  extract_lets ended abandoned forgotten unbound
  have hbefore : abandoned.tenancy = (s.failUncommitted n.nsid).tenancy :=
    (ended.tenancy_abandonFills _).trans ((s.failUncommitted n.nsid).tenancy_endTestIf _ _)
  obtain ⟨hva, hkeys⟩ := abandoned.eraseKeys_facts n.nsid
  have hafter : unbound.tenancy = (abandoned.eraseKeys n.nsid).tenancy :=
    (forgotten.tenancy_modOg _).trans ((abandoned.eraseKeys n.nsid).tenancy_camForget n.nsid)
  simp only [State.tenancy, Prod.mk.injEq] at hbefore hafter
  obtain ⟨hva₀, -⟩ := hbefore
  obtain ⟨hva₁, hky₁⟩ := hafter
  have hns : unbound.va = (s.failUncommitted n.nsid).va := hva₁.trans (hva.trans hva₀)
  rw [← hky₁] at hkeys
  rw [← hns]
  clear_value unbound
  exact ⟨rfl, hkeys⟩

end

theorem completes_namespaceDelete {a : Adm} {n : Ns} {s : State} (hok : adminOk a s = true) (hcurtain : s.fl.curtain = false)
    (hns : s.nsOf a.nsid = some n) (hunbound : (n.type == .ledger && s.ledgerBound n.nsid) = false) (hhere : s.nsMode ≠ .refused)
    (hidle : s.ky.sweeping n.nsid = false) (hlead : s.nsMode = .both → s.tw.role = .primary) :
    Completes (.namespaceDelete a) s fun t =>
      t.va.ns = ((s.admEntry a).1.failUncommitted n.nsid).va.ns.filter (·.nsid ≠ n.nsid)
        ∧ t.ky.recs.all (fun r => r.nsid != n.nsid || r.state != 1) = true := by
  refine completes_admin rfl hok ?_
  have hleads := State.nsLeads_of_primary hlead
  have hdeletes : (s.admEntry a).1.nsDelete a = if ((s.admEntry a).1.deleteNs n).nsLeads
      then (((s.admEntry a).1.deleteNs n).emit (.twinNs false n.nsid 0 0 false)).nsJob a n.nsid false 0 0
      else ((s.admEntry a).1.deleteNs n).needFull.admDone a .success := by
    simp [State.nsDelete, hcurtain, hns, hunbound, hhere, hidle, hleads]
  obtain ⟨hgone, hkeys⟩ := (s.admEntry a).1.deleteNs_facts n
  rw [hdeletes]
  generalize (s.admEntry a).1.deleteNs n = u at hgone hkeys ⊢
  split
  · exact ⟨hgone, hkeys⟩
  · obtain ⟨tw, hfull⟩ := u.needFull_eq
    rw [hfull]
    exact ⟨hgone, hkeys⟩

/-! ## Attaching and detaching (R64, R66) -/

theorem Ctrl.notify_keeps (c : Ctrl) (k : EventKind) :
    (c.notify k).1.cntlid = c.cntlid ∧ (c.notify k).1.enabled = c.enabled ∧ (c.notify k).1.queues = c.queues := by
  unfold Ctrl.notify
  dsimp only
  split
  · exact ⟨rfl, rfl, rfl⟩
  · split <;> split <;> exact ⟨rfl, rfl, rfl⟩

/-- A notice leaves the queues of every controller. -/
theorem State.hasQueue_notify (s : State) (k : EventKind) (who : Ctrl → Bool) (i j : Nat) :
    (s.notify k who).fe.hasQueue i j = s.fe.hasQueue i j := by
  simp only [Front.hasQueue, State.notify, List.any_map]
  congr 1
  funext c
  obtain ⟨hid, hon, hqueues⟩ := c.notify_keeps k
  simp only [Function.comp]
  split
  · rw [hid, hon, hqueues]
  · rfl

/-- What is put out at the end of a list is sent among others. -/
theorem sends_append {s t : State} {o : Out} {l : List Out} (h : t.out = s.out ++ l) (ho : o ∈ l) : Sends s t o := by
  rw [Sends, h]
  exact ⟨by simp, by simpa using ho⟩

/-- A change of a namespace with a notice of it, and then the completion. -/
theorem completes_nsChange {i : Instr} {a : Adm} {nsid : Nat} {ids : List Nat} {f : Ns → Ns} {s : State} (hok : adminOk a s = true)
    (hexec : exec i s = finish s ((((s.admEntry a).1.modNs nsid f).nsNotice ids).admDone a .success)) :
    Completes i s fun t => t.va.ns = s.va.ns.map (fun x => if x.nsid == nsid then f x else x) ∧ Sends s t (adminEntry t a) := by
  refine completes_finish hexec ⟨?_, ?_⟩
  · exact congrArg (fun v : Vault => v.ns.map fun x => if x.nsid == nsid then f x else x) (s.admEntry_va a)
  · have hqueue : (((s.admEntry a).1.modNs nsid f).nsNotice ids).fe.hasQueue a.ctrl 0 = true :=
      (State.hasQueue_notify _ _ _ _ _).trans (adminOk_entry hok)
    obtain ⟨l, hl⟩ : ∃ l, (((s.admEntry a).1.modNs nsid f).nsNotice ids).out = (s.admEntry a).1.out ++ l := ⟨_, rfl⟩
    refine sends_append (l := l ++ [adminCqe (((s.admEntry a).1.modNs nsid f).nsNotice ids) a .success false]) ?_ ?_
    · rw [State.after_out, State.admDone_out hqueue, hl, State.admEntry_out, List.append_assoc]
      rfl
    · rw [adminEntry, adminCqe_after, State.admDone, adminCqe_post]
      exact List.mem_append_right _ (List.mem_singleton.mpr rfl)

theorem exec_namespaceAttach {a : Adm} {ids : List Nat} {n : Ns} {s : State} (hok : adminOk a s = true) (hns : s.nsOf a.nsid = some n)
    (hids : s.ioCtrls ids = true) (hnew : ids.all (· ∉ n.attached) = true) :
    exec (.namespaceAttach a ids) s = finish s ((((s.admEntry a).1.modNs n.nsid fun x =>
      { x with attached := x.attached ++ ids }).nsNotice ids).admDone a .success) := by
  have hnone : ids.any (· ∈ n.attached) = false := by simpa using hnew
  change execNamespaceAttach a ids s = _
  rw [execNamespaceAttach, admin_ok hok, State.nsAttach, State.admEntry_nsOf, hns]
  simp only [State.admEntry_ioCtrls, hids, hnone, Bool.not_true, Bool.false_eq_true, if_false]

theorem exec_namespaceDetach {a : Adm} {ids : List Nat} {n : Ns} {s : State} (hok : adminOk a s = true) (hns : s.nsOf a.nsid = some n)
    (hids : s.ioCtrls ids = true) (hold : ids.all (· ∈ n.attached) = true) :
    exec (.namespaceDetach a ids) s = finish s ((((s.admEntry a).1.modNs n.nsid fun x =>
      { x with attached := x.attached.filter (· ∉ ids) }).nsNotice ids).admDone a .success) := by
  change execNamespaceDetach a ids s = _
  rw [execNamespaceDetach, admin_ok hok, State.nsDetach, State.admEntry_nsOf, hns]
  simp only [State.admEntry_ioCtrls, hids, hold, Bool.not_true, Bool.false_eq_true, if_false]

end Sys2Proof.Machine
end

section
/-! SUPPORT. Firmware download and commit, and activation without reset (R110, R435, R436, R439, R440, R441). -/

namespace Sys2Proof.Machine

/-! ## Download and commit (R434 to R436) -/

section
variable (s : State) (a : Adm)

@[simp] theorem State.admEntry_paired : (s.admEntry a).1.paired = s.paired := by
  obtain ⟨_, h⟩ := s.admEntry_eq a
  rw [h]
  rfl
@[simp] theorem State.admEntry_sanitizing : (s.admEntry a).1.sanitizing = s.sanitizing := by
  obtain ⟨_, h⟩ := s.admEntry_eq a
  rw [h]
  rfl

end

/-- A commit names one of the two image slots. -/
theorem Boot.slotIndex_le {b : Boot} {slot i : Nat} (h : b.slotIndex slot = some i) : i ≤ 1 := by
  unfold Boot.slotIndex at h
  split at h
  · split at h
    · exact Nat.le_of_eq (Option.some.inj h).symm
    · cases h
  split at h
  · obtain rfl := Option.some.inj h
    split <;> omega
  split at h
  · obtain rfl := Option.some.inj h
    omega
  · cases h

/-- The slot an image is written to holds it. -/
theorem Boot.slotImage_writeSlotImage {i : Nat} (h : i ≤ 1) (b : Boot) (g : FwImage) : (b.writeSlotImage i g).slotImage i = some g := by
  rcases Nat.le_one_iff_eq_zero_or_eq_one.mp h with rfl | rfl <;> rfl

theorem completes_firmwareImageDownload {a : Adm} {offset : Nat} {data : Bytes} {s : State} (hok : adminOk a s = true)
    (hidle : s.bt.commit = none) (howner : s.bt.bufferOwner = some a.ctrl ∨ (s.bt.bufferOwner = none ∧ offset = 0))
    (hfits : offset + data.length ≤ fwMax) (hoffset : offset % 4096 = 0) (hlen : data.length % 4096 = 0) :
    Completes (.firmwareImageDownload a offset data) s fun t =>
      t.bt.bufferOwner = some a.ctrl ∧ t.bt.buffer = setAssoc offset data s.bt.buffer ∧ Emits s t [adminEntry t a] := by
  refine completes_admin rfl hok ?_
  have howns : ¬ (s.bt.bufferOwner.any (· ≠ a.ctrl) ∨ (s.bt.bufferOwner = none ∧ offset ≠ 0)) := by
    rcases howner with h | ⟨h, h0⟩
    · simp [h]
    · simp [h, h0]
  have hpiece : ¬ (fwMax < offset + data.length ∨ offset % 4096 ≠ 0 ∨ data.length % 4096 ≠ 0) := by
    rw [hoffset, hlen]
    omega
  unfold State.download
  simp only [State.admEntry_bt, Boot.committing, hidle, Option.isSome_none, Bool.false_eq_true, if_false]
  rw [if_neg howns, if_neg hpiece]
  refine ⟨rfl, ?_, State.emits_admDone (adminOk_entry hok) (s.admEntry_out a) .success 0⟩
  exact congrArg (fun b : Boot => setAssoc offset data b.buffer) (s.admEntry_bt a)

/-! ### The checks of an image -/

section
variable {s : State} {slot i : Nat} {b : Bytes} (hslot : s.bt.slotIndex slot = some i) (hother : i ≠ s.bt.running)
  (hwhole : s.bt.assembled = some b)
include hslot hother hwhole

theorem State.commitCheck_bad (hbad : fwCheck b = none) (activate : Bool) : s.commitCheck slot activate = .error .invalidFirmwareImage := by
  simp [State.commitCheck, hslot, hother, hwhole, hbad]

variable {g : FwImage} (hgood : fwCheck b = some g)
include hgood

theorem State.commitCheck_below (hbelow : g.svn < s.bt.floor) (activate : Bool) : s.commitCheck slot activate = .error .fwActivationProhibited := by
  simp [State.commitCheck, hslot, hother, hwhole, hgood, hbelow]

variable (hfloor : ¬ g.svn < s.bt.floor)
include hfloor

theorem State.commitCheck_replace : s.commitCheck slot false = .ok (i, g) := by
  simp [State.commitCheck, hslot, hother, hwhole, hgood, hfloor]

variable (halone : s.paired = false) (hwork : s.sanitizing = false)
include halone hwork

theorem State.commitCheck_older (holder : ((s.bt.slotImage s.bt.running).map (·.hoFormat)).getD 0 < g.hoMin) :
    s.commitCheck slot true = .error .fwNeedsConventionalReset := by
  simp [State.commitCheck, hslot, hother, hwhole, hgood, hfloor, halone, hwork, holder]

theorem State.commitCheck_activate (hformat : ¬ ((s.bt.slotImage s.bt.running).map (·.hoFormat)).getD 0 < g.hoMin) :
    s.commitCheck slot true = .ok (i, g) := by
  simp [State.commitCheck, hslot, hother, hwhole, hgood, hfloor, halone, hwork, Nat.not_lt.mp hformat]

end

/-! ### Actions 000b, 001b and 010b -/

/-- A Firmware Commit that a check turns away. -/
theorem State.emits_refusal {s u : State} {a : Adm} (hok : adminOk a s = true) {st : Status} (hu : u = (s.admEntry a).1.admDone a st) :
    Emits s (s.after u) [adminCqe (s.after u) a st (statusDnr st)] := by
  rw [hu]
  exact State.emits_admDone (adminOk_entry hok) (s.admEntry_out a) st 0

theorem State.commitReplace_refused {s : State} {slot : Nat} {st : Status} (hidle : s.bt.commit = none)
    (hcheck : s.commitCheck slot false = .error st) (a : Adm) (trial : Bool) : s.commitReplace a slot trial = s.admDone a st := by
  simp [State.commitReplace, Boot.committing, hidle, hcheck]

/-- The image is written to its slot, and with a trial the boot record names the slot. -/
def Boot.replaced (b : Boot) (i : Nat) (g : FwImage) (trial : Bool) : Boot :=
  if trial then (b.writeSlotImage i g).setRecord b.brActive (some i) else b.writeSlotImage i g

theorem State.commitReplace_written {s : State} {slot i : Nat} {g : FwImage} (hidle : s.bt.commit = none)
    (hcheck : s.commitCheck slot false = .ok (i, g)) (a : Adm) (trial : Bool) :
    s.commitReplace a slot trial = ((s.modBt fun b => b.replaced i g trial).logChanged 5).admDone a .success := by
  simp only [State.commitReplace, Boot.committing, hidle, hcheck]
  rfl

theorem Boot.replaced_facts {i : Nat} (h : i ≤ 1) (b : Boot) (g : FwImage) (trial : Bool) :
    (b.replaced i g trial).slotImage i = some g ∧ (b.replaced i g trial).brTrial = (if trial then some i else b.brTrial)
      ∧ (trial = true → (b.replaced i g trial).brGen = b.brGen + 1) ∧ (b.replaced i g trial).buffer = [] := by
  have hwritten := b.slotImage_writeSlotImage h g
  cases trial with
  | false => exact ⟨hwritten, rfl, by simp, rfl⟩
  | true => exact ⟨hwritten, Boot.brTrial_setRecord _ _ _, fun _ => Boot.brGen_setRecord _ _ _, rfl⟩

/-- What holds of a state whose slot, boot record and buffer are as the commit makes them and that has put its entry out holds at the end of a
replacement that passes. -/
theorem completes_commitReplace {c i' : Instr} {a : Adm} {slot i : Nat} {b : Bytes} {s : State} {o d p : Bool} (trial : Bool)
    {P : FwImage → State → Prop}
    (hP : ∀ g t, t.bt.slotImage i = some g → t.bt.brTrial = (if trial then some i else s.bt.brTrial) →
      (trial = true → t.bt.brGen = s.bt.brGen + 1) → t.bt.buffer = [] → Emits s t [adminEntry t a] → P g t)
    (hexec : exec c s = finish s (s.admin i' a o d p fun u => u.commitReplace a slot trial)) (hok : adminOk a s = true)
    (hidle : s.bt.commit = none) (hslot : s.bt.slotIndex slot = some i) (hother : i ≠ s.bt.running) (hwhole : s.bt.assembled = some b) :
    Completes c s fun t =>
      match fwCheck b with
      | none => Emits s t [adminCqe t a .invalidFirmwareImage (Config.dnrOf .invalidFirmwareImage)]
      | some g =>
        if g.svn < s.bt.floor then Emits s t [adminCqe t a .fwActivationProhibited (Config.dnrOf .fwActivationProhibited)]
        else P g t := by
  refine completes_admin hexec hok ?_
  have hbt := s.admEntry_bt a
  have hidle' : (s.admEntry a).1.bt.commit = none := by rw [hbt, hidle]
  split
  next hbad =>
    have hcheck := State.commitCheck_bad (s := (s.admEntry a).1) (by rwa [hbt]) (by rwa [hbt]) (by rwa [hbt]) hbad false
    exact State.emits_refusal hok (State.commitReplace_refused hidle' hcheck a trial)
  next g hgood =>
    split
    next hbelow =>
      have hcheck := State.commitCheck_below (s := (s.admEntry a).1) (by rwa [hbt]) (by rwa [hbt]) (by rwa [hbt]) hgood (by rwa [hbt]) false
      exact State.emits_refusal hok (State.commitReplace_refused hidle' hcheck a trial)
    next hfloor =>
      have hcheck := State.commitCheck_replace (s := (s.admEntry a).1) (by rwa [hbt]) (by rwa [hbt]) (by rwa [hbt]) hgood (by rwa [hbt])
      rw [State.commitReplace_written hidle' hcheck]
      obtain ⟨hwritten, htrial, hgen, hbuffer⟩ := (s.admEntry a).1.bt.replaced_facts (Boot.slotIndex_le hslot) g trial
      refine hP g _ hwritten (htrial.trans ?_) (fun h => (hgen h).trans ?_) hbuffer
        (State.emits_admDone (adminOk_entry hok) (s.admEntry_out a) .success 0)
      · rw [hbt]
      · rw [hbt]

theorem completes_firmwareCommitSetTrial {a : Adm} {slot i : Nat} {s : State} (hok : adminOk a s = true) (hidle : s.bt.commit = none)
    (hslot : s.bt.slotIndex slot = some i) (hother : i ≠ s.bt.running) (hthere : (s.bt.slotImage i).isSome = true)
    (hpasses : s.bt.passes i = true) :
    Completes (.firmwareCommitSetTrial a slot) s fun t =>
      t.bt.brTrial = some i ∧ t.bt.brGen = s.bt.brGen + 1 ∧ t.bt.buffer = [] ∧ Emits s t [adminEntry t a] := by
  refine completes_admin rfl hok ?_
  have hset : (s.admEntry a).1.commitTrial a slot = (((s.admEntry a).1.modBt fun b =>
      { b.setRecord b.brActive (some i) with buffer := [], bufferOwner := none }).logChanged 5).admDone a .success := by
    simp [State.commitTrial, Boot.committing, hidle, hslot, hother, Option.isNone_iff_eq_none, Option.isSome_iff_ne_none.mp hthere, hpasses]
  rw [hset]
  refine ⟨Boot.brTrial_setRecord _ _ _, ?_, rfl, State.emits_admDone (adminOk_entry hok) (s.admEntry_out a) .success 0⟩
  exact (Boot.brGen_setRecord _ _ _).trans (congrArg (fun b : Boot => b.brGen + 1) (s.admEntry_bt a))

/-! ## Activation without reset (R110, R439 to R441) -/

theorem State.wake_bt (s : State) : s.wake.bt = s.bt := by
  have hsame := s.fixtures_wake
  simp only [State.fixtures, Prod.mk.injEq] at hsame
  obtain ⟨-, hbt, -, -⟩ := hsame
  exact hbt

section
variable {s : State} (hserves : (s.pw.phase == .pilot) = false) (hidle : s.bt.commit = none)
include hserves hidle

theorem State.commitActivate_refused {slot : Nat} {st : Status} (hcheck : s.commitCheck slot true = .error st) (a : Adm) :
    s.commitActivate a slot = s.admDone a st := by
  simp [State.commitActivate, hserves, Boot.committing, hidle, hcheck]

theorem State.commitActivate_begins {slot i : Nat} {g : FwImage} (hcheck : s.commitCheck slot true = .ok (i, g)) (a : Adm) :
    s.commitActivate a slot =
      ((s.wake.modBt fun b => { b.writeSlotImage i g with commit := some (a.ctrl, a.cid, i) }).logChanged 5).notifyAll .fwActivation := by
  simp [State.commitActivate, hserves, Boot.committing, hidle, hcheck]

end

theorem completes_firmwareCommitActivate {a : Adm} {slot i : Nat} {b : Bytes} {s : State} (hok : adminOk a s = true)
    (hidle : s.bt.commit = none) (hslot : s.bt.slotIndex slot = some i) (hother : i ≠ s.bt.running) (hwhole : s.bt.assembled = some b)
    (halone : s.paired = false) :
    Completes (.firmwareCommitActivate a slot) s fun t =>
      match fwCheck b with
      | none => Emits s t [adminCqe t a .invalidFirmwareImage (Config.dnrOf .invalidFirmwareImage)]
      | some g =>
        if g.svn < s.bt.floor then Emits s t [adminCqe t a .fwActivationProhibited (Config.dnrOf .fwActivationProhibited)]
        else if ((s.bt.slotImage s.bt.running).map (·.hoFormat)).getD 0 < g.hoMin then
          Emits s t [adminCqe t a .fwNeedsConventionalReset (Config.dnrOf .fwNeedsConventionalReset)]
        else t.bt.slotImage i = some g ∧ t.bt.commit = some (a.ctrl, a.cid, i) ∧ t.bt.paused = false := by
  obtain ⟨hserves, -, hopen, -, -, -, hwork, -, -, -⟩ := adminOk_facts hok
  refine completes_admin rfl hok ?_
  have hbt := s.admEntry_bt a
  have halone' : (s.admEntry a).1.paired = false := by rwa [State.admEntry_paired]
  have hwork' : (s.admEntry a).1.sanitizing = false := by rwa [State.admEntry_sanitizing]
  have hserves' : ((s.admEntry a).1.pw.phase == .pilot) = false := by
    rw [State.admEntry_pw, hserves]
    rfl
  have hidle' : (s.admEntry a).1.bt.commit = none := by rw [hbt, hidle]
  split
  next hbad =>
    have hcheck := State.commitCheck_bad (s := (s.admEntry a).1) (by rwa [hbt]) (by rwa [hbt]) (by rwa [hbt]) hbad true
    exact State.emits_refusal hok (State.commitActivate_refused hserves' hidle' hcheck a)
  next g hgood =>
    split
    next hbelow =>
      have hcheck := State.commitCheck_below (s := (s.admEntry a).1) (by rwa [hbt]) (by rwa [hbt]) (by rwa [hbt]) hgood (by rwa [hbt]) true
      exact State.emits_refusal hok (State.commitActivate_refused hserves' hidle' hcheck a)
    split
    next hfloor holder =>
      have hcheck := State.commitCheck_older (s := (s.admEntry a).1) (by rwa [hbt]) (by rwa [hbt]) (by rwa [hbt]) hgood (by rwa [hbt])
        halone' hwork' (by rwa [hbt])
      exact State.emits_refusal hok (State.commitActivate_refused hserves' hidle' hcheck a)
    next hfloor hformat =>
      have hcheck := State.commitCheck_activate (s := (s.admEntry a).1) (by rwa [hbt]) (by rwa [hbt]) (by rwa [hbt]) hgood (by rwa [hbt])
        halone' hwork' (by rwa [hbt])
      rw [State.commitActivate_begins hserves' hidle' hcheck]
      refine ⟨Boot.slotImage_writeSlotImage (Boot.slotIndex_le hslot) _ g, rfl, ?_⟩
      exact (congrArg (·.paused) ((State.wake_bt _).trans hbt)).trans hopen

/-- The pause of an activation of a slot (R439). -/
def State.pausedFor (s : State) (i : Nat) : State :=
  { s with
    bt := { s.bt.setRecord s.bt.brActive (some i) with paused := true, oldImage := s.bt.running }
    me := { s.me with wick := suspendAll s.me.wick, taper := suspendAll s.me.taper }.attend
    mb := { s.mb with boxes := s.mb.boxes.map fun (b : Mailbox) => { b with held := !b.queue.isEmpty } }
    stt := { s.stt with running := s.stt.running.map fun (t : SelfTest) => { t with suspended := true } } }

theorem exec_activationPause {c k i : Nat} {s : State} (hserves : s.serving = true) (hopen : s.bt.paused = false)
    (hcommit : s.bt.commit = some (c, k, i)) (hquiet : s.mb.boxes.all (fun b => !b.working) = true) :
    exec .activationPause s = finish s (s.pausedFor i) := by
  have hnone : s.mb.boxes.any Mailbox.working = false := by simpa using hquiet
  change execActivationPause s = _
  simp only [execActivationPause, hcommit, hserves, hopen, hnone]
  rfl

theorem completes_activationPause {c k i : Nat} {s : State} (hserves : s.serving = true) (hopen : s.bt.paused = false)
    (hcommit : s.bt.commit = some (c, k, i)) (hquiet : s.mb.boxes.all (fun b => !b.working) = true) :
    Completes .activationPause s fun t =>
      t.bt.paused = true ∧ t.bt.brTrial = some i ∧ t.bt.oldImage = s.bt.running
        ∧ t.me = { s.me with wick := suspendAll s.me.wick, taper := suspendAll s.me.taper }.attend ∧ t.fl = s.fl ∧ Emits s t [] := by
  exact completes_finish (exec_activationPause hserves hopen hcommit hquiet)
    ⟨rfl, Boot.brTrial_setRecord _ _ _, rfl, rfl, rfl, (List.append_nil s.out).symm⟩

/-! ### The resume -/

theorem State.feedListings_none {s : State} (h : s.fl.cmds = []) : s.feedListings = s := by simp [State.feedListings, h]

theorem State.retryAll_none {s : State} (h : s.fl.cmds = []) (p : CmdPhase) : s.retryAll (s.inPhase p) = s := by
  simp [State.inPhase, State.retryAll, h]

/-- The late answer of a tunnelled command changes the replies that wait and what is put out (R410). -/
theorem State.miLate_eq (s : State) (ctrl cid : Nat) (st : Status) :
    ∃ mb replies l, s.miLate ctrl cid st = { s with mb := mb, fe := { s.fe with miReplies := replies }, out := s.out ++ l } := by
  unfold State.miLate
  split
  next w _ =>
    split
    · obtain ⟨who, _⟩ := w
      cases who with
      | some c => exact ⟨_, _, [], by rw [List.append_nil]; rfl⟩
      | none => exact ⟨_, s.fe.miReplies, _, rfl⟩
    · exact ⟨s.mb, s.fe.miReplies, [], by rw [List.append_nil]⟩
  · exact ⟨s.mb, s.fe.miReplies, [], by rw [List.append_nil]⟩

/-- The state in which the engines, the mailboxes and the self-test go on (R439). -/
def State.goesOn (s : State) (map : Nat → Nat) : State :=
  { s with
    bt := { s.bt with paused := false, commit := none }
    me := { s.me with wick := resumeAll map s.me.wick, taper := resumeAll map s.me.taper }
    mb := { s.mb with boxes := s.mb.boxes.map fun (b : Mailbox) => { b with held := false } }
    stt := { s.stt with running := s.stt.running.map fun (t : SelfTest) => { t with suspended := false } } }

/-- Without commands in flight the resume posts the entry of the commit, and nothing else starts. -/
theorem State.resume_eq {s : State} (hcmds : s.fl.cmds = []) (c k : Nat) (map : Nat → Nat) (st : Status) :
    s.resume c k map st = ((s.goesOn map).post c 0 k st).miLate c k st := by
  have hlate : (((s.goesOn map).post c 0 k st).miLate c k st).fl.cmds = [] := by
    obtain ⟨_, _, _, h⟩ := ((s.goesOn map).post c 0 k st).miLate_eq c k st
    rw [h]
    exact hcmds
  have hfed := State.feedListings_none hlate
  have hretried := State.retryAll_none (hfed ▸ hlate) .waitService
  exact hretried.trans hfed

theorem State.resume_facts {s : State} {c : Nat} (hcmds : s.fl.cmds = []) (hqueue : s.fe.hasQueue c 0 = true) (k : Nat) (map : Nat → Nat)
    (st : Status) : (s.resume c k map st).bt = { s.bt with paused := false, commit := none } ∧ (s.resume c k map st).bb = s.bb
      ∧ ∃ l, (s.resume c k map st).out = s.out ++ l
        ∧ .cqe c 0 k st (statusDnr st) 0 0 ((s.resume c k map st).sqHead c 0) none ∈ l := by
  have hposted : ((s.goesOn map).post c 0 k st).out = s.out ++ [.cqe c 0 k st (statusDnr st) 0 0 ((s.goesOn map).sqHead c 0) none] :=
    State.post_out (s := s.goesOn map) k st 0 0 _ none hqueue
  obtain ⟨mb, replies, l, hlate⟩ := ((s.goesOn map).post c 0 k st).miLate_eq c k st
  rw [State.resume_eq hcmds, hlate]
  refine ⟨rfl, rfl, [.cqe c 0 k st (statusDnr st) 0 0 ((s.goesOn map).sqHead c 0) none] ++ l, ?_, ?_⟩
  · rw [hposted, List.append_assoc]
  · refine List.mem_append_left _ (List.mem_singleton.mpr ?_)
    congr 1
    refine State.sqHead_congr (s := s.goesOn map) ?_ ?_ ?_ c 0
    · rfl
    · exact State.post_ctrls (s.goesOn map) c 0 k st 0 0 _ none
    · exact State.post_admEntries (s.goesOn map) c 0 k st 0 0 _ none

/-- An event keeps the counts of activations. -/
theorem State.event_activations (s : State) (unit : Nat) (name : String) :
    (s.event unit name).bb.activations = s.bb.activations ∧ (s.event unit name).bb.fallbacks = s.bb.fallbacks := by
  unfold State.event State.recordEvent
  dsimp only
  split
  · unfold Bbox.add
    dsimp only
    split
    · exact ⟨rfl, rfl⟩
    split <;> exact ⟨rfl, rfl⟩
  · exact ⟨rfl, rfl⟩

/-- The state whose service resumes with the new image (R439). -/
def State.activated (s : State) (i : Nat) (g : FwImage) : State :=
  ((((s.modBt fun b => { b with running := i, activated := some i, patch := g.patchVer }).modMe fun m => m.loadPatch (some g.hash)).modTw fun t =>
    { t with proto := g.twinProto }).modBb fun b => { b with activations := b.activations + 1 }).event 1 "Firmware activated"

theorem exec_activationReady {c k i : Nat} {g : FwImage} {s : State} (hserves : s.serving = true) (hpaused : s.bt.paused = true)
    (hcommit : s.bt.commit = some (c, k, i)) (himage : s.bt.slotImage i = some g) (hidle : s.me.anyRuns = false) :
    exec .activationReady s
      = finish s (((s.activated i g).logChanged 5).resume c k (fun a => (Config.resumeAddr g.hash a).getD a) .success) := by
  change execActivationReady s = _
  simp only [execActivationReady, hcommit, hserves, hpaused, hidle, himage]
  rfl

/-- The state whose service resumes with the old image (R440). -/
def State.fellBack (s : State) : State :=
  ((s.modBt fun b => { b.setRecord b.brActive none with running := b.oldImage }).modBb fun b => { b with fallbacks := b.fallbacks + 1 }).event 1
    "Firmware activation fell back"

theorem exec_activationFallback {c k i : Nat} {s : State} (hserves : s.serving = true) (hpaused : s.bt.paused = true)
    (hcommit : s.bt.commit = some (c, k, i)) :
    exec .activationFallback s = finish s ((s.fellBack.logChanged 5).resume c k id .invalidFirmwareImage) := by
  change execActivationFallback s = _
  simp only [execActivationFallback, hcommit, hserves, hpaused]
  rfl

theorem exec_activationConfirm {i : Nat} {s : State} (hserves : s.serving = true) (hactivated : s.bt.activated = some i) :
    exec .activationConfirm s = finish s ((s.modBt fun b => { b.setRecord i none with activated := none, activeSince := s.pw.powerOnS }).logChanged
      5) := by
  change execActivationConfirm s = _
  simp only [execActivationConfirm, hactivated, hserves]
  rfl

theorem completes_activationReady {c k i : Nat} {g : FwImage} {s : State} (hserves : s.serving = true) (hpaused : s.bt.paused = true)
    (hcommit : s.bt.commit = some (c, k, i)) (himage : s.bt.slotImage i = some g) (hidle : s.me.anyRuns = false) (hcmds : s.fl.cmds = [])
    (hqueue : s.fe.hasQueue c 0 = true) :
    Completes .activationReady s fun t =>
      t.bt.running = i ∧ t.bt.activated = some i ∧ t.bt.patch = g.patchVer ∧ t.bt.paused = false ∧ t.bt.commit = none
        ∧ t.bb.activations = s.bb.activations + 1 ∧ Sends s t (.cqe c 0 k .success false 0 0 (t.sqHead c 0) none) := by
  refine completes_finish (exec_activationReady hserves hpaused hcommit himage hidle) ?_
  obtain ⟨hbt, hbb, l, hout, hcqe⟩ := State.resume_facts (s := (s.activated i g).logChanged 5) hcmds hqueue k
    (fun a => (Config.resumeAddr g.hash a).getD a) .success
  generalize ((s.activated i g).logChanged 5).resume c k _ .success = u at hbt hbb hout hcqe
  rw [State.after_bt, State.after_bb, State.sqHead_after, hbt, hbb]
  exact ⟨rfl, rfl, rfl, rfl, rfl, (State.event_activations _ _ _).1, sends_append hout hcqe⟩

theorem completes_activationFallback {c k i : Nat} {s : State} (hserves : s.serving = true) (hpaused : s.bt.paused = true)
    (hcommit : s.bt.commit = some (c, k, i)) (hcmds : s.fl.cmds = []) (hqueue : s.fe.hasQueue c 0 = true) :
    Completes .activationFallback s fun t =>
      t.bt.running = s.bt.oldImage ∧ t.bt.brTrial = none ∧ t.bt.paused = false ∧ t.bt.commit = none ∧ t.bb.fallbacks = s.bb.fallbacks + 1
        ∧ Sends s t (.cqe c 0 k .invalidFirmwareImage (Config.dnrOf .invalidFirmwareImage) 0 0 (t.sqHead c 0) none) := by
  refine completes_finish (exec_activationFallback hserves hpaused hcommit) ?_
  obtain ⟨hbt, hbb, l, hout, hcqe⟩ := State.resume_facts (s := s.fellBack.logChanged 5) hcmds hqueue k id .invalidFirmwareImage
  generalize (s.fellBack.logChanged 5).resume c k id .invalidFirmwareImage = u at hbt hbb hout hcqe
  rw [State.after_bt, State.after_bb, State.sqHead_after, hbt, hbb]
  exact ⟨rfl, Boot.brTrial_setRecord _ _ _, rfl, rfl, (State.event_activations _ _ _).2, sends_append hout hcqe⟩

theorem completes_activationConfirm {i : Nat} {s : State} (hserves : s.serving = true) (hactivated : s.bt.activated = some i) :
    Completes .activationConfirm s fun t =>
      t.bt.brActive = i ∧ t.bt.brTrial = none ∧ t.bt.activated = none ∧ t.bt.brGen = s.bt.brGen + 1 ∧ t.bt.activeSince = s.pw.powerOnS :=
  completes_finish (exec_activationConfirm hserves hactivated)
    ⟨Boot.brActive_setRecord _ _ _, Boot.brTrial_setRecord _ _ _, rfl, Boot.brGen_setRecord _ _ _, rfl⟩

/-- Settles O5: each command passes its checks and makes the change that it names. -/
theorem namespaceAndFirmwareCommandsComplete : Obligations.Namespace_and_firmware_commands_complete := by
  refine ⟨fun a nsType mode i ty m s hok htype hmode hsealed hcurtain hhere hfew hfree hlead => ?_,
    fun a nsType mode ty m s hok htype hmode hsealed hcurtain hboth hother hfew => ?_,
    fun a n s hok hcurtain hns hunbound hhere hidle hlead => ?_, fun a ids n s hok hns hids hnew => ?_, fun a ids n s hok hns hids hold => ?_,
    fun a offset data s hok hidle howner hfits hoffset hlen => ?_, fun a slot i b s hok hidle hslot hother hwhole => ?_,
    fun a slot i b s hok hidle hslot hother hwhole => ?_, fun a slot i s hok hidle hslot hother hthere hpasses => ?_,
    fun a slot i b s hok hidle hslot hother hwhole halone => ?_, fun c k i s hserves hopen hcommit hquiet => ?_,
    fun c k i g s hserves hpaused hcommit himage hidle hcmds hqueue => ?_, fun c k i s hserves hpaused hcommit hcmds hqueue => ?_,
    fun i s hserves hactivated => ?_⟩
  · exact completes_namespaceCreate hok htype hmode hsealed hcurtain hhere hfew hfree hlead
  · exact completes_namespaceCreate_asks hok htype hmode hsealed hcurtain hboth hother hfew
  · exact completes_namespaceDelete hok hcurtain hns hunbound hhere hidle hlead
  · exact completes_nsChange hok (exec_namespaceAttach hok hns hids hnew)
  · exact completes_nsChange hok (exec_namespaceDetach hok hns hids hold)
  · exact completes_firmwareImageDownload hok hidle howner hfits hoffset hlen
  · exact completes_commitReplace false (fun g t himage htrial _ hbuffer hemits => ⟨himage, htrial, hbuffer, hemits⟩) rfl hok hidle hslot
      hother hwhole
  · exact completes_commitReplace true (fun g t himage htrial hgen hbuffer hemits => ⟨himage, htrial, hgen rfl, hbuffer, hemits⟩) rfl hok hidle
      hslot hother hwhole
  · exact completes_firmwareCommitSetTrial hok hidle hslot hother hthere hpasses
  · exact completes_firmwareCommitActivate hok hidle hslot hother hwhole halone
  · exact completes_activationPause hserves hopen hcommit hquiet
  · exact completes_activationReady hserves hpaused hcommit himage hidle hcmds hqueue
  · exact completes_activationFallback hserves hpaused hcommit hcmds hqueue
  · exact completes_activationConfirm hserves hactivated

end Sys2Proof.Machine
end

section
/-! SUPPORT. Entry to PS3 (R232, R461): the entry that completes it carries no remote key, whatever the host asked to be invalidated (R63). -/

namespace Sys2Proof.Machine

/-! ## What the signing of the epochs changes (R226, R232, R234) -/

/-- The keys, the records of trouble, the free values and the generations of the vendor logs alone differ. -/
def State.OnlySigned (s t : State) : Prop :=
  ∃ ky ev bb free gen time,
    t = { s with ky := ky, ev := ev, bb := bb, free := free, fe := { s.fe with logGen := gen, logTime := time } }

theorem State.OnlySigned.refl (s : State) : s.OnlySigned s := ⟨s.ky, s.ev, s.bb, s.free, s.fe.logGen, s.fe.logTime, rfl⟩

theorem State.OnlySigned.trans {s t u : State} (h : s.OnlySigned t) (h' : t.OnlySigned u) : s.OnlySigned u := by
  obtain ⟨_, _, _, _, _, _, rfl⟩ := h
  obtain ⟨ky, ev, bb, free, gen, time, rfl⟩ := h'
  exact ⟨ky, ev, bb, free, gen, time, rfl⟩

theorem State.onlySigned_closeEpoch (s : State) (flags : Nat) : s.OnlySigned (s.closeEpoch flags) := by
  unfold State.closeEpoch
  split
  · exact .refl s
  · exact ⟨_, s.ev, s.bb, s.free, _, _, rfl⟩

theorem State.onlySigned_pruneEpoch (s : State) : s.OnlySigned s.pruneEpoch := by
  unfold State.pruneEpoch
  split
  · exact .refl s
  · exact ⟨_, _, _, _, _, _, rfl⟩

theorem State.onlySigned_pruneFor (n : Nat) (s : State) : s.OnlySigned (s.pruneFor n) := by
  induction n generalizing s with
  | zero => exact .refl s
  | succ n ih =>
    rw [State.pruneFor]
    split
    · exact s.onlySigned_pruneEpoch.trans (ih _)
    · exact .refl s

theorem State.onlySigned_signEpoch (s : State) : s.OnlySigned s.signEpoch := by
  unfold State.signEpoch
  split
  · exact .refl s
  · exact (s.onlySigned_pruneFor _).trans ⟨_, _, _, _, _, _, rfl⟩

theorem State.onlySigned_signAll (s : State) : s.OnlySigned s.signAll := by
  unfold State.signAll
  split
  · exact List.foldlRecOn _ _ (.refl s) fun u hu _ _ => hu.trans u.onlySigned_signEpoch
  · exact .refl s

/-! ## Set Power Management to PS3 (R460, R461) -/

/-- The entry to PS3 leaves the outputs, the controllers and the outstanding commands. -/
theorem State.enterLow3_facts (s : State) :
    (s.enterLow 3).out = s.out ∧ (s.enterLow 3).fe.ctrls = s.fe.ctrls ∧ (s.enterLow 3).fl = s.fl := by
  obtain ⟨_, _, _, _, _, _, hsigned⟩ := (s.onlySigned_closeEpoch 16).trans (s.closeEpoch 16).onlySigned_signAll
  rw [State.enterLow, hsigned]
  exact ⟨rfl, rfl, rfl⟩

/-- With no admin command on its way and no I/O command outstanding, the drive enters PS3 at once. -/
theorem State.setPs_enters {s : State} (hallowed : s.psRefused 3 = false) (hjobs : s.fe.jobs = []) (hcmds : s.fl.cmds = []) (a : Adm) :
    s.setPs a 3 = (s.enterLow 3).post a.ctrl 0 a.cid .success := by
  have hcleared : { s with fe := { s.fe with jobs := [] } } = s := by rw [← hjobs]
  obtain ⟨-, -, hfl⟩ := s.enterLow3_facts
  have hnone : (s.enterLow 3).fl.cmds = [] := by rw [hfl, hcmds]
  simp [State.setPs, hallowed, State.endEntry, hjobs, State.ioStarted, hcmds, State.modFe, hcleared, hnone, State.whenB]

@[simp] theorem State.psRefused_admEntry (s : State) (a : Adm) (ps : Nat) : (s.admEntry a).1.psRefused ps = s.psRefused ps := by
  obtain ⟨_, h⟩ := s.admEntry_eq a
  rw [h]
  rfl

theorem State.admEntry_jobs (s : State) (a : Adm) : (s.admEntry a).1.fe.jobs = s.fe.jobs := by
  unfold State.admEntry
  split <;> rfl

theorem exec_setPowerManagement_low {a : Adm} {s : State} (hok : adminOk a s = true) (hallowed : s.psRefused 3 = false)
    (hjobs : s.fe.jobs = []) (hcmds : s.fl.cmds = []) :
    exec (.setPowerManagement a 3) s = finish s (((s.admEntry a).1.enterLow 3).post a.ctrl 0 a.cid .success) := by
  have hfree : s.fe.jobs.any (·.what == 1) = false := by rw [hjobs]; rfl
  change execSetPowerManagement a 3 s = _
  rw [execSetPowerManagement, hfree, admin_ok hok, State.setPs_enters (by rwa [State.psRefused_admEntry]) (by rwa [State.admEntry_jobs])
    (by rwa [State.admEntry_fl])]

/-- The entry of a Set Power Management to PS3 is put out alone, without a remote key. -/
theorem State.enterLow3_post_out {s : State} {ctrl : Nat} (hqueue : s.fe.hasQueue ctrl 0 = true) (cid : Nat) :
    ∃ head, ((s.enterLow 3).post ctrl 0 cid .success).out = s.out ++ [.cqe ctrl 0 cid .success false 0 0 head none] := by
  obtain ⟨hout, hctrls, -⟩ := s.enterLow3_facts
  have hthere : (s.enterLow 3).fe.hasQueue ctrl 0 = true := (Front.hasQueue_congr hctrls ctrl 0).trans hqueue
  exact ⟨_, hout ▸ State.post_out cid .success 0 0 false none hthere⟩

/-! ## The statement -/

/-- A drive whose queues are carried by RDMA. -/
def overRdma : State := { sealedUp with fe := { sealedUp.fe with conns := [{ conn1 with rdma := true }, { conn2 with rdma := true }] } }

/-- An admin command whose data pointer asks for a Send with Invalidate of remote key 7 (R63). -/
def admInvalidate : Adm := { adm1 with sgl := .keyed 1 (some 7) }

theorem overRdma_ok : adminOk admInvalidate overRdma = true := by decide

/-- Refutes O6: Set Power Management to PS3 over RDMA puts out a single entry, and that entry lacks the remote key which the host asked to be
invalidated (R63). -/
theorem not_selfTestSanitizeAndPowerCommandsComplete : ¬ Obligations.Self_test_sanitize_and_power_commands_complete := by
  intro hall
  obtain ⟨-, -, -, -, -, -, -, -, hlow⟩ := hall
  obtain ⟨-, -, -, -, hsent⟩ := (hlow admInvalidate overRdma overRdma_ok (by decide) rfl rfl rfl rfl).of_finish
    (exec_setPowerManagement_low overRdma_ok (by decide) rfl rfl)
  obtain ⟨head, hout⟩ := State.enterLow3_post_out (adminOk_entry overRdma_ok) admInvalidate.cid
  rw [State.after_out, hout, State.admEntry_out, List.drop_left, List.mem_singleton] at hsent
  simp [adminEntry, adminCqe, admInvalidate, sglInv] at hsent

end Sys2Proof.Machine
end

section
/-! SUPPORT. NVMe-MI Receive whose response brings the admin connection to the change of its traffic keys (R224, R410). -/

namespace Sys2Proof.Machine

/-! ## The oldest response of a controller (R410) -/

theorem State.admEntry_miReplies (s : State) (a : Adm) : (s.admEntry a).1.fe.miReplies = s.fe.miReplies := by
  unfold State.admEntry
  split <;> rfl

/-- The state in which the response that stands first goes out. -/
def State.answerMi (s : State) (a : Adm) (body : Bytes) (rest : List (Nat × Bytes)) : State :=
  (s.modFe fun f => { f with miReplies := rest }).sendData a.ctrl 0 a.cid body

theorem exec_nvmeMiReceive {a : Adm} {body : Bytes} {rest : List (Nat × Bytes)} {s : State} (hok : adminOk a s = true)
    (hfirst : s.fe.miReplies = (a.ctrl, body) :: rest) (len : Nat) :
    exec (.nvmeMiReceive a len) s = finish s (((s.admEntry a).1.answerMi a (body.take len) rest).admDone a .success) := by
  change execNvmeMiReceive a len s = _
  rw [execNvmeMiReceive, admin_ok hok, State.admEntry_miReplies, hfirst]
  simp [takeFirst, State.answerMi]

/-- A response that uses up the traffic keys of its connection goes out with a request for new ones (R224). -/
theorem State.answerMi_out_updated {s : State} {a : Adm} {body : Bytes} {k : Conn} (hqueue : s.fe.hasQueue a.ctrl 0 = true)
    (hconn : s.fe.connOf a.ctrl 0 = some k) (hrdma : k.rdma = false) (hfull : 2 ^ 24 ≤ k.txRecords + k.recordsOf body.length)
    (rest : List (Nat × Bytes)) : ((s.answerMi a body rest).admDone a .success).out.length = s.out.length + 3 := by
  have hsent := State.sendData_out_updated (s := s.modFe fun f => { f with miReplies := rest }) hconn hrdma a.cid body hfull
  have hthere : (s.answerMi a body rest).fe.hasQueue a.ctrl 0 = true := (State.sendData_hasQueue _ _ _ _).trans hqueue
  rw [State.admDone_out hthere, State.answerMi, hsent]
  simp

/-! ## The statement -/

/-- A drive that keeps a response of one byte, one TLS record short of the change of the keys of its admin queue (R224). -/
def miReading : State := { pageReading with fe := { pageReading.fe with miReplies := [(1, [0])] } }

theorem miReading_ok : adminOk adm1 miReading = true := by decide

/-- Refutes O8: an NVMe-MI Receive whose response brings the TLS connection of the admin queue to 2^24 records also asks for new keys, so
more goes out than the response and the entry. -/
theorem not_nvmeMICommandsComplete : ¬ Obligations.NVMe_MI_commands_complete := by
  intro hall
  obtain ⟨-, -, -, -, -, -, -, -, hreceive⟩ := hall
  obtain ⟨-, hemits⟩ := (hreceive adm1 1 [0] [] miReading miReading_ok rfl).of_finish (exec_nvmeMiReceive miReading_ok rfl 1)
  have hlength := congrArg List.length hemits
  rw [State.after_out, State.answerMi_out_updated (k := connAdmFull) (adminOk_entry miReading_ok) rfl rfl (connAdmFull_records _ (by simp)),
    State.admEntry_out] at hlength
  simp at hlength

end Sys2Proof.Machine
end

section
/-! SUPPORT. Resets and what they leave, and the events of a start (R167, R168, R421, R422, R425, R428, R433, R434, R438, R504). -/

namespace Sys2Proof.Machine

/-! ## The counts of the black box (R506) -/

/-- The two black boxes count the same power failures, orderly shutdowns, fatal faults and failed starts. -/
structure Bbox.CountsKept (b c : Bbox) : Prop where
  powerFails : c.powerFails = b.powerFails
  orderly : c.orderly = b.orderly
  fatals : c.fatals = b.fatals
  failedStarts : c.failedStarts = b.failedStarts

theorem Bbox.CountsKept.refl (b : Bbox) : b.CountsKept b := ⟨rfl, rfl, rfl, rfl⟩

theorem Bbox.CountsKept.trans {b c d : Bbox} (h : b.CountsKept c) (h' : c.CountsKept d) : b.CountsKept d :=
  ⟨h'.powerFails.trans h.powerFails, h'.orderly.trans h.orderly, h'.fatals.trans h.fatals, h'.failedStarts.trans h.failedStarts⟩

theorem Bbox.countsKept_add (b : Bbox) (kind source start time : Nat) (tq : BitVec 8) (body : List Nat) :
    b.CountsKept (b.add kind source start time tq body) := by
  unfold Bbox.add
  dsimp only
  split
  · exact ⟨rfl, rfl, rfl, rfl⟩
  split <;> exact ⟨rfl, rfl, rfl, rfl⟩

/-- An event goes to the two logs alone. -/
theorem State.recordEvent_eq (s : State) (unit code sev p0 p1 p2 : Nat) : ∃ ev bb free, s.bb.CountsKept bb ∧
    s.recordEvent unit code sev p0 p1 p2 = { s with ev := ev, bb := bb, free := free } := by
  refine ⟨_, _, _, ?_, rfl⟩
  split
  · exact s.bb.countsKept_add _ _ _ _ _ _
  · exact .refl _

/-- The record of a power failure or an orderly shutdown, with the write protection of Wax, changes nothing else (R167). -/
theorem State.failRecord_eq (s : State) (orderly : Bool) : ∃ bb free, s.bb.CountsKept bb ∧
    s.failRecord orderly = { s with wx := { s.wx with protectedW := true }, bb := bb, free := free } := by
  unfold State.failRecord State.blackBox State.modWx
  dsimp only
  exact ⟨_, _, s.bb.countsKept_add _ _ _ _ _ _, rfl⟩

/-! ## What a reset loses and keeps (R168 to R171, R422, R518) -/

/-- A reset has emptied `t` of what `s` held outside NAND and Wax; the index stands until the start has rebuilt it (log 30). -/
structure State.Emptied (s t : State) : Prop where
  ctrls : t.fe.ctrls = []
  conns : t.fe.conns = []
  cmds : t.fl.cmds = []
  cache : t.mc = {}
  nand : t.md.nand = s.md.nand
  staged : t.wx.staged = s.wx.staged
  journal : t.wx.journal = s.wx.journal
  buckets : t.ix.buckets = s.ix.buckets

/-- The end of a self-test leaves all but the results. -/
theorem State.endTest_eq (s : State) (result seg : Nat) : ∃ stt, s.endTest result seg = { s with stt := stt } := by
  unfold State.endTest
  split
  · exact ⟨s.stt, rfl⟩
  · exact ⟨_, rfl⟩

/-- Reservations give their bytes back to the wear bank, and no record on NAND changes (R169, R197). -/
theorem State.loseReservations_eq (s : State) : ∃ md, md.nand = s.md.nand ∧ s.loseReservations = { s with md := md } := by
  unfold State.loseReservations
  refine List.foldlRecOn (motive := fun t => ∃ md, md.nand = s.md.nand ∧ t = { s with md := md }) _ _ ⟨s.md, rfl, rfl⟩ ?_
  rintro _ ⟨md, hnand, rfl⟩ n -
  exact ⟨md.refund (32 * n), hnand, rfl⟩

theorem State.loseVolatile_eq (s : State) : ∃ stt md, md.nand = s.md.nand ∧
    s.loseVolatile = ({ s with stt := stt, md := md } : State).loseFront.loseStores.loseLinks.loseUnits.modBt Boot.loseLedger := by
  obtain ⟨stt, hstt⟩ := s.endTest_eq 8 0
  obtain ⟨md, hnand, hmd⟩ := ({ s with stt := stt } : State).loseReservations_eq
  exact ⟨stt, md, hnand, by rw [State.loseVolatile, hstt, hmd]⟩

theorem State.emptied_loseVolatile (s : State) : s.Emptied s.loseVolatile := by
  obtain ⟨_, _, hnand, h⟩ := s.loseVolatile_eq
  rw [h]
  exact ⟨rfl, rfl, rfl, rfl, hnand, rfl, rfl, rfl⟩

/-- The supplies, the black box and the outcome of the start outlast a reset. -/
theorem State.loseVolatile_kept (s : State) : s.loseVolatile.pw.ready = s.pw.ready ∧ s.loseVolatile.bb = s.bb
    ∧ s.loseVolatile.bt.fails = s.bt.fails ∧ s.loseVolatile.bt.good = s.bt.good := by
  obtain ⟨_, _, -, h⟩ := s.loseVolatile_eq
  rw [h]
  exact ⟨rfl, rfl, rfl, rfl⟩

theorem State.emptied_lastWrites (s : State) : s.Emptied s.lastWrites := by
  obtain ⟨_, _, -, h⟩ := s.failRecord_eq false
  rw [State.lastWrites, h]
  exact { State.emptied_loseVolatile _ with }

theorem State.lastWrites_kept (s : State) : s.lastWrites.pw.ready = s.pw.ready ∧ s.bb.CountsKept s.lastWrites.bb := by
  obtain ⟨_, _, hcounts, h⟩ := s.failRecord_eq false
  rw [State.lastWrites, h]
  obtain ⟨hready, hbb, -, -⟩ := State.loseVolatile_kept _
  exact ⟨hready, hbb ▸ hcounts⟩

/-! ## The end of a command that resets the drive -/

/-- The state a command that resets the drive leaves: `u`, whose HBM3 is empty (R112, R168). -/
def State.afterReset (s u : State) : State := { u with pending := s.pending, fe := s.raisedLogs u, pt := s.queued u }

theorem finishReset_empty (s : State) {u : State} (h : u.mc = {}) : finishReset s u = .next (s.afterReset u) := by
  have hmc : ({ u.mc with hbm := if u.mc.hbm = [] then [] else s.mc.hbm } : Mantle) = u.mc := by
    rw [h]
    rfl
  rw [finishReset, hmc]
  rfl

theorem completes_finishReset {c : Instr} {s u : State} {P : State → Prop} (h : exec c s = finishReset s u) (hcache : u.mc = {})
    (hp : P (s.afterReset u)) : Completes c s P :=
  ⟨_, h.trans (finishReset_empty s hcache), hp⟩

/-- Where the supplies allow it, the start with this cause is all that becomes due (R421). -/
theorem State.startDue_ready {s : State} (h : s.pw.ready = true) (cause : Nat) :
    s.startDue cause = { s with pw := { s.pw with phase := .ready }, bt := { s.bt with cause := cause } } := if_pos h

/-! ## POWER_FAIL_TRIP and POWER_GOOD (R167, R168, R421) -/

/-- The always-on rail changes the sideband endpoint alone. -/
theorem State.rail_eq (s : State) : ∃ mb, s.rail = { s with mb := mb } := by
  unfold State.rail
  split <;> exact ⟨_, rfl⟩

theorem State.emptied_trip (s : State) : s.Emptied s.trip := by
  unfold State.trip
  dsimp only
  split
  · exact { s.emptied_lastWrites with }
  · exact { s.emptied_loseVolatile with }

theorem State.trip_powerFails {s : State} (h : up s = true) : s.trip.bb.powerFails = s.bb.powerFails + 1 := by
  have hruns : (s.pw.phase != .off && s.pw.phase != .tripped && s.pw.phase != .frozen) = true := by
    simp only [up, State.alive, Bool.or_eq_true, beq_iff_eq] at h
    rcases h with (h | h) | h <;> rw [h] <;> rfl
  obtain ⟨-, hcounts⟩ := s.lastWrites_kept
  simp only [State.trip, hruns, if_true]
  exact congrArg (· + 1) hcounts.powerFails

theorem completes_powerFailTrip (s : State) :
    Completes .powerFailTrip s fun t =>
      t.pw.phase = .tripped ∧ t.pw.p12v = false ∧ t.fe.ctrls = [] ∧ t.fe.conns = [] ∧ t.fl.cmds = [] ∧ t.mc = {}
        ∧ t.md.nand = s.md.nand ∧ t.wx.staged = s.wx.staged ∧ t.wx.journal = s.wx.journal ∧ t.ix.buckets = s.ix.buckets
        ∧ (up s = true → t.bb.powerFails = s.bb.powerFails + 1) := by
  obtain ⟨_, hrail⟩ := s.trip.rail_eq
  have hexec : exec .powerFailTrip s = finishReset s s.trip.rail := rfl
  rw [hrail] at hexec
  obtain ⟨hctrls, hconns, hcmds, hcache, hnand, hstaged, hjournal, hbuckets⟩ := s.emptied_trip
  exact completes_finishReset hexec hcache
    ⟨rfl, rfl, hctrls, hconns, hcmds, hcache, hnand, hstaged, hjournal, hbuckets, State.trip_powerFails⟩

theorem completes_powerGood {s : State} (hphase : s.pw.phase = .tripped ∨ s.pw.phase = .off)
    (hready : ({ s.pw with p12v := true } : Power).ready = true) :
    Completes .powerGood s fun t => t.pw = { s.pw with p12v := true, phase := .ready } ∧ t.bt = { s.bt with cause := 1 } := by
  obtain ⟨mb, hrail⟩ := (s.modPw fun p => { p with p12v := true }).rail_eq
  have hwaits : (s.pw.phase == .tripped || s.pw.phase == .off) = true := by simpa using hphase
  have hexec : exec .powerGood s = finish s (({ s with pw := { s.pw with p12v := true }, mb := mb } : State).startDue 1) := by
    change execPowerGood s = _
    rw [execPowerGood, hrail]
    exact congrArg (finish s) (if_pos hwaits)
  rw [State.startDue_ready hready] at hexec
  exact completes_finish hexec ⟨rfl, rfl⟩

/-! ## A failed start (R425, R428, R434) -/

/-- The header of the start goes to the start ring. -/
theorem State.copyHead_eq (s : State) : ∃ bb, s.bb.CountsKept bb ∧ s.copyHead = { s with bb := bb } := by
  unfold State.copyHead
  split
  · exact ⟨s.bb, .refl _, rfl⟩
  · refine ⟨_, ?_, rfl⟩
    exact ⟨rfl, rfl, rfl, rfl⟩

theorem State.startFailure_eq (s : State) (step : Nat) : ∃ bb, s.bb.CountsKept bb ∧ s.startFailure step = { s with bb := bb } := by
  unfold State.startFailure State.blackBox
  exact ⟨_, s.bb.countsKept_add _ _ _ _ _ _, rfl⟩

/-- What is written of a failed start before it is counted: its outcome, and the records of it. -/
theorem State.failureWritten_eq (s : State) (step : Nat) : ∃ bb, s.bb.CountsKept bb ∧
    (s.writeOutcome 2).copyHead.startFailure step = { s.writeOutcome 2 with bb := bb } := by
  obtain ⟨_, hcopied, hcopy⟩ := (s.writeOutcome 2).copyHead_eq
  rw [hcopy]
  obtain ⟨_, hwritten, hfailure⟩ := State.startFailure_eq _ step
  exact ⟨_, hcopied.trans hwritten, hfailure⟩

/-- The failed start is counted (R425, R434). -/
def State.countFailed (s : State) : State :=
  { s with
    bt := { s.bt.clearTrial with fails := min 3 (s.bt.fails + 1), good := false },
    bb := { s.bb with failedStarts := s.bb.failedStarts + 1 } }

theorem State.markFailed_eq (s : State) : ∃ step, s.markFailed = ((s.writeOutcome 2).copyHead.startFailure step).countFailed := ⟨_, rfl⟩

theorem State.markFailed_facts (s : State) : s.markFailed.bt.fails = min 3 (s.bt.fails + 1) ∧ s.markFailed.bt.good = false
    ∧ s.markFailed.bb.fatals = s.bb.fatals ∧ s.markFailed.bb.failedStarts = s.bb.failedStarts + 1 := by
  obtain ⟨step, hmarked⟩ := s.markFailed_eq
  obtain ⟨_, hcounts, hwritten⟩ := s.failureWritten_eq step
  rw [hmarked, hwritten]
  exact ⟨rfl, rfl, hcounts.fatals, congrArg (· + 1) hcounts.failedStarts⟩

/-- The state in which the present step has failed, before the start is marked as failed. -/
def State.stepFailed (s : State) (name : String) (late : Bool) : State :=
  (s.failStep s.pw.curStep 1 name late).eventP 1 name s.pw.curStep 0 0

theorem State.stepFailed_kept (s : State) (name : String) (late : Bool) :
    (s.stepFailed name late).bt.fails = s.bt.fails ∧ s.bb.CountsKept (s.stepFailed name late).bb := by
  obtain ⟨_, _, _, hcounts, hevent⟩ :=
    (s.failStep s.pw.curStep 1 name late).recordEvent_eq 1 (codeOf 1 name) (sevOf name) s.pw.curStep 0 0
  rw [State.stepFailed, State.eventP, hevent]
  exact ⟨rfl, hcounts⟩

theorem State.failStart_facts (s : State) (name : String) (late : Bool) :
    (s.failStart name late).pw.phase = (if s.pw.curStep = 0 then .b0Failed else .failedStart)
      ∧ (s.failStart name late).bt.fails = min 3 (s.bt.fails + 1) ∧ (s.failStart name late).bt.good = false
      ∧ (s.failStart name late).bb.failedStarts = s.bb.failedStarts + 1 ∧ (s.failStart name late).mc = {} := by
  have hstart : s.failStart name late = (s.stepFailed name late).markFailed.loseVolatile.modPw fun p =>
    { p with phase := if s.pw.curStep = 0 then .b0Failed else .failedStart } := rfl
  obtain ⟨hfails, hcounts⟩ := s.stepFailed_kept name late
  rw [hstart, ← hfails, ← hcounts.failedStarts]
  generalize s.stepFailed name late = u
  obtain ⟨hmarked, hgood, -, hfailed⟩ := u.markFailed_facts
  obtain ⟨-, hbb, hkeptFails, hkeptGood⟩ := u.markFailed.loseVolatile_kept
  exact ⟨rfl, hkeptFails.trans hmarked, hkeptGood.trans hgood, (congrArg (·.failedStarts) hbb).trans hfailed,
    u.markFailed.emptied_loseVolatile.cache⟩

theorem completes_bootStepTimeout {s : State} (hstarts : s.pw.phase = .starting) :
    Completes .bootStepTimeout s fun t =>
      t.pw.phase = (if s.pw.curStep = 0 then .b0Failed else .failedStart) ∧ t.bt.fails = min 3 (s.bt.fails + 1) ∧ t.bt.good = false
        ∧ t.bb.failedStarts = s.bb.failedStarts + 1 := by
  obtain ⟨hphase, hfails, hgood, hfailed, hcache⟩ := s.failStart_facts "Boot step timeout" true
  have hexec : exec .bootStepTimeout s = finishReset s (s.failStart "Boot step timeout" true) :=
    congrArg (finishReset s) (if_pos (by rw [hstarts]; rfl))
  exact completes_finishReset hexec hcache ⟨hphase, hfails, hgood, hfailed⟩

/-! ## HARDWARE_WATCHDOG and FATAL_FAULT (R421, R425, R441, R450) -/

/-- The state in which the watchdog finds the Lamplighter: reset, after the last writes of a drive that runs. -/
def State.watched (s : State) : State := if s.pw.phase == .starting then s.loseVolatile else s.lastWrites

theorem State.emptied_watched (s : State) : s.Emptied s.watched := by
  unfold State.watched
  split
  · exact s.emptied_loseVolatile
  · exact s.emptied_lastWrites

theorem State.watched_ready (s : State) : s.watched.pw.ready = s.pw.ready := by
  unfold State.watched
  split
  · exact s.loseVolatile_kept.1
  · exact s.lastWrites_kept.1

theorem completes_hardwareWatchdog {s : State} (hup : up s = true) (hruns : s.li.halted = false) (hready : s.pw.ready = true) :
    Completes .hardwareWatchdog s fun t => t.pw.phase = .ready ∧ t.pw.cfs = false ∧ t.bt.cause = 5 ∧ t.mc = {} ∧ t.fl.cmds = [] := by
  have hwatched : (s.alive && !s.li.halted) = true := by
    rw [show s.alive = true from hup, hruns]
    rfl
  have hsupplies : (s.watched.modPw fun p => { p with cfs := false }).pw.ready = true := s.watched_ready.trans hready
  have hexec : exec .hardwareWatchdog s = finishReset s ((s.watched.modPw fun p => { p with cfs := false }).startDue 5) :=
    congrArg (finishReset s) (if_pos hwatched)
  rw [State.startDue_ready hsupplies] at hexec
  exact completes_finishReset hexec s.emptied_watched.cache ⟨rfl, rfl, rfl, s.emptied_watched.cache, s.emptied_watched.cmds⟩

/-- A fatal fault is counted once, whether the start has failed with it or not. -/
theorem State.fatal_facts (s : State) (code : Nat) :
    (s.fatal code).pw.cfs = true ∧ (s.fatal code).pw.phase = .fatal ∧ (s.fatal code).bb.fatals = s.bb.fatals + 1 := by
  have hmarked (c : Bool) : (s.whenB c State.markFailed).bb.fatals = s.bb.fatals := by
    cases c
    · rfl
    · obtain ⟨-, -, hfatals, -⟩ := s.markFailed_facts
      exact hfatals
  obtain ⟨_, _, _, hcounts, hevent⟩ := (s.whenB (s.bt.activated.isSome || s.bt.ledger.head?.any fun e => e.outcome == 0)
    State.markFailed).recordEvent_eq 1 (codeOf 1 "Fatal fault") 6 code 0 0
  obtain ⟨_, hended⟩ := State.endTest_eq _ 8 0
  rw [State.fatal, hevent, hended]
  exact ⟨rfl, rfl, congrArg (· + 1) (hcounts.fatals.trans (hmarked _))⟩

theorem completes_fatalFault {s : State} (hup : up s = true) (code : Nat) :
    Completes (.fatalFault code) s fun t => t.pw.cfs = true ∧ t.pw.phase = .fatal ∧ t.bb.fatals = s.bb.fatals + 1 :=
  completes_finish (congrArg (finish s) (if_pos hup)) (s.fatal_facts code)

/-! ## START_GOOD, DEFERRED_BOOT_STEP and FLOOR_RAISE (R422, R425, R428, R434, R438) -/

/-- The boot state of a good start: the trial image that it ran is active (R425, R434). -/
def Boot.startedGood (b : Boot) (now : Nat) : Boot :=
  let took := b.brTrial == some b.running
  { (if took then b.setRecord b.running none else b) with
    good := true, fails := 0, trainStored := some b.train, activeSince := if took then now else b.activeSince }

theorem exec_startGood {s : State} (hserves : s.serving = true) (hopen : s.bt.good = false) :
    exec .startGood s
      = finish s (((s.writeOutcome 1).copyHead.modBt fun b => b.startedGood (s.writeOutcome 1).copyHead.pw.powerOnS).logChanged 5) :=
  congrArg (finish s) (if_neg (by simp [hserves, hopen]))

theorem Boot.startedGood_trial {b : Boot} (h : b.brTrial = some b.running) (now : Nat) :
    (b.startedGood now).brActive = b.running ∧ (b.startedGood now).brTrial = none ∧ (b.startedGood now).brGen = b.brGen + 1 := by
  have htook : (b.brTrial == some b.running) = true := by simpa using h
  simp only [Boot.startedGood, htook, if_true]
  exact ⟨b.brActive_setRecord _ _, b.brTrial_setRecord _ _, b.brGen_setRecord _ _⟩

theorem Boot.startedGood_other {b : Boot} (h : b.brTrial ≠ some b.running) (now : Nat) :
    (b.startedGood now).brActive = b.brActive ∧ (b.startedGood now).brTrial = b.brTrial := by
  have htook : (b.brTrial == some b.running) = false := by simpa using h
  simp only [Boot.startedGood, htook]
  exact ⟨rfl, rfl⟩

theorem completes_startGood {s : State} (hserves : s.serving = true) (hopen : s.bt.good = false) :
    Completes .startGood s fun t =>
      t.bt.good = true ∧ t.bt.fails = 0
        ∧ (s.bt.brTrial = some s.bt.running → t.bt.brActive = s.bt.running ∧ t.bt.brTrial = none ∧ t.bt.brGen = s.bt.brGen + 1)
        ∧ (s.bt.brTrial ≠ some s.bt.running → t.bt.brActive = s.bt.brActive ∧ t.bt.brTrial = s.bt.brTrial) := by
  obtain ⟨_, -, hcopy⟩ := (s.writeOutcome 1).copyHead_eq
  have hexec := exec_startGood hserves hopen
  rw [hcopy] at hexec
  exact completes_finish hexec ⟨rfl, rfl, fun h => Boot.startedGood_trial (b := (s.writeOutcome 1).bt) h _,
    fun h => Boot.startedGood_other (b := (s.writeOutcome 1).bt) h _⟩

theorem completes_deferredServo {s : State} (hserves : s.serving = true) (hdeferred : 10 ∈ s.bt.deferred) :
    Completes (.deferredBootStep 10) s fun t =>
      t.tm = { s.tm with servoOn := true } ∧ t.bt.deferred = s.bt.deferred.filter (· ≠ 10)
        ∧ t.bt.offServices = s.bt.offServices.filter (· ≠ 10) :=
  completes_finish (congrArg (finish s) (if_neg (by simp [hserves, hdeferred]))) ⟨rfl, rfl, rfl⟩

/-- The state in which the floor stands at `floor`, with its records. -/
def State.floorRaised (s : State) (floor : Nat) : State :=
  (((((s.modBt fun b => { b with floor := floor }).blackBox 7 srcDrive [2, s.bt.floor, floor]).blackBox 14 srcDrive
    [1, s.bt.floor, floor]).eventP 1 "Security version floor raised" s.bt.floor floor 0).logChanged 5)

theorem completes_floorRaise {g : FwImage} {s : State} (hserves : s.serving = true) (himage : s.bt.slotImage s.bt.running = some g)
    (hactive : s.bt.running = s.bt.brActive)
    (hslots : ∀ i ∈ [0, 1], (s.bt.slotImage i).any (fun x => decide (g.floor ≤ x.svn)) = true) (hlower : s.bt.floor < g.floor)
    (hday : s.bt.activeSince + 86400 ≤ s.pw.powerOnS) :
    Completes .floorRaise s fun t => t.bt = { s.bt with floor := g.floor } := by
  have hboth : ([0, 1].all fun i => (s.bt.slotImage i).any fun x => decide (g.floor ≤ x.svn)) = true := List.all_eq_true.mpr hslots
  have hexec : exec .floorRaise s = finish s (s.floorRaised g.floor) := by
    change execFloorRaise s = _
    simp only [execFloorRaise, himage]
    refine congrArg (finish s) (if_neg ?_)
    rw [hserves, hboth]
    simp [hactive, hday, hlower]
  exact completes_finish hexec rfl

/-! ## DIAG.BOOT_RESTART (R168, R432, R433) -/

/-- A field of two bytes fits in sixteen bits. -/
theorem natAt_two_lt (p : Bytes) (off : Nat) : natAt p off 2 < 2 ^ 16 :=
  calc natAt p off 2 < 256 ^ (bytesAt p off 2).length := leNat_lt _
    _ ≤ 256 ^ 2 := Nat.pow_le_pow_right (by decide) (List.length_take_le _ _)

/-- What the drive does before the last writes of an orderly shutdown: the open epoch closes, and boot flash takes its copy (R168, R228). -/
def State.putAway (s : State) : State := (s.whenB s.ky.kekPresent fun s => s.closeEpoch 4).refreshFlash

theorem State.closeEpoch_kept (s : State) (flags : Nat) : (s.closeEpoch flags).pw = s.pw ∧ (s.closeEpoch flags).bb = s.bb := by
  unfold State.closeEpoch
  split <;> exact ⟨rfl, rfl⟩

theorem State.putAway_kept (s : State) : s.putAway.pw = s.pw ∧ s.putAway.bb.orderly = s.bb.orderly := by
  unfold State.putAway State.whenB
  split
  · obtain ⟨hpw, hbb⟩ := s.closeEpoch_kept 4
    exact ⟨hpw, congrArg (·.orderly) hbb⟩
  · exact ⟨rfl, rfl⟩

theorem State.orderly_facts (s : State) :
    s.orderly.pw.ready = s.pw.ready ∧ s.orderly.bb.orderly = s.bb.orderly + 1 ∧ s.orderly.mc = {} := by
  obtain ⟨hpw, horderly⟩ := s.putAway_kept
  obtain ⟨_, _, hcounts, hrecord⟩ := s.putAway.failRecord_eq true
  obtain ⟨hready, hbb, -, -⟩ := (s.putAway.failRecord true).loseVolatile_kept
  refine ⟨?_, ?_, (s.putAway.failRecord true).emptied_loseVolatile.cache⟩
  · calc s.orderly.pw.ready = (s.putAway.failRecord true).pw.ready := hready
      _ = s.putAway.pw.ready := by rw [hrecord]
      _ = s.pw.ready := by rw [hpw]
  · calc s.orderly.bb.orderly = (s.putAway.failRecord true).bb.orderly + 1 := congrArg (·.orderly + 1) hbb
      _ = s.putAway.bb.orderly + 1 := by rw [hrecord, hcounts.orderly]
      _ = s.bb.orderly + 1 := by rw [horderly]

/-- The state in which the start that DIAG.BOOT_RESTART asks for is due. -/
def State.restartAsked (s : State) (force skip : Nat) : State :=
  (s.orderly.modBt fun b => { b with fails := 0, pilot := 0, force := BitVec.ofNat 16 force, skip := BitVec.ofNat 16 skip }).startDue 4

theorem State.restartAsked_eq {s : State} (h : s.pw.ready = true) (force skip : Nat) :
    s.restartAsked force skip =
      { s.orderly with
        pw := { s.orderly.pw with phase := .ready },
        bt := { s.orderly.bt with fails := 0, pilot := 0, force := BitVec.ofNat 16 force, skip := BitVec.ofNat 16 skip, cause := 4 } } :=
  State.startDue_ready (s := s.orderly.modBt _) (s.orderly_facts.1.trans h) 4

theorem hBootRestart_restarts {s : State} {m : MsgReq} (hlen : m.payload.length = 8) (hmaps : bootMapsBad m.payload = none)
    (hrole : s.tw.role ≠ .primary) :
    hBootRestart s m = ((s.reply 0x0A 0x40 m {}).restartAsked (natAt m.payload 0 2) (natAt m.payload 2 2), none) := by
  have hfree : (s.tw.role == .primary) = false := by simpa using hrole
  simp only [hBootRestart, hlen, hmaps, hfree]
  rfl

theorem completes_diagBootRestart {m : MsgReq} {s : State} (hok : messageOk 0x0A 0x40 m s = true) (hlen : m.payload.length = 8)
    (hmaps : bootMapsBad m.payload = none) (hrole : s.tw.role ≠ .primary) (hready : s.pw.ready = true) :
    Completes (.diagBootRestart m) s fun t =>
      t.pw.phase = .ready ∧ t.bt.cause = 4 ∧ t.bt.fails = 0 ∧ t.bt.pilot = 0 ∧ t.bt.force.toNat = natAt m.payload 0 2
        ∧ t.bt.skip.toNat = natAt m.payload 2 2 ∧ t.bb.orderly = s.bb.orderly + 1 ∧ t.mc = {} := by
  have htaken : hBootRestart (s.takeIn (s.named m) 0x0A 0x40) (s.named m) = _ := hBootRestart_restarts hlen hmaps hrole
  have hmail : s.MailOnly ((s.takeIn (s.named m) 0x0A 0x40).reply 0x0A 0x40 (s.named m) {}) :=
    (s.mailOnly_takeIn _ _ _).trans (State.mailOnly_reply _ _ _ _ _)
  have hexec : exec (.diagBootRestart m) s = finishReset s (s.message 0x0A 0x40 hBootRestart m) := rfl
  rw [message_ok hok, htaken] at hexec
  generalize (s.takeIn (s.named m) 0x0A 0x40).reply 0x0A 0x40 (s.named m) {} = u at hmail hexec
  obtain ⟨hpw, hbb⟩ : u.pw = s.pw ∧ u.bb = s.bb := by
    obtain ⟨_, _, _, -, rfl⟩ := hmail
    exact ⟨rfl, rfl⟩
  obtain ⟨-, horderly, hcache⟩ := u.orderly_facts
  dsimp only at hexec
  rw [State.restartAsked_eq (hpw ▸ hready)] at hexec
  rw [hbb] at horderly
  refine completes_finishReset hexec hcache ⟨rfl, rfl, rfl, rfl, ?_, ?_, horderly, hcache⟩
  · exact Nat.mod_eq_of_lt (natAt_two_lt _ _)
  · exact Nat.mod_eq_of_lt (natAt_two_lt _ _)

/-! ## The statement -/

/-- Settles O16: each event comes to the reset, the failed start or the change to the boot state that its clause names. -/
theorem resetsAndStartEventsComplete : Obligations.Resets_and_start_events_complete := by
  refine ⟨fun s => ?tripped, fun s hphase hready => ?powerGood, fun s hstarts => ?timeout, fun s hup hruns hready => ?watchdog,
    fun code s hup => ?fatal, fun s hserves hopen => ?good, fun s hserves hdeferred => ?deferred,
    fun g s hserves himage hactive hslots hlower hday => ?floor, fun m s hok hlen hmaps hrole hready => ?restart⟩
  case tripped => exact completes_powerFailTrip s
  case powerGood => exact completes_powerGood hphase hready
  case timeout => exact completes_bootStepTimeout hstarts
  case watchdog => exact completes_hardwareWatchdog hup hruns hready
  case fatal => exact completes_fatalFault hup code
  case good => exact completes_startGood hserves hopen
  case deferred => exact completes_deferredServo hserves hdeferred
  case floor => exact completes_floorRaise hserves himage hactive hslots hlower hday
  case restart => exact completes_diagBootRestart hok hlen hmaps hrole hready

end Sys2Proof.Machine
end

section
/-! SUPPORT. A read from the media that brings its TLS connection to the change of its traffic keys (R188, R224). -/

namespace Sys2Proof.Machine

theorem State.Tended.out {s t : State} (h : s.Tended t) : t.out = s.out := by
  obtain ⟨_, _, _, -, rfl⟩ := h
  rfl

/-! ## The codewords of a read (R207) -/

/-- Counting the codewords of a read changes the media's error counts, beside the free values it takes. -/
theorem State.tended_countUpTo (n k : Nat) (s : State) : ∃ free, { s with free := free }.Tended (s.countUpTo n k) := by
  induction n generalizing k s with
  | zero => exact ⟨s.free, s.tended_countErrs 0 k⟩
  | succ n ih =>
    obtain ⟨free, hrest⟩ := ih (k - (Config.freeWord s.free).toNat % (k + 1))
      (s.spend.countErrs (n + 1) ((Config.freeWord s.free).toNat % (k + 1)))
    exact ⟨free, .trans (State.tended_countErrs _ _ _) hrest⟩

theorem State.tended_countRead (stage k : Nat) (s : State) : ∃ free, { s with free := free }.Tended (s.countRead stage k) := by
  cases stage with
  | zero => exact ⟨s.free, s.tended_countErrs 0 k⟩
  | succ n =>
    obtain ⟨free, hrest⟩ := State.tended_countUpTo n (k - (1 + (Config.freeWord s.free).toNat % k))
      (s.spend.countErrs (n + 1) (1 + (Config.freeWord s.free).toNat % k))
    exact ⟨free, .trans (State.tended_countErrs _ _ _) hrest⟩

/-! ## A read that returns (R188) -/

section
variable {s : State} {c : Cmd} {f : Found} {g : Nat}

theorem exec_mediaReadDone {ctrl sq cid : Nat} (hup : up s = true) (hcmd : s.cmd? ctrl sq cid = some c) (hphase : c.phase = .waitMedia)
    (corrected : Bool) : exec (.mediaReadDone ctrl sq cid corrected) s = finish s (s.mediaRead c corrected) := by
  have halive : s.alive = true := hup
  change execMediaReadDone ctrl sq cid corrected s = _
  simp [execMediaReadDone, hcmd, halive, hphase]

theorem State.mediaRead_corrected (hloc : c.loc = some (.nand g)) (hfound : s.find c.e.nsid c.key = some f) (hthere : f.slot.loc = .nand g)
    (hgood : g ∉ s.md.badNand) :
    s.mediaRead c true = (((s.countRead c.stage (s.codewords g f.record.granules)).cacheRecord g).serve c f.record).settleVictims := by
  simp [State.mediaRead, hloc, hfound, hthere, hgood]

/-- A corrected read whose data use up the traffic keys of their connection goes out with a request for new ones (R224). -/
theorem State.mediaRead_out_updated {k : Conn} (hloc : c.loc = some (.nand g)) (hfound : s.find c.e.nsid c.key = some f)
    (hthere : f.slot.loc = .nand g) (hgood : g ∉ s.md.badNand) (hgranule : c.granule = none) (hfwd : c.forwardedFrom = none)
    (hqueue : s.fe.hasQueue c.ctrl c.sq = true) (hconn : s.fe.connOf c.ctrl c.sq = some k) (hrdma : k.rdma = false)
    (hdata : f.record.value.take (fieldsOf c.kind c.e).bufSize ≠ [])
    (hfull : 2 ^ 24 ≤ k.txRecords + k.recordsOf (f.record.value.take (fieldsOf c.kind c.e).bufSize).length) :
    (s.mediaRead c true).out.length = s.out.length + 3 := by
  rw [State.mediaRead_corrected hloc hfound hthere hgood]
  obtain ⟨free, hcounted⟩ := s.tended_countRead c.stage (s.codewords g f.record.granules)
  have hcached : { s with free := free }.Tended ((s.countRead c.stage (s.codewords g f.record.granules)).cacheRecord g) :=
    hcounted.trans (State.tended_modMd rfl)
  generalize (s.countRead c.stage (s.codewords g f.record.granules)).cacheRecord g = u at hcached
  obtain ⟨hqueue', hconn', hout⟩ : u.fe.hasQueue c.ctrl c.sq = true ∧ u.fe.connOf c.ctrl c.sq = some k ∧ u.out = s.out := by
    obtain ⟨_, _, _, -, rfl⟩ := hcached
    exact ⟨hqueue, hconn, rfl⟩
  rw [(State.tended_settleVictims _).out, State.serve, State.completeRead_out hgranule hfwd hqueue' hconn' hrdma hdata hfull, hout]

end

/-! ## The statement -/

/-- A drive that reads a record of two bytes from NAND for a host whose connection is one TLS record short of the change of its keys (R224). -/
def mediaReading : State := { reading with fe := { reading.fe with conns := [connFull] } }

theorem mediaReading_find : mediaReading.find 1 [7] = some foundNand := found_at rfl rfl rfl rfl rfl (by decide) (by decide)

theorem mediaReading_data : foundNand.record.value.take (fieldsOf readingCmd.kind readingCmd.e).bufSize = [1, 2] := by decide

/-- The corrected read puts out the two bytes, a request for new keys and its entry. -/
theorem mediaReading_out : (mediaReading.mediaRead readingCmd true).out.length = mediaReading.out.length + 3 :=
  State.mediaRead_out_updated (f := foundNand) (g := 0) (k := connFull) rfl mediaReading_find rfl (by decide) rfl rfl (by decide) rfl rfl
    (by rw [mediaReading_data]; decide) (connFull_records _ (by rw [mediaReading_data]; decide))

/-- Refutes O14: a corrected read whose data bring their TLS connection to 2^24 records also asks for new keys, so more goes out than the
data and the entry. -/
theorem not_mediaHealthAndWearEventsComplete : ¬ Obligations.Media_health_and_wear_events_complete := by
  intro hall
  obtain ⟨-, -, -, -, -, -, -, -, -, -, hread, -⟩ := hall
  obtain ⟨-, -, hemits⟩ := (hread 1 1 7 0 readingCmd foundNand mediaReading rfl rfl rfl rfl mediaReading_find rfl (by decide) rfl rfl
    (by decide)).of_finish (exec_mediaReadDone rfl rfl rfl true)
  have hlength := congrArg List.length hemits
  rw [State.after_out, mediaReading_out, mediaReading_data] at hlength
  simp [ioData] at hlength

end Sys2Proof.Machine
end

section
/-! SUPPORT. The keys of the namespaces and their records: what a rewrap leaves of them, rotation, crypto-erase and its sweep, and a new KEK
(R215, R218 to R222, R240). -/

namespace Sys2Proof.Machine

/-! ## The answer to a SECURITY message (R240) -/

/-- What the messages and events of the keys leave to the other chapters: namespaces, index, Wax, policy CAM and connections. -/
structure State.KeepsData (s t : State) : Prop where
  namespaces : t.va.ns = s.va.ns
  index : t.ix = s.ix
  wax : t.wx = s.wx
  policy : t.cam.entries = s.cam.entries
  conns : t.fe.conns = s.fe.conns

theorem State.KeepsData.trans {s t u : State} (h : s.KeepsData t) (h' : t.KeepsData u) : s.KeepsData u :=
  ⟨h'.namespaces.trans h.namespaces, h'.index.trans h.index, h'.wax.trans h.wax, h'.policy.trans h.policy, h'.conns.trans h.conns⟩

theorem State.MailOnly.keepsData {s t : State} (h : s.MailOnly t) : s.KeepsData t := by
  obtain ⟨_, _, _, -, rfl⟩ := h
  exact ⟨rfl, rfl, rfl, rfl, rfl⟩

theorem State.MailOnly.ky {s t : State} (h : s.MailOnly t) : t.ky = s.ky := by
  obtain ⟨_, _, _, -, rfl⟩ := h
  rfl

theorem State.keepsData_after (s t : State) : t.KeepsData (s.after t) := ⟨rfl, rfl, rfl, rfl, rfl⟩

/-- Only the keys, the free values, the generations of the vendor logs, the media and the origins differ: the last two because an erase
takes live bytes away and abandons fills (R221, R304). -/
def State.Rekeyed (s t : State) : Prop :=
  ∃ ky free gen time md og,
    t = { s with ky := ky, free := free, fe := { s.fe with logGen := gen, logTime := time }, md := md, og := og }

theorem State.Rekeyed.keepsData {s t : State} (h : s.Rekeyed t) : s.KeepsData t := by
  obtain ⟨_, _, _, _, _, _, rfl⟩ := h
  exact ⟨rfl, rfl, rfl, rfl, rfl⟩

theorem State.Rekeyed.mail {s t : State} (h : s.Rekeyed t) : t.mb = s.mb ∧ t.mono = s.mono := by
  obtain ⟨_, _, _, _, _, _, rfl⟩ := h
  exact ⟨rfl, rfl⟩

/-- A message whose handler answers and changes the keys ends with the keys that the handler left (R403, R404). -/
theorem completes_rekeyed {c : Instr} {cls op : Nat} {m : MsgReq} {f : Handler} {s t : State} {a : Answer} {P : State → Prop}
    (h : exec c s = finish s (s.message cls op f m)) (hok : messageOk cls op m s = true)
    (hf : f (s.takeIn (s.named m) cls op) (s.named m) = (t, some a)) (ht : (s.takeIn (s.named m) cls op).Rekeyed t)
    (hp : ∀ w : State, w.ky = t.ky → s.KeepsData w → P w) :
    Completes c s fun w => Answered s w cls op m a.st a.detail a.body ∧ P w := by
  obtain ⟨hmb, hmono⟩ := ht.mail
  have hreply := t.mailOnly_reply cls op (s.named m) a
  have hdata := (s.mailOnly_takeIn (s.named m) cls op).keepsData.trans (ht.keepsData.trans hreply.keepsData)
  exact completes_answered h hok hf hmb hmono (hp _ hreply.ky (hdata.trans (s.keepsData_after _)))

/-! ## Key records that are wrapped anew (R215, R219) -/

theorem KeyRec.change_eq (r : KeyRec) (old new : Bytes) (slot counter : Nat) :
    ∃ wrapped tag, r.change old new slot counter = { r with slot := slot, nonce := counter, wrapped := wrapped, tag := tag } := by
  unfold KeyRec.change
  split
  · exact ⟨_, _, rfl⟩
  · exact ⟨_, _, rfl⟩

/-- What does not look at the wrapping and the slot of a record sees of a rewrap the change of the records alone. -/
theorem map_rewrap {α : Type} {g : KeyRec → α}
    (hg : ∀ r slot nonce wrapped tag, g { r with slot := slot, nonce := nonce, wrapped := wrapped, tag := tag } = g r)
    (old new : Bytes) (p : KeyRec → Bool) (f : KeyRec → KeyRec) (l : List KeyRec) (used : List Nat) (c : Nat) :
    (rewrap old new p f l used c).map g = l.map fun r => g (if p r then f r else r) := by
  induction l generalizing used c with
  | nil => rfl
  | cons r l ih =>
    by_cases hr : p r = true
    · obtain ⟨_, _, hchange⟩ := (f r).change_eq old new (leastNot used used.length 0) c
      simp [rewrap, hr, ih, hchange, hg]
    · simp [rewrap, hr, ih]

@[simp] theorem length_rewrap (old new : Bytes) (p : KeyRec → Bool) (f : KeyRec → KeyRec) (l : List KeyRec) (used : List Nat) (c : Nat) :
    (rewrap old new p f l used c).length = l.length := by
  simpa using congrArg List.length (map_rewrap (g := fun _ => ()) (fun _ _ _ _ _ => rfl) old new p f l used c)

/-- The newest generation follows from the namespaces and generations of the records. -/
theorem Keys.newest_congr {k k' : Keys} (h : k'.recs.map (fun r => (r.nsid, r.gen)) = k.recs.map fun r => (r.nsid, r.gen)) (nsid : Nat) :
    k'.newest nsid = k.newest nsid := by
  have hgens (k : Keys) : (k.recs.filter (·.nsid == nsid)).map (·.gen)
      = ((k.recs.map fun r => (r.nsid, r.gen)).filter (·.1 == nsid)).map (·.2) := by
    rw [List.filter_map, List.map_map]
    rfl
  rw [Keys.newest, Keys.newest, hgens k', hgens k, h]

/-! ## NS_ROTATE (R220) -/

/-- The keys in a rotation's second step, with the current record made previous and no new one yet. -/
def Keys.demoted (k : Keys) (nsid started : Nat) : Keys :=
  { k.change (fun r => r.nsid == nsid && r.state == 1) (fun r => { r with state := 2 }) with
      jobs := k.jobs ++ [{ nsid := nsid, kind := 0, pct := 0, started := started }] }

theorem Keys.newest_demoted (k : Keys) (nsid started : Nat) : (k.demoted nsid started).newest nsid = k.newest nsid := by
  refine Keys.newest_congr ((map_rewrap (fun _ _ _ _ _ => rfl) ..).trans (List.map_congr_left fun r _ => ?_)) nsid
  split <;> rfl

theorem State.rotate_eq (s : State) (n : Ns) :
    s.rotate n = (s.modKy fun k => k.demoted n.nsid s.mono).newKey n.nsid n.mode (s.ky.newest n.nsid + 1) :=
  congrArg (fun g => (s.modKy fun k => k.demoted n.nsid s.mono).newKey n.nsid n.mode (g + 1)) (s.ky.newest_demoted n.nsid s.mono)

/-- A new key stands behind the other records as the current one, wrapped with the next wrap nonce (R215, R218, R219). -/
theorem State.newKey_ky (s : State) (nsid : Nat) (mode : SealMode) (gen : Nat) :
    ∃ r, (s.newKey nsid mode gen).ky.recs = s.ky.recs ++ [r] ∧ r.nsid = nsid ∧ r.state = 1 ∧ r.gen = gen :=
  ⟨_, rfl, rfl, rfl, rfl⟩

theorem State.rekeyed_rotate (s : State) (n : Ns) : s.Rekeyed (s.rotate n) := ⟨_, _, _, _, _, _, rfl⟩

theorem State.rotate_recs (s : State) (n : Ns) :
    ((s.rotate n).ky.recs.take s.ky.recs.length).map (fun r => (r.nsid, r.gen, r.mode, r.time, r.state)) =
        s.ky.recs.map (fun r => (r.nsid, r.gen, r.mode, r.time, if r.nsid == n.nsid && r.state == 1 then 2 else r.state))
      ∧ ((s.rotate n).ky.recs.drop s.ky.recs.length).map (fun r => (r.nsid, r.state, r.gen)) = [(n.nsid, 1, s.ky.newest n.nsid + 1)] := by
  obtain ⟨r, hrecs, hnsid, hstate, hgen⟩ := (s.modKy fun k => k.demoted n.nsid s.mono).newKey_ky n.nsid n.mode (s.ky.newest n.nsid + 1)
  have hlength : (s.ky.demoted n.nsid s.mono).recs.length = s.ky.recs.length := length_rewrap ..
  rw [State.rotate_eq, hrecs, State.modKy_ky, List.take_left' hlength, List.drop_left' hlength]
  refine ⟨(map_rewrap (fun _ _ _ _ _ => rfl) ..).trans (List.map_congr_left fun r _ => ?_), by simp [hnsid, hstate, hgen]⟩
  split <;> rfl

theorem State.rotate_wrapCounter (s : State) (n : Ns) :
    (s.rotate n).ky.wrapCounter = s.ky.wrapCounter + s.ky.recs.countP (fun r => r.nsid == n.nsid && r.state == 1) + 1 := by
  rw [List.countP_eq_length_filter]
  rfl

theorem hNsRotate_starts {s : State} {m : MsgReq} {n : Ns} (hlen : m.payload.length = 4) (hkek : s.ky.kekPresent = true)
    (hns : s.nsOf (natAt m.payload 0 4) = some n) (hidle : s.ky.busy (natAt m.payload 0 4) = false) :
    hNsRotate s m = (s.rotate n, some {}) := by
  simp [hNsRotate, hlen, hkek, hns, hidle, doing]

theorem completes_nsRotate {m : MsgReq} {n : Ns} {s : State} (hok : messageOk 0x09 0x10 m s = true) (hlen : m.payload.length = 4)
    (hkek : s.ky.kekPresent = true) (hns : s.nsOf (natAt m.payload 0 4) = some n) (hidle : s.ky.busy (natAt m.payload 0 4) = false) :
    Completes (.nsRotate m) s fun t =>
      Answered s t 0x09 0x10 m .success 0 [[]] ∧ t.ky.jobs = s.ky.jobs ++ [{ nsid := n.nsid, kind := 0, pct := 0, started := s.mono }]
        ∧ (t.ky.recs.take s.ky.recs.length).map (fun r => (r.nsid, r.gen, r.mode, r.time, r.state)) =
            s.ky.recs.map (fun r => (r.nsid, r.gen, r.mode, r.time, if r.nsid == n.nsid && r.state == 1 then 2 else r.state))
        ∧ (t.ky.recs.drop s.ky.recs.length).map (fun r => (r.nsid, r.state, r.gen)) = [(n.nsid, 1, s.ky.newest n.nsid + 1)]
        ∧ t.ky.wrapCounter = s.ky.wrapCounter + s.ky.recs.countP (fun r => r.nsid == n.nsid && r.state == 1) + 1
        ∧ t.wx = s.wx ∧ t.ix = s.ix := by
  have htaken : hNsRotate (s.takeIn (s.named m) 0x09 0x10) (s.named m) = _ := hNsRotate_starts hlen hkek hns hidle
  have hin : (s.takeIn (s.named m) 0x09 0x10).ky = s.ky := rfl
  obtain ⟨hold, hnew⟩ := (s.takeIn (s.named m) 0x09 0x10).rotate_recs n
  have hcounter := (s.takeIn (s.named m) 0x09 0x10).rotate_wrapCounter n
  rw [hin] at hold hnew hcounter
  refine completes_rekeyed rfl hok htaken (State.rekeyed_rotate _ n) fun w hky hdata => ?_
  rw [hky]
  exact ⟨rfl, hold, hnew, hcounter, hdata.wax, hdata.index⟩

/-! ## NS_ERASE and ERASE_SWEEP_DONE (R221) -/

/-- A key record whose key bytes are gone (R221). -/
def KeyRec.erased (r : KeyRec) : KeyRec := { r with state := 3, wrapped := List.replicate 32 0, tag := List.replicate 16 0 }

/-- The keys once every generation of a namespace is erased, its rotation has stopped and its sweep has begun (R221). -/
def Keys.erased (k : Keys) (nsid started : Nat) : Keys :=
  { k with recs := k.recs.map (fun r => if r.nsid == nsid then r.erased else r),
           cache := k.cache.filter (·.1 ≠ nsid),
           jobs := k.jobs.filter (fun j => !(j.nsid == nsid && j.kind == 0)) ++ [{ nsid := nsid, kind := 1, pct := 0, started := started }] }

/-- With no Secure Delete under way an erase changes the keys, and of the media the live bytes. -/
theorem State.eraseKeys_eq {s : State} (h : s.md.secdel = []) (nsid : Nat) :
    ∃ md, s.eraseKeys nsid = { s with md := md, ky := s.ky.erased nsid s.mono } := by
  unfold State.eraseKeys State.secdelErased
  dsimp only [State.modKy, State.modMd]
  rw [h]
  exact ⟨_, rfl⟩

/-- The fills of a namespace store nothing any more (R304). -/
def Origin.abandoned (o : Origin) (nsid : Nat) : Origin :=
  { o with fills := o.fills.map fun f => if f.nsid == nsid then { f with abandoned := true } else f }

/-- An erased namespace: its fills store nothing, and it has one new key (R221, R304). -/
def State.eraseNs (s : State) (n : Ns) : State :=
  ((s.eraseKeys n.nsid).modOg (·.abandoned n.nsid)).newKey n.nsid n.mode ((s.eraseKeys n.nsid).ky.newest n.nsid + 1)

theorem State.eraseNs_eq {s : State} (h : s.md.secdel = []) (n : Ns) : ∃ md og, s.eraseNs n =
    { s with md := md, og := og, ky := s.ky.erased n.nsid s.mono }.newKey n.nsid n.mode ((s.ky.erased n.nsid s.mono).newest n.nsid + 1) := by
  obtain ⟨_, hkeys⟩ := State.eraseKeys_eq h n.nsid
  rw [State.eraseNs, hkeys]
  exact ⟨_, _, rfl⟩

theorem State.rekeyed_eraseNs {s : State} (h : s.md.secdel = []) (n : Ns) : s.Rekeyed (s.eraseNs n) := by
  obtain ⟨_, _, herased⟩ := State.eraseNs_eq h n
  rw [herased]
  exact ⟨_, _, _, _, _, _, rfl⟩

theorem State.sweeping_eraseNs {s : State} (h : s.md.secdel = []) (n : Ns) : (s.eraseNs n).ky.sweeping n.nsid = true := by
  obtain ⟨_, _, herased⟩ := State.eraseNs_eq h n
  rw [herased]
  show (s.ky.erased n.nsid s.mono).sweeping n.nsid = true
  simp [Keys.sweeping, Keys.erased]

/-- No earlier record of the namespace unseals any more. -/
theorem Keys.unsealing_erased (k : Keys) (nsid started : Nat) :
    (k.erased nsid started).recs.filter (fun r => r.nsid == nsid && r.state != 3) = [] := by
  rw [List.filter_eq_nil_iff]
  intro r hr
  obtain ⟨x, -, rfl⟩ := List.mem_map.mp hr
  by_cases hx : x.nsid = nsid
  · simp [hx, KeyRec.erased]
  · simp [hx]

/-- The one record that unseals after an erase is the new one, behind the others. -/
theorem State.eraseNs_recs {s : State} (h : s.md.secdel = []) (n : Ns) :
    (s.eraseNs n).ky.recs.filter (fun r => r.nsid == n.nsid && r.state != 3) = (s.eraseNs n).ky.recs.drop s.ky.recs.length
      ∧ (s.eraseNs n).ky.recs.length = s.ky.recs.length + 1 := by
  obtain ⟨md, og, herased⟩ := State.eraseNs_eq h n
  have hlength : (s.ky.erased n.nsid s.mono).recs.length = s.ky.recs.length := List.length_map _
  obtain ⟨r, hrecs, hnsid, hstate, -⟩ := State.newKey_ky { s with md := md, og := og, ky := s.ky.erased n.nsid s.mono } n.nsid n.mode
    ((s.ky.erased n.nsid s.mono).newest n.nsid + 1)
  rw [herased, hrecs, List.drop_left' hlength, List.filter_append, Keys.unsealing_erased]
  simp [hnsid, hstate, hlength]

theorem hNsErase_erases {s : State} {m : MsgReq} {n : Ns} (hlen : m.payload.length = 4) (hkek : s.ky.kekPresent = true)
    (hns : s.nsOf (natAt m.payload 0 4) = some n) (hnsid : n.nsid = natAt m.payload 0 4)
    (hfree : n.type ≠ .ledger ∨ s.ledgerBound n.nsid = false) (hidle : s.ky.sweeping n.nsid = false) :
    hNsErase s m = (s.eraseNs n, some {}) := by
  have hunbound : (n.type == .ledger && s.ledgerBound n.nsid) = false := by
    rcases hfree with h | h
    · simp [h]
    · simp [h]
  rw [hnsid] at hunbound hidle
  simp only [hNsErase, hlen, hkek, hns, hunbound, hidle, doing, State.eraseNs, hnsid]
  rfl

theorem completes_nsErase {m : MsgReq} {n : Ns} {s : State} (hok : messageOk 0x09 0x11 m s = true) (hlen : m.payload.length = 4)
    (hkek : s.ky.kekPresent = true) (hns : s.nsOf (natAt m.payload 0 4) = some n) (hnsid : n.nsid = natAt m.payload 0 4)
    (hfree : n.type ≠ .ledger ∨ s.ledgerBound n.nsid = false) (hidle : s.ky.sweeping n.nsid = false) (hsecdel : s.md.secdel = []) :
    Completes (.nsErase m) s fun t =>
      Answered s t 0x09 0x11 m .success 0 [[]] ∧ t.ky.sweeping n.nsid = true
        ∧ t.ky.recs.filter (fun r => r.nsid == n.nsid && r.state != 3) = t.ky.recs.drop s.ky.recs.length
        ∧ t.ky.recs.length = s.ky.recs.length + 1 ∧ t.va.ns = s.va.ns ∧ t.cam.entries = s.cam.entries := by
  have htaken : hNsErase (s.takeIn (s.named m) 0x09 0x11) (s.named m) = _ := hNsErase_erases hlen hkek hns hnsid hfree hidle
  obtain ⟨hnew, hlength⟩ := State.eraseNs_recs (s := s.takeIn (s.named m) 0x09 0x11) hsecdel n
  have hsweeps := State.sweeping_eraseNs (s := s.takeIn (s.named m) 0x09 0x11) hsecdel n
  refine completes_rekeyed rfl hok htaken (State.rekeyed_eraseNs (s := s.takeIn _ _ _) hsecdel n) fun w hky hdata => ?_
  rw [hky]
  exact ⟨hsweeps, hnew, hlength, hdata.namespaces, hdata.policy⟩

/-! ### The sweep -/

theorem State.Tended.ky {s t : State} (h : s.Tended t) : t.ky = s.ky := by
  obtain ⟨_, _, _, -, rfl⟩ := h
  rfl

theorem State.ky_endCheckpoint (s : State) : s.endCheckpoint.ky = s.ky := by
  unfold State.endCheckpoint
  split
  · split
    · rfl
    · exact (State.tended_settleVictims _).ky
  · rfl

theorem State.ky_closeBand (s : State) (b : Band) : (s.closeBand b).ky = s.ky :=
  (State.ky_endCheckpoint _).trans ((State.tended_retryInternal _).ky.trans (State.tended_settleVictims _).ky)

theorem State.ky_foldl {α : Type} {f : State → α → State} (h : ∀ s a, (f s a).ky = s.ky) (l : List α) (s : State) :
    (l.foldl f s).ky = s.ky :=
  List.foldlRecOn (motive := fun u : State => u.ky = s.ky) l f rfl fun u hu a _ => (h u a).trans hu

theorem State.ky_dropRecord (s : State) (loc : Loc) (bytes : Nat) : (s.dropRecord loc bytes).ky = s.ky := by
  cases loc with
  | wax g => rfl
  | nand g => exact (State.ky_foldl State.ky_closeBand _ _).trans (State.tended_settleVictims _).ky

/-- The sweep takes the erased records of the namespace, and ends. -/
theorem State.sweepErased_ky (s : State) (nsid : Nat) :
    (s.sweepErased nsid).ky = { s.ky with recs := s.ky.recs.filter (fun r => !(r.nsid == nsid && r.state == 3)),
                                          jobs := s.ky.jobs.filter fun j => !(j.nsid == nsid && j.kind == 1) } := by
  unfold State.sweepErased
  extract_lets gone swept
  have hswept : swept.ky = s.ky := by
    refine State.ky_foldl (fun u p => ?_) gone s
    obtain ⟨l, r⟩ := p
    dsimp only
    split
    · exact (State.ky_dropRecord _ _ _).trans (u.tended_index _).ky
    · rfl
  rw [State.modKy_ky, hswept]

theorem completes_eraseSweepDone {nsid : Nat} {s : State} (hworks : s.mediaWork = true) (hsweeps : s.ky.sweeping nsid = true) :
    Completes (.eraseSweepDone nsid) s fun t =>
      t.ky.sweeping nsid = false ∧ t.ky.recs = s.ky.recs.filter (fun r => !(r.nsid == nsid && r.state == 3)) ∧ t.va.ns = s.va.ns := by
  have hexec : exec (.eraseSweepDone nsid) s = finish s (s.sweepErased nsid) :=
    congrArg (finish s) (if_pos (by rw [hworks, hsweeps]; rfl))
  have hns : (s.sweepErased nsid).va.ns = s.va.ns := congrArg Prod.fst (s.outlook_sweepErased nsid)
  refine completes_finish hexec ?_
  rw [State.after_ky, State.after_va, State.sweepErased_ky]
  refine ⟨?_, rfl, hns⟩
  rw [Keys.sweeping, List.any_filter, List.any_eq_false]
  intro j _
  rw [Bool.not_and_self]
  exact Bool.false_ne_true

/-! ## ROTATION_DONE and NS_KEY_STATUS (R220, R240) -/

theorem completes_rotationDone {nsid : Nat} {s : State} (hworks : s.mediaWork = true)
    (hrotates : s.ky.jobs.any (fun j => j.nsid == nsid && j.kind == 0) = true) (hnone : s.recordsOf nsid s.previousGen = [])
    (hsealed : s.sealsPrevious nsid = false) :
    Completes (.rotationDone nsid) s fun t =>
      t.ky.recs = s.ky.recs.filter (fun r => !(r.nsid == nsid && r.state == 2))
        ∧ t.ky.jobs = s.ky.jobs.filter (fun j => !(j.nsid == nsid && j.kind == 0)) ∧ t.wx = s.wx := by
  have hgoes : ¬ (!s.mediaWork || !(s.ky.jobs.any fun j => j.nsid == nsid && j.kind == 0) || !(s.recordsOf nsid s.previousGen).isEmpty
      || s.sealsPrevious nsid) = true := by
    rw [hworks, hrotates, hnone, hsealed]
    decide
  exact completes_finish (congrArg (finish s) (if_neg hgoes)) ⟨rfl, rfl, rfl⟩

/-- The progress of a rotation is a part of its records, and that of a sweep stays below 100 above what the job tells (R220, R221). -/
theorem State.keyProgress_le {s : State} {nsid : Nat} {j : KeyJob} (hjob : s.ky.jobs.find? (·.nsid == nsid) = some j)
    (hpct : j.pct ≤ 100) : s.keyProgress nsid ≤ 100 := by
  simp only [State.keyProgress, hjob]
  split
  · split
    · exact le_rfl
    · exact Nat.div_le_of_le_mul (Nat.mul_le_mul_right 100 (Nat.sub_le _ _))
  · omega

theorem hNsKeyStatus_tells {s : State} {m : MsgReq} {n : Ns} (hlen : m.payload.length = 4) (hns : s.nsOf (natAt m.payload 0 4) = some n) :
    hNsKeyStatus s m = (s.spend, some (answer (leBytes 4 (s.currentGen (natAt m.payload 0 4)) ++ leBytes 1 n.mode.code
      ++ leBytes 1 (s.keyProgress (natAt m.payload 0 4))))) := by
  simp only [hNsKeyStatus, hlen, hns, doing]
  rfl

theorem completes_nsKeyStatus {m : MsgReq} {n : Ns} {s : State} (hok : messageOk 0x09 0x12 m s = true) (hlen : m.payload.length = 4)
    (hns : s.nsOf (natAt m.payload 0 4) = some n) :
    Completes (.nsKeyStatus m) s fun t => t.ky = s.ky ∧ ∃ p : Nat,
      Answered s t 0x09 0x12 m .success 0 [leBytes 4 (s.currentGen (natAt m.payload 0 4)) ++ leBytes 1 n.mode.code ++ leBytes 1 p]
        ∧ (∀ j, s.ky.jobs.find? (·.nsid == natAt m.payload 0 4) = some j → j.pct ≤ 100 → p ≤ 100) := by
  have htaken : hNsKeyStatus (s.takeIn (s.named m) 0x09 0x12) (s.named m) = _ := hNsKeyStatus_tells hlen hns
  obtain ⟨t, hexec, hanswered, hky⟩ := completes_rekeyed (c := .nsKeyStatus m) (P := fun t => t.ky = s.ky) rfl hok htaken
    ⟨_, _, _, _, _, _, rfl⟩ fun w hky _ => hky
  exact ⟨t, hexec, hky, _, hanswered, fun j => State.keyProgress_le (s := s.takeIn (s.named m) 0x09 0x12)⟩

/-! ## KEK_ROTATE (R222) -/

theorem State.rekeyed_kekRotate (s : State) : s.Rekeyed s.kekRotate := ⟨_, _, _, _, _, _, rfl⟩

theorem State.kekRotate_recs (s : State) :
    s.kekRotate.ky.recs.map (fun r => (r.nsid, r.gen, r.state, r.kekGen)) =
      s.ky.recs.map fun r => (r.nsid, r.gen, r.state, s.ky.kekGen + 1) :=
  map_rewrap (fun _ _ _ _ _ => rfl) ..

theorem State.kekRotate_psks (s : State) :
    s.kekRotate.ky.psks.map (fun p => (p.host, p.identity, p.kekGen)) = s.ky.psks.map fun p => (p.host, p.identity, s.ky.kekGen + 1) := by
  calc s.kekRotate.ky.psks.map (fun p => (p.host, p.identity, p.kekGen))
      = s.ky.psks.zipIdx.map ((fun p => (p.host, p.identity, s.ky.kekGen + 1)) ∘ Prod.fst) := List.map_map
    _ = (s.ky.psks.zipIdx.map Prod.fst).map fun p => (p.host, p.identity, s.ky.kekGen + 1) := List.map_map.symm
    _ = _ := by rw [List.zipIdx_map_fst]

theorem hKekRotate_rotates {s : State} {m : MsgReq} (hempty : m.payload = []) (hkek : s.ky.kekPresent = true) :
    hKekRotate s m = (s.kekRotate, some {}) := by
  simp [hKekRotate, hempty, hkek, doing]

theorem completes_kekRotate {m : MsgReq} {s : State} (hok : messageOk 0x09 0x13 m s = true) (hempty : m.payload = [])
    (hkek : s.ky.kekPresent = true) :
    Completes (.kekRotate m) s fun t =>
      Answered s t 0x09 0x13 m .success 0 [[]] ∧ t.ky.kekGen = s.ky.kekGen + 1
        ∧ t.ky.recs.map (fun r => (r.nsid, r.gen, r.state, r.kekGen)) = s.ky.recs.map (fun r => (r.nsid, r.gen, r.state, s.ky.kekGen + 1))
        ∧ t.ky.psks.map (fun p => (p.host, p.identity, p.kekGen)) = s.ky.psks.map (fun p => (p.host, p.identity, s.ky.kekGen + 1))
        ∧ t.ky.wrapCounter = s.ky.wrapCounter + s.ky.recs.length + s.ky.psks.length := by
  have htaken : hKekRotate (s.takeIn (s.named m) 0x09 0x13) (s.named m) = _ := hKekRotate_rotates hempty hkek
  have hrecs := (s.takeIn (s.named m) 0x09 0x13).kekRotate_recs
  have hpsks := (s.takeIn (s.named m) 0x09 0x13).kekRotate_psks
  refine completes_rekeyed rfl hok htaken (State.rekeyed_kekRotate _) fun w hky _ => ?_
  rw [hky]
  exact ⟨rfl, hrecs, hpsks, rfl⟩

end Sys2Proof.Machine
end

section
/-! SUPPORT. Pre-shared keys, the certificate chain, and the epochs with their signatures and the receipt store (R62, R224, R228 to R234,
R238, R240). -/

namespace Sys2Proof.Machine

/-! ## PSK_ADD, PSK_REMOVE and CERT_GET (R62, R224, R238, R240) -/

/-- The host NQN of a payload of PSK_ADD or PSK_REMOVE, and the identity of one of PSK_ADD (R240). -/
def pskHost (p : Bytes) : Nqn := trimZero (bytesAt p 0 224)
def pskIdentity (p : Bytes) : Bytes := (p.drop 224).take (p.length - 272)

/-- The pre-shared keys but those of one host and identity. -/
def Keys.pskOthers (k : Keys) (host : Nqn) (identity : Bytes) : List Psk := k.psks.filter fun x => !(x.host == host && x.identity == identity)

/-- The keys with a pre-shared key enrolled in place of an older one of its host and identity. -/
def Keys.enrolled (k : Keys) (p : Bytes) : Keys :=
  { k with psks := k.pskOthers (pskHost p) (pskIdentity p) ++ [k.newPsk (pskHost p) (pskIdentity p) (p.drop (p.length - 48))],
           wrapCounter := k.wrapCounter + 1 }

theorem hPskAdd_enrols {s : State} {m : MsgReq} (hlen : 273 ≤ m.payload.length) (hkek : s.ky.kekPresent = true)
    (hform : pskIdentityOk (pskIdentity m.payload) = true)
    (hroom : (s.ky.pskOthers (pskHost m.payload) (pskIdentity m.payload)).length < 256) :
    hPskAdd s m = (s.modKy (·.enrolled m.payload), some {}) := by
  unfold pskIdentity at hform
  unfold Keys.pskOthers pskHost pskIdentity at hroom
  simp only [hPskAdd, Nat.not_lt.mpr hlen, hkek, hform, Nat.not_le.mpr hroom, doing]
  rfl

theorem completes_pskAdd {m : MsgReq} {s : State} (hok : messageOk 0x09 0x01 m s = true) (hlen : 273 ≤ m.payload.length)
    (hkek : s.ky.kekPresent = true) (hform : pskIdentityOk (pskIdentity m.payload) = true)
    (hroom : (s.ky.pskOthers (pskHost m.payload) (pskIdentity m.payload)).length < 256) :
    Completes (.pskAdd m) s fun t =>
      Answered s t 0x09 0x01 m .success 0 [[]] ∧ t.ky = s.ky.enrolled m.payload ∧ t.fe.conns = s.fe.conns := by
  have htaken : hPskAdd (s.takeIn (s.named m) 0x09 0x01) (s.named m) = _ := hPskAdd_enrols hlen hkek hform hroom
  exact completes_rekeyed rfl hok htaken ⟨_, _, _, _, _, _, rfl⟩ fun w hky hdata => ⟨hky, hdata.conns⟩

theorem hPskRemove_removes {s : State} {m : MsgReq} (hlen : 225 ≤ m.payload.length)
    (hthere : s.ky.psks.any (fun k => k.host == pskHost m.payload && k.identity == m.payload.drop 224) = true) :
    hPskRemove s m = (s.modKy fun k => { k with psks := k.pskOthers (pskHost m.payload) (m.payload.drop 224) }, some {}) := by
  unfold pskHost at hthere
  simp only [hPskRemove, Nat.not_lt.mpr hlen, hthere, doing]
  rfl

theorem completes_pskRemove {m : MsgReq} {s : State} (hok : messageOk 0x09 0x02 m s = true) (hlen : 225 ≤ m.payload.length)
    (hthere : s.ky.psks.any (fun k => k.host == pskHost m.payload && k.identity == m.payload.drop 224) = true) :
    Completes (.pskRemove m) s fun t =>
      Answered s t 0x09 0x02 m .success 0 [[]] ∧ t.ky.psks = s.ky.pskOthers (pskHost m.payload) (m.payload.drop 224)
        ∧ t.fe.conns = s.fe.conns := by
  have htaken : hPskRemove (s.takeIn (s.named m) 0x09 0x02) (s.named m) = _ := hPskRemove_removes hlen hthere
  exact completes_rekeyed rfl hok htaken ⟨_, _, _, _, _, _, rfl⟩ fun w hky hdata => ⟨congrArg (·.psks) hky, hdata.conns⟩

theorem completes_certGet {m : MsgReq} {s : State} (hok : messageOk 0x09 0x22 m s = true) (hempty : m.payload = []) :
    Completes (.certGet m) s fun t => Answered s t 0x09 0x22 m .success 0 (answerLong s.chainArea).body ∧ t.ky = s.ky := by
  have htaken : hCertGet (s.takeIn (s.named m) 0x09 0x22) (s.named m) = (s.takeIn (s.named m) 0x09 0x22, some (answerLong s.chainArea)) :=
    if_neg (not_not_intro hempty)
  exact completes_rekeyed rfl hok htaken ⟨_, _, _, _, _, _, rfl⟩ fun w hky _ => hky

/-! ## Epochs (R228, R231) -/

theorem hEpochSet_sets {s : State} {m : MsgReq} (hlen : m.payload.length = 2) (hmin : 1 ≤ natAt m.payload 0 2)
    (hmax : natAt m.payload 0 2 ≤ 1000) :
    hEpochSet s m = ((s.modKy fun k => { k with epochMs := natAt m.payload 0 2 }).logChanged 2, some {}) := by
  have hrange : ¬ (natAt m.payload 0 2 = 0 ∨ 1000 < natAt m.payload 0 2) := by omega
  simp only [hEpochSet, hlen, hrange, doing]
  rfl

theorem completes_epochSet {m : MsgReq} {s : State} (hok : messageOk 0x09 0x20 m s = true) (hlen : m.payload.length = 2)
    (hmin : 1 ≤ natAt m.payload 0 2) (hmax : natAt m.payload 0 2 ≤ 1000) :
    Completes (.epochSet m) s fun t =>
      Answered s t 0x09 0x20 m .success 0 [[]] ∧ t.ky = { s.ky with epochMs := natAt m.payload 0 2 } := by
  have htaken : hEpochSet (s.takeIn (s.named m) 0x09 0x20) (s.named m) = _ := hEpochSet_sets hlen hmin hmax
  exact completes_rekeyed rfl hok htaken ⟨_, _, _, _, _, _, rfl⟩ fun w hky _ => hky

/-- The keys once the open epoch has closed with a root record (R228, R232). -/
def Keys.closed (k : Keys) (o : OpenEpoch) (root : Bytes) : Keys :=
  { k with open_ := none, lastRoot := some root, waiting := k.waiting ++ [{ number := o.number, root := root, leaves := o.leaves }] }

theorem State.closeEpoch_open {s : State} {o : OpenEpoch} (h : s.ky.open_ = some o) (flags : Nat) :
    s.closeEpoch flags = (s.modKy (·.closed o (s.rootRecord o flags))).logChanged 2 := by
  simp only [State.closeEpoch, h]
  rfl

theorem hEpochClose_closes {s : State} {m : MsgReq} {o : OpenEpoch} (hempty : m.payload = []) (hopen : s.ky.open_ = some o) :
    hEpochClose s m = ((s.modKy (·.closed o (s.rootRecord o 4))).logChanged 2, some {}) := by
  rw [hEpochClose, if_neg (not_not_intro hempty), State.closeEpoch_open hopen, doing]

theorem completes_epochClose {m : MsgReq} {o : OpenEpoch} {s : State} (hok : messageOk 0x09 0x21 m s = true) (hempty : m.payload = [])
    (hopen : s.ky.open_ = some o) :
    Completes (.epochClose m) s fun t => Answered s t 0x09 0x21 m .success 0 [[]] ∧ t.ky = s.ky.closed o (s.rootRecord o 4) := by
  have htaken : hEpochClose (s.takeIn (s.named m) 0x09 0x21) (s.named m) = _ := hEpochClose_closes hempty hopen
  exact completes_rekeyed rfl hok htaken ⟨_, _, _, _, _, _, rfl⟩ fun w hky _ => hky

theorem completes_epochLengthElapsed {o : OpenEpoch} {s : State} (hup : up s = true) (hopen : s.ky.open_ = some o) :
    Completes .epochLengthElapsed s fun t => t.ky = s.ky.closed o (s.rootRecord o 0) := by
  refine completes_finish (congrArg (finish s) (if_pos hup)) ?_
  rw [State.closeEpoch_open hopen]
  rfl

/-! ## The receipt store (R232, R234) -/

theorem State.pruneEpoch_ky {s : State} {e : ClosedEpoch} {rest : List ClosedEpoch} (h : s.ky.store = e :: rest) :
    s.pruneEpoch.ky = { s.ky with store := rest, pruned := s.ky.pruned + 1 } := by
  simp only [State.pruneEpoch, h]
  rfl

theorem completes_receiptStorePrune {e : ClosedEpoch} {rest : List ClosedEpoch} {s : State} (hup : up s = true)
    (hstore : s.ky.store = e :: rest) (hfull : s.ky.storeFull = true) :
    Completes .receiptStorePrune s fun t => t.ky = { s.ky with store := rest, pruned := s.ky.pruned + 1 } :=
  completes_finish (congrArg (finish s) (if_pos (by rw [hfull]; exact (Bool.and_true _).trans hup))) (State.pruneEpoch_ky hstore)

/-- What is pruned to make room is the oldest of the store, and nothing while the store has room. -/
theorem State.pruneFor_ky (n : Nat) (s : State) : ∃ k ≤ s.ky.store.length,
    (s.pruneFor n).ky = { s.ky with store := s.ky.store.drop k, pruned := s.ky.pruned + k } ∧ (s.ky.storeFull = false → k = 0) := by
  induction n generalizing s with
  | zero => exact ⟨0, Nat.zero_le _, rfl, fun _ => rfl⟩
  | succ n ih =>
    rw [State.pruneFor]
    split
    next hprunes =>
      simp only [Bool.and_eq_true, Bool.not_eq_true', List.isEmpty_eq_false_iff_exists_mem] at hprunes
      obtain ⟨hfull, hsome⟩ := hprunes
      match hstore : s.ky.store with
      | [] => simp [hstore] at hsome
      | e :: rest =>
        obtain ⟨k, hk, hky, -⟩ := ih s.pruneEpoch
        rw [State.pruneEpoch_ky hstore] at hk hky
        refine ⟨k + 1, Nat.succ_le_succ hk, ?_, fun h => absurd hfull (by simp [h])⟩
        rw [hky, Nat.add_assoc, Nat.add_comm 1 k]
        rfl
    · exact ⟨0, Nat.zero_le _, rfl, fun _ => rfl⟩

/-- Signing makes room in the store, and puts the oldest waiting epoch behind the others with its signatures. -/
theorem State.signEpoch_ky {s : State} {e : ClosedEpoch} {rest : List ClosedEpoch} (h : s.ky.waiting = e :: rest) :
    ∃ g, s.signEpoch.ky.waiting = rest
      ∧ s.signEpoch.ky.store = (s.pruneFor s.ky.store.length).ky.store ++ [{ e with sigs := some g }]
      ∧ s.signEpoch.ky.lastSigned = e.number := by
  simp only [State.signEpoch, h]
  exact ⟨_, rfl, rfl, rfl⟩

theorem completes_epochSigned {e : ClosedEpoch} {rest : List ClosedEpoch} {s : State} (hup : up s = true) (hkey : s.ky.receiptKey = true)
    (hon : s.ky.signOff = false) (hlife : s.lifecycle ≠ .retired) (hwaits : s.ky.waiting = e :: rest) :
    Completes .epochSigned s fun t =>
      t.ky.waiting = rest
        ∧ (∃ k ≤ s.ky.store.length, t.ky.store.map (·.number) = (s.ky.store.map (·.number)).drop k ++ [e.number]
            ∧ (s.ky.storeFull = false → k = 0))
        ∧ t.ky.store.all (fun x => decide (x ∈ s.ky.store) || x.sigs.isSome) = true
        ∧ t.ky.lastSigned = e.number := by
  have hsigns : (s.alive && s.ky.receiptKey && !s.ky.signOff && s.lifecycle != .retired) = true := by
    have halive : s.alive = true := hup
    simp [halive, hkey, hon, hlife]
  obtain ⟨k, hk, hpruned, hroom⟩ := s.pruneFor_ky s.ky.store.length
  obtain ⟨g, hwaiting, hstore, hlast⟩ := State.signEpoch_ky hwaits
  refine completes_finish (congrArg (finish s) (if_pos hsigns)) ?_
  rw [State.after_ky, hwaiting, hstore, hlast, hpruned]
  refine ⟨rfl, ⟨k, hk, by simp [List.map_drop], hroom⟩, ?_, rfl⟩
  rw [List.all_append, Bool.and_eq_true]
  refine ⟨List.all_eq_true.mpr fun x hx => ?_, by simp⟩
  simp [List.mem_of_mem_drop hx]

/-! ## The statement -/

/-- Settles O20: each message meets its handler's conditions, each event its guard, and the change to the keys is the one named. -/
theorem keyAndEpochCommandsComplete : Obligations.Key_and_epoch_commands_complete := by
  refine ⟨fun m n s hok hlen hkek hns hidle _ => ?rotate, fun m n s hok hlen hkek hns hnsid hfree hidle hsecdel => ?erase,
    fun nsid s hworks hrotates hnone hsealed => ?rotationDone, fun nsid s hworks hsweeps => ?sweepDone,
    fun m n s hok hlen hns => ?keyStatus, fun m s hok hempty hkek => ?kekRotate, fun m s hok hlen hkek hform hroom => ?pskAdd,
    fun m s hok hlen hthere => ?pskRemove, fun m s hok hlen hmin hmax => ?epochSet, fun m o s hok hempty hopen => ?epochClose,
    fun o s hup hopen => ?epochElapsed, fun e rest s hup hkey hon hlife hwaits => ?epochSigned,
    fun e rest s hup hstore hfull => ?prune, fun m s hok hempty => ?certGet⟩
  case rotate => exact completes_nsRotate hok hlen hkek hns hidle
  case erase => exact completes_nsErase hok hlen hkek hns hnsid hfree hidle hsecdel
  case rotationDone => exact completes_rotationDone hworks hrotates hnone hsealed
  case sweepDone => exact completes_eraseSweepDone hworks hsweeps
  case keyStatus => exact completes_nsKeyStatus hok hlen hns
  case kekRotate => exact completes_kekRotate hok hempty hkek
  case pskAdd =>
    obtain ⟨t, hexec, hanswered, hky, hconns⟩ := completes_pskAdd hok hlen hkek hform hroom
    exact ⟨t, hexec, hanswered, congrArg (·.psks) hky, congrArg (·.wrapCounter) hky, hconns⟩
  case pskRemove => exact completes_pskRemove hok hlen hthere
  case epochSet => exact completes_epochSet hok hlen hmin hmax
  case epochClose => exact completes_epochClose hok hempty hopen
  case epochElapsed => exact completes_epochLengthElapsed hup hopen
  case epochSigned => exact completes_epochSigned hup hkey hon hlife hwaits
  case prune => exact completes_receiptStorePrune hup hstore hfull
  case certGet => exact completes_certGet hok hempty

end Sys2Proof.Machine
end

section
/-! SUPPORT. The winner of a CAM lookup as the first of the matching entries in the order of priority and address (R245). -/

namespace Sys2Proof.Machine

/-! ## The order of the entries (R245) -/

/-- One entry ranks no lower than another: its priority number is lower, or the same with an address that is not higher (R245). -/
def Outranks (a b : Nat × CamEntry) : Prop := a.2.prio.toNat < b.2.prio.toNat ∨ (a.2.prio = b.2.prio ∧ a.1 ≤ b.1)

theorem Outranks.refl (a : Nat × CamEntry) : Outranks a a := .inr ⟨rfl, Nat.le_refl _⟩

theorem Outranks.trans {a b c : Nat × CamEntry} (hab : Outranks a b) (hbc : Outranks b c) : Outranks a c := by
  obtain hab | ⟨hab, hab'⟩ := hab
  · obtain hbc | ⟨hbc, -⟩ := hbc
    · exact .inl (hab.trans hbc)
    · exact .inl (hbc ▸ hab)
  · obtain hbc | ⟨hbc, hbc'⟩ := hbc
    · exact .inl (hab ▸ hbc)
    · exact .inr ⟨hab.trans hbc, hab'.trans hbc'⟩

/-- The better of two entries is one of them and outranks both. -/
theorem better_outranks (a b : Nat × CamEntry) : (better a b = a ∨ better a b = b) ∧ Outranks (better a b) a ∧ Outranks (better a b) b := by
  unfold better
  split
  next hb => exact ⟨.inr rfl, hb.imp_right fun ⟨hprio, haddr⟩ => ⟨hprio, haddr.le⟩, .refl b⟩
  next hb =>
    simp only [not_or, not_lt, not_and] at hb
    obtain ⟨hprio, haddr⟩ := hb
    refine ⟨.inl rfl, .refl a, (Nat.lt_or_eq_of_le hprio).imp_right fun heq => ?_⟩
    exact ⟨BitVec.eq_of_toNat_eq heq, haddr (BitVec.eq_of_toNat_eq heq.symm)⟩

theorem foldl_better (l : List (Nat × CamEntry)) (a : Nat × CamEntry) :
    l.foldl better a ∈ a :: l ∧ ∀ p ∈ a :: l, Outranks (l.foldl better a) p := by
  induction l generalizing a with
  | nil => simpa using Outranks.refl a
  | cons b l ih =>
    obtain ⟨hmem, hbest⟩ := ih (better a b)
    obtain ⟨hone, ha, hb⟩ := better_outranks a b
    have hfirst : Outranks (l.foldl better (better a b)) (better a b) := hbest _ List.mem_cons_self
    rw [List.foldl_cons]
    refine ⟨?_, fun p hp => ?_⟩
    · obtain hw | hw := List.mem_cons.mp hmem
      · rw [hw]
        exact hone.elim (fun h => by simp [h]) fun h => by simp [h]
      · exact List.mem_cons_of_mem _ (List.mem_cons_of_mem _ hw)
    · obtain rfl | hp := List.mem_cons.mp hp
      · exact hfirst.trans ha
      obtain rfl | hp := List.mem_cons.mp hp
      · exact hfirst.trans hb
      · exact hbest p (List.mem_cons_of_mem _ hp)

/-! ## The winner (R245, R248) -/

/-- The local, or the global, entries of this drive that match a lookup key. -/
def Cam.matching (c : Cam) (global : Bool) (k : LKey) : List (Nat × CamEntry) :=
  c.entries.filter fun p => p.2.isGlobal == global && p.2.hits k

theorem Cam.mem_matching {c : Cam} {global : Bool} {k : LKey} {p : Nat × CamEntry} :
    p ∈ c.matching global k ↔ p ∈ c.entries ∧ p.2.isGlobal = global ∧ p.2.hits k = true := by
  simp [Cam.matching]

theorem Cam.winner_none {c : Cam} {global : Bool} {k : LKey} (h : c.matching global k = []) : c.winner global k = none := by
  unfold Cam.matching at h
  rw [Cam.winner, h, List.foldl_nil]

theorem Cam.winner_some {c : Cam} {global : Bool} {k : LKey} {a : Nat × CamEntry} {l : List (Nat × CamEntry)}
    (h : c.matching global k = a :: l) : c.winner global k = some (l.foldl better a) := by
  unfold Cam.matching at h
  rw [Cam.winner, h, List.foldl_cons]
  exact List.foldl_hom some fun _ _ => rfl

theorem Cam.winner_eq_none_iff {c : Cam} {global : Bool} {k : LKey} :
    c.winner global k = none ↔ ∀ p ∈ c.entries, ¬ (p.2.isGlobal = global ∧ p.2.hits k = true) := by
  have hempty : c.matching global k = [] ↔ ∀ p ∈ c.entries, ¬ (p.2.isGlobal = global ∧ p.2.hits k = true) := by
    simp [List.eq_nil_iff_forall_not_mem, Cam.mem_matching]
  rw [← hempty]
  match h : c.matching global k with
  | [] => simp [Cam.winner_none h]
  | a :: l => simp [Cam.winner_some h]

theorem Cam.winner_first {c : Cam} {global : Bool} {k : LKey} {w : Nat × CamEntry} (hw : c.winner global k = some w) :
    w ∈ c.matching global k ∧ ∀ p ∈ c.matching global k, Outranks w p := by
  match h : c.matching global k with
  | [] => simp [Cam.winner_none h] at hw
  | a :: l =>
    rw [Cam.winner_some h, Option.some.injEq] at hw
    exact hw ▸ foldl_better l a

/-! ## The compared bits (R243, R245) -/

/-- Two words agree under a mask when every bit whose mask bit is 1 is the same in both. -/
theorem xor_and_mask_eq_zero_iff {w : Nat} (a b mask : BitVec w) :
    (a ^^^ b) &&& mask = 0 ↔ ∀ i, mask.getLsbD i = true → a.getLsbD i = b.getLsbD i := by
  constructor
  · intro h i hi
    have hbit : ((a ^^^ b) &&& mask).getLsbD i = false := by rw [h]; exact BitVec.getLsbD_zero
    simpa [hi] using hbit
  · intro h
    refine BitVec.eq_of_getLsbD_eq fun i _ => ?_
    cases hi : mask.getLsbD i with
    | false => simp [hi]
    | true => simp [hi, h i hi]

theorem CamEntry.hits_iff {e : CamEntry} {k : LKey} : e.hits k = true ↔
    e.valid = true ∧ (∀ i, e.nsidMask.getLsbD i = true → k.nsid.getLsbD i = e.nsid.getLsbD i)
      ∧ (∀ i, e.pfxMask.getLsbD i = true → k.pfx.getLsbD i = e.pfx.getLsbD i)
      ∧ (∀ i, e.opMask.getLsbD i = true → k.op.getLsbD i = e.op.getLsbD i)
      ∧ (∀ i, e.hgroupMask.getLsbD i = true → k.hgroup.getLsbD i = e.hgroup.getLsbD i) := by
  simp only [CamEntry.hits, Bool.and_eq_true, beq_iff_eq, xor_and_mask_eq_zero_iff, and_assoc]

/-- Settles O54: the fold over the matching entries keeps the one that outranks those before it. -/
theorem camWinnerHasTheLowestPriorityThenAddress : Obligations.CAM_winner_has_the_lowest_priority_then_address := by
  refine ⟨fun _ _ => CamEntry.hits_iff, fun _ _ _ => Cam.winner_eq_none_iff, fun c g k a e hw => ?_⟩
  obtain ⟨hmem, hfirst⟩ := Cam.winner_first hw
  obtain ⟨hin, hglobal, hhits⟩ := Cam.mem_matching.mp hmem
  exact ⟨hin, hglobal, hhits, fun p hp hpg hph => hfirst p (Cam.mem_matching.mpr ⟨hp, hpg, hph⟩)⟩

end Sys2Proof.Machine
end

section
/-! SUPPORT. What the addresses of the policy CAM hold after writes, copies, repairs, the sweep and soft errors (R254 to R258, R541). -/

namespace Sys2Proof.Machine

/-! ## Addresses of the CAM (R243, R258) -/

theorem lookup_setAssoc {β : Type} (k : Nat) (v : β) (l : List (Nat × β)) (a : Nat) :
    (setAssoc k v l).lookup a = if a = k then some v else l.lookup a := by
  have hcons (q : Nat × β) (l : List (Nat × β)) : (q :: l).lookup a = if a = q.1 then some q.2 else l.lookup a := by
    by_cases h : a = q.1
    · rw [List.lookup_cons, h, beq_self_eq_true, if_pos rfl]
    · rw [List.lookup_cons, beq_false_of_ne h, if_neg h]
  induction l with
  | nil => exact hcons (k, v) []
  | cons p l ih =>
    rw [setAssoc]
    split
    next hp =>
      rw [hcons, hcons, hp]
      by_cases ha : a = k <;> simp [ha]
    next hp =>
      rw [hcons, hcons, ih]
      by_cases ha : a = p.1
      · rw [if_pos ha, if_pos ha, if_neg (ha ▸ hp)]
      · rw [if_neg ha, if_neg ha]

/-- What an address holds: its entry, and its hit counter. -/
def Cam.cell (c : Cam) (a : Nat) : CamEntry × Nat := (c.entry a, c.counter a)

theorem Cam.cell_store (c : Cam) (a : Nat) (e : CamEntry) (d : CamDir) (n b : Nat) :
    (c.store a e d n).cell b = if b = a then (e, n) else c.cell b := by
  simp only [Cam.cell, Cam.entry, Cam.counter, Cam.store, lookup_setAssoc]
  split <;> rfl

theorem Cam.entry_rewrite (c : Cam) (a : Nat) (e : CamEntry) : (c.rewrite a e).entry a = e := by
  simp [Cam.entry, Cam.rewrite, lookup_setAssoc]

/-! ## Writes and copies of many addresses (R250, R254, R258) -/

section
variable (s : State)

theorem State.cell_camStore (a : Nat) (e : CamEntry) (b : Nat) :
    (s.camStore a e).cam.cell b = if b = a then (e, 0) else s.cam.cell b := s.cam.cell_store a e e.dir 0 b

theorem State.camCopy1_cam (src dst : Nat) :
    (s.camCopy1 src dst).cam = s.cam.store dst (s.cam.entry src) (s.cam.dirAt src) (s.cam.counter src) := by
  unfold State.camCopy1
  dsimp only
  split <;> rfl

theorem State.cell_camCopy1 (src dst b : Nat) : (s.camCopy1 src dst).cam.cell b = if b = dst then s.cam.cell src else s.cam.cell b := by
  rw [State.camCopy1_cam, Cam.cell_store]
  rfl

/-- Entries written from an address on, each with its counter at 0 (R258). -/
def State.camStores (first : Nat) (f : Nat → CamEntry) (n : Nat) : State := (List.range n).foldl (fun s i => s.camStore (first + i) (f i)) s

theorem State.cell_camStores (first : Nat) (f : Nat → CamEntry) (n b : Nat) :
    (s.camStores first f n).cam.cell b = if first ≤ b ∧ b < first + n then (f (b - first), 0) else s.cam.cell b := by
  induction n with
  | zero => rw [if_neg (by omega)]; rfl
  | succ n ih =>
    have hlast : s.camStores first f (n + 1) = (s.camStores first f n).camStore (first + n) (f n) := by simp [State.camStores, List.range_succ]
    rw [hlast, State.cell_camStore, ih]
    by_cases hb : b = first + n
    · rw [if_pos hb, if_pos (by omega), hb, Nat.add_sub_cancel_left]
    · rw [if_neg hb]
      exact if_congr (by omega) rfl rfl

/-- One entry of CAM.COPY after another. -/
def State.camCopies (l : List (Nat × Nat)) : State := l.foldl (fun s x => s.camCopy1 x.1 x.2) s

/-- Entries copied downwards, the lowest first: no source is written before it is read. -/
theorem State.cell_camCopies_down {src dst : Nat} (h : dst ≤ src) (n b : Nat) :
    (s.camCopies ((List.range n).map fun i => (src + i, dst + i))).cam.cell b =
      if dst ≤ b ∧ b < dst + n then s.cam.cell (src + (b - dst)) else s.cam.cell b := by
  induction n generalizing b with
  | zero => rw [if_neg (by omega)]; rfl
  | succ n ih =>
    have hlast : s.camCopies ((List.range (n + 1)).map fun i => (src + i, dst + i))
        = (s.camCopies ((List.range n).map fun i => (src + i, dst + i))).camCopy1 (src + n) (dst + n) := by
      simp [State.camCopies, List.range_succ]
    rw [hlast, State.cell_camCopy1, ih, ih, if_neg (by omega : ¬ (dst ≤ src + n ∧ src + n < dst + n))]
    by_cases hb : b = dst + n
    · rw [if_pos hb, if_pos (by omega), hb, Nat.add_sub_cancel_left]
    · rw [if_neg hb]
      exact if_congr (by omega) rfl rfl

/-- Entries copied upwards, the highest first: no source is written before it is read. -/
theorem State.cell_camCopies_up {src dst : Nat} (h : src < dst) (n b : Nat) :
    (s.camCopies ((List.range n).map fun i => (src + i, dst + i)).reverse).cam.cell b =
      if dst ≤ b ∧ b < dst + n then s.cam.cell (src + (b - dst)) else s.cam.cell b := by
  induction n generalizing s with
  | zero => rw [if_neg (by omega)]; rfl
  | succ n ih =>
    have hfirst : s.camCopies ((List.range (n + 1)).map fun i => (src + i, dst + i)).reverse
        = (s.camCopy1 (src + n) (dst + n)).camCopies ((List.range n).map fun i => (src + i, dst + i)).reverse := by
      simp [State.camCopies, List.range_succ]
    rw [hfirst, ih, State.cell_camCopy1, State.cell_camCopy1]
    by_cases hb : b = dst + n
    · rw [if_neg (by omega), if_pos hb, if_pos (by omega), hb, Nat.add_sub_cancel_left]
    · rw [if_neg hb]
      by_cases hin : dst ≤ b ∧ b < dst + n
      · rw [if_pos hin, if_neg (by omega : ¬ src + (b - dst) = dst + n), if_pos (by omega)]
      · rw [if_neg hin, if_neg (by omega)]

/-- CAM.COPY moves what stood before it, whichever way source and destination overlap (R254). -/
theorem State.cell_camCopies (src dst n b : Nat) :
    (s.camCopies (copyOrder src dst n)).cam.cell b = if dst ≤ b ∧ b < dst + n then s.cam.cell (src + (b - dst)) else s.cam.cell b := by
  unfold copyOrder
  dsimp only
  split
  next hup => exact s.cell_camCopies_up hup n b
  next hdown => exact s.cell_camCopies_down (Nat.le_of_not_lt hdown) n b

end

/-! ## What the CAM messages leave -/

/-- What a CAM message leaves to the other chapters: mailboxes, clocks, index and keys. -/
structure State.KeepsRest (s t : State) : Prop where
  mail : t.mb = s.mb
  time : t.tm = s.tm
  index : t.ix = s.ix
  keys : t.ky = s.ky

theorem State.KeepsRest.refl (s : State) : s.KeepsRest s := ⟨rfl, rfl, rfl, rfl⟩

theorem State.KeepsRest.trans {s t u : State} (h : s.KeepsRest t) (h' : t.KeepsRest u) : s.KeepsRest u :=
  ⟨h'.mail.trans h.mail, h'.time.trans h.time, h'.index.trans h.index, h'.keys.trans h.keys⟩

theorem State.Consulted.keepsRest {s t : State} (h : s.Consulted t) : s.KeepsRest t := by
  obtain ⟨_, _, _, _, _, rfl⟩ := h
  exact ⟨rfl, rfl, rfl, rfl⟩

theorem State.Consulted.of_foldl {α : Type} {f : State → α → State} (h : ∀ (s : State) a, s.Consulted (f s a)) (l : List α) (s : State) :
    s.Consulted (l.foldl f s) := by
  induction l generalizing s with
  | nil => exact .refl s
  | cons a l ih => exact (h s a).trans (ih _)

theorem State.consulted_camStores (s : State) (first : Nat) (f : Nat → CamEntry) (n : Nat) : s.Consulted (s.camStores first f n) :=
  .of_foldl (fun s i => (s.consulted_modCam fun c => c.store (first + i) (f i) (f i).dir 0).trans (State.consulted_modSk _ _)) _ s

theorem State.consulted_camCopy1 (s : State) (src dst : Nat) : s.Consulted (s.camCopy1 src dst) := by
  unfold State.camCopy1
  dsimp only
  split
  · exact (s.consulted_modCam _).trans (State.consulted_modSk _ _)
  · exact (s.consulted_modCam _).trans (State.consulted_modSk _ _)

theorem State.consulted_camCopies (s : State) (l : List (Nat × Nat)) : s.Consulted (s.camCopies l) :=
  .of_foldl (f := fun s (x : Nat × Nat) => s.camCopy1 x.1 x.2) (fun s x => s.consulted_camCopy1 x.1 x.2) l s

/-- The levels that a CAM.WRITE fixes, told to a twin (R252, R263). -/
def State.fixLevels (s : State) (fixed : List (Nat × Level)) : State := fixed.foldl (fun s x => (s.fixLevel x.1 x.2).tellLevel x.1 x.2) s

theorem State.fixLevels_keeps (s : State) (fixed : List (Nat × Level)) :
    s.KeepsRest (s.fixLevels fixed) ∧ (s.fixLevels fixed).cam = s.cam := by
  induction fixed generalizing s with
  | nil => exact ⟨.refl s, rfl⟩
  | cons x fixed ih =>
    have hone : s.KeepsRest ((s.fixLevel x.1 x.2).tellLevel x.1 x.2) ∧ ((s.fixLevel x.1 x.2).tellLevel x.1 x.2).cam = s.cam := by
      unfold State.tellLevel State.fixLevel State.whenB
      dsimp only
      split <;> split <;> exact ⟨⟨rfl, rfl, rfl, rfl⟩, rfl⟩
    obtain ⟨hrest, hcam⟩ := ih ((s.fixLevel x.1 x.2).tellLevel x.1 x.2)
    exact ⟨hone.1.trans hrest, hcam.trans hone.2⟩

/-! ## Repairs, lookups and the sweep (R255 to R257) -/

section
variable {s t : State}

/-- What a repair leaves in the CAM follows from the CAM alone. -/
theorem State.camRepair_cam_congr (h : t.cam = s.cam) (a : Nat) : (t.camRepair a).cam = (s.camRepair a).cam := by
  unfold State.camRepair
  dsimp only
  rw [h]
  split
  · exact congrArg (·.disable a) h
  split
  · exact congrArg (fun c : Cam => { c.rewrite a (s.cam.copyAt a) with fromCopy := c.fromCopy + 1 }) h
  split
  · exact congrArg (fun c : Cam => { (c.rewrite a (s.cam.entry a)).recopy a (s.cam.entry a) with toCopy := c.toCopy + 1 }) h
  split
  · unfold State.whenB
    split <;> exact congrArg (·.disable a) h
  · exact congrArg (fun c : Cam => { (c.rewrite a CamEntry.blank).recopy a CamEntry.blank with
      dir := setAssoc a CamEntry.blank.dir c.dir, fromCopy := c.fromCopy + 1 }) h

/-- A repair joins no stack and leaves none. -/
theorem State.camRepair_joinedNow (s : State) (a : Nat) : (s.camRepair a).sk.joinedNow = s.sk.joinedNow := by
  unfold State.camRepair State.whenB
  dsimp only
  split
  · rfl
  split
  · rfl
  split
  · rfl
  split
  · split <;> rfl
  · rfl

theorem State.camLookup_congr (n : Nat) (h : t.cam = s.cam) (global : Bool) (k : LKey) :
    (t.camLookup n global k).1.cam = (s.camLookup n global k).1.cam ∧ (t.camLookup n global k).2 = (s.camLookup n global k).2 := by
  induction n generalizing s t with
  | zero => exact ⟨h, congrArg (·.winner global k) h⟩
  | succ n ih =>
    unfold State.camLookup
    rw [h]
    split
    next w _ =>
      split
      · exact ih (congrArg (fun c : Cam => { c with parityHits := c.parityHits + 1 }) (State.camRepair_cam_congr h w.1))
      · exact ⟨h, rfl⟩
    · exact ⟨h, rfl⟩

theorem State.camLookup_joinedNow (n : Nat) (s : State) (global : Bool) (k : LKey) :
    (s.camLookup n global k).1.sk.joinedNow = s.sk.joinedNow := by
  induction n generalizing s with
  | zero => rfl
  | succ n ih =>
    unfold State.camLookup
    split
    next w _ =>
      split
      · exact (ih _).trans (s.camRepair_joinedNow w.1)
      · rfl
    · rfl

/-- Step 1 of a repair: the entry is taken from a copy that is good (R256). -/
theorem State.camRepair_from_copy {a : Nat} (hon : (s.cam.dirAt a).disabled = false) (hcopy : a ∉ s.cam.copyBad)
    (hgood : (s.cam.copyAt a).computed = (s.cam.dirAt a).crc) :
    (s.camRepair a).cam = { s.cam.rewrite a (s.cam.copyAt a) with fromCopy := s.cam.fromCopy + 1 } := by
  unfold State.camRepair
  dsimp only
  rw [if_neg (by simp [hon]), if_pos (by simp [hcopy, hgood])]
  rfl

/-- The addresses that the sweep looks at: those written in the array or in the copy, or struck by soft errors. -/
def Cam.swept (c : Cam) : List Nat := c.entries.map (·.1) ++ c.copy.map (·.1) ++ c.actErr.map (·.1) ++ c.copyBad

theorem State.camSweep_eq (s : State) :
    s.camSweep = (((s.cam.swept.eraseDups).filter s.cam.differs).foldl State.camRepair s).modCam fun c => { c with lastSweep := s.now } := rfl

theorem exec_camSweep (hup : up s = true) (hloaded : s.cam.loaded = true) : exec .camSweep s = finish s s.camSweep :=
  congrArg (finish s) (if_pos (Bool.and_eq_true_iff.mpr ⟨hup, hloaded⟩))

theorem yields_camSweep_clean (hup : up s = true) (hloaded : s.cam.loaded = true) (hsame : s.cam.swept.any s.cam.differs = false) :
    Yields .camSweep s { s with cam := { s.cam with lastSweep := s.now } } := by
  have hnone : (s.cam.swept.eraseDups).filter s.cam.differs = [] := by
    simpa [List.filter_eq_nil_iff] using hsame
  refine yields_of ?_
  rw [exec_camSweep hup hloaded, State.camSweep_eq, hnone]
  rfl

theorem completes_camSweep_one {a : Nat} (hup : up s = true) (hloaded : s.cam.loaded = true)
    (hone : (s.cam.swept.eraseDups).filter s.cam.differs = [a]) (hon : (s.cam.dirAt a).disabled = false) (hcopy : a ∉ s.cam.copyBad)
    (hgood : (s.cam.copyAt a).computed = (s.cam.dirAt a).crc) :
    Completes .camSweep s fun t =>
      t.cam.entry a = s.cam.copyAt a ∧ t.cam.copy = s.cam.copy ∧ t.cam.fromCopy = s.cam.fromCopy + 1
        ∧ t.cam.parityBad = s.cam.parityBad.filter (· ≠ a) := by
  refine completes_finish (exec_camSweep hup hloaded) ?_
  rw [State.camSweep_eq, hone, State.after_cam, State.modCam_cam, List.foldl_cons, List.foldl_nil, State.camRepair_from_copy hon hcopy hgood]
  exact ⟨s.cam.entry_rewrite a _, rfl, rfl, rfl⟩

end

/-! ## Soft errors (R255, R541) -/

section
variable {s : State} (hup : up s = true)
include hup

theorem completes_camSoftError_copy (addr bit : Nat) :
    Completes (.camSoftError addr bit true) s fun t =>
      t.cam.copyAt addr = (s.cam.copyAt addr).flip bit ∧ t.cam.entries = s.cam.entries := by
  refine completes_up rfl hup ⟨?_, rfl⟩
  simp [Cam.copyAt, lookup_setAssoc]

theorem completes_camSoftError_entry {addr bit : Nat} (hbit : bit < 416) (hfits : addr ∉ s.cam.parityBad) :
    Completes (.camSoftError addr bit false) s fun t =>
      t.cam.entry addr = (s.cam.entry addr).flip bit ∧ addr ∈ t.cam.parityBad ∧ t.cam.copy = s.cam.copy ∧ t.cam.dir = s.cam.dir := by
  have hentry : ¬ 416 ≤ bit % 480 := by omega
  refine completes_up (congrArg (whileUp s) (if_neg hentry)) hup ⟨?_, ?_, rfl, rfl⟩
  · simp [Cam.entry, lookup_setAssoc]
  · simp [hfits]

/-- A flip of a bit of an action word that no flip has struck yet. -/
theorem exec_camSoftError_action {addr bit : Nat} (hlow : 416 ≤ bit) (hhigh : bit < 480) (hnew : (addr, bit - 416) ∉ s.cam.actErr) :
    exec (.camSoftError addr bit false) s = finish s (s.modCam fun c => { c with actErr := (addr, bit - 416) :: s.cam.actErr }) := by
  have hbit : bit % 480 = bit := Nat.mod_eq_of_lt hhigh
  have hexec : exec (.camSoftError addr bit false) s = execCamSoftError addr bit false s := rfl
  rw [hexec, execCamSoftError, whileUp_up hup]
  simp [hbit, hlow, hnew, State.modCam]

theorem completes_camSoftError_first {addr bit : Nat} (hlow : 416 ≤ bit) (hhigh : bit < 480)
    (hnone : s.cam.actErr.all (fun x => x.1 != addr) = true) :
    Completes (.camSoftError addr bit false) s fun t =>
      t.cam = { s.cam with actErr := (addr, bit - 416) :: s.cam.actErr } ∧ t.cam.actBad addr = false := by
  have hothers : ∀ x ∈ s.cam.actErr, x.1 ≠ addr := by simpa using hnone
  have hcount : s.cam.actErr.countP (·.1 == addr) = 0 := by simpa [List.countP_eq_zero] using hothers
  refine completes_finish (exec_camSoftError_action hup hlow hhigh fun h => hothers _ h rfl) ⟨rfl, ?_⟩
  simp [Cam.actBad, hcount]

theorem completes_camSoftError_second {addr bit : Nat} {x : Nat × Nat} (hlow : 416 ≤ bit) (hhigh : bit < 480) (hmem : x ∈ s.cam.actErr)
    (haddr : x.1 = addr) (hnew : (addr, bit - 416) ∉ s.cam.actErr) :
    Completes (.camSoftError addr bit false) s fun t => t.cam.actBad addr = true ∧ t.cam.entries = s.cam.entries := by
  have hcount : 0 < s.cam.actErr.countP (·.1 == addr) := List.countP_pos_iff.mpr ⟨x, hmem, beq_iff_eq.mpr haddr⟩
  refine completes_finish (exec_camSoftError_action hup hlow hhigh hnew) ⟨?_, rfl⟩
  simp [Cam.actBad, Nat.succ_le_iff, hcount]

end

end Sys2Proof.Machine
end

section
/-! SUPPORT. The messages of the policy CAM (R247, R250, R254, R258, R259): what the handler of each answers to a message in form, and the
end of the command. -/

namespace Sys2Proof.Machine

/-- A message whose handler answers and keeps the rest of the drive ends with the CAM and the record vault that the handler left. -/
theorem completes_camMessage {c : Instr} {cls op : Nat} {m : MsgReq} {f : Handler} {s t : State} {a : Answer} {P : State → Prop}
    (h : exec c s = finish s (s.message cls op f m)) (hok : messageOk cls op m s = true)
    (hf : f (s.takeIn (s.named m) cls op) (s.named m) = (t, some a)) (ht : (s.takeIn (s.named m) cls op).KeepsRest t)
    (hp : ∀ w : State, w.cam = t.cam → w.va = t.va → w.ix = s.ix → w.ky = s.ky → P w) :
    Completes c s fun w => Answered s w cls op m a.st a.detail a.body ∧ P w := by
  refine completes_answered h hok hf ht.mail (congrArg (·.mono) ht.time) ?_
  obtain ⟨boxes, sent, outbox, -, hreply⟩ := t.mailOnly_reply cls op (s.named m) a
  rw [hreply]
  exact hp _ rfl rfl ht.index ht.keys

section
variable {s : State} {m : MsgReq}

/-! ## Changes of rules: CAM_WRITE, CAM_INVALIDATE and CAM_COPY (R250, R254, R258, R321) -/

/-- A change that touches no global entry is made at once (R250, R321). -/
theorem camChange_made {op : Nat} (hidle : s.sk.change = none) (hlocal : s.camGlobal op m.payload = false) :
    camChange op s m = (s.camApply op m.payload, some {}) := by
  simp [camChange, hidle, hlocal, doing]

/-- The checks of the records do not look at the mailboxes (R250). -/
theorem camChecks_takeIn (s : State) (m : MsgReq) (cls op : Nat) (l : List (Nat × CamEntry)) (fixed : List (Nat × Level)) :
    camChecks (s.takeIn m cls op) l fixed = camChecks s l fixed := by
  induction l generalizing fixed with
  | nil => rfl
  | cons x l ih =>
    have hcheck : camCheck (s.takeIn m cls op) fixed x.2 = camCheck s fixed x.2 := rfl
    have hbinds : bindsLevel (s.takeIn m cls op) x.2 = bindsLevel s x.2 := rfl
    simp only [camChecks, hcheck, hbinds, ih]

/-- The records of a CAM.WRITE with their places in the message. -/
def camPlaced (p : Bytes) : List (Nat × CamEntry) := (camRecords p).zipIdx.map fun x => (x.2, x.1.2)

theorem State.camRefusal_ok {p : Bytes} {fixed : List (Nat × Level)} (h : camChecks s (camPlaced p) [] = .ok fixed) :
    s.camRefusal p = none := by
  unfold camPlaced at h
  simp only [State.camRefusal, h]

theorem State.camRefusal_error {p : Bytes} {x : Nat × Nat} (h : camChecks s (camPlaced p) [] = .error x) : s.camRefusal p = some x := by
  unfold camPlaced at h
  simp only [State.camRefusal, h]

/-- The record at a place of a CAM.WRITE. -/
def camRecordAt (p : Bytes) (i : Nat) : CamEntry := camOfBytes (bytesAt p (8 + 64 * i) 64)

theorem State.camApply_write {p : Bytes} {fixed : List (Nat × Level)} (h : camChecks s (camPlaced p) [] = .ok fixed) :
    s.camApply 1 p = (s.fixLevels fixed).camStores (natAt p 0 4) (camRecordAt p) (natAt p 4 4) := by
  unfold camPlaced at h
  simp only [State.camApply, h]
  rw [camRecords, List.foldl_map]
  rfl

theorem State.camApply_invalidate (p : Bytes) : s.camApply 3 p = s.camStores (natAt p 0 4) (fun _ => CamEntry.blank) (natAt p 4 4) := rfl

theorem State.camApply_copy (p : Bytes) : s.camApply 4 p = s.camCopies (copyOrder (natAt p 0 4) (natAt p 4 4) (natAt p 8 4)) := rfl

section
variable (hmin : 1 ≤ natAt m.payload 4 4) (hmax : natAt m.payload 4 4 ≤ 63) (hlen : m.payload.length = 8 + 64 * natAt m.payload 4 4)
  (hrange : natAt m.payload 0 4 + natAt m.payload 4 4 ≤ 65536)
include hmin hmax hlen hrange

theorem hCamWrite_changes (hchecks : s.camRefusal m.payload = none) : hCamWrite s m = camChange 1 s m := by
  unfold hCamWrite
  dsimp only
  rw [if_neg (by omega), if_neg (by omega), if_neg (not_not_intro hlen), if_neg (by omega), hchecks]

theorem hCamWrite_refuses {x : Nat × Nat} (hchecks : s.camRefusal m.payload = some x) :
    hCamWrite s m = (s, some (camRefused m.payload x)) := by
  unfold hCamWrite
  dsimp only
  rw [if_neg (by omega), if_neg (by omega), if_neg (not_not_intro hlen), if_neg (by omega), hchecks]
  rfl

end

theorem hCamInvalidate_changes (hlen : m.payload.length = 8) (hmin : 1 ≤ natAt m.payload 4 4)
    (hrange : natAt m.payload 0 4 + natAt m.payload 4 4 ≤ 65536) : hCamInvalidate s m = camChange 3 s m := by
  unfold hCamInvalidate
  dsimp only
  rw [if_neg (not_not_intro hlen), if_neg (by omega)]

theorem hCamCopy_changes (hlen : m.payload.length = 12) (hmin : 1 ≤ natAt m.payload 8 4)
    (hfrom : natAt m.payload 0 4 + natAt m.payload 8 4 ≤ 65536) (hto : natAt m.payload 4 4 + natAt m.payload 8 4 ≤ 65536) :
    hCamCopy s m = camChange 4 s m := by
  unfold hCamCopy
  dsimp only
  rw [if_neg (not_not_intro hlen), if_neg (by omega)]

/-- What a range of addresses holds, read off from its cells. -/
theorem Cam.of_cells {c d : Cam} {first n : Nat} {f : Nat → CamEntry × Nat}
    (h : ∀ b, d.cell b = if first ≤ b ∧ b < first + n then f (b - first) else c.cell b) :
    (∀ i, i < n → d.entry (first + i) = (f i).1 ∧ d.counter (first + i) = (f i).2)
      ∧ ∀ a, a < 65536 → a < first ∨ first + n ≤ a → d.entry a = c.entry a := by
  refine ⟨fun i hi => ?_, fun a _ ha => ?_⟩
  · have hin := h (first + i)
    rw [if_pos (by omega), Nat.add_sub_cancel_left] at hin
    exact ⟨congrArg Prod.fst hin, congrArg Prod.snd hin⟩
  · have hout := h a
    rw [if_neg (by omega)] at hout
    exact congrArg Prod.fst hout

theorem completes_camWrite {fixed : List (Nat × Level)} (hok : messageOk 0x0D 0x01 m s = true) (hmin : 1 ≤ natAt m.payload 4 4)
    (hmax : natAt m.payload 4 4 ≤ 63) (hlen : m.payload.length = 8 + 64 * natAt m.payload 4 4)
    (hrange : natAt m.payload 0 4 + natAt m.payload 4 4 ≤ 65536) (hchecks : camChecks s (camPlaced m.payload) [] = .ok fixed)
    (hidle : s.sk.change = none) (hlocal : s.camGlobal 1 m.payload = false) :
    Completes (.camWrite m) s fun t =>
      Answered s t 0x0D 0x01 m .success 0 [[]]
        ∧ (∀ i, i < natAt m.payload 4 4 →
            t.cam.entry (natAt m.payload 0 4 + i) = camRecordAt m.payload i ∧ t.cam.counter (natAt m.payload 0 4 + i) = 0)
        ∧ (∀ a, a < 65536 → a < natAt m.payload 0 4 ∨ natAt m.payload 0 4 + natAt m.payload 4 4 ≤ a → t.cam.entry a = s.cam.entry a)
        ∧ t.ix = s.ix ∧ t.ky = s.ky := by
  let u := s.takeIn (s.named m) 0x0D 0x01
  have hok' : camChecks u (camPlaced m.payload) [] = .ok fixed := (camChecks_takeIn ..).trans hchecks
  have htaken : hCamWrite u (s.named m) = (u.camApply 1 m.payload, some {}) :=
    (hCamWrite_changes (m := s.named m) hmin hmax hlen hrange (State.camRefusal_ok hok')).trans (camChange_made hidle hlocal)
  rw [State.camApply_write hok'] at htaken
  obtain ⟨hrest, hcam⟩ := u.fixLevels_keeps fixed
  refine completes_camMessage rfl hok htaken (hrest.trans (State.consulted_camStores ..).keepsRest) fun w hw _ hix hky => ?_
  have hcells := (u.fixLevels fixed).cell_camStores (natAt m.payload 0 4) (camRecordAt m.payload) (natAt m.payload 4 4)
  rw [← hw, hcam] at hcells
  obtain ⟨hin, hout⟩ := Cam.of_cells (f := fun i => (camRecordAt m.payload i, 0)) hcells
  exact ⟨hin, hout, hix, hky⟩

theorem completes_camWrite_refused {x : Nat × Nat} (hok : messageOk 0x0D 0x01 m s = true) (hmin : 1 ≤ natAt m.payload 4 4)
    (hmax : natAt m.payload 4 4 ≤ 63) (hlen : m.payload.length = 8 + 64 * natAt m.payload 4 4)
    (hrange : natAt m.payload 0 4 + natAt m.payload 4 4 ≤ 65536) (hchecks : camChecks s (camPlaced m.payload) [] = .error x) :
    Completes (.camWrite m) s fun t =>
      Answered s t 0x0D 0x01 m .invalidField (camRefused m.payload x).detail (camRefused m.payload x).body ∧ t.cam = s.cam ∧ t.va = s.va := by
  have hrefusal := State.camRefusal_error ((camChecks_takeIn s (s.named m) 0x0D 0x01 _ []).trans hchecks)
  exact completes_camMessage rfl hok (hCamWrite_refuses (m := s.named m) hmin hmax hlen hrange hrefusal) (.refl _)
    fun w hcam hva _ _ => ⟨hcam, hva⟩

theorem completes_camInvalidate (hok : messageOk 0x0D 0x03 m s = true) (hlen : m.payload.length = 8) (hmin : 1 ≤ natAt m.payload 4 4)
    (hrange : natAt m.payload 0 4 + natAt m.payload 4 4 ≤ 65536) (hidle : s.sk.change = none) (hlocal : s.camGlobal 3 m.payload = false) :
    Completes (.camInvalidate m) s fun t =>
      Answered s t 0x0D 0x03 m .success 0 [[]]
        ∧ (∀ i, i < natAt m.payload 4 4 →
            t.cam.entry (natAt m.payload 0 4 + i) = CamEntry.blank ∧ t.cam.counter (natAt m.payload 0 4 + i) = 0)
        ∧ (∀ a, a < 65536 → a < natAt m.payload 0 4 ∨ natAt m.payload 0 4 + natAt m.payload 4 4 ≤ a → t.cam.entry a = s.cam.entry a) := by
  let u := s.takeIn (s.named m) 0x0D 0x03
  have htaken : hCamInvalidate u (s.named m) = (u.camApply 3 m.payload, some {}) :=
    (hCamInvalidate_changes (m := s.named m) hlen hmin hrange).trans (camChange_made hidle hlocal)
  rw [State.camApply_invalidate] at htaken
  refine completes_camMessage rfl hok htaken (State.consulted_camStores ..).keepsRest fun w hw _ _ _ => ?_
  have hcells := u.cell_camStores (natAt m.payload 0 4) (fun _ => CamEntry.blank) (natAt m.payload 4 4)
  rw [← hw] at hcells
  exact Cam.of_cells (f := fun _ => (CamEntry.blank, 0)) hcells

theorem completes_camCopy (hok : messageOk 0x0D 0x04 m s = true) (hlen : m.payload.length = 12) (hmin : 1 ≤ natAt m.payload 8 4)
    (hfrom : natAt m.payload 0 4 + natAt m.payload 8 4 ≤ 65536) (hto : natAt m.payload 4 4 + natAt m.payload 8 4 ≤ 65536)
    (hidle : s.sk.change = none) (hlocal : s.camGlobal 4 m.payload = false) :
    Completes (.camCopy m) s fun t =>
      Answered s t 0x0D 0x04 m .success 0 [[]]
        ∧ (∀ i, i < natAt m.payload 8 4 → t.cam.entry (natAt m.payload 4 4 + i) = s.cam.entry (natAt m.payload 0 4 + i)
            ∧ t.cam.counter (natAt m.payload 4 4 + i) = s.cam.counter (natAt m.payload 0 4 + i))
        ∧ (∀ a, a < 65536 → a < natAt m.payload 4 4 ∨ natAt m.payload 4 4 + natAt m.payload 8 4 ≤ a → t.cam.entry a = s.cam.entry a) := by
  let u := s.takeIn (s.named m) 0x0D 0x04
  have htaken : hCamCopy u (s.named m) = (u.camApply 4 m.payload, some {}) :=
    (hCamCopy_changes (m := s.named m) hlen hmin hfrom hto).trans (camChange_made hidle hlocal)
  rw [State.camApply_copy] at htaken
  refine completes_camMessage rfl hok htaken (State.consulted_camCopies ..).keepsRest fun w hw _ _ _ => ?_
  have hcells := u.cell_camCopies (natAt m.payload 0 4) (natAt m.payload 4 4) (natAt m.payload 8 4)
  rw [← hw] at hcells
  exact Cam.of_cells (f := fun i => s.cam.cell (natAt m.payload 0 4 + i)) hcells

/-! ## Messages that read (R258, R259) -/

theorem completes_camRead (hok : messageOk 0x0D 0x02 m s = true) (hlen : m.payload.length = 8) (hmin : 1 ≤ natAt m.payload 4 4)
    (hmax : natAt m.payload 4 4 ≤ 63) (hrange : natAt m.payload 0 4 + natAt m.payload 4 4 ≤ 65536) :
    Completes (.camRead m) s fun t =>
      Answered s t 0x0D 0x02 m .success 0 [(List.range (natAt m.payload 4 4)).flatMap fun i =>
        (s.cam.entry (natAt m.payload 0 4 + i)).bytes (s.cam.dirAt (natAt m.payload 0 4 + i)).disabled] ∧ t.cam = s.cam := by
  have hform : ¬ (natAt m.payload 4 4 = 0 ∨ 63 < natAt m.payload 4 4 ∨ 65536 < natAt m.payload 0 4 + natAt m.payload 4 4) := by omega
  have htaken : hCamRead (s.takeIn (s.named m) 0x0D 0x02) (s.named m) = _ := (if_neg (not_not_intro hlen)).trans (if_neg hform)
  exact completes_camMessage rfl hok htaken (.refl _) fun w hw _ _ _ => hw

/-- The CAM with the counters of a range cleared (R258). -/
def Cam.cleared (c : Cam) (first n : Nat) : Cam :=
  { c with counters := c.counters.filter fun x => !(decide (first ≤ x.1) && decide (x.1 < first + n)) }

theorem Cam.counter_cleared (c : Cam) {first n a : Nat} (h : first ≤ a) (h' : a < first + n) : (c.cleared first n).counter a = 0 := by
  have hnone : (c.cleared first n).counters.lookup a = none := by
    rw [List.lookup_eq_none_iff]
    intro x hx
    have hout := (List.mem_filter.mp hx).2
    simp only [Bool.not_eq_true', Bool.and_eq_false_iff, decide_eq_false_iff_not] at hout
    exact bne_iff_ne.mpr (by omega)
  rw [Cam.counter, hnone]
  rfl

/-- The hit counters of a range of addresses, as CAM.COUNTERS returns them (R258). -/
def Cam.counterBytes (c : Cam) (first n : Nat) : Bytes := (List.range n).flatMap fun i => leBytes 4 (c.counter (first + i))

theorem hCamCounters_tells (hlen : m.payload.length = 9) (hmin : 1 ≤ natAt m.payload 4 4) (hmax : natAt m.payload 4 4 ≤ 1022)
    (hrange : natAt m.payload 0 4 + natAt m.payload 4 4 ≤ 65536) (hclear : natAt m.payload 8 1 ≤ 1) :
    hCamCounters s m = (if natAt m.payload 8 1 = 1 then s.modCam (·.cleared (natAt m.payload 0 4) (natAt m.payload 4 4)) else s,
      some (answer (s.cam.counterBytes (natAt m.payload 0 4) (natAt m.payload 4 4)))) := by
  unfold hCamCounters
  dsimp only
  rw [if_neg (not_not_intro hlen), if_neg (by omega), if_neg (Nat.not_lt.mpr hclear)]
  rfl

theorem completes_camCounters (hok : messageOk 0x0D 0x05 m s = true) (hlen : m.payload.length = 9) (hmin : 1 ≤ natAt m.payload 4 4)
    (hmax : natAt m.payload 4 4 ≤ 1022) (hrange : natAt m.payload 0 4 + natAt m.payload 4 4 ≤ 65536) (hclear : natAt m.payload 8 1 ≤ 1) :
    Completes (.camCounters m) s fun t =>
      Answered s t 0x0D 0x05 m .success 0 [s.cam.counterBytes (natAt m.payload 0 4) (natAt m.payload 4 4)]
        ∧ (∀ i, i < natAt m.payload 4 4 → t.cam.counter (natAt m.payload 0 4 + i) =
            if natAt m.payload 8 1 = 1 then 0 else s.cam.counter (natAt m.payload 0 4 + i))
        ∧ t.cam.entries = s.cam.entries := by
  have htaken : hCamCounters (s.takeIn (s.named m) 0x0D 0x05) (s.named m) = _ := hCamCounters_tells hlen hmin hmax hrange hclear
  have hpayload : (s.named m).payload = m.payload := rfl
  rw [hpayload] at htaken
  split at htaken
  next hone =>
    refine completes_camMessage rfl hok htaken (State.consulted_modCam _ _).keepsRest fun w hw _ _ _ => ?_
    rw [hw]
    refine ⟨fun i hi => ?_, rfl⟩
    rw [if_pos hone]
    exact Cam.counter_cleared _ (Nat.le_add_right _ _) (by omega)
  next hkeep =>
    refine completes_camMessage rfl hok htaken (.refl _) fun w hw _ _ _ => ?_
    rw [hw]
    exact ⟨fun i _ => (if_neg hkeep).symm, rfl⟩

theorem Cam.disabledAt_none {c : Cam} (h : c.dir.any (·.2.disabled) = false) : c.disabledAt = [] := by
  have hnone : c.dir.filter (·.2.disabled) = [] := by simpa [List.filter_eq_nil_iff] using h
  rw [Cam.disabledAt, hnone, List.map_nil, List.mergeSort_nil]

theorem completes_camStatus (hok : messageOk 0x0D 0x06 m s = true) (hempty : m.payload = [])
    (hon : s.cam.dir.any (·.2.disabled) = false) :
    Completes (.camStatus m) s fun t =>
      Answered s t 0x0D 0x06 m .success 0 [leBytes 4 (s.cam.entries.countP (·.2.valid)) ++ leBytes 4 0 ++ leBytes 8 s.cam.fromCopy
        ++ leBytes 8 s.cam.toCopy ++ leBytes 8 s.cam.parityHits ++ leBytes 8 s.cam.lastSweep ++ leBytes 8 s.cam.cacheHits]
        ∧ t.cam = s.cam := by
  have htaken : hCamStatus (s.takeIn (s.named m) 0x0D 0x06) (s.named m) = _ := if_neg (not_not_intro hempty)
  have hnone : (s.takeIn (s.named m) 0x0D 0x06).cam.disabledAt = [] := Cam.disabledAt_none hon
  rw [hnone, List.take_nil, List.flatMap_nil, List.append_nil] at htaken
  exact completes_camMessage rfl hok htaken (.refl _) fun w hw _ _ _ => hw

/-- What CAM.LOOKUP tells of a local winner: its address, priority, chain position and action; or no match (R259). -/
def winnerBytes (pos : Nat) : Option (Nat × CamEntry) → Bytes
  | some (a, e) => leBytes 4 a ++ leBytes 2 e.prio.toNat ++ leBytes 1 pos ++ leBytes 1 1 ++ leBytes 8 e.action.toNat
  | none => List.replicate 16 0

theorem lookupReply_local (pos : Nat) (w : Option (Nat × CamEntry)) :
    lookupReply (pickWinner pos w none) = answer (winnerBytes pos w) := by
  cases w <;> rfl

/-- The lookup that CAM.LOOKUP makes: with the key that its payload spells. -/
def State.lookupOf (s : State) (p : Bytes) : State × Option (Nat × CamEntry) :=
  s.camLookup s.cam.faults false (lkeyOfBits (BitVec.ofNat 192 (leNat p)))

/-- A drive that is no member of a stack asks no chain (R248). -/
theorem hCamLookup_tells (hlen : m.payload.length = 24) (hzero : natAt m.payload 0 1 = 0) (hlone : s.sk.joinedNow = false) :
    hCamLookup s m = ((s.lookupOf m.payload).1, some (answer (winnerBytes (s.lookupOf m.payload).1.pw.pos (s.lookupOf m.payload).2))) := by
  have hasks (scope : Bool) : (s.lookupOf m.payload).1.wantsGlobal scope = false := by
    rw [State.wantsGlobal, State.lookupOf, State.camLookup_joinedNow, hlone, Bool.and_false]
  unfold hCamLookup
  dsimp only
  rw [if_neg (not_not_intro hlen), if_neg (not_not_intro hzero)]
  unfold State.lookupOf at hasks ⊢
  rw [hasks, lookupReply_local]
  rfl

/-- A lookup does not look at the mailboxes, and moves no drive on its chain. -/
theorem State.lookupOf_takeIn (s : State) (m' : MsgReq) (cls op : Nat) (p : Bytes) :
    ((s.takeIn m' cls op).lookupOf p).1.cam = (s.lookupOf p).1.cam ∧ ((s.takeIn m' cls op).lookupOf p).2 = (s.lookupOf p).2
      ∧ ((s.takeIn m' cls op).lookupOf p).1.pw = s.pw := by
  have hcam : (s.takeIn m' cls op).cam = s.cam := rfl
  obtain ⟨hleft, hwinner⟩ := State.camLookup_congr s.cam.faults hcam false (lkeyOfBits (BitVec.ofNat 192 (leNat p)))
  obtain ⟨_, _, _, _, _, hconsulted⟩ :=
    (s.takeIn m' cls op).consulted_camLookup s.cam.faults false (lkeyOfBits (BitVec.ofNat 192 (leNat p)))
  unfold State.lookupOf
  rw [hcam]
  exact ⟨hleft, hwinner, by rw [hconsulted]; rfl⟩

theorem completes_camLookup (hok : messageOk 0x0D 0x07 m s = true) (hlen : m.payload.length = 24) (hzero : natAt m.payload 0 1 = 0)
    (hlone : s.sk.joinedNow = false) :
    Completes (.camLookup m) s fun t =>
      Answered s t 0x0D 0x07 m .success 0 [winnerBytes s.pw.pos (s.lookupOf m.payload).2] ∧ t.cam = (s.lookupOf m.payload).1.cam := by
  obtain ⟨hcam, hwinner, hpw⟩ := s.lookupOf_takeIn (s.named m) 0x0D 0x07 m.payload
  have htaken : hCamLookup (s.takeIn (s.named m) 0x0D 0x07) (s.named m) = _ := hCamLookup_tells hlen hzero hlone
  have hpayload : (s.named m).payload = m.payload := rfl
  rw [hpayload, hpw, hwinner] at htaken
  exact completes_camMessage rfl hok htaken (State.consulted_camLookup ..).keepsRest fun w hw _ _ _ => hw.trans hcam

/-- The scope of a namespace and the code of its level, FFh where none is bound, as CAM.NS_INFO returns them (R252, R259). -/
def Ns.policyBytes (n : Ns) : Bytes := [BitVec.ofNat 8 n.stackScope.toNat, BitVec.ofNat 8 ((n.level.map levelCode).getD 255)]

theorem hCamNsInfo_tells {n : Ns} (hlen : m.payload.length = 6) (hns : s.nsOf (natAt m.payload 0 4) = some n)
    (hread : natAt m.payload 4 1 = 0) (hscope : natAt m.payload 5 1 ≤ 1) : hCamNsInfo s m = (s, some (answer n.policyBytes)) := by
  have hbytes : n.policyBytes = leBytes 1 n.stackScope.toNat ++ leBytes 1 ((n.level.map levelCode).getD 255) := rfl
  rw [hbytes]
  simp only [hCamNsInfo, hlen, hns, hread, Nat.not_lt.mpr hscope]
  cases n.level <;> rfl

theorem completes_camNsInfo {n : Ns} (hok : messageOk 0x0D 0x08 m s = true) (hlen : m.payload.length = 6)
    (hns : s.nsOf (natAt m.payload 0 4) = some n) (hread : natAt m.payload 4 1 = 0) (hscope : natAt m.payload 5 1 ≤ 1) :
    Completes (.camNsInfo m) s fun t => Answered s t 0x0D 0x08 m .success 0 [n.policyBytes] ∧ t.va = s.va := by
  have htaken : hCamNsInfo (s.takeIn (s.named m) 0x0D 0x08) (s.named m) = _ := hCamNsInfo_tells hlen hns hread hscope
  exact completes_camMessage rfl hok htaken (.refl _) fun w _ hva _ _ => hva

end

/-! ## The statement -/

/-- Settles O21: each message by what its handler answers and leaves in the cells of the CAM, each event by its change to the CAM. -/
theorem camCommandsComplete : Obligations.CAM_commands_complete := by
  refine ⟨fun m fixed s hok hmin hmax hlen hrange hchecks hidle hlocal => ?write,
    fun m i r s hok hmin hmax hlen hrange hchecks => ?refused,
    fun m s hok hlen hmin hrange hidle hlocal => ?invalidate,
    fun m s hok hlen hmin hfrom hto hidle hlocal => ?copy,
    fun m s hok hlen hmin hmax hrange => ?read,
    fun m s hok hlen hmin hmax hrange hclear => ?counters,
    fun m s hok hempty hon => ?status,
    fun m s hok hlen hzero hlone => ?lookup,
    fun m n s hok hlen hns hread hscope => ?nsInfo,
    fun s hup hloaded hsame => ?sweepClean,
    fun a s hup hloaded hone hon hcopy hgood => ?sweepOne,
    fun addr bit s hup => ?errorCopy,
    fun addr bit s hup hbit hfits => ?errorEntry,
    fun addr bit s hup hlow hhigh hnone => ?errorFirst,
    fun addr bit x s hup hlow hhigh hmem haddr hnew => ?errorSecond⟩
  case write => exact completes_camWrite hok hmin hmax hlen hrange hchecks hidle hlocal
  case refused => exact completes_camWrite_refused hok hmin hmax hlen hrange hchecks
  case invalidate => exact completes_camInvalidate hok hlen hmin hrange hidle hlocal
  case copy => exact completes_camCopy hok hlen hmin hfrom hto hidle hlocal
  case read => exact completes_camRead hok hlen hmin hmax hrange
  case counters => exact completes_camCounters hok hlen hmin hmax hrange hclear
  case status => exact completes_camStatus hok hempty hon
  case lookup => exact completes_camLookup hok hlen hzero hlone
  case nsInfo => exact completes_camNsInfo hok hlen hns hread hscope
  case sweepClean => exact yields_camSweep_clean hup hloaded hsame
  case sweepOne => exact completes_camSweep_one hup hloaded hone hon hcopy hgood
  case errorCopy => exact completes_camSoftError_copy hup addr bit
  case errorEntry => exact completes_camSoftError_entry hup hbit hfits
  case errorFirst => exact completes_camSoftError_first hup hlow hhigh hnone
  case errorSecond => exact completes_camSoftError_second hup hlow hhigh hmem haddr hnew

end Sys2Proof.Machine
end

section
/-! SUPPORT. The twin's answer to a repair on a drive whose Wax package has failed (R174, R287, R542). -/

namespace Sys2Proof.Machine

/-! ## The state -/

/-- A drive whose Wax package has failed and that waits for the twin's copy of a record on NAND, while a record in staging has still to be
packed (R174). -/
def failedRepairing : State :=
  { repairing with
    wx := { repairing.wx with staged := [(0, { recOne with seq := 2, key := [8] })], ring := [(0, 8)], streams := [(0, .gcCold)],
                              failing := some 0 },
    ix := { repairing.ix with spill := [{ h := 0, slot := { slotOne with fp := 0 } }] } }

theorem failedRepairing_find : failedRepairing.find 1 [7] = some foundNand := found_at rfl rfl rfl rfl rfl (by decide) (by decide)

theorem failedRepairing_lands :
    (failedRepairing.landNext .gcCold (failedRepairing.reseal { foundNand.record with value := [9] })).isSome = true := by decide

/-- The record is rewritten with the value that the twin gave (R287). -/
def State.repaired (s : State) (nsid : Nat) (key : Key) (f : Found) (v : Bytes) : State :=
  (((s.endAsk nsid key).rewriteRecord f v).countErr 4).event 8 "Record repaired from the twin"

/-- The twin's value repairs a record that no retrieval waits for. -/
theorem State.repairAnswer_value {s : State} {nsid : Nat} {key : Key} {f : Found} {v : Bytes} (hfind : s.find nsid key = some f)
    (hpend : f.slot.twinPend = false) (hnone : (s.repaired nsid key f v).waitingRepair nsid key = []) :
    s.repairAnswer nsid key (some v) 0 = s.repaired nsid key f v := by
  have hfind' : (s.endAsk nsid key).find nsid key = some f := hfind
  simp only [State.repairAnswer, hfind', hpend]
  change List.foldl (fun s c => s.serve c { f.record with value := v }) (s.repaired nsid key f v)
    ((s.repaired nsid key f v).waitingRepair nsid key) = _
  rw [hnone, List.foldl_nil]

def repairedOne : State := failedRepairing.repaired 1 [7] foundNand [9]

theorem failedRepairing_exec : exec (.twinRepairRequest 1 [7] true [9]) failedRepairing = finish failedRepairing repairedOne.failingEnds := by
  rw [repairedOne, ← State.repairAnswer_value failedRepairing_find rfl (by decide)]
  rfl

/-- The failed package goes on to pack the record in staging, whose PACK record follows the MOVE record of the repair (R165, R174). -/
theorem repairedOne_journal : repairedOne.failingEnds.wx.journal.length = 2 := by decide

/-! ## The statement -/

/-- Refutes O22: where a Wax package has failed, the drive packs what it can right after the repair, so that the journal holds a PACK record
behind the MOVE record. -/
theorem not_twinHeartbeatAndLossEventsComplete : ¬ Obligations.Twin_heartbeat_and_loss_events_complete := by
  intro hall
  obtain ⟨-, -, -, -, -, -, -, -, -, -, -, -, -, -, hrepair, -⟩ := hall
  obtain ⟨⟨u, d⟩, hlands⟩ := Option.isSome_iff_exists.mp failedRepairing_lands
  obtain ⟨-, -, -, hjournal⟩ := (hrepair 1 0 d [7] [9] foundNand u failedRepairing rfl rfl failedRepairing_find rfl rfl rfl (by decide)
    hlands).of_finish failedRepairing_exec
  have hlength := congrArg List.length hjournal
  rw [List.length_map, State.after_wx, repairedOne_journal] at hlength
  exact absurd hlength (by decide)

end Sys2Proof.Machine
end

section
/-! SUPPORT. What a command that goes on leaves as it is: the mailboxes, the time and the records held outside the index (R34, R115, R280). -/

namespace Sys2Proof.Machine

/-- What an answer to a message rests on, the mailboxes and the time, and the records held outside the index. -/
def State.anchor (s : State) : Mail × Nat × List Pend := (s.mb, s.tm.mono, s.wx.heldRecs)

@[simp] theorem Time.mono_spanCommit (t : Time) (seq : Nat) : (t.spanCommit seq).mono = t.mono := by
  unfold Time.spanCommit
  split
  · rfl
  split
  · rfl
  split
  · split <;> rfl
  · rfl

@[simp] theorem Wax.heldRecs_take (w : Wax) (g n : Nat) : (w.take g n).heldRecs = w.heldRecs := by
  suffices h : ∀ (l : List Nat) (w : Wax), (l.foldl (fun w s =>
      { w with segBase := setAssoc s w.sealCounter w.segBase, sealCounter := w.sealCounter + Figure.segmentGranules }) w).heldRecs = w.heldRecs
    from h _ w
  intro l
  induction l with
  | nil => exact fun _ => rfl
  | cons s l ih => exact fun w => ih _

@[simp] theorem Wax.heldRecs_killAll (l : List Nat) (w : Wax) : (l.foldl Wax.kill w).heldRecs = w.heldRecs := by
  induction l generalizing w with
  | nil => rfl
  | cons g l ih => exact ih _

theorem State.Tended.anchor {s t : State} (h : s.Tended t) : t.anchor = s.anchor := by
  obtain ⟨_, _, _, -, rfl⟩ := h
  rfl

theorem State.Readied.anchor {s t : State} (h : s.Readied t) : t.anchor = s.anchor := by
  obtain ⟨_, -, rfl⟩ := h
  rfl

section
variable (s : State)

@[simp] theorem State.anchor_index (f : Index → Index) : (s.index f).anchor = s.anchor := (s.tended_index f).anchor
@[simp] theorem State.anchor_look (nsid : Nat) (key : Key) : (s.look nsid key).anchor = s.anchor := (s.readied_look nsid key).anchor
@[simp] theorem State.anchor_settleVictims : s.settleVictims.anchor = s.anchor := s.tended_settleVictims.anchor
@[simp] theorem State.anchor_retryInternal : s.retryInternal.anchor = s.anchor := s.tended_retryInternal.anchor

/-! ## Changes of one other part -/

@[simp] theorem State.anchor_modWx {f : Wax → Wax} (h : ∀ w, (f w).heldRecs = w.heldRecs) : (s.modWx f).anchor = s.anchor :=
  congrArg (fun l => (s.mb, s.tm.mono, l)) (h s.wx)

@[simp] theorem State.anchor_kill (g : Nat) : (s.modWx fun w => w.kill g).anchor = s.anchor := rfl

@[simp] theorem State.anchor_modTm {f : Time → Time} (h : ∀ t, (f t).mono = t.mono) : (s.modTm f).anchor = s.anchor :=
  congrArg (fun n => (s.mb, n, s.wx.heldRecs)) (h s.tm)

@[simp] theorem State.anchor_modFl (f : Flight → Flight) : (s.modFl f).anchor = s.anchor := rfl
@[simp] theorem State.anchor_modVa (f : Vault → Vault) : (s.modVa f).anchor = s.anchor := rfl
@[simp] theorem State.anchor_modIx (f : Index → Index) : (s.modIx f).anchor = s.anchor := rfl
@[simp] theorem State.anchor_modMd (f : Media → Media) : (s.modMd f).anchor = s.anchor := rfl
@[simp] theorem State.anchor_modKy (f : Keys → Keys) : (s.modKy f).anchor = s.anchor := rfl
@[simp] theorem State.anchor_modTw (f : Twin → Twin) : (s.modTw f).anchor = s.anchor := rfl
@[simp] theorem State.anchor_modOg (f : Origin → Origin) : (s.modOg f).anchor = s.anchor := rfl
@[simp] theorem State.anchor_modBand (n : Nat) (f : Band → Band) : (s.modBand n f).anchor = s.anchor := rfl
@[simp] theorem State.anchor_modCmd (fetch : Nat) (f : Cmd → Cmd) : (s.modCmd fetch f).anchor = s.anchor := rfl
@[simp] theorem State.anchor_phase (c : Cmd) (p : CmdPhase) : (s.phase c p).anchor = s.anchor := rfl
@[simp] theorem State.anchor_dropCmd (fetch : Nat) : (s.dropCmd fetch).anchor = s.anchor := rfl
@[simp] theorem State.anchor_emit (o : Out) : (s.emit o).anchor = s.anchor := rfl
@[simp] theorem State.anchor_logChanged (n : Nat) : (s.logChanged n).anchor = s.anchor := rfl
@[simp] theorem State.anchor_event (unit : Nat) (name : String) : (s.event unit name).anchor = s.anchor := rfl
@[simp] theorem State.anchor_eventP (unit : Nat) (name : String) (p q r : Nat) : (s.eventP unit name p q r).anchor = s.anchor := rfl
@[simp] theorem State.anchor_notifyHost (host : Nqn) : (s.notifyHost host).anchor = s.anchor := rfl
@[simp] theorem State.anchor_setC1 (i : Nat) (f : DeRec → DeRec) : (s.setC1 i f).anchor = s.anchor := rfl
@[simp] theorem State.anchor_forget (nsid seq : Nat) : (s.forget nsid seq).anchor = s.anchor := rfl
@[simp] theorem State.anchor_waitBucket (c : Cmd) : (s.waitBucket c).anchor = s.anchor := rfl
@[simp] theorem State.anchor_waitJournal (c : Cmd) : (s.waitJournal c).anchor = s.anchor := rfl
@[simp] theorem State.anchor_trimRing : s.trimRing.anchor = s.anchor := rfl
@[simp] theorem State.anchor_post (ctrl sq cid : Nat) (st : Status) (dw0 dw1 : Nat) (dnr : Bool) (inv : Option (BitVec 32)) :
    (s.post ctrl sq cid st dw0 dw1 dnr inv).anchor = s.anchor := rfl

theorem State.anchor_whenB {s : State} (c : Bool) {f : State → State} (h : ∀ s, (f s).anchor = s.anchor) :
    (s.whenB c f).anchor = s.anchor := by
  unfold State.whenB
  split
  · exact h s
  · rfl

theorem State.anchor_foldl {α : Type} {f : State → α → State} (h : ∀ s a, (f s a).anchor = s.anchor) (l : List α) (s : State) :
    (l.foldl f s).anchor = s.anchor := by
  induction l generalizing s with
  | nil => rfl
  | cons a l ih => exact (ih _).trans (h s a)

@[simp] theorem State.anchor_ite {c : Prop} [Decidable c] (t u : State) :
    (if c then t else u).anchor = if c then t.anchor else u.anchor := apply_ite State.anchor c t u

/-! ## The completion of a command -/

@[simp] theorem State.anchor_sendData (ctrl sq cid : Nat) (d : Bytes) : (s.sendData ctrl sq cid d).anchor = s.anchor := by
  unfold State.sendData
  dsimp only
  split
  · unfold State.countRecords
    split
    · rfl
    · exact State.anchor_whenB _ fun s => rfl
  · rfl

@[simp] theorem State.anchor_giveBack (c : Cmd) (sent : Nat) : (s.giveBack c sent).anchor = s.anchor := by
  unfold State.giveBack
  dsimp only
  split <;> rfl

@[simp] theorem State.anchor_complete (c : Cmd) (st : Status) (dw0 dw1 : Nat) (data : Bytes) (dnr : Bool) :
    (s.complete c st dw0 dw1 data dnr).anchor = s.anchor := by
  unfold State.complete
  extract_lets given freed hashed sent
  have hgiven : given.anchor = s.anchor := by simp [given]
  have hfreed : freed.anchor = s.anchor := by
    unfold freed
    split
    · exact hgiven
    · exact hgiven
  have hhashed : hashed.anchor = s.anchor := hfreed
  split
  · exact hhashed
  · simp only [State.anchor_post, sent]
    split
    · exact hhashed
    · exact (State.anchor_sendData _ _ _ _ _).trans hhashed

@[simp] theorem State.anchor_completeRead (c : Cmd) (data : Bytes) (dw0 dw1 : Nat) :
    (s.completeRead c data dw0 dw1).anchor = s.anchor := s.anchor_complete c .success dw0 dw1 data _

@[simp] theorem State.anchor_completeWrite (c : Cmd) (leaf : Option (Nat × Nat)) (slot : Nat) :
    (s.completeWrite c leaf slot).anchor = s.anchor := by
  unfold State.completeWrite
  split
  · simp
  split <;> simp

@[simp] theorem State.anchor_finishWrite (c : Cmd) (leaf : Option (Nat × Nat)) (slot : Nat) (after : List Nat) :
    (s.finishWrite c leaf slot after).anchor = s.anchor := by
  unfold State.finishWrite
  split <;> simp

/-! ## The index update of a committed write -/

@[simp] theorem State.anchor_endCheckpoint : s.endCheckpoint.anchor = s.anchor := by
  unfold State.endCheckpoint
  split
  · split <;> simp
  · rfl

@[simp] theorem State.anchor_closeBand (b : Band) : (s.closeBand b).anchor = s.anchor := by simp [State.closeBand]

@[simp] theorem State.anchor_settleBands : s.settleBands.anchor = s.anchor :=
  (State.anchor_foldl State.anchor_closeBand _ _).trans s.anchor_settleVictims

@[simp] theorem State.anchor_dropRecord (loc : Loc) (bytes : Nat) : (s.dropRecord loc bytes).anchor = s.anchor := by
  cases loc <;> simp [State.dropRecord]

@[simp] theorem State.anchor_removeKey (nsid : Nat) (key : Key) : (s.removeKey nsid key).anchor = s.anchor := by
  unfold State.removeKey
  split <;> simp

@[simp] theorem State.anchor_putKey (loc : Loc) (r : StoredRec) (twinPend : Bool) : (s.putKey loc r twinPend).anchor = s.anchor := by
  unfold State.putKey
  dsimp only
  split <;> simp

@[simp] theorem State.anchor_modSlot (nsid : Nat) (key : Key) (f : Slot → Slot) : (s.modSlot nsid key f).anchor = s.anchor := by
  unfold State.modSlot
  split <;> simp

@[simp] theorem State.anchor_secdelDone (j : SecDelJob) : (s.secdelDone j).anchor = s.anchor := by
  unfold State.secdelDone
  dsimp only
  split <;> simp

@[simp] theorem State.anchor_startSecdel (slot : Option Nat) (seq nsid : Nat) (key : Key) (host : Nqn) :
    (s.startSecdel slot seq nsid key host).anchor = s.anchor := by
  unfold State.startSecdel
  dsimp only
  split <;> simp

@[simp] theorem State.anchor_holdPends (w : Write) (seq : Nat) (twinPend : Bool) : (s.holdPends w seq twinPend).anchor = s.anchor :=
  State.anchor_whenB _ fun _ => rfl

@[simp] theorem State.anchor_applyWrite (w : Write) (seq time : Nat) (tq : BitVec 8) (twinPend : Bool) :
    (s.applyWrite w seq time tq twinPend).anchor = s.anchor := by
  unfold State.applyWrite
  split
  case h_1 =>
    split
    next r l _ _ =>
      split
      · simp
      · cases l <;> simp only [] <;> split <;> simp
    · rfl
  case h_2 | h_3 =>
    dsimp only
    split
    · simp
    split <;> simp
  case h_4 | h_5 => split <;> simp
  case h_6 | h_7 => rfl

/-! ## The commit of a write -/

@[simp] theorem State.anchor_closeEpoch (flags : Nat) : (s.closeEpoch flags).anchor = s.anchor := by
  unfold State.closeEpoch
  split <;> rfl

@[simp] theorem State.anchor_addLeaf (nsid : Nat) (key : Key) (value : Bytes) (seq : Nat) :
    (s.addLeaf nsid key value seq).1.anchor = s.anchor := by
  simp [State.addLeaf]

@[simp] theorem State.anchor_writeJournal (r : JRec) : (s.writeJournal r).anchor = s.anchor := by
  unfold State.writeJournal State.noteBase
  split
  · rfl
  split <;> rfl

@[simp] theorem State.anchor_sendTwin (w : ReplWrite) (hosted : Bool) : (s.sendTwin w hosted).anchor = s.anchor := by
  unfold State.sendTwin
  split
  · rfl
  split <;> rfl

@[simp] theorem State.anchor_commit (w : Write) (fwd : Option (Nat × Nat × Nat)) : (s.commit w fwd).1.anchor = s.anchor := by
  unfold State.commit
  extract_lets seq part time tq early
  split
  next s₁ lf lh hleaf =>
  have hleafed : s₁.anchor = s.anchor := by
    split at hleaf
    · generalize hadd : s.addLeaf w.nsid w.key _ seq = added at hleaf
      obtain ⟨t, e, i, h⟩ := added
      cases hleaf
      simpa [hadd] using s.anchor_addLeaf w.nsid w.key ((w.srec.map (·.value)).getD []) seq
    · cases hleaf
      rfl
  extract_lets numbered
  split
  next e i _ =>
  extract_lets journaled owned sent listed lagged early' staged
  have hnumbered : numbered.anchor = s.anchor := (State.anchor_modTm _ fun t => t.mono_spanCommit seq).trans hleafed
  have hjournaled : journaled.anchor = s.anchor := (State.anchor_writeJournal _ _).trans hnumbered
  have howned : owned.anchor = s.anchor := by
    unfold owned
    split <;> simp [hjournaled]
  have hlagged : lagged.anchor = s.anchor := by simp [lagged, listed, sent, howned]
  have hstaged : staged.anchor = s.anchor := by
    unfold staged
    split <;> simp [hlagged]
  split
  · simp [early', hlagged]
  · simp [hstaged]

@[simp] theorem State.anchor_commitCmd (c : Cmd) (w : Write) : (s.commitCmd c w).anchor = s.anchor := by
  unfold State.commitCmd
  split
  · simp
  split
  · simp
  dsimp only
  split <;> simp

/-! ## The start of each command -/

@[simp] theorem State.anchor_streamData (c : Cmd) (d : Bytes) : (s.streamData c d).anchor = s.anchor :=
  State.anchor_whenB _ fun _ => rfl

@[simp] theorem State.anchor_requestData (c : Cmd) : (s.requestData c).anchor = s.anchor := by
  unfold State.requestData
  dsimp only
  split
  · simp
  split
  · rfl
  · rfl
  · simp

@[simp] theorem State.anchor_startIntake (c : Cmd) (lane : Bool) : (s.startIntake c lane).anchor = s.anchor := by
  simp [State.startIntake]

@[simp] theorem State.anchor_bankCheck (bytes : Nat) : (s.bankCheck bytes).anchor = s.anchor := by simp [State.bankCheck]

@[simp] theorem State.anchor_reserve (n : Nat) (granted : Bool) : (s.reserve n granted).1.anchor = s.anchor := by
  unfold State.reserve
  dsimp only
  split
  · simp
  split
  · exact (State.anchor_modWx _ fun w => w.heldRecs_take _ n).trans (s.anchor_bankCheck _)
  · simp

@[simp] theorem State.anchor_intake (c : Cmd) (n : Ns) (granted : Bool) : (s.intake c n granted).anchor = s.anchor := by
  unfold State.intake
  extract_lets g bytes wait credited
  have hcredited : credited.anchor = s.anchor := State.anchor_whenB _ fun _ => rfl
  have hreserved : (if wait then (credited, none) else credited.reserve g granted).1.anchor = s.anchor := by
    split <;> simp [hcredited]
  split
  · simp
  split
  next u hu =>
    rw [hu] at hreserved
    simpa using hreserved
  next u at_ hu =>
    rw [hu] at hreserved
    simpa using hreserved

@[simp] theorem State.anchor_runStore (c : Cmd) (n : Ns) : (s.runStore c n).anchor = s.anchor := by
  unfold State.runStore
  dsimp only
  split
  · simp
  split <;> simp

@[simp] theorem State.anchor_serve (c : Cmd) (r : StoredRec) : (s.serve c r).anchor = s.anchor := by simp [State.serve]

@[simp] theorem State.anchor_fetchRecord (c : Cmd) (t : Slot) (r : StoredRec) : (s.fetchRecord c t r).anchor = s.anchor := by
  unfold State.fetchRecord
  split <;> simp

@[simp] theorem State.anchor_unreachable (c : Cmd) (b : Option Binding) : (s.unreachable c b).anchor = s.anchor := by
  unfold State.unreachable
  split <;> simp

@[simp] theorem State.anchor_noteError (i : Nat) : (s.noteError i).anchor = s.anchor := by simp [State.noteError]

@[simp] theorem State.anchor_miss (c : Cmd) (expired : Bool) : (s.miss c expired).anchor = s.anchor := by
  unfold State.miss
  split
  · simp
  extract_lets usable first noted
  have hnoted : noted.anchor = s.anchor := State.anchor_whenB _ fun s => s.anchor_noteError first
  split
  · simp
  split
  · simp
  split
  · simp
  split <;> simp [hnoted]

@[simp] theorem State.anchor_runRetrieve (c : Cmd) (n : Ns) : (s.runRetrieve c n).anchor = s.anchor := by
  unfold State.runRetrieve
  split <;> simp

@[simp] theorem State.anchor_runList (c : Cmd) : (s.runList c).anchor = s.anchor := by simp [State.runList]

@[simp] theorem State.anchor_release (u : EngineId) : (s.release u).anchor = s.anchor := rfl

@[simp] theorem State.anchor_releaseAll (c : Cmd) : (s.releaseAll c).anchor = s.anchor := by
  refine State.anchor_foldl (fun s e => ?_) _ s
  exact s.anchor_release (.wick e.1)

@[simp] theorem State.anchor_endListing (c : Cmd) (more budget : Bool) : (s.endListing c more budget).anchor = s.anchor := by
  simp [State.endListing]

@[simp] theorem State.anchor_evaluate (c : Cmd) (p : Program) (k : Key) (n : Nat) : (s.evaluate c p k n).anchor = s.anchor := by
  unfold State.evaluate
  split <;> rfl

@[simp] theorem State.anchor_nextKey (c : Cmd) : (s.nextKey c).anchor = s.anchor := by
  unfold State.nextKey
  extract_lets p ks
  clear_value p
  split
  · rfl
  split
  · simp
  split
  · simp
  cases p with
  | some p =>
    refine State.anchor_foldl (fun s e => ?_) _ s
    exact s.anchor_evaluate c p e.1 e.2
  | none => rfl

@[simp] theorem State.anchor_runFilter (c : Cmd) : (s.runFilter c).anchor = s.anchor := by
  unfold State.runFilter
  dsimp only
  split
  · simp
  split <;> simp

@[simp] theorem State.anchor_runReceipt (c : Cmd) : (s.runReceipt c).anchor = s.anchor := by
  unfold State.runReceipt
  dsimp only
  split
  · split <;> simp
  split
  · simp
  split <;> simp

@[simp] theorem State.anchor_runHold (c : Cmd) (n : Ns) : (s.runHold c n).anchor = s.anchor := by
  unfold State.runHold
  split
  · simp
  split <;> simp

@[simp] theorem State.anchor_runDelete (c : Cmd) (n : Ns) : (s.runDelete c n).anchor = s.anchor := by
  unfold State.runDelete
  dsimp only
  split
  · simp
  split
  · simp
  split
  · simp
  split
  · split <;> simp
  · simp

@[simp] theorem State.anchor_runFlush (c : Cmd) : (s.runFlush c).anchor = s.anchor := by simp [State.runFlush]

@[simp] theorem State.anchor_forward (c : Cmd) : (s.forward c).anchor = s.anchor := by simp [State.forward]

@[simp] theorem State.anchor_run (c : Cmd) (n : Ns) : (s.run c n).anchor = s.anchor := by
  unfold State.run
  extract_lets looked
  have hlooked : looked.anchor = s.anchor := State.anchor_whenB _ fun s => s.anchor_look n.nsid c.key
  split
  · simp [hlooked]
  split <;> simp [hlooked]

/-! ## Started commands that go on -/

@[simp] theorem State.anchor_storeCommit (c : Cmd) (n : Ns) (g : Nat) : (s.storeCommit c n g).anchor = s.anchor := by
  unfold State.storeCommit
  dsimp only
  split
  · simp
  split
  · simp
  split <;> simp

@[simp] theorem State.anchor_again (fetch : Nat) : (s.again fetch).anchor = s.anchor := by
  unfold State.again
  dsimp only
  split
  · simp
  split
  · split <;> simp
  · simp
  · simp

@[simp] theorem State.anchor_settlePlaces : s.settlePlaces.anchor = s.anchor :=
  State.anchor_foldl (fun s c => s.anchor_completeWrite c none 0) _ s

@[simp] theorem State.anchor_bucketsFree : s.bucketsFree.anchor = s.anchor := by
  refine State.anchor_foldl (fun s f => ?_) _ s
  split
  · split <;> simp
  · rfl

/-- Requests that waited for staging start, and none of it is an answer, takes time or touches a held record. -/
theorem State.anchor_unblock : s.unblock.anchor = s.anchor := by simp [State.unblock]

end

end Sys2Proof.Machine
end

section
/-! SUPPORT. What the operations of a pair change, and held records given up (R260, R265, R277 to R285). -/

namespace Sys2Proof.Machine

/-! ## The pairing alone changes -/

/-- The twin's state, what is raised and put out and the black box have changed, and nothing else. -/
def State.PairOnly (s t : State) : Prop := ∃ fe tw bb l, t = { s with fe := fe, tw := tw, bb := bb, out := s.out ++ l }

theorem State.PairOnly.refl (s : State) : s.PairOnly s := ⟨s.fe, s.tw, s.bb, [], by rw [List.append_nil]⟩

theorem State.PairOnly.trans {s t u : State} (h : s.PairOnly t) (h' : t.PairOnly u) : s.PairOnly u := by
  obtain ⟨_, _, _, l, rfl⟩ := h
  obtain ⟨_, _, _, l', rfl⟩ := h'
  exact ⟨_, _, _, l ++ l', by rw [List.append_assoc]⟩

section
variable {s t : State}

theorem State.PairOnly.mb (h : s.PairOnly t) : t.mb = s.mb := by
  obtain ⟨_, _, _, _, rfl⟩ := h
  rfl

theorem State.PairOnly.tm (h : s.PairOnly t) : t.tm = s.tm := by
  obtain ⟨_, _, _, _, rfl⟩ := h
  rfl

theorem State.PairOnly.mono (h : s.PairOnly t) : t.tm.mono = s.tm.mono := congrArg Time.mono h.tm

theorem State.PairOnly.fl (h : s.PairOnly t) : t.fl = s.fl := by
  obtain ⟨_, _, _, _, rfl⟩ := h
  rfl

theorem State.PairOnly.wx (h : s.PairOnly t) : t.wx = s.wx := by
  obtain ⟨_, _, _, _, rfl⟩ := h
  rfl

theorem State.PairOnly.out (h : s.PairOnly t) : ∃ l, t.out = s.out ++ l := by
  obtain ⟨_, _, _, l, rfl⟩ := h
  exact ⟨l, rfl⟩

end

theorem State.pairOnly_modTw (s : State) (f : Twin → Twin) : s.PairOnly (s.modTw f) :=
  ⟨s.fe, f s.tw, s.bb, [], by rw [List.append_nil]; rfl⟩

theorem State.pairOnly_emit (s : State) (o : Out) : s.PairOnly (s.emit o) := ⟨s.fe, s.tw, s.bb, [o], rfl⟩

theorem State.pairOnly_notifyAll (s : State) (k : EventKind) : s.PairOnly (s.notifyAll k) := ⟨_, s.tw, s.bb, _, rfl⟩

theorem State.pairOnly_logEvent (s : State) (n : Nat) (k : EventKind) : s.PairOnly (s.logEvent n k) := ⟨_, s.tw, s.bb, _, rfl⟩

theorem State.pairOnly_blackBox (s : State) (kind source : Nat) (body : List Nat) : s.PairOnly (s.blackBox kind source body) :=
  ⟨s.fe, s.tw, _, [], by rw [List.append_nil]; rfl⟩

theorem State.pairOnly_sendResync (s : State) (full : Bool) (lost : List (Nat × Key)) : s.PairOnly (s.sendResync full lost) :=
  ⟨s.fe, _, s.bb, [_], rfl⟩

theorem State.pairOnly_handOver (s : State) : s.PairOnly s.handOver := (s.pairOnly_modTw _).trans (State.pairOnly_emit _ _)

/-- The twin's state in a new role: the configuration that waited is in force, and what belonged to the old role is gone (R265, R288). -/
def Twin.inRole (t : Twin) (r : TwinRole) (st : Nat) : Twin :=
  { t with witnessMode := t.applyCfg.witnessMode, witnessId := t.applyCfg.witnessId, strict := t.applyCfg.strict, rate := t.applyCfg.rate,
           nextCfg := t.applyCfg.nextCfg, witnessState := t.applyCfg.witnessState, role := r, st := st, candidate := false, fenced := false,
           lateJoin := none, sendForm := if r == .primary then t.sendForm else 0, dropWaits := false, dropped := 0,
           inbound := if r == .primary || r == .solo then [] else t.inbound, degraded := t.degraded && r == .primary }

theorem Twin.inRole_eq (t : Twin) (r : TwinRole) (st : Nat) :
    { t.applyCfg with role := r, st := st, candidate := false, fenced := false, lateJoin := none,
                      sendForm := if r == .primary then t.sendForm else 0, dropWaits := false, dropped := 0,
                      inbound := if r == .primary || r == .solo then [] else t.inbound,
                      degraded := t.degraded && r == .primary } = t.inRole r st := by
  unfold Twin.inRole Twin.applyCfg
  split <;> rfl

theorem State.pairOnly_setRole (s : State) (r : TwinRole) (st : Nat) : s.PairOnly (s.setRole r st) := by
  unfold State.setRole State.whenB
  extract_lets t
  have ht : s.PairOnly t := (s.pairOnly_modTw _).trans (State.pairOnly_logEvent _ _ _)
  split
  · exact ht.trans (t.pairOnly_notifyAll _)
  · exact ht

@[simp] theorem State.tw_setRole (s : State) (r : TwinRole) (st : Nat) : (s.setRole r st).tw = s.tw.inRole r st := by
  unfold State.setRole State.whenB
  extract_lets t
  split
  · exact s.tw.inRole_eq r st
  · exact s.tw.inRole_eq r st

@[simp] theorem State.tw_becomeSolo (s : State) : s.becomeSolo.tw = (s.twinSilent.tw.inRole .solo 0).solo :=
  congrArg Twin.solo (s.twinSilent.tw_setRole .solo 0)

@[simp] theorem State.role_becomeSolo (s : State) : s.becomeSolo.tw.role = .solo := by
  rw [State.tw_becomeSolo]
  rfl

theorem State.pairOnly_becomeSolo (s : State) : s.PairOnly s.becomeSolo :=
  ((s.pairOnly_modTw _).trans (State.pairOnly_setRole _ _ _)).trans (State.pairOnly_modTw _ _)

theorem State.pairOnly_degrade (s : State) : s.PairOnly s.degrade := by
  unfold State.degrade
  split
  · exact .refl s
  · exact (s.pairOnly_modTw _).trans (State.pairOnly_logEvent _ _ _)

theorem State.tw_degrade (s : State) : ∃ b, s.degrade.tw = { s.tw with degraded := b } := by
  unfold State.degrade
  split
  · exact ⟨s.tw.degraded, rfl⟩
  · exact ⟨true, rfl⟩

/-! ## Without commands -/

theorem State.unblock_none {s : State} (h : s.fl.cmds = []) : s.unblock = s := by
  have hplaces : s.settlePlaces = s := by simp [State.settlePlaces, h]
  rw [State.unblock, hplaces]
  exact List.foldl_fixed' (fun f => by simp [h]) _

/-! ## Held records are given up (R280, R281, R285) -/

/-- What an answer to a message rests on, the mailboxes and the time, and the commands under way. -/
def State.desk (s : State) : Mail × Nat × List Cmd := (s.mb, s.tm.mono, s.fl.cmds)

theorem State.PairOnly.desk {s t : State} (h : s.PairOnly t) : t.desk = s.desk := by
  obtain ⟨_, _, _, _, rfl⟩ := h
  rfl

theorem State.desk_undoPend (s : State) (p : Pend) : (s.undoPend p).desk = s.desk := by
  unfold State.undoPend
  split
  · rfl
  split <;> rfl

theorem State.wx_undoPend (s : State) (p : Pend) : (s.undoPend p).wx = s.wx := by
  unfold State.undoPend
  split
  · rfl
  split <;> rfl

theorem State.pairOnly_sendWaiting (s : State) : s.PairOnly s.sendWaiting := by
  unfold State.sendWaiting
  split
  · exact .refl s
  split
  · exact ⟨s.fe, _, s.bb, _, rfl⟩
  · exact ⟨s.fe, _, s.bb, _, rfl⟩
  · exact .refl s

theorem State.pairOnly_sentTwin (s : State) (seq : Nat) : s.PairOnly (s.sentTwin seq) :=
  (s.pairOnly_modTw _).trans (State.pairOnly_sendWaiting _)

theorem State.desk_giveUpPend (s : State) (p : Pend) : (s.giveUpPend p).desk = s.desk :=
  (State.pairOnly_sentTwin (s.undoPend p) p.seq).desk.trans (s.desk_undoPend p)

theorem State.heldRecs_giveUpPend (s : State) (p : Pend) : (s.giveUpPend p).wx.heldRecs = s.wx.heldRecs.filter (·.seq ≠ p.seq) := by
  have hwx : ((s.undoPend p).sentTwin p.seq).wx = s.wx := (State.pairOnly_sentTwin _ _).wx.trans (s.wx_undoPend p)
  rw [← hwx]
  unfold State.giveUpPend
  cases p.loc with
  | none => rfl
  | some l => cases l <;> rfl

theorem State.desk_foldl {α : Type} {f : State → α → State} (h : ∀ (s : State) a, s.fl.cmds = [] → (f s a).desk = s.desk) (l : List α)
    {s : State} (hs : s.fl.cmds = []) : (l.foldl f s).desk = s.desk := by
  induction l generalizing s with
  | nil => rfl
  | cons a l ih =>
    have hone := h s a hs
    exact (ih ((congrArg (·.2.2) hone).trans hs)).trans hone

end Sys2Proof.Machine
end

section
/-! SUPPORT. TWIN messages that are answered: TWIN_CONFIG, TWIN_STATUS, TWIN_WITNESS_POLL, TWIN_ATTACH and TWIN_RESYNC (R278, R283, R288). -/

namespace Sys2Proof.Machine

/-! ## A message that is answered -/

theorem State.tw_reply (s : State) (cls op : Nat) (m : MsgReq) (a : Answer) : (s.reply cls op m a).tw = s.tw := by
  obtain ⟨_, _, _, -, h⟩ := s.mailOnly_reply cls op m a
  rw [h]

theorem State.cmds_reply (s : State) (cls op : Nat) (m : MsgReq) (a : Answer) : (s.reply cls op m a).fl.cmds = s.fl.cmds := by
  obtain ⟨_, _, _, -, h⟩ := s.mailOnly_reply cls op m a
  rw [h]

/-- A message that ends in a reply completes: the answer is kept, and the reply changes the mailboxes and what is put out. -/
theorem completes_replied {c : Instr} {cls op : Nat} {m : MsgReq} {f : Handler} {s t : State} {a : Answer} {P : State → Prop}
    (h : exec c s = finish s (s.message cls op f m)) (hok : messageOk cls op m s = true)
    (hf : s.message cls op f m = t.reply cls op (s.named m) a) (hmb : t.mb = (s.takeIn (s.named m) cls op).mb) (hmono : t.tm.mono = s.tm.mono)
    (hp : ∀ (w : State) (l : List Out), w.tw = t.tw → w.wx = t.wx → w.out = t.out ++ l → P w) :
    Completes c s fun w => Answered s w cls op m a.st a.detail a.body ∧ P w := by
  have hlen : m.mbox < t.mb.boxes.length := by
    rw [hmb]
    simpa [State.takeIn, State.accept] using mailboxFree_lt (messageOk_free hok)
  rw [hf] at h
  refine completes_finish h ⟨reply_answered (m := s.named m) a hlen rfl hmono, ?_⟩
  obtain ⟨boxes, sent, outbox, -, hreply⟩ := t.mailOnly_reply cls op (s.named m) a
  rw [hreply]
  exact hp _ sent rfl rfl rfl

/-- The same, of a handler that replies itself. -/
theorem completes_selfReplied {c : Instr} {cls op : Nat} {m : MsgReq} {f : Handler} {s t : State} {a : Answer} {P : State → Prop}
    (h : exec c s = finish s (s.message cls op f m)) (hok : messageOk cls op m s = true)
    (hf : f (s.takeIn (s.named m) cls op) (s.named m) = (t.reply cls op (s.named m) a, none))
    (hmb : t.mb = (s.takeIn (s.named m) cls op).mb) (hmono : t.tm.mono = s.tm.mono)
    (hp : ∀ (w : State) (l : List Out), w.tw = t.tw → w.wx = t.wx → w.out = t.out ++ l → P w) :
    Completes c s fun w => Answered s w cls op m a.st a.detail a.body ∧ P w :=
  completes_replied h hok (by rw [message_ok hok, hf]) hmb hmono hp

/-- The same, of a handler that gives the answer. -/
theorem completes_twinMessage {c : Instr} {cls op : Nat} {m : MsgReq} {f : Handler} {s t : State} {a : Answer} {P : State → Prop}
    (h : exec c s = finish s (s.message cls op f m)) (hok : messageOk cls op m s = true)
    (hf : f (s.takeIn (s.named m) cls op) (s.named m) = (t, some a)) (hmb : t.mb = (s.takeIn (s.named m) cls op).mb) (hmono : t.tm.mono = s.tm.mono)
    (hp : ∀ (w : State) (l : List Out), w.tw = t.tw → w.wx = t.wx → w.out = t.out ++ l → P w) :
    Completes c s fun w => Answered s w cls op m a.st a.detail a.body ∧ P w :=
  completes_replied h hok (by rw [message_ok hok, hf]) hmb hmono hp

section
variable {s : State} {m : MsgReq}

/-! ## TWIN_CONFIG, TWIN_STATUS and TWIN_WITNESS_POLL -/

theorem hTwinConfig_takes (hlen : m.payload.length = 24) (hmode : natAt m.payload 0 1 ≤ 2) (hpolicy : natAt m.payload 1 1 ≤ 1)
    (hzero : natAt m.payload 2 2 = 0) (hmin : 1000 ≤ natAt m.payload 4 4) (hmax : natAt m.payload 4 4 ≤ 25000) :
    hTwinConfig s m = (s.modTw fun t => { t with nextCfg := some (natAt m.payload 0 1, natAt m.payload 8 16, natAt m.payload 1 1 == 1,
                                                                  natAt m.payload 4 4) }, some {}) := by
  simp [hTwinConfig, doing, hlen, hzero, hmode.not_gt, hpolicy.not_gt, hmin.not_gt, hmax.not_gt]

theorem hTwinStatus_tells (hempty : m.payload = []) : hTwinStatus s m = (s, some (answer s.logC3)) := by
  simp [hTwinStatus, hempty, saying]

theorem completes_twinConfig (hok : messageOk 0x06 0x04 m s = true) (hlen : m.payload.length = 24) (hmode : natAt m.payload 0 1 ≤ 2)
    (hpolicy : natAt m.payload 1 1 ≤ 1) (hzero : natAt m.payload 2 2 = 0) (hmin : 1000 ≤ natAt m.payload 4 4)
    (hmax : natAt m.payload 4 4 ≤ 25000) :
    Completes (.twinConfig m) s fun t =>
      Answered s t 0x06 0x04 m .success 0 [[]]
      ∧ t.tw = { s.tw with nextCfg := some (natAt m.payload 0 1, natAt m.payload 8 16, natAt m.payload 1 1 == 1, natAt m.payload 4 4) } :=
  completes_twinMessage rfl hok (hTwinConfig_takes hlen hmode hpolicy hzero hmin hmax) rfl rfl fun _ _ htw _ _ => htw

theorem completes_twinStatus (hok : messageOk 0x06 0x05 m s = true) (hempty : m.payload = []) :
    Completes (.twinStatus m) s fun t => Answered s t 0x06 0x05 m .success 0 [s.logC3] ∧ t.tw = s.tw :=
  completes_twinMessage (a := answer s.logC3) rfl hok (hTwinStatus_tells hempty) rfl rfl fun _ _ htw _ _ => htw

/-- A poll without a verdict leaves a Secondary as it is (R275, R276). -/
theorem State.verdict_none (hrole : s.tw.role = .secondary) (hfence : s.tw.fenced = false) (term : Nat) : s.verdict term 0 = s := by
  simp [State.verdict, hrole, hfence]

theorem hTwinWitnessPoll_noted (hbox : m.mbox = 12) (hlen : m.payload.length = 25) (hmode : s.tw.witnessMode = 1)
    (hid : natAt m.payload 0 16 = s.tw.witnessId) (hnone : natAt m.payload 24 1 = 0) (hrole : s.tw.role = .secondary)
    (hfence : s.tw.fenced = false) :
    hTwinWitnessPoll s m = (s.modTw fun t => { t with lastPoll := some s.mono, witnessState := 1 },
      some (answer ([2] ++ leBytes 8 s.tw.term ++ leBytes 1 s.tw.candidate.toNat ++ leBytes 4 ((s.mono - s.tw.lastHb) / 1000000)))) := by
  have htwo : leBytes 1 2 = [2] := rfl
  simp [hTwinWitnessPoll, doing, hlen, hbox, hmode, hid, hnone, State.verdict_none, hrole, hfence, htwo, State.mono]

theorem completes_twinWitnessPoll (hok : messageOk 0x06 0x06 m s = true) (hbox : m.mbox = 12) (hlen : m.payload.length = 25)
    (hmode : s.tw.witnessMode = 1) (hid : natAt m.payload 0 16 = s.tw.witnessId) (hnone : natAt m.payload 24 1 = 0)
    (hrole : s.tw.role = .secondary) (hfence : s.tw.fenced = false) :
    Completes (.twinWitnessPoll m) s fun t =>
      t.tw = { s.tw with lastPoll := some s.mono, witnessState := 1 }
      ∧ Answered s t 0x06 0x06 m .success 0
          [[2] ++ leBytes 8 s.tw.term ++ leBytes 1 s.tw.candidate.toNat ++ leBytes 4 ((s.mono - s.tw.lastHb) / 1000000)] :=
  (completes_twinMessage rfl hok (hTwinWitnessPoll_noted hbox hlen hmode hid hnone hrole hfence) rfl rfl fun _ _ htw _ _ => htw).imp
    fun _ h => h.symm

/-! ## TWIN_ATTACH and TWIN_RESYNC -/

theorem hTwinAttach_primary (hlen : 17 ≤ m.payload.length) (hrole : natAt m.payload 16 1 = 1) (hnone : s.tw.attachReq = none)
    (hsealed : s.lifecycle = .isSealed) (hpair : s.tw.pairId = List.replicate 16 0 ∨ s.tw.pairId = bytesAt m.payload 0 16)
    (hpower : s.pw.psNow < 3) :
    hTwinAttach s m = ((s.modTw fun t => { t with attachReq := some (bytesAt m.payload 0 16, 1, none), addrs := m.payload.drop 17,
                                                  st := 1 }).logEvent 3 .logC3, some {}) := by
  rcases hpair with h | h <;> simp [hTwinAttach, doing, hlen.not_gt, hrole, hnone, hsealed, h, hpower.not_ge]

theorem completes_twinAttach (hok : messageOk 0x06 0x01 m s = true) (hlen : 17 ≤ m.payload.length) (hrole : natAt m.payload 16 1 = 1)
    (hnone : s.tw.attachReq = none) (hsealed : s.lifecycle = .isSealed)
    (hpair : s.tw.pairId = List.replicate 16 0 ∨ s.tw.pairId = bytesAt m.payload 0 16) (hpower : s.pw.psNow < 3) :
    Completes (.twinAttach m) s fun t =>
      Answered s t 0x06 0x01 m .success 0 [[]]
      ∧ t.tw = { s.tw with attachReq := some (bytesAt m.payload 0 16, 1, none), addrs := m.payload.drop 17, st := 1 } :=
  completes_twinMessage rfl hok (hTwinAttach_primary hlen hrole hnone hsealed hpair hpower) rfl rfl fun _ _ htw _ _ => htw

theorem hTwinResync_starts (hempty : m.payload = []) (hrole : s.tw.role = .primary) (hreach : s.tw.reached = true) :
    hTwinResync s m = (s.startResync, some {}) := by
  simp [hTwinResync, doing, hempty, hrole, hreach]

theorem State.tw_startResync (s : State) :
    s.startResync.tw = { s.tw with impaired := false, staleConfirmed := false, localOk := false, fullResync := true, st := 3,
                                   resyncTo := s.va.nextSeq - 1, resyncPct := 0, resyncKeys := s.fullWalk.length, resyncGot := 0,
                                   sendForm := 3 } := rfl

theorem State.pairOnly_startResync (s : State) : s.PairOnly s.startResync :=
  ((s.pairOnly_modTw _).trans (State.pairOnly_sendResync _ _ _)).trans (State.pairOnly_logEvent _ _ _)

theorem State.out_startResync (s : State) :
    ∃ l, s.startResync.out = s.out ++ (.twinResync true s.fullWalk (s.holdWalk s.fullWalk true) :: l) :=
  ⟨_, List.append_assoc ..⟩

/-- What a full resynchronisation sends does not rest on the mailboxes. -/
theorem State.fullWalk_takeIn (s : State) (m : MsgReq) (cls op : Nat) : (s.takeIn m cls op).fullWalk = s.fullWalk := rfl

theorem State.holdWalk_takeIn (s : State) (m : MsgReq) (cls op : Nat) (keys : List (Nat × Key × Option Bytes)) (full : Bool) :
    (s.takeIn m cls op).holdWalk keys full = s.holdWalk keys full := rfl

theorem completes_twinResync (hok : messageOk 0x06 0x09 m s = true) (hempty : m.payload = []) (hrole : s.tw.role = .primary)
    (hreach : s.tw.reached = true) :
    Completes (.twinResync m) s fun t =>
      Answered s t 0x06 0x09 m .success 0 [[]]
      ∧ t.tw = { s.tw with impaired := false, staleConfirmed := false, localOk := false, fullResync := true, st := 3,
                           resyncTo := s.va.nextSeq - 1, resyncPct := 0, resyncKeys := s.fullWalk.length, resyncGot := 0,
                           sendForm := 3 }
      ∧ Sends s t (.twinResync true s.fullWalk (s.holdWalk s.fullWalk true)) := by
  obtain ⟨news, hsent⟩ := (s.takeIn (s.named m) 0x06 0x09).out_startResync
  have honly := (s.takeIn (s.named m) 0x06 0x09).pairOnly_startResync
  refine completes_twinMessage rfl hok (hTwinResync_starts hempty hrole hreach) honly.mb honly.mono fun w l htw _ hout => ⟨?_, ?_⟩
  · rw [htw, State.tw_startResync, State.fullWalk_takeIn]
    rfl
  · rw [hsent, State.fullWalk_takeIn, State.holdWalk_takeIn, List.append_assoc] at hout
    exact sends_append hout (List.mem_cons_self ..)

end
end Sys2Proof.Machine
end

section
/-! SUPPORT. The attach and the link to the twin (R271, R280, R283). -/

namespace Sys2Proof.Machine

/-! ## The attach: its refusal, its timeout and the first link (R280, R283) -/

/-- The end of a request touches the twin's state by its own fields alone. -/
theorem State.tw_endAttach (s : State) (m : Option MsgReq) (r : Nat) :
    (s.endAttach m r).tw = { s.tw with attachReq := none, attachReason := if r = 0 then s.tw.attachReason else r, st := s.tw.restState } := by
  unfold State.endAttach
  extract_lets u
  cases m with
  | none => rfl
  | some r => exact u.tw_reply _ _ _ _

section
variable {s : State} {p : PeerView} {pid : Bytes} {m : Option MsgReq}

theorem completes_attachReachTimeout (hup : up s = true) (hreq : s.tw.attachReq = some (pid, 2, m)) :
    Completes .attachReachTimeout s fun t => t.tw.attachReq = none ∧ t.tw.attachReason = 6 ∧ t.tw.role = s.tw.role := by
  have hexec : exec .attachReachTimeout s = finish s (s.endAttach m 6) := by
    have halive : s.alive = true := hup
    change execAttachReachTimeout s = _
    simp [execAttachReachTimeout, hreq, halive]
  refine completes_finish hexec ?_
  rw [State.after_tw, State.tw_endAttach]
  exact ⟨rfl, rfl, rfl⟩

/-- The link forms on a drive that is up and whose rejoining was not put off. -/
theorem exec_twinLinkFormed (hup : up s = true) (hserves : 11 ∉ s.bt.offServices) :
    exec (.twinLinkFormed p) s = finish s (s.linkFormed p) := by
  have halive : s.alive = true := hup
  change execTwinLinkFormed p s = _
  simp [execTwinLinkFormed, halive, hserves]

theorem completes_twinLinkFormed_refused {role r : Nat} (hup : up s = true) (hserves : 11 ∉ s.bt.offServices)
    (hreq : s.tw.attachReq = some (pid, role, m)) (hfails : s.attachChecks p pid role = some r) (hreason : r ≠ 0)
    (hasks : s.peerAsks p pid role = true) :
    Completes (.twinLinkFormed p) s fun t =>
      t.tw.attachReq = none ∧ t.tw.attachReason = r ∧ t.tw.role = s.tw.role ∧ t.tw.pairId = s.tw.pairId := by
  have hends : s.linkFormed p = s.endAttach m r := by simp [State.linkFormed, hreq, hasks, hfails]
  refine completes_finish (exec_twinLinkFormed hup hserves) ?_
  rw [State.after_tw, hends, State.tw_endAttach]
  exact ⟨rfl, if_neg hreason, rfl, rfl⟩

/-! ### The levels that the twin has fixed (R263) -/

/-- What a level has no part in: the twin's state, the commands and Wax. -/
def State.pairCore (s : State) : Twin × Flight × Wax := (s.tw, s.fl, s.wx)

theorem State.pairCore_fixLevel (s : State) (nsid : Nat) (l : Level) : (s.fixLevel nsid l).pairCore = s.pairCore := by
  unfold State.fixLevel State.whenB
  extract_lets moves
  split <;> rfl

theorem State.pairCore_levelFixed (s : State) (nsid l : Nat) : (s.hearNews (.levelFixed nsid l)).pairCore = s.pairCore := by
  dsimp only [State.hearNews]
  split
  · exact s.pairCore_fixLevel nsid (levelOfCode l)
  · rfl

theorem State.pairCore_adoptLevels (s : State) (p : PeerView) : (s.adoptLevels p).pairCore = s.pairCore := by
  unfold State.adoptLevels
  induction p.namespaces generalizing s with
  | nil => rfl
  | cons x l ih => exact (ih _).trans (s.pairCore_levelFixed x.1 x.2.2.2)

/-- What a drive that attaches as Primary holds of the pair (R272, R283). -/
theorem State.formPair_primary (s : State) (p : PeerView) (pid : Bytes) :
    (s.formPair p pid 1).tw.role = .primary ∧ (s.formPair p pid 1).tw.st = 3 ∧ (s.formPair p pid 1).tw.term = 1
      ∧ (s.formPair p pid 1).tw.primaryTerm = 1 ∧ (s.formPair p pid 1).tw.pairId = pid ∧ (s.formPair p pid 1).tw.twinId = p.driveId
      ∧ (s.formPair p pid 1).tw.reached = true ∧ (s.formPair p pid 1).tw.attachReq = s.tw.attachReq := by
  have htw : (s.adoptLevels p).tw = s.tw := congrArg (·.1) (s.pairCore_adoptLevels p)
  rw [← htw]
  have hrole (v : State) : ((v.setRole .primary 3).notifyAll .anaChange).tw = v.tw.inRole .primary 3 := v.tw_setRole .primary 3
  unfold State.formPair
  rw [if_pos rfl, hrole]
  exact ⟨rfl, rfl, rfl, rfl, rfl, rfl, rfl, rfl⟩

theorem completes_twinLinkFormed_first (hup : up s = true) (hserves : 11 ∉ s.bt.offServices) (hreq : s.tw.attachReq = some (pid, 1, m))
    (hpasses : s.attachChecks p pid 1 = none) (hnew : s.tw.pairId ≠ pid) (hasks : p.request = some (pid, 2)) :
    Completes (.twinLinkFormed p) s fun t =>
      t.tw.role = .primary ∧ t.tw.st = 3 ∧ t.tw.term = 1 ∧ t.tw.primaryTerm = 1 ∧ t.tw.pairId = pid ∧ t.tw.twinId = p.driveId
      ∧ t.tw.reached = true ∧ t.tw.attachReq = none := by
  have hforms : s.linkFormed p = (s.endAttach m 0).formPair p pid 1 := by
    simp [State.linkFormed, hreq, State.peerAsks, hasks, hpasses, hnew]
  refine completes_finish (exec_twinLinkFormed hup hserves) ?_
  obtain ⟨hrole, hst, hterm, hprimary, hpair, htwin, hreached, hend⟩ := (s.endAttach m 0).formPair_primary p pid
  rw [State.after_tw, hforms]
  exact ⟨hrole, hst, hterm, hprimary, hpair, htwin, hreached, hend.trans (by rw [State.tw_endAttach])⟩

end

/-! ## The link to a drive of the pair: the drive of the higher term (R271, R280) -/

/-- The role, the term and whether the twin is there. -/
def Twin.standing (t : Twin) : TwinRole × Nat × Bool × Bool := (t.role, t.term, t.reached, t.lost)

theorem State.pairOnly_sendTwin (s : State) (w : ReplWrite) (hosted : Bool) : s.PairOnly (s.sendTwin w hosted) := by
  unfold State.sendTwin State.emitWrite
  split
  · exact (s.pairOnly_modTw _).trans (State.pairOnly_emit _ _)
  split
  · exact ((s.pairOnly_modTw _).trans (State.pairOnly_modTw _ _)).trans (State.pairOnly_emit _ _)
  · exact s.pairOnly_modTw _

theorem State.standing_sendTwin (s : State) (w : ReplWrite) (hosted : Bool) : (s.sendTwin w hosted).tw.standing = s.tw.standing := by
  unfold State.sendTwin State.emitWrite
  split
  · rfl
  split <;> rfl

theorem State.foldl_standing {α : Type} {f : State → α → State}
    (h : ∀ s a, s.PairOnly (f s a) ∧ (f s a).tw.standing = s.tw.standing) (l : List α) (s : State) :
    s.PairOnly (l.foldl f s) ∧ (l.foldl f s).tw.standing = s.tw.standing := by
  induction l generalizing s with
  | nil => exact ⟨.refl s, rfl⟩
  | cons a l ih =>
    obtain ⟨hone, hstands⟩ := h s a
    obtain ⟨hrest, hstands'⟩ := ih (f s a)
    exact ⟨hone.trans hrest, hstands'.trans hstands⟩

theorem State.resumeHeld_none {s : State} (h : s.fl.cmds = []) : s.resumeHeld = s := State.retryAll_none h .waitService

theorem State.lagHeld_none {s : State} (h : s.wx.heldRecs = []) : s.lagHeld = s := by simp [State.lagHeld, h]

theorem State.applyHeld_none {s : State} (hheld : s.wx.heldRecs = []) (hcmds : s.fl.cmds = []) : s.applyHeld = s := by
  simp [State.applyHeld, hheld, State.unblock_none hcmds]

/-- The authority, with no command under way and nothing held, is Primary in its term (R280). -/
theorem State.standing_asAuthority {s : State} (hcmds : s.fl.cmds = []) (hheld : s.wx.heldRecs = []) (p : PeerView) :
    (s.asAuthority p).tw.standing = (.primary, s.tw.term, s.tw.reached, s.tw.lost) := by
  unfold State.asAuthority
  rw [State.lagHeld_none hheld, State.applyHeld_none hheld hcmds]
  extract_lets held u v full sent
  obtain ⟨hv, hstanding⟩ : s.PairOnly v ∧ v.tw.standing = s.tw.standing :=
    State.foldl_standing (fun s a => ⟨s.pairOnly_sendTwin _ _, s.standing_sendTwin _ _⟩) _ s
  have hnow : ((sent.setRole .primary (if full then 3 else 2))).fl.cmds = [] := by
    rw [(sent.pairOnly_setRole _ _).fl, (v.pairOnly_sendResync full p.lostKeys).fl, hv.fl, hcmds]
  rw [State.resumeHeld_none hnow, State.tw_setRole]
  exact congrArg (fun x => (TwinRole.primary, x.2)) hstanding

theorem completes_twinLinkFormed_again {s : State} {p : PeerView} (hup : up s = true) (hserves : 11 ∉ s.bt.offServices)
    (hnone : s.tw.attachReq = none) (hpaired : s.paired = true) (hterm : p.term < s.tw.term) (hcmds : s.fl.cmds = [])
    (hheld : s.wx.heldRecs = []) :
    Completes (.twinLinkFormed p) s fun t =>
      t.tw.role = .primary ∧ t.tw.reached = true ∧ t.tw.lost = false ∧ t.tw.term = s.tw.term := by
  obtain ⟨htw, hfl, hwx⟩ : (s.adoptLevels p).tw = s.tw ∧ (s.adoptLevels p).fl = s.fl ∧ (s.adoptLevels p).wx = s.wx := by
    simpa [State.pairCore] using s.pairCore_adoptLevels p
  have hlinks : s.linkFormed p = s.rejoin p := by simp [State.linkFormed, hnone, hpaired]
  refine completes_finish (exec_twinLinkFormed hup hserves) ?_
  rw [State.after_tw, hlinks]
  unfold State.rejoin
  extract_lets s' mine
  have hterm' : s'.tw.term = s.tw.term := by
    change (s.adoptLevels p).tw.term = _
    rw [htw]
  rw [if_pos (by simp [hterm', hterm])]
  have hstands := State.standing_asAuthority (s := s') (hfl ▸ hcmds) (hwx ▸ hheld) p
  rw [hterm'] at hstands
  simp only [Twin.standing, Prod.mk.injEq] at hstands
  obtain ⟨hrole, hterm, hreached, hlost⟩ := hstands
  exact ⟨hrole, hreached, hlost, hterm⟩

end Sys2Proof.Machine
end

section
/-! SUPPORT. The departures, the switchover and the forced Primary (R281, R284, R285, R288), and the TWIN messages, the formed link and the attach timeout (O23). -/

namespace Sys2Proof.Machine

section
variable {s : State} {m : MsgReq}

/-! ## TWIN_RELEASE (R281, R285) -/

theorem State.desk_giveUpAll (l : List Pend) (s : State) : (l.foldl State.giveUpPend s).desk = s.desk := by
  induction l generalizing s with
  | nil => rfl
  | cons p l ih => exact (ih _).trans (s.desk_giveUpPend p)

theorem State.mem_heldRecs_giveUpAll {l : List Pend} {s : State} {q : Pend} (h : q ∈ (l.foldl State.giveUpPend s).wx.heldRecs) :
    q ∈ s.wx.heldRecs ∧ ∀ p ∈ l, q.seq ≠ p.seq := by
  induction l generalizing s with
  | nil => exact ⟨h, by simp⟩
  | cons p l ih =>
    obtain ⟨hmem, hne⟩ := ih h
    rw [State.heldRecs_giveUpPend, List.mem_filter] at hmem
    exact ⟨hmem.1, List.forall_mem_cons.mpr ⟨by simpa using hmem.2, hne⟩⟩

/-- Held records are discarded without an answer and in no time, and none is left (R281, R285). -/
theorem State.anchor_discardHeld (s : State) : s.discardHeld.anchor = (s.mb, s.tm.mono, []) := by
  have hdesk := s.desk_giveUpAll s.wx.heldRecs
  have hnone : (s.wx.heldRecs.foldl State.giveUpPend s).wx.heldRecs = [] :=
    List.eq_nil_iff_forall_not_mem.mpr fun q hq =>
      have ⟨hmem, hne⟩ := State.mem_heldRecs_giveUpAll hq
      hne q hmem rfl
  refine (State.anchor_unblock _).trans ?_
  rw [State.anchor, hnone]
  exact congrArg (fun d => (d.1, d.2.1, [])) hdesk

/-- The drive has left its pair for good: the NQN it presented is its own again (R261, R285). -/
def State.released (s : State) : State := s.becomeSolo.modTw fun t => { t with pairNqn := none }

theorem State.tw_released (s : State) :
    s.released.tw.role = .solo ∧ s.released.tw.pairId = List.replicate 16 0 ∧ s.released.tw.lag = [] :=
  ⟨s.role_becomeSolo, rfl, rfl⟩

theorem State.pairOnly_released (s : State) : s.PairOnly s.released := s.pairOnly_becomeSolo.trans (State.pairOnly_modTw _ _)

theorem hTwinRelease_leaves (hempty : m.payload = []) (hrole : s.tw.role = .detachedStale) :
    hTwinRelease s m = (s.discardHeld.released, some {}) := by
  simp [hTwinRelease, State.released, doing, hempty, hrole]

theorem completes_twinRelease (hok : messageOk 0x06 0x07 m s = true) (hempty : m.payload = []) (hrole : s.tw.role = .detachedStale) :
    Completes (.twinRelease m) s fun t =>
      Answered s t 0x06 0x07 m .success 0 [[]] ∧ t.tw.role = .solo ∧ t.tw.pairId = List.replicate 16 0 ∧ t.wx.heldRecs = []
      ∧ t.tw.lag = [] := by
  have hanchor := (s.takeIn (s.named m) 0x06 0x07).anchor_discardHeld
  simp only [State.anchor, Prod.mk.injEq] at hanchor
  obtain ⟨hmb, hmono, hheld⟩ := hanchor
  have honly := (s.takeIn (s.named m) 0x06 0x07).discardHeld.pairOnly_released
  obtain ⟨hsolo, hpair, hlag⟩ := (s.takeIn (s.named m) 0x06 0x07).discardHeld.tw_released
  exact completes_twinMessage rfl hok (hTwinRelease_leaves hempty hrole) (honly.mb.trans hmb) (honly.mono.trans hmono)
    fun w l htw hwx _ => by rw [htw, hwx, honly.wx]; exact ⟨hsolo, hpair, hheld, hlag⟩

/-! ## TWIN_FORCE_PRIMARY (R281, R288) -/

/-- The drive is Primary of the next term by order, and its twin counts as lost (R281, R288). -/
def State.forced (s : State) : State :=
  (s.setRole .primary 5).modTw fun t =>
    { t with lost := true, reached := false, noAuthority := false, term := s.tw.term + 1, primaryTerm := s.tw.term + 1,
             failovers := t.failovers + 1, localOk := true, resyncing := false, resyncSeen := [], resyncTags := [] }

theorem State.role_forced (s : State) : s.forced.tw.role = .primary := by
  change (s.setRole .primary 5).tw.role = _
  rw [State.tw_setRole]
  rfl

theorem State.pairOnly_forced (s : State) : s.PairOnly s.forced := (s.pairOnly_setRole _ _).trans (State.pairOnly_modTw _ _)

theorem hTwinForcePrimary_takes (hlen : m.payload.length = 16) (hpair : m.payload = s.tw.pairId)
    (hrole : s.tw.role = .secondary ∨ s.tw.role = .detachedStale) (hlost : s.tw.lost = true) (hcmds : s.fl.cmds = [])
    (hheld : s.wx.heldRecs = []) :
    hTwinForcePrimary s m =
      (s.forced.degrade.blackBox 8 (srcCode m.mbox m.src) [leNat m.payload, s.tw.term, s.tw.term + 1], some {}) := by
  have hmay : ((s.tw.role == .secondary || s.tw.role == .detachedStale) && (s.tw.lost || s.tw.noAuthority)) = true := by
    rcases hrole with h | h <;> simp [h, hlost]
  have hnow : (s.forced.degrade.blackBox 8 (srcCode m.mbox m.src) [leNat m.payload, s.tw.term, s.tw.term + 1]).fl.cmds = [] := by
    rw [← hcmds]
    exact congrArg Flight.cmds (s.pairOnly_forced.trans (State.pairOnly_degrade _)).fl
  have hresumed := State.resumeHeld_none hnow
  unfold State.forced at hresumed ⊢
  simp only [hTwinForcePrimary, hlen, hpair.symm, hmay, State.lagHeld_none hheld, State.applyHeld_none hheld hcmds, hresumed]
  simp [doing]

/-- Degraded or not, the drive keeps its role and its terms (R269). -/
theorem State.degrade_terms (s : State) :
    s.degrade.tw.role = s.tw.role ∧ s.degrade.tw.term = s.tw.term ∧ s.degrade.tw.primaryTerm = s.tw.primaryTerm := by
  obtain ⟨_, h⟩ := s.tw_degrade
  rw [h]
  exact ⟨rfl, rfl, rfl⟩

theorem completes_twinForcePrimary (hok : messageOk 0x06 0x08 m s = true) (hlen : m.payload.length = 16) (hpair : m.payload = s.tw.pairId)
    (hrole : s.tw.role = .secondary ∨ s.tw.role = .detachedStale) (hlost : s.tw.lost = true) (hcmds : s.fl.cmds = [])
    (hheld : s.wx.heldRecs = []) :
    Completes (.twinForcePrimary m) s fun t =>
      Answered s t 0x06 0x08 m .success 0 [[]] ∧ t.tw.role = .primary ∧ t.tw.term = s.tw.term + 1 ∧ t.tw.primaryTerm = s.tw.term + 1 := by
  have htaken := hTwinForcePrimary_takes (s := s.takeIn (s.named m) 0x06 0x08) (m := s.named m) hlen hpair hrole hlost hcmds hheld
  have honly := ((State.pairOnly_forced (s.takeIn (s.named m) 0x06 0x08)).trans (State.pairOnly_degrade _)).trans
    (State.pairOnly_blackBox _ 8 (srcCode m.mbox m.src) [leNat m.payload, s.tw.term, s.tw.term + 1])
  obtain ⟨hsame, hterm, hprimary⟩ := (s.takeIn (s.named m) 0x06 0x08).forced.degrade_terms
  refine completes_twinMessage rfl hok htaken honly.mb honly.mono fun w _ htw _ _ => ?_
  rw [htw]
  exact ⟨hsame.trans (State.role_forced _), hterm, hprimary⟩

/-! ## Departures and the switchover (R284, R285) -/

/-- A departure is under way: of this drive, or of the other (R285). -/
def State.departing (s : State) (m : MsgReq) : State := s.beginDrain (if m.payload = s.driveId then 2 else 3) (some m)

theorem hTwinDetach_departs (hlen : m.payload.length = 16)
    (hmay : s.tw.role = .primary ∨ s.tw.role = .secondary ∧ s.tw.reached = true ∧ s.tw.lost = false) (hdrain : s.tw.drain = 0)
    (htwin : m.payload = s.tw.twinId) :
    hTwinDetach s m = (if s.tw.role = .primary then (s.departing m).settleDrain
      else (s.departing m).emit (.twinDetachAsk (m.payload != s.driveId)), none) := by
  have hother : (!m.payload == s.driveId) = (m.payload != s.driveId) := rfl
  have hbegun (d : Nat) (r : Option MsgReq) : (s.beginDrain d r).tw.role = s.tw.role := rfl
  rcases hmay with hrole | ⟨hrole, hreached, hlost⟩
  · simp [hTwinDetach, State.departing, hlen, hrole, hdrain, eq_true htwin, hbegun]
  · simp [hTwinDetach, State.departing, hlen, hrole, hreached, hlost, hdrain, eq_true htwin, hbegun, hother]

theorem completes_twinDetach_secondary (hok : messageOk 0x06 0x02 m s = true) (hlen : m.payload.length = 16) (hrole : s.tw.role = .secondary)
    (hreached : s.tw.reached = true) (hlost : s.tw.lost = false) (hdrain : s.tw.drain = 0) (htwin : m.payload = s.tw.twinId) :
    Completes (.twinDetach m) s fun t =>
      t.tw = { s.tw with drain := if m.payload = s.driveId then 2 else 3, drainReq := some (s.named m), drainFrom := s.mono }
      ∧ Emits s t [.twinDetachAsk (m.payload != s.driveId)] := by
  have hdeparts := hTwinDetach_departs (s := s.takeIn (s.named m) 0x06 0x02) (m := s.named m) hlen (.inr ⟨hrole, hreached, hlost⟩) hdrain htwin
  have hsecondary : (s.takeIn (s.named m) 0x06 0x02).tw.role ≠ .primary := by
    change s.tw.role ≠ _
    simp [hrole]
  rw [if_neg hsecondary] at hdeparts
  have hexec : exec (.twinDetach m) s = finish s (s.message 0x06 0x02 hTwinDetach m) := rfl
  rw [message_ok hok, hdeparts] at hexec
  exact completes_finish hexec ⟨rfl, rfl⟩

/-! ### The end of the drain (R284, R285) -/

/-- The Primary has handed its role over, and groups 1 and 2 are in Change (R284). -/
def State.handedOver (s : State) : State :=
  ((s.modTw fun t => { t with drain := 0, drainReq := none }).handOver.setRole .secondary 4).modTw fun t => { t with changing := true }

theorem State.pairOnly_handedOver (s : State) : s.PairOnly s.handedOver :=
  (((s.pairOnly_modTw _).trans (State.pairOnly_handOver _)).trans (State.pairOnly_setRole _ _ _)).trans (State.pairOnly_modTw _ _)

theorem State.tw_handedOver (s : State) : s.handedOver.tw.role = .secondary ∧ s.handedOver.tw.term = s.tw.term + 1 := by
  unfold State.handedOver
  generalize hv : (s.modTw fun t => { t with drain := 0, drainReq := none }).handOver = v
  have hterm : v.tw.term = s.tw.term + 1 := by rw [← hv]; rfl
  change (v.setRole .secondary 4).tw.role = _ ∧ (v.setRole .secondary 4).tw.term = _
  rw [State.tw_setRole]
  exact ⟨rfl, hterm⟩

/-- The raised term is put out before what the change of the role raises (R284). -/
theorem State.out_handedOver (s : State) : ∃ l, s.handedOver.out = s.out ++ (.twinTerm (s.tw.term + 1) :: l) := by
  unfold State.handedOver
  generalize hv : (s.modTw fun t => { t with drain := 0, drainReq := none }).handOver = v
  have hsent : v.out = s.out ++ [.twinTerm (s.tw.term + 1)] := by rw [← hv]; rfl
  obtain ⟨l, hl⟩ := (v.pairOnly_setRole .secondary 4).out
  refine ⟨l, ?_⟩
  change (v.setRole .secondary 4).out = _
  rw [hl, hsent, List.append_assoc]
  rfl

theorem hTwinSwitchover_drains (hempty : m.payload = []) (hrole : s.tw.role = .primary) (hfence : s.tw.fenced = false)
    (hgone : s.twinGone = false) (hreached : s.tw.reached = true) (hresync : s.resyncSends = false) (hdrain : s.tw.drain = 0)
    (hlag : s.tw.lag = []) : hTwinSwitchover s m = ((s.beginDrain 1 (some m)).settleDrain, none) := by
  simp [hTwinSwitchover, hempty, hrole, hfence, hgone, hreached, hresync, hdrain, Twin.lagBytes, hlag]

theorem State.settleDrain_handsOver {r : MsgReq} (hrole : s.tw.role = .primary) (hdrain : s.tw.drain = 1) (hreq : s.tw.drainReq = some r)
    (hdrained : s.drained = true) (hgone : s.twinGone = false) (hresync : s.resyncSends = false) :
    s.settleDrain = s.handedOver.reply 0x06 0x03 r {} := by
  have hchanging : (s.handedOver.reply 0x06 0x03 r {}).tw.changing = true := by rw [State.tw_reply]; rfl
  unfold State.handedOver at hchanging ⊢
  simp [State.settleDrain, hrole, hdrain, hreq, hdrained, hgone, hresync, hchanging]

theorem completes_twinSwitchover (hok : messageOk 0x06 0x03 m s = true) (hempty : m.payload = []) (hrole : s.tw.role = .primary)
    (hfence : s.tw.fenced = false) (hreached : s.tw.reached = true) (hgone : s.twinGone = false) (hdrain : s.tw.drain = 0)
    (hpend : s.wx.pend = []) (hlag : s.tw.lag = []) (hresync : s.resyncSends = false) (hcmds : s.fl.cmds = []) :
    Completes (.twinSwitchover m) s fun t =>
      Answered s t 0x06 0x03 m .success 0 [[]] ∧ t.tw.role = .secondary ∧ t.tw.term = s.tw.term + 1
      ∧ Sends s t (.twinTerm (s.tw.term + 1)) := by
  let u := (s.takeIn (s.named m) 0x06 0x03).beginDrain 1 (some (s.named m))
  have hdrained : u.drained = true := by
    change (s.twinGone || (s.startedTwinWrites.isEmpty && s.wx.pend.isEmpty && s.tw.lag.isEmpty)) = true
    simp [State.startedTwinWrites, hcmds, hpend, hlag]
  have hdrains := hTwinSwitchover_drains (s := s.takeIn (s.named m) 0x06 0x03) (m := s.named m) hempty hrole hfence hgone hreached hresync
    hdrain hlag
  have hends : u.settleDrain = u.handedOver.reply 0x06 0x03 (s.named m) {} :=
    State.settleDrain_handsOver hrole rfl rfl hdrained hgone hresync
  have honly := u.pairOnly_handedOver
  obtain ⟨hsecondary, hterm⟩ := u.tw_handedOver
  obtain ⟨news, hout⟩ := u.out_handedOver
  refine completes_selfReplied rfl hok (hdrains.trans (congrArg (·, none) hends)) honly.mb honly.mono fun w l htw _ hsent => ⟨?_, ?_, ?_⟩
  · rw [htw, hsecondary]
  · rw [htw, hterm]
    rfl
  · rw [hout, List.append_assoc] at hsent
    exact sends_append hsent (List.mem_cons_self ..)

/-! ### A Primary that ends without commands under way (R275, R285) -/

theorem State.desk_holdPend (h : s.fl.cmds = []) (p : Pend) : (s.holdPend p).desk = s.desk := by simp [State.holdPend, h, State.desk]

theorem State.desk_discardPend (h : s.fl.cmds = []) (p : Pend) : (s.discardPend p).desk = s.desk := by
  have hgiven := s.desk_giveUpPend p
  have hnone : (s.giveUpPend p).fl.cmds = [] := (congrArg (·.2.2) hgiven).trans h
  simp [State.discardPend, hnone, State.unblock_none hnone, hgiven]

theorem State.failFlushes_none (h : s.fl.cmds = []) : s.failFlushes = s := by simp [State.failFlushes, State.inPhase, h]

theorem State.desk_stopWrites (h : s.fl.cmds = []) : s.stopWrites.desk = s.desk := by
  have hlost : s.discardLost.desk = s.desk := State.desk_foldl (fun _ p hs => State.desk_discardPend hs p) _ h
  have hheld := State.desk_foldl (fun _ p hs => State.desk_holdPend hs p) s.discardLost.wx.pend ((congrArg (·.2.2) hlost).trans h)
  simpa [State.stopWrites, State.startedTwinWrites, h] using hheld.trans hlost

theorem State.role_becomeStale (s : State) : s.becomeStale.tw.role = .detachedStale := by
  unfold State.becomeStale
  extract_lets u
  change (u.twinSilent.setRole .detachedStale 8).tw.role = _
  rw [State.tw_setRole]
  rfl

theorem State.desk_becomeStale (h : s.fl.cmds = []) : s.becomeStale.desk = s.desk := by
  unfold State.becomeStale
  extract_lets u
  have hu : u.desk = s.desk := by
    have hstopped := State.desk_stopWrites h
    unfold u
    split
    · rw [State.failFlushes_none ((congrArg (·.2.2) hstopped).trans h), hstopped]
    · rfl
  exact (((u.pairOnly_modTw _).trans (State.pairOnly_setRole _ .detachedStale 8)).trans (State.pairOnly_modTw _ _)).desk.trans hu

/-- A departure that has drained (R285). -/
def State.parted (s : State) (leaves : Bool) : State :=
  let s := (s.modTw fun t => { t with drain := 0, drainReq := none }).emit (.twinDetached leaves)
  if leaves then s.failFlushes.becomeSolo else s.becomeStale

theorem State.desk_parted (h : s.fl.cmds = []) (leaves : Bool) : (s.parted leaves).desk = s.desk := by
  cases leaves
  · exact State.desk_becomeStale h
  · have hflushed := State.failFlushes_none (s := (s.modTw fun t => { t with drain := 0, drainReq := none }).emit (.twinDetached true)) h
    unfold State.parted
    rw [if_pos rfl, hflushed]
    exact (State.pairOnly_becomeSolo _).desk

theorem State.role_parted (s : State) (leaves : Bool) : (s.parted leaves).tw.role = if leaves then .solo else .detachedStale := by
  cases leaves
  · exact State.role_becomeStale _
  · exact State.role_becomeSolo _

theorem State.settleDrain_parts {r : MsgReq} {leaves : Bool} (hrole : s.tw.role = .primary) (hdrain : s.tw.drain = if leaves then 3 else 2)
    (hreq : s.tw.drainReq = some r) (hdrained : s.drained = true) (hcmds : s.fl.cmds = []) :
    s.settleDrain = (s.parted leaves).reply 0x06 0x02 r {} := by
  have hnow : ((s.parted leaves).reply 0x06 0x02 r {}).fl.cmds = [] := by
    rw [State.cmds_reply, ← hcmds]
    exact congrArg (·.2.2) (State.desk_parted hcmds leaves)
  have hresumed := State.resumeHeld_none hnow
  have hended : (if ((s.parted leaves).reply 0x06 0x02 r {}).tw.changing then (s.parted leaves).reply 0x06 0x02 r {}
      else ((s.parted leaves).reply 0x06 0x02 r {}).resumeHeld) = (s.parted leaves).reply 0x06 0x02 r {} := by
    rw [hresumed, ite_self]
  rw [← hended]
  cases leaves
  · simp [State.settleDrain, hrole, hdrain, hreq, hdrained, State.parted]
  · simp [State.settleDrain, hrole, hdrain, hreq, hdrained, State.parted]

theorem completes_twinDetach_primary (hok : messageOk 0x06 0x02 m s = true) (hlen : m.payload.length = 16) (hrole : s.tw.role = .primary)
    (hdrain : s.tw.drain = 0) (hdrained : s.drained = true) (htwin : m.payload = s.tw.twinId) (hcmds : s.fl.cmds = []) :
    Completes (.twinDetach m) s fun t =>
      Answered s t 0x06 0x02 m .success 0 [[]] ∧ t.tw.role = if m.payload = s.driveId then .detachedStale else .solo := by
  let u := (s.takeIn (s.named m) 0x06 0x02).departing (s.named m)
  have hdeparts := hTwinDetach_departs (s := s.takeIn (s.named m) 0x06 0x02) (m := s.named m) hlen (.inl hrole) hdrain htwin
  have hprimary : (s.takeIn (s.named m) 0x06 0x02).tw.role = .primary := hrole
  rw [if_pos hprimary] at hdeparts
  have hcode : u.tw.drain = if (m.payload != s.driveId) = true then 3 else 2 := by
    change (if m.payload = s.driveId then 2 else 3) = _
    by_cases h : m.payload = s.driveId <;> simp [h]
  have hends : u.settleDrain = _ := State.settleDrain_parts hrole hcode rfl hdrained hcmds
  have hdesk : (u.parted (m.payload != s.driveId)).desk = u.desk := State.desk_parted (s := u) hcmds _
  refine completes_selfReplied rfl hok (hdeparts.trans (congrArg (·, none) hends)) (congrArg (·.1) hdesk) (congrArg (·.2.1) hdesk)
    fun w _ htw _ _ => ?_
  rw [htw, State.role_parted]
  by_cases h : m.payload = s.driveId <;> simp [h]

end

/-! ## The statement -/

/-- Settles O23: each message by what its handler answers and leaves of the pair, and the link and the timeout by how they end the request. -/
theorem twinMessagesComplete : Obligations.Twin_messages_complete := by
  refine ⟨fun m s hok hlen hrole hnone hsealed hpair hpower => ?attach,
    fun p pid m s hup hserves hreq hpasses hnew hasks => ?first,
    fun p pid role r m s hup hserves hreq hfails hreason hasks => ?refused,
    fun p s hup hserves hnone hpaired hterm hcmds hheld => ?again,
    fun pid m s hup hreq => ?timeout,
    fun m s hok hempty hrole hfence hreached hgone hdrain hpend hlag hresync hcmds => ?switchover,
    fun m s hok hlen hrole hdrain hdrained htwin hcmds => ?detach,
    fun m s hok hlen hrole hreached hlost hdrain htwin => ?ask,
    fun m s hok hlen hmode hpolicy hzero hmin hmax => ?config,
    fun m s hok hempty => ?status,
    fun m s hok hbox hlen hmode hid hnone hrole hfence => ?poll,
    fun m s hok hempty hrole => ?release,
    fun m s hok hlen hpair hrole hlost hcmds hheld => ?force,
    fun m s hok hempty hrole hreached => ?resync⟩
  case attach => exact completes_twinAttach hok hlen hrole hnone hsealed hpair hpower
  case first => exact completes_twinLinkFormed_first hup hserves hreq hpasses hnew hasks
  case refused => exact completes_twinLinkFormed_refused hup hserves hreq hfails hreason hasks
  case again => exact completes_twinLinkFormed_again hup hserves hnone hpaired hterm hcmds hheld
  case timeout => exact completes_attachReachTimeout hup hreq
  case switchover => exact completes_twinSwitchover hok hempty hrole hfence hreached hgone hdrain hpend hlag hresync hcmds
  case detach => exact completes_twinDetach_primary hok hlen hrole hdrain hdrained htwin hcmds
  case ask => exact completes_twinDetach_secondary hok hlen hrole hreached hlost hdrain htwin
  case config => exact completes_twinConfig hok hlen hmode hpolicy hzero hmin hmax
  case status => exact completes_twinStatus hok hempty
  case poll => exact completes_twinWitnessPoll hok hbox hlen hmode hid hnone hrole hfence
  case release => exact completes_twinRelease hok hempty hrole
  case force => exact completes_twinForcePrimary hok hlen hpair hrole hlost hcmds hheld
  case resync => exact completes_twinResync hok hempty hrole hreached

end Sys2Proof.Machine
end

section
/-! SUPPORT. A checkpoint that ends with the band that closes, unless pages of internal data wait (R126, R129, R179, R186). -/

namespace Sys2Proof.Machine

/-! ## What keeps a checkpoint under way -/

/-- A checkpoint ends once no page of internal data waits (R129). -/
theorem State.checkpointing_endCheckpoint (s : State) :
    s.endCheckpoint.ix.checkpointing = if s.md.intWaits.isEmpty then none else s.ix.checkpointing := by
  have hvictims (t : State) : t.settleVictims.ix = t.ix := by
    unfold State.settleVictims
    split <;> rfl
  unfold State.endCheckpoint
  split
  next gen n hunder =>
    by_cases hwaits : s.md.intWaits.isEmpty = true
    · simp [hwaits, hvictims, State.modMd, State.modIx]
    · simp [hwaits]
  next hnone => rw [hnone, ite_self]

theorem Index.checkpointing_put (x : Index) (r : BRef) (b : Bucket) : (x.put r b).checkpointing = x.checkpointing := by
  cases r <;> rfl

theorem Index.checkpointing_unchain (x : Index) (c n : Nat) : (x.unchain c n).checkpointing = x.checkpointing := by
  unfold Index.unchain
  split
  · rfl
  · split
    · exact x.checkpointing_put _ _
    · rfl

/-- A spill count that falls ends no checkpoint and leaves the spill table and its cache as they are (R124). -/
theorem Index.spillDown_keeps (x : Index) (h : BitVec 64) :
    (x.spillDown h).checkpointing = x.checkpointing ∧ (x.spillDown h).spill = x.spill ∧ (x.spillDown h).spillCache = x.spillCache := by
  have hput (r : BRef) (b : Bucket) : (x.put r b).checkpointing = x.checkpointing ∧ (x.put r b).spill = x.spill
      ∧ (x.put r b).spillCache = x.spillCache := by
    cases r <;> exact ⟨rfl, rfl, rfl⟩
  unfold Index.spillDown
  extract_lets r b
  split
  · split
    · exact ⟨rfl, rfl, rfl⟩
    · exact hput _ _
  · exact ⟨rfl, rfl, rfl⟩

/-- The removal of a key does not end a checkpoint. -/
theorem Index.checkpointing_remove (x : Index) (h : BitVec 64) (p : Place) : (x.remove h p).checkpointing = x.checkpointing := by
  cases p with
  | slot b i =>
    cases b with
    | prim n => exact x.checkpointing_put _ _
    | pool n => exact ((Index.checkpointing_unchain _ _ _).trans (Index.checkpointing_unchain _ _ _)).trans (x.checkpointing_put _ _)
  | spilled loc => exact (Index.spillDown_keeps _ h).1

/-! ## Pages that find no place (R179) -/

theorem Media.await_ne_nil (m : Media) {l : List IntPage} (h : m.intWaits ≠ [] ∨ l ≠ []) : (m.await l).intWaits ≠ [] := by
  by_cases hl : l = []
  · simpa [Media.await, hl] using h
  · simp [Media.await, hl]

/-- Without an open band for them and without a parity slot, pages of internal data wait. -/
theorem State.retryInternal_waits {s : State} (hopen : s.md.openOf .fineInternal = none) (hslot : s.md.freeSlot = none) :
    s.retryInternal = s := by
  have hput (pg : IntPage) : s.putInternal pg = none := by simp [State.putInternal, hopen]
  have hnext : s.nextInternalBand = none := by simp [State.nextInternalBand, State.openBand, hopen, hslot]
  unfold State.retryInternal State.drainInternal
  split
  · rfl
  · simp [hput, hnext]

/-! ## Bands that take every parity slot -/

/-- A band whose pages have all been read back. -/
def readBack : Band := { bandOne 2 with members := [], slot := none, checked := true }

/-- Eight bands that are being written, each with a parity slot. -/
def slotTakers : List Band := (List.range 8).map fun i => { bandOne 1 with number := i + 1, slot := some i }

theorem State.retryInternal_slotTakers {s : State} {b : Band} (hbands : s.md.bands = b :: slotTakers) (hkind : b.kind = .hostCold) :
    s.retryInternal = s := by
  refine State.retryInternal_waits ?_ ?_
  · have htakers : slotTakers.find? (fun b => b.state == 1 && b.kind == .fineInternal) = none := by decide
    simp [Media.openOf, hbands, hkind, htakers]
  · have hmost : ∀ i ∈ List.range 8, slotTakers.any (fun b => b.slot == some i) = true := by decide
    simp only [Media.freeSlot, hbands, List.find?_eq_none, List.any_cons]
    intro i hi
    simp [hmost i hi]

/-- The bands stand so, and no Secure Delete asks for any of them. -/
def State.SlotsTaken (s : State) : Prop := s.md.bands = readBack :: slotTakers ∧ s.md.secdel = []

theorem State.SlotsTaken.placeInternal {s : State} (h : s.SlotsTaken) (l : List IntPage) :
    s.placeInternal l = (s.logChanged 0).modMd fun m => m.await l :=
  State.retryInternal_slotTakers (b := readBack) h.1 rfl

theorem State.SlotsTaken.settleVictims {s : State} (h : s.SlotsTaken) : s.settleVictims = s := by
  have hnone : s.md.bands.any (·.state == 4) = false := by
    rw [h.1]
    decide
  simp [State.settleVictims, hnone]

/-- The band that has been read back closes without a parity slot to give back (R186). -/
theorem State.SlotsTaken.closeBand {s : State} (h : s.SlotsTaken) :
    ∃ u : State, s.closeBand readBack = u.endCheckpoint ∧ u.md.intWaits = s.md.intWaits ∧ u.ix = s.ix := by
  obtain ⟨u, hclose, hbands, hwaits, hix⟩ : ∃ u : State, s.closeBand readBack = u.settleVictims.retryInternal.endCheckpoint
      ∧ u.md.bands = { readBack with state := 3 } :: slotTakers ∧ u.md.intWaits = s.md.intWaits ∧ u.ix = s.ix := by
    refine ⟨_, rfl, ?_, rfl, rfl⟩
    simp only [State.modBand, State.modMd, State.modWx, Media.modBand, h.1, h.2]
    rfl
  have hnone : u.md.bands.any (·.state == 4) = false := by
    rw [hbands]
    decide
  have hvictims : u.settleVictims = u := by simp [State.settleVictims, hnone]
  exact ⟨u, by rw [hclose, hvictims, State.retryInternal_slotTakers hbands rfl], hwaits, hix⟩

/-- Of the bands only the one that has been read back closes. -/
theorem State.SlotsTaken.settleBands {s : State} (h : s.SlotsTaken) : s.settleBands = s.closeBand readBack := by
  have hread : (s.md.bands.filter fun b => b.state == 2 && s.verified b) = [readBack] := by
    rw [h.1]
    rfl
  rw [State.settleBands, h.settleVictims, State.settleVerify, hread, List.foldl_cons, List.foldl_nil]

/-- A checkpoint ends with the band that closes if no page waits. -/
theorem State.SlotsTaken.checkpointing_settleBands {s : State} (h : s.SlotsTaken) :
    s.settleBands.ix.checkpointing = if s.md.intWaits.isEmpty then none else s.ix.checkpointing := by
  obtain ⟨u, hclose, hwaits, hix⟩ := h.closeBand
  rw [h.settleBands, hclose, State.checkpointing_endCheckpoint, hwaits, hix]

/-- A record on NAND that goes leaves the checkpoint as the band that closes does. -/
theorem State.SlotsTaken.checkpointing_dropRecord {s : State} (h : s.SlotsTaken) (g bytes : Nat) :
    (s.dropRecord (.nand g) bytes).ix.checkpointing = if s.md.intWaits.isEmpty then none else s.ix.checkpointing :=
  State.SlotsTaken.checkpointing_settleBands (s := (s.modMd _).logChanged 0) h

/-- A change of the index leaves the bands as they stand, and pages that wait. -/
theorem State.SlotsTaken.index {s : State} (h : s.SlotsTaken) (hwaits : s.md.intWaits ≠ []) (f : Index → Index) :
    (s.index f).SlotsTaken ∧ (s.index f).md.intWaits ≠ [] := by
  have hplaced (t : State) (ht : t.SlotsTaken ∧ t.md.intWaits ≠ []) (l : List IntPage) :
      (t.placeInternal l).SlotsTaken ∧ (t.placeInternal l).md.intWaits ≠ [] := by
    rw [ht.1.placeInternal]
    exact ⟨ht.1, Media.await_ne_nil _ (.inl ht.2)⟩
  have htrimmed (t : State) (ht : t.SlotsTaken ∧ t.md.intWaits ≠ []) : t.spillTrim.SlotsTaken ∧ t.spillTrim.md.intWaits ≠ [] := by
    unfold State.spillTrim
    dsimp only
    split
    · exact ht
    · exact hplaced (t.modIx _) ht _
  unfold State.index State.whenB
  dsimp only
  split
  · split
    · exact hplaced ((s.modIx f).modIx _) ⟨h, hwaits⟩ _
    · exact ⟨h, hwaits⟩
  · split
    · exact htrimmed ((s.modIx f).modMd _) ⟨h, hwaits⟩
    · exact htrimmed (s.modIx f) ⟨h, hwaits⟩

/-- A change of the index ends no checkpoint but by the change itself. -/
theorem State.checkpointing_index (s : State) (f : Index → Index) : (s.index f).ix.checkpointing = (f s.ix).checkpointing := by
  obtain ⟨_, _, _, -, htended⟩ := s.tended_index f
  rw [htended]
  unfold Index.trimmed
  split <;> rfl

/-- While pages wait, the removal of a key ends no checkpoint. -/
theorem State.SlotsTaken.checkpointing_removeKey {s : State} (h : s.SlotsTaken) (hwaits : s.md.intWaits ≠ []) (nsid : Nat) (key : Key) :
    (s.removeKey nsid key).ix.checkpointing = s.ix.checkpointing := by
  unfold State.removeKey
  split
  next f _ =>
    obtain ⟨htaken, hleft⟩ := h.index hwaits fun x => x.remove (s.hash nsid key) f.place
    have hindex := (s.checkpointing_index fun x => x.remove (s.hash nsid key) f.place).trans (s.ix.checkpointing_remove _ _)
    generalize State.index s _ = u at htaken hleft hindex
    cases hloc : f.slot.loc with
    | wax g => exact hindex
    | nand g =>
      have hsome : u.md.intWaits.isEmpty = false := by simpa using hleft
      refine (State.SlotsTaken.checkpointing_dropRecord (s := u.forget nsid f.record.seq) htaken g f.record.bytes).trans ?_
      change (if u.md.intWaits.isEmpty then none else u.ix.checkpointing) = _
      rw [hsome, hindex]
      rfl
  · rfl

end Sys2Proof.Machine
end

section
/-! SUPPORT. A sweep of expired records whose lookup writes back pages of the spill table (R120, R126, R129, R300). -/

namespace Sys2Proof.Machine

/-! ## A key of the spill table -/

section
variable {x : Index} {h : BitVec 64} (hbuckets : x.buckets = [(x.cand1 h, spillMarked)]) (hpool : x.pool = [])
include hbuckets hpool

/-- A key that no bucket holds is found in the spill table where its bucket says so (R120). -/
theorem Index.find_spillMarked (confirm : Slot → Bool) :
    x.find h confirm = (x.spill.find? fun e => e.h == h && confirm e.slot).map fun e => .spilled e.slot.loc := by
  have hget : x.get (.prim (x.cand1 h)) = spillMarked := by simp [Index.get, hbuckets]
  have hnone : ∀ r, (x.get r).search (hashFp h) confirm = none := by
    intro r
    rcases Index.get_spillMarked hbuckets hpool r with hr | hr <;> rw [hr] <;> rfl
  have hchain : x.chain (x.cand1 h) = [.prim (x.cand1 h)] := by simp [Index.chain, hget, spillMarked]
  have hresident : (x.chain (x.cand1 h) ++ x.chain (x.cand2 h)).findSome?
      (fun r => ((x.get r).search (hashFp h) confirm).map (Place.slot r)) = none := by simp [hnone]
  rw [Index.find, hresident]
  simp [Index.chainEnd, hchain, hget, spillMarked]

end

/-! ## A full spill page cache -/

/-- A change of an index that has a spill table before and after it trims the spill page cache alone (R126). -/
theorem State.index_spilled {s : State} {f : Index → Index} (hbefore : s.ix.spill ≠ []) (hafter : (f s.ix).spill ≠ []) :
    s.index f = (s.modIx f).spillTrim := by
  simp [State.index, State.whenB, State.modIx, hbefore, hafter]

/-- A change that makes dirty pages leave the spill page cache makes them wait. -/
theorem State.SlotsTaken.index_overflows {s : State} {f : Index → Index} (h : s.SlotsTaken) (hbefore : s.ix.spill ≠ [])
    (hspill : (f s.ix).spill ≠ []) {p : Nat × Bool} (hp : p ∈ (f s.ix).spillCache.drop (f s.ix).spillPages) (hdirty : p.2 = true) :
    (s.index f).SlotsTaken ∧ (s.index f).md.intWaits ≠ [] := by
  have hover : ¬ (f s.ix).spillCache.length ≤ (f s.ix).spillPages := by
    intro hle
    rw [List.drop_eq_nil_of_le hle] at hp
    cases hp
  have htrim : (s.modIx f).spillTrim = ((s.modIx f).modIx fun x => { x with spillCache := x.spillCache.take (f s.ix).spillPages }).placeInternal
      ((((f s.ix).spillCache.drop (f s.ix).spillPages).filter (·.2)).map fun p => .spill p.1) := if_neg hover
  rw [State.index_spilled hbefore hspill, htrim, State.SlotsTaken.placeInternal (s := (s.modIx f).modIx _) h]
  refine ⟨h, Media.await_ne_nil _ (.inr ?_)⟩
  simpa using ⟨p.1, by rw [← hdirty]; exact hp⟩

/-- A page that no key of the spill table has a candidate in. -/
def farPage : Nat := 8000000

theorem spillCand1_page (h : BitVec 64) : spillCand1 h / 64 ≠ farPage := by
  have hrow : (h.extractLsb' 6 34).toNat % spillRows < spillRows := Nat.mod_lt _ (by decide)
  have hengine : hashEngine h < 64 := (h.extractLsb' 0 6).isLt
  unfold spillCand1 farPage
  unfold spillRows at *
  omega

theorem spillCand2_page (h : BitVec 64) : spillCand2 h / 64 ≠ farPage := by
  have hrow : ((h.extractLsb' 6 34).toNat % spillRows + 1 + (hashFp h).toNat % (spillRows - 1)) % spillRows < spillRows :=
    Nat.mod_lt _ (by decide)
  have hengine : hashEngine h < 64 := (h.extractLsb' 0 6).isLt
  unfold spillCand2 farPage
  generalize ((h.extractLsb' 6 34).toNat % spillRows + 1 + (hashFp h).toNat % (spillRows - 1)) % spillRows = row at *
  unfold spillRows at *
  omega

/-- Pages that come into a full cache of another page push that page out. -/
theorem mem_drop_touched {x : Index} {p : Nat × Bool} {n a b : Nat} (hn : 2 ≤ n) (hcache : x.spillCache = List.replicate n p) (ha : a ≠ p.1)
    (hb : b ≠ p.1) : p ∈ ((x.spillTouch a false).spillTouch b false).spillCache.drop n := by
  have hkept : ∀ c, c ≠ p.1 → (List.replicate n p).filter (fun q => q.1 ≠ c) = List.replicate n p := by
    intro c hc
    simp [hc.symm]
  obtain ⟨front, hfront, hle, htouched⟩ : ∃ front : List (Nat × Bool), front ≠ [] ∧ front.length ≤ 2
      ∧ ((x.spillTouch a false).spillTouch b false).spillCache = front ++ List.replicate n p := by
    simp only [Index.spillTouch, hcache, hkept a ha, List.filter_cons, hkept b hb]
    split
    · exact ⟨[_, _], by simp, by simp, rfl⟩
    · exact ⟨[_], by simp, by simp, rfl⟩
  rw [htouched, List.drop_append, List.drop_eq_nil_of_le (hle.trans hn), List.nil_append, List.drop_replicate, List.mem_replicate]
  have hpushed := List.length_pos_iff.mpr hfront
  exact ⟨by omega, rfl⟩

/-- The pages of the spill table that a lookup touches (R126). -/
def Index.lookedUp (x : Index) (h : BitVec 64) : Index := (x.spillTouch (spillCand2 h / 64) false).spillTouch (spillCand1 h / 64) false

/-- A lookup that reaches the spill table touches its pages, and may count collisions before (R121, R126). -/
theorem State.SlotsTaken.look_reaches {s : State} (h : s.SlotsTaken) {nsid : Nat} {key : Key}
    (hreach : ∀ confirm, s.ix.reachesSpill (s.hash nsid key) confirm = true) :
    ∃ t : State, s.look nsid key = t.index (·.lookedUp (s.hash nsid key)) ∧ t.ix = s.ix ∧ t.SlotsTaken := by
  by_cases hmany : s.ix.collisions (s.hash nsid key) (s.confirms nsid key) != 0
  · refine ⟨s.countErrs 13 (s.ix.collisions (s.hash nsid key) (s.confirms nsid key)), ?_, rfl, h⟩
    simp only [State.look, State.whenB, if_pos hmany]
    exact if_pos (hreach _)
  · refine ⟨s, ?_, rfl, h⟩
    simp only [State.look, State.whenB, if_neg hmany]
    exact if_pos (hreach _)

/-- Where the cache is full of changes some of them wait for a place then, and no checkpoint ends. -/
theorem State.SlotsTaken.look_overflows {s : State} (h : s.SlotsTaken) {nsid : Nat} {key : Key}
    (hreach : ∀ confirm, s.ix.reachesSpill (s.hash nsid key) confirm = true) (hspill : s.ix.spill ≠ [])
    (hcache : s.ix.spillCache = List.replicate s.ix.spillPages (farPage, true)) :
    (s.look nsid key).SlotsTaken ∧ (s.look nsid key).md.intWaits ≠ [] ∧ (s.look nsid key).ix.checkpointing = s.ix.checkpointing := by
  obtain ⟨t, hlook, hix, htaken⟩ := h.look_reaches hreach
  have hpages : 2 ≤ s.ix.spillPages := by
    unfold Index.spillPages
    split <;> omega
  have hout : (farPage, true) ∈ (s.ix.lookedUp (s.hash nsid key)).spillCache.drop s.ix.spillPages :=
    mem_drop_touched hpages hcache (spillCand2_page _) (spillCand1_page _)
  rw [hlook, State.checkpointing_index]
  rw [← hix] at hspill hout ⊢
  obtain ⟨hstill, hwaits⟩ := htaken.index_overflows (f := (·.lookedUp (s.hash nsid key))) hspill hspill hout rfl
  exact ⟨hstill, hwaits, rfl⟩

/-! ## The state -/

/-- A spill page cache full of one page's changes. -/
def fullCache : List (Nat × Bool) := List.replicate 262144 (farPage, true)

/-- The spill table's entry of the expired key. -/
def spilledOne : Spilled := { h := hashOne, slot := slotNand, bucket := 64 * farPage }

/-- An entry of a record that has gone. -/
def spilledGone : Spilled := { h := 0, slot := { slotNand with loc := .nand 1 }, bucket := 64 * farPage }

/-- A drive whose spill page cache is full of changes and whose parity slots are all taken, with a checkpoint under way and a band that
closes as soon as it is looked at. The one expired record is of a key in the spill table. -/
def brimming : State :=
  { expiring with
    og := { expiring.og with ttl := [(100, 2), (0, 1)] }, wx := policed.wx, md := { onNand.md with bands := readBack :: slotTakers },
    ix := { policed.ix with
      buckets := [(policed.ix.cand1 hashOne, spillMarked)],
      spill := [spilledOne, spilledGone], spillCache := fullCache, checkpointing := some (0, 0) } }

theorem brimming_slotsTaken : brimming.SlotsTaken := ⟨rfl, rfl⟩

theorem brimming_records : brimming.recordsOf 1 (fun r => brimming.unseals r && brimming.mirrorExpired r) = [(.nand 0, recOne)] := rfl

def foundSpilled : Found := { place := .spilled (.nand 0), slot := slotNand, record := recOne }

theorem spilledOne_is : Spilled.is hashOne (.nand 0) spilledOne = true := by simp [Spilled.is, spilledOne, slotNand]

theorem brimming_entry : brimming.ix.spill.find? (Spilled.is hashOne (.nand 0)) = some spilledOne := List.find?_cons_of_pos spilledOne_is

theorem brimming_find : brimming.find 1 [7] = some foundSpilled := by
  have hconfirms : brimming.confirms 1 [7] slotNand = true := by decide
  have hplace : brimming.ix.find hashOne (brimming.confirms 1 [7]) = some (.spilled (.nand 0)) := by
    have hfirst : brimming.ix.spill.find? (fun e => e.h == hashOne && brimming.confirms 1 [7] e.slot) = some spilledOne :=
      List.find?_cons_of_pos (by simp only [spilledOne, hconfirms, beq_self_eq_true, Bool.and_self])
    rw [Index.find_spillMarked rfl rfl, hfirst]
    rfl
  have hslot : brimming.ix.slotAt hashOne (.spilled (.nand 0)) = some slotNand := by
    rw [Index.slotAt, brimming_entry]
    rfl
  have hhash : brimming.hash 1 [7] = hashOne := rfl
  simp only [State.find, hhash, hplace, hslot]
  rfl

/-! ## The removal of the key alone -/

/-- The index without the key: its page alone is left in the cache. -/
def brimmingLess : Index := brimming.ix.remove hashOne (.spilled (.nand 0))

theorem brimmingLess_spill : brimmingLess.spill = [spilledGone] ∧ brimmingLess.spillCache = [(farPage, true)] := by
  obtain ⟨-, hspill, hcache⟩ := Index.spillDown_keeps
    (({ brimming.ix with spill := brimming.ix.spill.eraseP (Spilled.is hashOne (.nand 0)) } : Index).spillTouch farPage true) hashOne
  rw [brimmingLess, Index.remove, brimming_entry]
  refine ⟨hspill.trans (List.eraseP_cons_of_pos spilledOne_is), hcache.trans ?_⟩
  have hgone : fullCache.filter (fun q => q.1 ≠ farPage) = [] := by
    rw [fullCache, List.filter_replicate]
    rfl
  simp only [Index.spillTouch, Bool.or_true]
  exact congrArg (_ :: ·) hgone

theorem brimming_index : brimming.index (fun x => x.remove hashOne (.spilled (.nand 0))) = { brimming with ix := brimmingLess } := by
  obtain ⟨hspill, hcache⟩ := brimmingLess_spill
  have hfits : brimmingLess.spillCache.length ≤ brimmingLess.spillPages := by
    rw [hcache, Index.spillPages]
    split <;> simp
  rw [State.index_spilled (List.cons_ne_nil _ _) (hspill.trans_ne (List.cons_ne_nil _ _))]
  exact if_pos hfits

/-- Without a lookup before it no page leaves the cache, and the checkpoint ends with the band that closes. -/
theorem brimming_removeKey : (brimming.removeKey 1 [7]).ix.checkpointing = none := by
  rw [State.removeKey, brimming_find]
  change (((brimming.index fun x => x.remove hashOne (.spilled (.nand 0))).forget 1 1).dropRecord (.nand 0) _).ix.checkpointing = none
  rw [brimming_index]
  exact State.SlotsTaken.checkpointing_dropRecord (s := State.forget { brimming with ix := brimmingLess } 1 1) brimming_slotsTaken 0 _

/-! ## The lookup and the delete -/

theorem brimming_look : (brimming.look 1 [7]).SlotsTaken ∧ (brimming.look 1 [7]).md.intWaits ≠ []
    ∧ (brimming.look 1 [7]).ix.checkpointing = some (0, 0) :=
  brimming_slotsTaken.look_overflows (Index.reachesSpill_spillMarked rfl rfl) (List.cons_ne_nil _ _) rfl

/-- The Local delete of a key removes it from an index that otherwise stands as it was, but for what its base holds (R156, R300). -/
theorem State.commit_delete (s : State) (nsid : Nat) (key : Key) :
    ∃ u : State, (s.commit { kind := .delete, nsid := nsid, key := key, action := 0 } none).1 = u.removeKey nsid key ∧ u.md = s.md
      ∧ ∃ base, u.ix = { s.ix with base := base } := by
  have hjournal (t : State) (r : JRec) : (t.writeJournal r).md = t.md ∧ ∃ base, (t.writeJournal r).ix = { t.ix with base := base } := by
    unfold State.writeJournal State.noteBase
    split
    · exact ⟨rfl, _, rfl⟩
    · split
      · exact ⟨rfl, _, rfl⟩
      · exact ⟨rfl, _, rfl⟩
  have hwritten := hjournal ((s.modVa fun v => { v with nextSeq := s.va.nextSeq + 1 }).modTm fun t => t.spanCommit s.va.nextSeq)
  exact ⟨_, rfl, hwritten _⟩

theorem brimming_driveDelete : (brimming.driveDelete 1 [7]).ix.checkpointing = some (0, 0) := by
  obtain ⟨htaken, hwaits, hunder⟩ := brimming_look
  obtain ⟨u, hcommit, hmd, base, hix⟩ := (brimming.look 1 [7]).commit_delete 1 [7]
  have hroom : brimming.ownRoom { kind := .delete, nsid := 1, key := [7], action := 0 } = true := by decide
  have hutaken : u.SlotsTaken := by
    rw [State.SlotsTaken, hmd]
    exact htaken
  rw [State.driveDelete, if_pos hroom, hcommit, hutaken.checkpointing_removeKey (by rw [hmd]; exact hwaits), hix]
  exact hunder

/-! ## The statement -/

theorem brimming_exec : exec (.mirrorExpirySweep 1) brimming = finish brimming (brimming.driveDelete 1 [7]) := by
  change finish brimming ((brimming.recordsOf 1 fun r => brimming.unseals r && brimming.mirrorExpired r).foldl _ brimming) = _
  rw [brimming_records]
  rfl

/-- Refutes O25: the lookup that goes before a sweep's delete may push changed pages out of a full spill page cache, and the checkpoint under
way, which the removal of the keys alone would end, goes on while they wait for a place. -/
theorem not_originCommandsComplete : ¬ Obligations.Origin_commands_complete := by
  intro hall
  obtain ⟨-, -, -, -, -, -, -, -, -, -, hsweep, -⟩ := hall
  obtain ⟨-, -, -, hindex⟩ := (hsweep 1 bindOne [(.nand 0, recOne)] brimming (by decide) rfl rfl brimming_records.symm (by decide)
    (by decide)).of_finish brimming_exec
  have hended := congrArg Index.checkpointing hindex
  change (brimming.driveDelete 1 [7]).ix.checkpointing = (brimming.removeKey 1 [7]).ix.checkpointing at hended
  rw [brimming_driveDelete, brimming_removeKey] at hended
  cases hended

end Sys2Proof.Machine
end
